-- ==== Sys2Proof/Word.lean ====
section
/-! DEFINITION. The word types of the KD240-P7A: a byte, a dword and a qword (00 R9), and addressed bytes. -/

namespace Sys2Proof

/-- One byte. -/
abbrev Byte := BitVec 8

/-- A dword is 32 bits (R9). -/
abbrev DWord := BitVec 32

/-- A qword is 64 bits (R9). -/
abbrev QWord := BitVec 64

end Sys2Proof
end

