-- ==== Sys2Proof/Syntax.lean ====
section
/-! DEFINITION. The commands of the KD240-P7A: one constructor for each row of spec/opcode_table.json, with the operands that
the spec's text gives the row. The table gives no bits, so an operand is a record of the fields the spec names. A time operand
`us` is in microseconds since the last tick boundary (log 4). -/

namespace Sys2Proof

/-- Who sent a command: the function, the submission queue (0 is the function's admin queue) and the command identifier. -/
structure Src where
  fn : Nat
  sq : Nat
  cid : Nat
deriving DecidableEq, Repr

/-- The sender of a run of the module's own, which no queue brought: triggered ingest, or a step of a decode plan (08 R255, R262; log 38). -/
def Src.inner (x : Src) : Bool := x.sq ≥ 0xFFFF

/-- The sender of a step of a decode plan. -/
def Src.decodes (x : Src) : Bool := x.sq == 0x10000

/-- The Milris submission entry of Table 4-2 (04 R120), dword by dword, with the input bytes that its pointer names. -/
structure Entry where
  src : Src
  dw0 : DWord
  nsid : DWord
  dw2 : DWord
  dw3 : DWord
  output : QWord
  inLen : DWord
  outLen : DWord
  dw12 : DWord
  dw13 : DWord
  dw14 : DWord
  dw15 : DWord
  /-- the bytes at the input pointer (Dwords 6 to 9) -/
  input : List Byte
  /-- the T2 address at which they lie (log 2) -/
  inPtr : QWord := 0
deriving DecidableEq, Repr

/-- An admin entry (04 R131): its command dwords, its data pointer and the bytes it transfers to the module. -/
structure Admin where
  src : Src
  nsid : DWord
  cdw10 : DWord
  cdw11 : DWord
  cdw12 : DWord
  cdw13 : DWord
  cdw14 : DWord
  cdw15 : DWord
  /-- the T2 address of the data pointer -/
  dptr : QWord
  input : List Byte
deriving DecidableEq, Repr

/-- An NVM I/O command: the block range, the data pointer and the bytes written. -/
structure Nvm where
  src : Src
  nsid : DWord
  slba : QWord
  /-- number of logical blocks, 0's based -/
  nlb : BitVec 16
  cdw10 : DWord
  cdw11 : DWord
  dptr : QWord
  input : List Byte
deriving DecidableEq, Repr

/-- A task of an outstanding command: the command's sender and the chain of tasks within the command (0 for a plan; a walk or
a collector has a chain of its own, R305, R342). -/
structure TaskRef where
  src : Src
  chain : Nat
deriving DecidableEq, Repr

/-- How a task fails (03 R69): a status of Table 4-14 (or of another type), its detail code, the object concerned and the resume
cursor of Table 4-11. -/
structure Failure where
  sct : Nat
  sc : Nat
  detail : Nat := 0
  object : Nat := 0
  cursor : List Nat := []
deriving DecidableEq, Repr

/-- What a task leaves when it ends: the output bytes it adds, the values of Table 4-3 it adds to Dwords 0 and 1, the pages of
BACKED objects it wrote, and whether it is the last task of its chain (for a chain whose length the plan does not give). -/
structure TaskEnd where
  out : List Byte := []
  dw0 : Nat := 0
  dw1 : Nat := 0
  /-- writes to objects: object ID, byte offset, bytes -/
  writes : List (Nat × Nat × List Byte) := []
  /-- object ranges that the task read without a declaration: object ID and 2 MiB page -/
  touched : List (Nat × Nat) := []
  last : Bool := true
  fail : Option Failure := none
deriving DecidableEq, Repr

/-- The readers of Table 13-3 (13 R392). -/
inductive Reader where
  | clusterFetch (cluster : Nat)
  | schedulerFetch
  | transfer (t : TaskRef) (cursor : List Nat)
  | blockRead (src : Src)
  | task (t : TaskRef)
  | cleanPage (object page : Nat)
  | mapTable
  | writeCache (nsid unit : Nat)
  | parity (group : Nat)
  | saveArea (src : Src)
  | scrubber
deriving DecidableEq, Repr

/-- Where a frame lies: T0 of a logical cluster, or T1 of a DRAM package (13 R388). -/
inductive FrameAt where
  | t0 (cluster frame : Nat)
  | t1 (package frame : Nat)
deriving DecidableEq, Repr

/-- A frame as read: its data and parity words with their word checks (Table 13-1), word by word, 129 in all. -/
abbrev FrameBits := List (BitVec 256 × BitVec 16)

/-- What the page decoder finds: a frame, or none (13 R390). -/
structure DecodeFound where
  at_ : FrameAt
  received : FrameBits
  /-- the frame the strong decoder found, when it found one -/
  found : Option FrameBits
  tagOk : Bool := true
  reader : Reader
deriving DecidableEq, Repr

/-- The start-up findings of R473 to R477: clusters and packages that failed their test, slots, and what could be restored. -/
structure BootTest where
  failedClusters : List Nat := []
  failedPackages : List Nat := []
  calRowOk : Bool := true
  mapOk : Bool := true
  /-- hottest sensor, eighths of a degree -/
  temp : Int := 0
deriving DecidableEq, Repr

/-- One entry of an IDE_KM or address association (18 R500). -/
structure IdeKey where
  stream : Nat
  keySet : Nat
  rx : Bool
  substream : Nat
  key : BitVec 256
deriving DecidableEq, Repr

/-- How a record, page or page-in read ended (12 R367, R379); a read that failed names its die. -/
inductive ReadEnd where
  | ok | retried (retries : Nat) (soft : Bool) | unrecovered (die : Nat) | guarded (die : Nat)
deriving DecidableEq, Repr

/-- An access to a register of BAR0 or BAR2: the function, the byte offset, the width in bytes and the value written. -/
structure RegWrite where
  fn : Nat
  bar : Nat
  offset : Nat
  size : Nat
  value : QWord
deriving DecidableEq, Repr

/-- An SPDM or DOE request: the bytes of its payload, and whether it came inside a secure session. -/
structure DoeReq where
  session : Option Nat
  payload : List Byte
deriving DecidableEq, Repr

/-- A management request over SMBus (19 R517): the address it came to, its opcode and its bytes. -/
structure MiReq where
  addr : Nat
  opcode : Nat
  payload : List Byte
deriving DecidableEq, Repr

/-- A peer's write into the BAR4 window (10 R324). -/
structure PeerWrite where
  offset : Nat
  bytes : List Byte
deriving DecidableEq, Repr

/-- The end of the read-back of a MERGE (10 R327). -/
inductive ReadBack where
  | ok | unsupported | completerAbort | timeout
deriving DecidableEq, Repr

/-- A page request's response code (05 R178). -/
inductive PriResponse where
  | success | invalidRequest | responseFailure
deriving DecidableEq, Repr

/-- What the transfer engine meets at the next chunk (05 R175, R177, R178; 18 R501): its T2 pages are present, one is not, or its IDE
stream is Insecure. -/
inductive ChunkPath where
  | present
  | pageMissing (address : Nat)
  | ideInsecure
deriving DecidableEq, Repr

/-- The objects that a transfer descriptor of a plan names in the spaces 3 and 4 (05 Table 5-6): an object ID or a stream ID, 0 for the
other spaces. The descriptor's own bytes have no field for them. -/
structure XferEnds where
  src : Nat := 0
  dst : Nat := 0
deriving DecidableEq, Repr

/-- The commands: one constructor for each row of spec/opcode_table.json, in its order. -/
inductive Instr where
  -- Milris I/O commands (04 Table 4-3)
  | place (e : Entry)
  | release (e : Entry)
  | runPlan (e : Entry)
  | filterScan (e : Entry)
  | embed (e : Entry)
  | embedArm (e : Entry)
  | embedDisarm (e : Entry)
  | search (e : Entry)
  | generate (e : Entry)
  | tune (e : Entry)
  | mergeTopK (e : Entry)
  | mergeAggregates (e : Entry)
  | mergeReductionSum (e : Entry)
  | insert (e : Entry)
  | delete (e : Entry)
  | compact (e : Entry)
  -- vendor admin commands (04 Tables 4-5, 4-6)
  | loadStructure (a : Admin)
  | domeDissolve (a : Admin)
  | domeBind (a : Admin)
  | domeUnbind (a : Admin)
  | queueResume (a : Admin)
  | negotiate (a : Admin) (us : Nat)
  | reattachAdopt (a : Admin) (us : Nat)
  | reattachDiscard (a : Admin) (us : Nat)
  | serviceFence (a : Admin)
  | serviceUnfence (a : Admin)
  | retireDramChannelGroup (a : Admin)
  | retireNandDie (a : Admin)
  | recalibrateScales (a : Admin)
  | recalibrateReadLevels (a : Admin)
  | testButtressBank (a : Admin)
  | lanternDisable (a : Admin)
  | lanternEnable (a : Admin)
  | lanternSetSources (a : Admin)
  -- NVMe admin commands
  | createIoSubmissionQueue (a : Admin)
  | createIoCompletionQueue (a : Admin)
  | deleteIoSubmissionQueue (a : Admin)
  | deleteIoCompletionQueue (a : Admin)
  | getLogPage (a : Admin)
  | identify (a : Admin)
  | abort (a : Admin)
  | setFeatures (a : Admin)
  | setFeaturesPasidBinding (a : Admin)
  | setFeaturesSpareThreshold (a : Admin)
  | setFeaturesPowerManagement (a : Admin)
  | getFeatures (a : Admin)
  | asynchronousEventRequest (a : Admin)
  | namespaceCreate (a : Admin)
  | namespaceDelete (a : Admin)
  | namespaceAttachment (a : Admin)
  | virtualizationManagement (a : Admin)
  | firmwareImageDownload (a : Admin)
  | firmwareCommitProgram (a : Admin)
  | firmwareCommitNextReset (a : Admin)
  | firmwareCommitActivateExisting (a : Admin)
  | firmwareCommitLive (a : Admin)
  | firmwareCommitBootPartition (a : Admin)
  | formatNvm (a : Admin)
  | sanitizeBlockErase (a : Admin)
  | sanitizeCryptoErase (a : Admin)
  | formatSanitizeEnd (fn : Nat) (ok : Bool)
  -- NVM I/O commands
  | read (n : Nvm)
  | write (n : Nvm)
  | flush (n : Nvm)
  | writeZeroes (n : Nvm)
  | datasetManagement (n : Nvm)
  | verify (n : Nvm)
  -- doorbells, fetch and registers
  | sqTailDoorbell (fn sq : Nat) (value : DWord)
  | cqHeadDoorbell (fn cq : Nat) (value : DWord)
  | commandFetch (fn sq : Nat) (unsupported : Option (Nat × Nat))
  | hbeatWrite (w : RegWrite) (us : Nat)
  | evpendWrite (w : RegWrite)
  | evmaskWrite (w : RegWrite)
  | grpctlWrite (w : RegWrite)
  | edgecntRead (fn size : Nat)
  | registerWrite (w : RegWrite)
  | controllerEnable (w : RegWrite)
  | controllerReset (w : RegWrite) (us : Nat)
  | normalShutdown (w : RegWrite)
  | abruptShutdown (w : RegWrite)
  -- pins and resets
  | perstAssert (ns : Nat)
  | perstDeassert (t : BootTest)
  | startupComplete (t : BootTest)
  | auxPowerPresent
  | powerUp12v (sense0Open sense1Open : Bool)
  | conventionalReset (t : BootTest)
  | functionLevelReset (fn : Nat)
  | dStateTransition (fn d : Nat)
  -- the scheduler core
  | tickBoundary (powerW : Nat) (extraDemand : Nat)
  | imageTakesEffect
  | dissolveTakesEffect
  | fenceTakesEffect (cluster : Nat)
  | unfenceTakesEffect (cluster : Nat)
  | quiesceStart
  | holdLimitExpiry
  | taskDispatch (t : TaskRef) (us : Nat)
  | domainWake (domain : Nat)
  | taskEnd (t : TaskRef) (us : Nat) (r : TaskEnd)
  | taskOverrunStop (t : TaskRef) (us : Nat) (inOperation : Bool)
  | releaseWindowOpen (part us : Nat)
  | saveStart (part us : Nat)
  | saveEnd (part cluster us : Nat)
  | restoreEnd (part cluster us : Nat)
  | semaphoreAcquire (t : TaskRef) (sem : Nat)
  | semaphoreRelease (t : TaskRef) (sem : Nat)
  | lendingStart (sem us : Nat)
  | streamChunkWrite (t : TaskRef) (stream : Nat) (bytes : List Byte)
  | streamChunkRead (t : TaskRef) (stream : Nat)
  -- computing inside a task
  | tilePassEnd (t : TaskRef) (op rowBlock laneBlock : Nat) (misses : List Nat)
  | quantiseRow (t : TaskRef) (op row : Nat)
  | selection (t : TaskRef) (op row : Nat)
  | transferChunkDelivered (t : TaskRef) (desc : List Byte) (ends : XferEnds) (path : ChunkPath) (tenths : Nat)
  | pageRequestResponse (t : TaskRef) (r : PriResponse)
  | pagingStart (t : TaskRef)
  | pageInComplete (object page : Nat) (r : ReadEnd)
  | layerFillEnd (t : TaskRef) (cluster us : Nat)
  | decodeStep (dome model : Nat)
  | sequenceAdmission (dome : Nat)
  | kvBlockFreed (pool : Nat)
  | kvPoolFailure (pool : Nat)
  | ingestTrigger (part arm : Nat)
  | tuneCommit (src : Src)
  | randomSourceHealthFailure
  | randomSourceReseed
  | watchWindowEnd (slot : Nat)
  -- search and merge
  | walkRecordArrival (src : Src) (walk slot block us : Nat) (r : ReadEnd) (misses : List Nat)
  | indexCommit (src : Src)
  | mergeReadyNoticeFound (src : Src)
  | mergePayloadReceived (src : Src)
  | mergeReadbackComplete (src : Src) (r : ReadBack)
  | peerWindowWrite (w : PeerWrite)
  | completionTimeout (t : TaskRef)
  -- scans
  | filterEnginePage (src : Src) (group page block : Nat) (r : ReadEnd)
  | scanEngineSlotFree (group : Nat)
  -- flash
  | flashReadComplete (block page : Nat) (r : ReadEnd) (iterations : Nat) (updown : List (Nat × Nat))
  | blockRefreshQueued (block : Nat)
  | readLevelEvaluation (bgroup : Nat)
  | destage (nsid extent : Nat) (group : Nat) (members : List Nat)
  | garbageCollection (group : Nat) (target : Nat) (members : List Nat)
  | refresh (block : Nat) (target : Nat) (members : List Nat)
  | programFailure (block : Nat) (target : Nat) (members : List Nat)
  | eraseFailure (block : Nat)
  | blockErase (block : Nat)
  | eraseResume (die : Nat)
  | blockVerify (block : Nat) (badPages : Nat) (overLimit : Bool)
  | paritySpill (group : Nat)
  | dieRetirementEnd (die : Nat)
  | dieAutoRetire (die : Nat)
  -- memory integrity
  | strongDecodeEnd (d : DecodeFound)
  | scrubRead (at_ : FrameAt) (received : FrameBits) (found : Option FrameBits)
  | dramMigrationEnd (group : Nat)
  | packageStopsResponding (package : Nat)
  -- power
  | powerSample (edgeMv auxMv powerW : Nat) (us : Nat)
  | supplyWarningBegin (input mv : Nat)
  | supplyWarningEnd (input : Nat)
  | supplyIsolation (mv : Nat)
  | flushEnd
  | flushStopped
  | thermalLevelStep (temp : Int)
  | thermalEmergencyBegin (temp : Int)
  | thermalEmergencyEnd
  | thermalShutdown
  | bandRetain (band : Nat)
  | flashGroupGate (group : Nat)
  | dramSelfRefresh (group : Nat)
  | fabricQuadrantGate (quadrant : Nat)
  | bankMeasurementStart
  | bankDrawEnd (stepMicroV deltaMicroV : Nat)
  | bankRecharged
  | writeCacheResized
  | thermalTrimStep (raw : List Int)
  -- the Belfry
  | eventSourceRise (source : Nat) (detail : DWord)
  | groupDelivery (group us : Nat)
  | holdoffEnd (group us : Nat)
  | msixVectorUnmask (fn vector : Nat)
  -- firmware activation
  | activationBandSwap
  | schedulerCoreSwap (us : Nat)
  | keepSwap
  | vaneSwap
  | activationResume
  -- Lantern and management
  | lanternAttach
  | lanternDetach
  | lanternPacketSend (lane : Nat)
  | smbusTimeoutReset
  | basicManagementCommand (m : MiReq)
  | vpdRead (m : MiReq)
  | readNvmeMiDataStructure (m : MiReq)
  | nvmSubsystemHealthStatusPoll (m : MiReq)
  | controllerHealthStatusPoll (m : MiReq)
  | configurationGet (m : MiReq)
  | configurationSet (m : MiReq)
  | tunnelledAdminCommand (m : MiReq)
  -- SPDM, keys and IDE
  | doeDiscovery (d : DoeReq)
  | getVersion (d : DoeReq)
  | getCapabilities (d : DoeReq)
  | negotiateAlgorithms (d : DoeReq)
  | getDigests (d : DoeReq)
  | getCertificate (d : DoeReq)
  | challenge (d : DoeReq)
  | getMeasurements (d : DoeReq)
  | keyExchange (d : DoeReq)
  | finish (d : DoeReq)
  | endSession (d : DoeReq)
  | loadTenantKey (d : DoeReq)
  | unloadTenantKey (d : DoeReq)
  | fuseObservationOff (d : DoeReq)
  | keyProg (session : Option Nat) (k : IdeKey)
  | kSetGo (session : Option Nat) (k : IdeKey)
  | kSetStop (session : Option Nat) (k : IdeKey)
  | ideStreamInsecure (stream : Nat)
  -- power and link events
  | powerRemoved
  | aspmL1Entry
  | l0pWidthChange (width : Nat)
  | eraseComplete (block : Nat)
  | nandProgramComplete (group : Nat) (pages : Nat)
  | codeFlashProgramEnd (readBackOk : Bool)
deriving DecidableEq, Repr

end Sys2Proof
end

