-- ==== Sys2Proof/Decode.lean ====
section
/-! DEFINITION. The decoder over the opcode table's bits. The table gives no row any bits (its "fields" are empty), so no word
spells a command (log 2). -/

namespace Sys2Proof

/-- The command that the low `nbits` bits of `w` spell by the table's bits: none, because the table gives none (log 2). -/
def decodeTableWord (_nbits _w : Nat) : Option Instr := none

end Sys2Proof
end

