-- ==== Sys2Proof/Config.lean ====
section
/-! DEFINITION. What one module fixes and the spec leaves open: constants with no body, so that no proof can see a value. Each
is named in the assumption log. -/

namespace Sys2Proof.Config

/-- The bytes of the image in slot 1 as the module ships (log 11). -/
opaque shippedByte : Nat → BitVec 8
/-- Its length in bytes (log 11). -/
opaque shippedLength : Nat
/-- Its security version (log 11). -/
opaque shippedSecurity : Nat
/-- Its build number (log 11). -/
opaque shippedBuild : Nat
/-- Its revision, ASCII (log 11). -/
opaque shippedRevision : List (BitVec 8)
/-- The image digest in its record (log 11). -/
opaque shippedDigest : List (BitVec 8)
/-- The digest of the Keep section that booted (18 R485; log 11). -/
opaque bootKeepDigest : List (BitVec 8)

/-- A free value: the n-th that the model draws (log 3). -/
opaque freeValue : Nat → BitVec 64

/-- The bit of Asynchronous Event Configuration that enables vendor notices (04 R141; log 15). -/
opaque vendorNoticeBit : Nat

/-- The fabric quadrant of a logical cluster as its fuses give it, 0 to 3 after reduction (02 R569): written at test (log 17). -/
opaque quadrantFuse : Nat → Nat

/-- Each quadrant holds from 176 to 208 of the 800 logical clusters (02 R569). -/
def quadrantsFit (l : List Nat) : Bool := (List.range 4).all fun q => 176 ≤ l.count q && l.count q ≤ 208

/-- The quadrants of the logical clusters: the fuses', which fit (02 R569). Fuses that would not fit are no module's: in their stead the
clusters lie 200 by 200 (log 17). -/
def quadrants : List Nat :=
  let l := (List.range 800).map fun c => quadrantFuse c % 4
  if quadrantsFit l then l else (List.range 800).map (· / 200)

/-- The fabric quadrant of a logical cluster (02 R569). -/
def quadrant (c : Nat) : Nat := (quadrants[c]?).getD 0

/-- SHAKE256 with 64 bytes of output (18 R491, R496; an external standard, log 22). -/
opaque shake256 : List (BitVec 8) → List (BitVec 8)

/-- The initial count of a private semaphore, by its ID (02 R50 gives none; log 21). -/
opaque privateCount : Nat → Nat
/-- The maximum of a private semaphore, by its ID (02 R50 gives none; log 21). -/
opaque privateMaximum : Nat → Nat

/-- The payload of the NaN that an operation gives (08 R238 names none; log 25). -/
opaque nanPayload : Nat

/-- Which two terms of a sum are added next: the spec leaves the order of a sum open (07 R229, 08 R238, 11 R348; log 27, log 83). -/
opaque sumPick : List Nat → Nat × Nat
/-- How many units in the last place a result of exp, sigmoid, erf, sine and cosine (0 to 4) for an argument lies off the correctly
rounded one: 2 less than this, reduced below 5 (08 R238; log 27). -/
opaque ulps : Nat → Nat → Nat
/-- x to the power y in binary32, of ROTARY's angle and of β^t (08 R239, R266; log 27). -/
opaque pow32 : Nat → Nat → Nat
/-- The natural logarithm of the cross-entropy (08 R265; log 27). -/
opaque log32 : Nat → Nat

/-- The three hash functions of a walk's visited filter (10 R312 names none; log 41). -/
opaque visitHash : Nat → Nat → Nat

/-- The factory trim of a die sensor, steps of 0.125 °C: in the calibration row (14 R418; log 55). -/
opaque factoryTrim : Nat → Int

/-- A Falcon-1024 signature over a digest verifies under a public key (17 R470; an external standard, log 22). -/
opaque falconOk : List (BitVec 8) → List (BitVec 8) → List (BitVec 8) → Bool
/-- The signer key digest that is fused in a key slot, 0 to 3 (18 R487; log 11). -/
opaque fusedDigest : Nat → List (BitVec 8)

/-- A Falcon-1024 signature by the alias key of a Keep section digest over a digest, with the random value it takes (18 R485, R491; an
external standard, log 22). -/
opaque falconSign : List (BitVec 8) → List (BitVec 8) → Nat → List (BitVec 8)
/-- The certificate chain of slot 0 in DER, by the Keep section digest and the security version in its alias certificate (18 R486;
log 22). -/
opaque certificates : List (BitVec 8) → Nat → List (BitVec 8)
/-- The root certificate in DER, the chain's first (18 R486; log 22). -/
opaque rootCertificate : List (BitVec 8)
/-- The digest of the Plinth ROM (18 R492; log 11). -/
opaque romDigest : List (BitVec 8)
/-- The Vendor ID of the function (18 Table 18-3 names it without a number; log 22). -/
opaque vendorId : Nat
/-- Clusters fused off at test, 0 to 32 after reduction (22 Table 22-5; log 17). -/
opaque fusedClusters : Nat
/-- The serial number, ASCII (22 Table 22-5; log 17). -/
opaque serial : List (BitVec 8)
/-- A byte of the VPD, 256 bytes in IPMI FRU format: it holds the part number, the serial number, the manufacture date and the maximum
power (19 R517; log 17). -/
opaque vpdByte : Nat → BitVec 8

/-- A byte of host memory, by its key, as the host has left it: the spec gives none (05 R151; log 6). -/
opaque hostByte : Nat → BitVec 8

/-- A byte of the Identify data structure of a CNS value, at an offset, that the spec does not state (04 R109; log 59). -/
opaque identifyByte : Nat → Nat → BitVec 8

end Sys2Proof.Config
end

