-- ==== Sys2Proof/Machine/Bits.lean ====
section
/-! DEFINITION. Bytes, little-endian fields (00 R10, R11), bit fields, and the CRC-32C of R37. -/

namespace Sys2Proof.Machine

open Sys2Proof

/-- Bits [hi:lo] of a number (00 R11, Table 0-2). -/
def bits (v hi lo : Nat) : Nat := v / 2 ^ lo % 2 ^ (hi + 1 - lo)

/-- Bit n of a number. -/
def bit (v n : Nat) : Bool := v / 2 ^ n % 2 == 1

/-- 1 for true, 0 for false. -/
def b2n (b : Bool) : Nat := if b then 1 else 0

/-- The byte at an offset of a byte list; 0 past its end. -/
def byteAt (bs : List Byte) (off : Nat) : Byte := bs.getD off 0

/-- The n bytes of a list at an offset; bytes past its end are missing. -/
def slice (bs : List Byte) (off n : Nat) : List Byte := (bs.drop off).take n

/-- The little-endian value of a byte list (00 R10). -/
def ofLE : List Byte → Nat
  | [] => 0
  | b :: r => b.toNat + 256 * ofLE r

/-- The little-endian field of n bytes at an offset; bytes past the end read 0. -/
def le (bs : List Byte) (off n : Nat) : Nat := ofLE (slice bs off n)

/-- n bytes, little-endian (00 R10). -/
def toLE : Nat → Nat → List Byte
  | 0, _ => []
  | n + 1, v => BitVec.ofNat 8 v :: toLE n (v / 256)

/-- A byte list padded with zeros, or cut, to n bytes. -/
def padTo (bs : List Byte) (n : Nat) : List Byte := bs.take n ++ List.replicate (n - bs.length) 0

/-- A byte list with the bytes at an offset replaced; the part of the new bytes past the end is dropped. -/
def patch (bs : List Byte) (off : Nat) (new : List Byte) : List Byte :=
  bs.take off ++ (new.take (bs.length - off)) ++ bs.drop (off + new.length)

/-- All the bytes are 0. -/
def allZero (bs : List Byte) : Bool := bs.all (· == 0)

/-- A value of n bits read as two's complement. -/
def toSigned (n v : Nat) : Int := if v / 2 ^ (n - 1) % 2 = 1 then (v % 2 ^ n : Nat) - (2 ^ n : Nat) else (v % 2 ^ n : Nat)

/-- The low n bits of an integer. -/
def ofSigned (n : Nat) (v : Int) : Nat := (v % (2 ^ n : Int)).toNat

/-- A value held to at most a maximum. -/
def sat (max v : Nat) : Nat := if v > max then max else v

/-- Division rounded up. -/
def ceilDiv (a b : Nat) : Nat := (a + b - 1) / b

/-- One bit of the reflected CRC-32C (R37). -/
def crcBit (c : BitVec 32) : BitVec 32 :=
  if c.getLsbD 0 then (c >>> 1) ^^^ 0x82F63B78#32 else c >>> 1

/-- One byte of the reflected CRC-32C. -/
def crcByte (c : BitVec 32) (b : Byte) : BitVec 32 :=
  crcBit (crcBit (crcBit (crcBit (crcBit (crcBit (crcBit (crcBit (c ^^^ b.setWidth 32))))))))

/-- CRC-32C: Castagnoli polynomial 0x1EDC_6F41, reflected, initial value and final xor 0xFFFF_FFFF (R37). -/
def crc32c (bs : List Byte) : BitVec 32 := bs.foldl crcByte 0xFFFFFFFF#32 ^^^ 0xFFFFFFFF#32

/-- Insert into a rising list without repeats. -/
def insN (a : Nat) : List Nat → List Nat
  | [] => [a]
  | b :: r => if a < b then a :: b :: r else if a = b then b :: r else b :: insN a r

/-- Remove a value from a list. -/
def delN (a : Nat) (l : List Nat) : List Nat := l.filter (· ≠ a)

/-- Keep the first occurrence of each value. -/
def nubN : List Nat → List Nat
  | [] => []
  | a :: r => a :: (nubN r).filter (· ≠ a)

/-- The smallest of a list, if it has one. -/
def minN : List Nat → Option Nat
  | [] => none
  | a :: r => some (r.foldl Nat.min a)

/-- The sum of a list. -/
def sumN (l : List Nat) : Nat := l.foldl (· + ·) 0

/-- The largest of a list, 0 for none. -/
def maxN (l : List Nat) : Nat := l.foldl Nat.max 0

/-- Look a key up in a list of pairs. -/
def lookN (k : Nat) (l : List (Nat × α)) : Option α := (l.find? (·.1 == k)).map (·.2)

/-- Set a key in a list of pairs: the pair moves to the front. -/
def putN (k : Nat) (v : α) (l : List (Nat × α)) : List (Nat × α) := (k, v) :: l.filter (·.1 ≠ k)

/-- Replace the elements that satisfy a test. -/
def updIf (p : α → Bool) (f : α → α) (l : List α) : List α := l.map fun x => if p x then f x else x

/-- A list without its repeats has the same length: no value occurs twice. -/
def distinct : List Nat → Bool
  | [] => true
  | a :: r => !r.contains a && distinct r

/-- ASCII bytes of a text. -/
def ascii (t : String) : List Byte := t.toList.map fun c => BitVec.ofNat 8 c.toNat

end Sys2Proof.Machine
end

