-- ==== Sys2Proof/Machine/Counter.lean ====
section
/-! DEFINITION. The counters of the counter window (22 R565,
    R566): one constructor for each row of the 13 counter tables,
with its table's trace source bit, its scope, its width and what it does at its maximum (00 R19). -/

namespace Sys2Proof.Machine

/-- The scopes of Table 22-15. -/
inductive Scope where
  | module | partition | cluster | dome | slot | function | package | packageCluster | channelGroup | lane | domain
deriving DecidableEq, Repr

/-- What a counter does at its maximum: R19, or a current value that is stated and not counted. -/
inductive AtMax where
  | wraps | saturates | current
deriving DecidableEq, Repr

/-- The counters, in the row order of their tables. -/
inductive Ctr where
  -- Table 3-6
  | schedTickCount
  | schedTaskOverrun
  | schedTaskOverrunStops
  | schedSwitchOverrun
  | schedSliceDebtUs
  | schedDebtedSwitches
  | schedLentTimeUs
  | schedSemaphoresHeldBySuspended
  | schedStretchedSlices
  | schedTicksWithTraceSamplingShed
  | schedTicksWithCounterMirroringShed
  | schedCalibrationDeferrals
  | schedTicksWithLowPriorityDispatchShed
  | schedQuiesceEntries
  | schedParkedAnswers
  -- Table 5-8
  | tierStarveCycles
  | tierShareWaitsRead
  | tierShareWaitsWrite
  | tierShareWaitsRemote
  | tierFirstFillStallUs
  | tierLastDrainUs
  | tierLatePrefetches
  | tierPagesPagedIn
  | tierResidentPagesFreedAtAQuota
  | tierDirtyPagesWrittenBack
  | tierStreamSpills
  | tierStreamHalts
  | tierPageRequestsSent
  | tierUnresolvedT2Faults
  -- Table 6-6
  | quantElementsQuantised
  | quantElementsClipped
  | quantNanElements
  | quantInfiniteElements
  | quantClipAndNANFlagsLastWindow
  | quantIrregularScalesUsed
  | quantDecodeSaturations
  | quantKvFallbackRows
  | quantWatchSlotShortages
  | quantWatchSlotsInUse
  -- Table 7-8
  | arrayTilePasses
  | arrayCyclesWithAPassRunningPerArray
  | arrayOverflowReRuns
  | arrayAccumulatorSaturations
  | arrayOutputSaturations
  | arrayModeChangesWholeAndQuad
  | arrayResidueMismatches
  -- Table 8-15
  | genTokensGenerated
  | genPromptTokensPrefilled
  | genSequencesAdmitted
  | genKvBlocksInUse
  | genKvPoolPauses
  | genKvPoolFailures
  | genFallbackRefused
  | genNanLogitRows
  | genEmptySoftmaxRows
  | genTextsEmbedded
  | genTextsTruncated
  | genIngestRecordsEmbedded
  | genIngestFailures
  | genTuneSteps
  | genRandomSourceHealthFailures
  -- Table 9-7
  | selSelectionPasses
  | selRefinementPassesLevels2And3
  | selApproximateCuts
  | selBoundaryTies
  | selShortResultsCountBelowK
  | selDuplicatesRemoved
  | selRowsTooLong
  -- Table 10-14
  | searchQueriesAnswered
  | searchNodeVisits
  | searchRecordsReadFromFlash
  | searchNodeCacheHits
  | searchNodeCachePromotions
  | searchNodeCacheEvictions
  | searchNodeCacheShortfallMiB
  | searchNavigationDistances
  | searchExhaustedQueries
  | searchBudgetSpentQueries
  | searchWidenedWalks
  | searchTombstoneCuts
  | searchFilterCuts
  | searchVisitedFilterSaturations
  | searchFreeSlotsMet
  | searchUpperOverflows
  | searchIndexCommits
  | searchPeerPayloadsSent
  | searchPeerPayloadsReceived
  | searchPeerWritesDiscarded
  | searchPeerFailures
  -- Table 11-14
  | scanScansCompleted
  | scanRecordsScanned
  | scanRecordsMatched
  | scanScanPagesRead
  | scanScanPagesSkipped
  | scanGroupKeysOutOfRange
  | scanWaitsForAnEngineSlot
  | scanEngineBusyCycles
  | scanBytesTransferredPerClass
  -- Table 12-7
  | flashFreeBlocks
  | flashFineMapsInUse
  | flashFullPoolRewrites
  | flashOpenStripeGroups
  | flashParitySpills
  | flashPagesRebuiltFromParity
  | flashGarbageCollectionBytesCopied
  | flashDestageWaitsForGarbageCollection
  | flashSourceFallbackReads
  | flashRefreshQueuedBlocks
  | flashBlocksRefreshed
  | flashRefreshBlockedEvents
  | flashEraseSuspends
  | flashProgramSuspends
  | flashReadsThatWaitedForAFullEraseOrProgram
  | flashReadRetries
  | flashSoftDecodes
  | flashMapIntegrityReads
  | flashRetirementBlocksRemaining
  -- Table 13-9
  | integWordsCorrectedT0
  | integWordsCorrectedT1
  | integFramesCorrectedByPageCode
  | integUncorrectableFrames
  | integPoisonedWords
  | integSpareFramesUsed
  | integScrubLapsT0
  | integScrubLapsT1
  | integT1ScrubFramesDoneInCurrentLap
  | integMigratedMiB
  | integErrorLogEntriesWritten
  | integReportsMerged
  -- Table 14-9
  | calibScaleCandidatesDerived
  | calibScalesApplied
  | calibScalesHeldAtTheStepLimit
  | calibReadLevelEvaluations
  | calibBlockGroupsChanged
  | calibBlockGroupsAtLimit
  | calibThermalTrimSteps
  | calibBankMeasurements
  | calibBankMeasurementsStoppedBySupplySag
  -- Table 16-7
  | powerTicksInEachState
  | powerWakesFromRETAINOrOFF
  | powerAppliedThrottleLevel
  | powerTicksAtAppliedLevel8OrAbove
  | powerDispatchesRefusedByThrottling
  | powerTickAveragePowerW
  | powerSupplyWarnings
  | powerPowerEmergencies
  | powerThermalEmergencies
  | powerIsolations
  | powerIncompleteFlushes
  | powerWriteCacheResizes
  -- Table 21-5
  | lanternPacketsSent
  | lanternRecordsDropped
  | lanternLossPackets
  | lanternMarkStarts
  | lanternTicksWithBothLanesTransmitting
deriving DecidableEq, Repr

/-- One row of a counter table. -/
structure CtrRow where
  /-- the trace source bit of the row's table (Table 22-14) -/
  block : Nat
  /-- the row's place in its table -/
  row : Nat
  scope : Scope
  width : Nat
  atMax : AtMax
  /-- qwords for each instance (R566) -/
  per : Nat := 1
deriving DecidableEq, Repr

/-- The row of each counter (Tables 3-6 to 21-5). -/
def Ctr.spec : Ctr → CtrRow
  | .schedTickCount => ⟨16, 0, .module, 64, .wraps, 1⟩
  | .schedTaskOverrun => ⟨16, 1, .partition, 32, .saturates, 1⟩
  | .schedTaskOverrunStops => ⟨16, 2, .partition, 32, .saturates, 1⟩
  | .schedSwitchOverrun => ⟨16, 3, .partition, 32, .saturates, 1⟩
  | .schedSliceDebtUs => ⟨16, 4, .partition, 32, .saturates, 1⟩
  | .schedDebtedSwitches => ⟨16, 5, .partition, 32, .saturates, 1⟩
  | .schedLentTimeUs => ⟨16, 6, .partition, 48, .saturates, 1⟩
  | .schedSemaphoresHeldBySuspended => ⟨16, 7, .partition, 32, .saturates, 1⟩
  | .schedStretchedSlices => ⟨16, 8, .partition, 32, .saturates, 1⟩
  | .schedTicksWithTraceSamplingShed => ⟨16, 9, .module, 32, .saturates, 1⟩
  | .schedTicksWithCounterMirroringShed => ⟨16, 10, .module, 32, .saturates, 1⟩
  | .schedCalibrationDeferrals => ⟨16, 11, .module, 32, .saturates, 1⟩
  | .schedTicksWithLowPriorityDispatchShed => ⟨16, 12, .module, 32, .saturates, 1⟩
  | .schedQuiesceEntries => ⟨16, 13, .module, 16, .saturates, 1⟩
  | .schedParkedAnswers => ⟨16, 14, .module, 32, .saturates, 1⟩
  | .tierStarveCycles => ⟨17, 0, .cluster, 48, .saturates, 1⟩
  | .tierShareWaitsRead => ⟨17, 1, .dome, 32, .saturates, 1⟩
  | .tierShareWaitsWrite => ⟨17, 2, .dome, 32, .saturates, 1⟩
  | .tierShareWaitsRemote => ⟨17, 3, .dome, 32, .saturates, 1⟩
  | .tierFirstFillStallUs => ⟨17, 4, .partition, 32, .saturates, 1⟩
  | .tierLastDrainUs => ⟨17, 5, .partition, 32, .saturates, 1⟩
  | .tierLatePrefetches => ⟨17, 6, .partition, 32, .saturates, 1⟩
  | .tierPagesPagedIn => ⟨17, 7, .partition, 32, .wraps, 1⟩
  | .tierResidentPagesFreedAtAQuota => ⟨17, 8, .partition, 32, .wraps, 1⟩
  | .tierDirtyPagesWrittenBack => ⟨17, 9, .partition, 32, .wraps, 1⟩
  | .tierStreamSpills => ⟨17, 10, .partition, 16, .saturates, 1⟩
  | .tierStreamHalts => ⟨17, 11, .partition, 16, .saturates, 1⟩
  | .tierPageRequestsSent => ⟨17, 12, .function, 32, .wraps, 1⟩
  | .tierUnresolvedT2Faults => ⟨17, 13, .function, 16, .saturates, 1⟩
  | .quantElementsQuantised => ⟨18, 0, .slot, 48, .wraps, 1⟩
  | .quantElementsClipped => ⟨18, 1, .slot, 32, .saturates, 1⟩
  | .quantNanElements => ⟨18, 2, .slot, 32, .saturates, 1⟩
  | .quantInfiniteElements => ⟨18, 3, .slot, 32, .saturates, 1⟩
  | .quantClipAndNANFlagsLastWindow => ⟨18, 4, .slot, 2, .current, 1⟩
  | .quantIrregularScalesUsed => ⟨18, 5, .partition, 32, .saturates, 1⟩
  | .quantDecodeSaturations => ⟨18, 6, .partition, 32, .saturates, 1⟩
  | .quantKvFallbackRows => ⟨18, 7, .partition, 32, .saturates, 1⟩
  | .quantWatchSlotShortages => ⟨18, 8, .partition, 16, .saturates, 1⟩
  | .quantWatchSlotsInUse => ⟨18, 9, .module, 13, .current, 1⟩
  | .arrayTilePasses => ⟨19, 0, .cluster, 48, .wraps, 1⟩
  | .arrayCyclesWithAPassRunningPerArray => ⟨19, 1, .cluster, 48, .wraps, 4⟩
  | .arrayOverflowReRuns => ⟨19, 2, .partition, 32, .saturates, 1⟩
  | .arrayAccumulatorSaturations => ⟨19, 3, .partition, 32, .saturates, 1⟩
  | .arrayOutputSaturations => ⟨19, 4, .partition, 32, .saturates, 1⟩
  | .arrayModeChangesWholeAndQuad => ⟨19, 5, .cluster, 32, .wraps, 1⟩
  | .arrayResidueMismatches => ⟨19, 6, .cluster, 16, .saturates, 1⟩
  | .genTokensGenerated => ⟨20, 0, .partition, 64, .wraps, 1⟩
  | .genPromptTokensPrefilled => ⟨20, 1, .partition, 64, .wraps, 1⟩
  | .genSequencesAdmitted => ⟨20, 2, .dome, 13, .current, 1⟩
  | .genKvBlocksInUse => ⟨20, 3, .partition, 32, .current, 1⟩
  | .genKvPoolPauses => ⟨20, 4, .partition, 32, .saturates, 1⟩
  | .genKvPoolFailures => ⟨20, 5, .partition, 16, .saturates, 1⟩
  | .genFallbackRefused => ⟨20, 6, .partition, 32, .saturates, 1⟩
  | .genNanLogitRows => ⟨20, 7, .partition, 32, .saturates, 1⟩
  | .genEmptySoftmaxRows => ⟨20, 8, .partition, 32, .saturates, 1⟩
  | .genTextsEmbedded => ⟨20, 9, .partition, 48, .wraps, 1⟩
  | .genTextsTruncated => ⟨20, 10, .partition, 32, .saturates, 1⟩
  | .genIngestRecordsEmbedded => ⟨20, 11, .partition, 48, .wraps, 1⟩
  | .genIngestFailures => ⟨20, 12, .partition, 16, .saturates, 1⟩
  | .genTuneSteps => ⟨20, 13, .partition, 32, .wraps, 1⟩
  | .genRandomSourceHealthFailures => ⟨20, 14, .module, 16, .saturates, 1⟩
  | .selSelectionPasses => ⟨21, 0, .cluster, 48, .wraps, 1⟩
  | .selRefinementPassesLevels2And3 => ⟨21, 1, .partition, 32, .saturates, 1⟩
  | .selApproximateCuts => ⟨21, 2, .partition, 32, .saturates, 1⟩
  | .selBoundaryTies => ⟨21, 3, .partition, 32, .saturates, 1⟩
  | .selShortResultsCountBelowK => ⟨21, 4, .partition, 32, .saturates, 1⟩
  | .selDuplicatesRemoved => ⟨21, 5, .partition, 32, .saturates, 1⟩
  | .selRowsTooLong => ⟨21, 6, .partition, 16, .saturates, 1⟩
  | .searchQueriesAnswered => ⟨22, 0, .partition, 48, .wraps, 1⟩
  | .searchNodeVisits => ⟨22, 1, .partition, 64, .wraps, 1⟩
  | .searchRecordsReadFromFlash => ⟨22, 2, .partition, 64, .wraps, 1⟩
  | .searchNodeCacheHits => ⟨22, 3, .partition, 64, .wraps, 1⟩
  | .searchNodeCachePromotions => ⟨22, 4, .partition, 32, .wraps, 1⟩
  | .searchNodeCacheEvictions => ⟨22, 5, .partition, 32, .wraps, 1⟩
  | .searchNodeCacheShortfallMiB => ⟨22, 6, .partition, 32, .saturates, 1⟩
  | .searchNavigationDistances => ⟨22, 7, .partition, 64, .wraps, 1⟩
  | .searchExhaustedQueries => ⟨22, 8, .partition, 32, .saturates, 1⟩
  | .searchBudgetSpentQueries => ⟨22, 9, .partition, 32, .saturates, 1⟩
  | .searchWidenedWalks => ⟨22, 10, .partition, 32, .saturates, 1⟩
  | .searchTombstoneCuts => ⟨22, 11, .partition, 32, .saturates, 1⟩
  | .searchFilterCuts => ⟨22, 12, .partition, 32, .saturates, 1⟩
  | .searchVisitedFilterSaturations => ⟨22, 13, .partition, 32, .saturates, 1⟩
  | .searchFreeSlotsMet => ⟨22, 14, .partition, 32, .saturates, 1⟩
  | .searchUpperOverflows => ⟨22, 15, .partition, 16, .saturates, 1⟩
  | .searchIndexCommits => ⟨22, 16, .partition, 32, .wraps, 1⟩
  | .searchPeerPayloadsSent => ⟨22, 17, .module, 32, .wraps, 1⟩
  | .searchPeerPayloadsReceived => ⟨22, 18, .module, 32, .wraps, 1⟩
  | .searchPeerWritesDiscarded => ⟨22, 19, .module, 32, .saturates, 1⟩
  | .searchPeerFailures => ⟨22, 20, .module, 16, .saturates, 1⟩
  | .scanScansCompleted => ⟨23, 0, .partition, 32, .wraps, 1⟩
  | .scanRecordsScanned => ⟨23, 1, .partition, 64, .wraps, 1⟩
  | .scanRecordsMatched => ⟨23, 2, .partition, 64, .wraps, 1⟩
  | .scanScanPagesRead => ⟨23, 3, .partition, 64, .wraps, 1⟩
  | .scanScanPagesSkipped => ⟨23, 4, .partition, 32, .saturates, 1⟩
  | .scanGroupKeysOutOfRange => ⟨23, 5, .partition, 32, .saturates, 1⟩
  | .scanWaitsForAnEngineSlot => ⟨23, 6, .partition, 32, .saturates, 1⟩
  | .scanEngineBusyCycles => ⟨23, 7, .channelGroup, 48, .wraps, 1⟩
  | .scanBytesTransferredPerClass => ⟨23, 8, .channelGroup, 64, .wraps, 5⟩
  | .flashFreeBlocks => ⟨24, 0, .module, 24, .current, 1⟩
  | .flashFineMapsInUse => ⟨24, 1, .module, 21, .current, 1⟩
  | .flashFullPoolRewrites => ⟨24, 2, .module, 32, .saturates, 1⟩
  | .flashOpenStripeGroups => ⟨24, 3, .module, 7, .current, 1⟩
  | .flashParitySpills => ⟨24, 4, .module, 32, .wraps, 1⟩
  | .flashPagesRebuiltFromParity => ⟨24, 5, .module, 32, .saturates, 1⟩
  | .flashGarbageCollectionBytesCopied => ⟨24, 6, .module, 64, .wraps, 1⟩
  | .flashDestageWaitsForGarbageCollection => ⟨24, 7, .module, 32, .saturates, 1⟩
  | .flashSourceFallbackReads => ⟨24, 8, .module, 32, .saturates, 1⟩
  | .flashRefreshQueuedBlocks => ⟨24, 9, .module, 24, .current, 1⟩
  | .flashBlocksRefreshed => ⟨24, 10, .module, 32, .wraps, 1⟩
  | .flashRefreshBlockedEvents => ⟨24, 11, .module, 16, .saturates, 1⟩
  | .flashEraseSuspends => ⟨24, 12, .module, 48, .wraps, 1⟩
  | .flashProgramSuspends => ⟨24, 13, .module, 48, .wraps, 1⟩
  | .flashReadsThatWaitedForAFullEraseOrProgram => ⟨24, 14, .module, 32, .saturates, 1⟩
  | .flashReadRetries => ⟨24, 15, .module, 48, .wraps, 1⟩
  | .flashSoftDecodes => ⟨24, 16, .module, 32, .saturates, 1⟩
  | .flashMapIntegrityReads => ⟨24, 17, .module, 16, .saturates, 1⟩
  | .flashRetirementBlocksRemaining => ⟨24, 18, .module, 16, .current, 1⟩
  | .integWordsCorrectedT0 => ⟨25, 0, .cluster, 32, .saturates, 1⟩
  | .integWordsCorrectedT1 => ⟨25, 1, .package, 48, .wraps, 1⟩
  | .integFramesCorrectedByPageCode => ⟨25, 2, .packageCluster, 32, .saturates, 1⟩
  | .integUncorrectableFrames => ⟨25, 3, .packageCluster, 16, .saturates, 1⟩
  | .integPoisonedWords => ⟨25, 4, .module, 32, .current, 1⟩
  | .integSpareFramesUsed => ⟨25, 5, .package, 13, .current, 1⟩
  | .integScrubLapsT0 => ⟨25, 6, .cluster, 32, .wraps, 1⟩
  | .integScrubLapsT1 => ⟨25, 7, .package, 32, .wraps, 1⟩
  | .integT1ScrubFramesDoneInCurrentLap => ⟨25, 8, .package, 23, .current, 1⟩
  | .integMigratedMiB => ⟨25, 9, .module, 32, .wraps, 1⟩
  | .integErrorLogEntriesWritten => ⟨25, 10, .module, 32, .wraps, 1⟩
  | .integReportsMerged => ⟨25, 11, .module, 48, .wraps, 1⟩
  | .calibScaleCandidatesDerived => ⟨26, 0, .partition, 32, .saturates, 1⟩
  | .calibScalesApplied => ⟨26, 1, .partition, 32, .saturates, 1⟩
  | .calibScalesHeldAtTheStepLimit => ⟨26, 2, .partition, 32, .saturates, 1⟩
  | .calibReadLevelEvaluations => ⟨26, 3, .module, 48, .wraps, 1⟩
  | .calibBlockGroupsChanged => ⟨26, 4, .module, 32, .wraps, 1⟩
  | .calibBlockGroupsAtLimit => ⟨26, 5, .module, 17, .current, 1⟩
  | .calibThermalTrimSteps => ⟨26, 6, .module, 32, .wraps, 1⟩
  | .calibBankMeasurements => ⟨26, 7, .module, 16, .wraps, 1⟩
  | .calibBankMeasurementsStoppedBySupplySag => ⟨26, 8, .module, 16, .saturates, 1⟩
  | .powerTicksInEachState => ⟨27, 0, .domain, 48, .wraps, 4⟩
  | .powerWakesFromRETAINOrOFF => ⟨27, 1, .domain, 32, .wraps, 1⟩
  | .powerAppliedThrottleLevel => ⟨27, 2, .module, 4, .current, 1⟩
  | .powerTicksAtAppliedLevel8OrAbove => ⟨27, 3, .module, 32, .saturates, 1⟩
  | .powerDispatchesRefusedByThrottling => ⟨27, 4, .partition, 32, .saturates, 1⟩
  | .powerTickAveragePowerW => ⟨27, 5, .module, 10, .current, 1⟩
  | .powerSupplyWarnings => ⟨27, 6, .module, 16, .saturates, 1⟩
  | .powerPowerEmergencies => ⟨27, 7, .module, 16, .saturates, 1⟩
  | .powerThermalEmergencies => ⟨27, 8, .module, 16, .saturates, 1⟩
  | .powerIsolations => ⟨27, 9, .module, 16, .saturates, 1⟩
  | .powerIncompleteFlushes => ⟨27, 10, .module, 16, .saturates, 1⟩
  | .powerWriteCacheResizes => ⟨27, 11, .module, 16, .saturates, 1⟩
  | .lanternPacketsSent => ⟨28, 0, .lane, 48, .wraps, 1⟩
  | .lanternRecordsDropped => ⟨28, 1, .module, 32, .saturates, 1⟩
  | .lanternLossPackets => ⟨28, 2, .module, 32, .saturates, 1⟩
  | .lanternMarkStarts => ⟨28, 3, .module, 16, .saturates, 1⟩
  | .lanternTicksWithBothLanesTransmitting => ⟨28, 4, .module, 48, .wraps, 1⟩

/-- The instances of a scope (Table 22-15; the package-and-cluster rows hold both, R566). -/
def Scope.instances : Scope → Nat
  | .module => 1 | .partition => 64 | .cluster => 800 | .dome => 4096 | .slot => 4096 | .function => 64
  | .package => 32 | .packageCluster => 832 | .channelGroup => 8 | .lane => 2 | .domain => 50

/-- The counters of one table, in row order (R566). -/
def Ctr.table : Nat → List Ctr
  | 16 => [.schedTickCount, .schedTaskOverrun, .schedTaskOverrunStops, .schedSwitchOverrun, .schedSliceDebtUs,
    .schedDebtedSwitches, .schedLentTimeUs, .schedSemaphoresHeldBySuspended, .schedStretchedSlices,
    .schedTicksWithTraceSamplingShed, .schedTicksWithCounterMirroringShed, .schedCalibrationDeferrals,
    .schedTicksWithLowPriorityDispatchShed, .schedQuiesceEntries, .schedParkedAnswers]
  | 17 => [.tierStarveCycles, .tierShareWaitsRead, .tierShareWaitsWrite, .tierShareWaitsRemote,
    .tierFirstFillStallUs, .tierLastDrainUs, .tierLatePrefetches, .tierPagesPagedIn, .tierResidentPagesFreedAtAQuota,
    .tierDirtyPagesWrittenBack, .tierStreamSpills, .tierStreamHalts, .tierPageRequestsSent, .tierUnresolvedT2Faults]
  | 18 => [.quantElementsQuantised, .quantElementsClipped, .quantNanElements, .quantInfiniteElements,
    .quantClipAndNANFlagsLastWindow, .quantIrregularScalesUsed, .quantDecodeSaturations, .quantKvFallbackRows,
    .quantWatchSlotShortages, .quantWatchSlotsInUse]
  | 19 => [.arrayTilePasses, .arrayCyclesWithAPassRunningPerArray, .arrayOverflowReRuns,
    .arrayAccumulatorSaturations, .arrayOutputSaturations, .arrayModeChangesWholeAndQuad, .arrayResidueMismatches]
  | 20 => [.genTokensGenerated, .genPromptTokensPrefilled, .genSequencesAdmitted, .genKvBlocksInUse,
    .genKvPoolPauses, .genKvPoolFailures, .genFallbackRefused, .genNanLogitRows, .genEmptySoftmaxRows,
    .genTextsEmbedded, .genTextsTruncated, .genIngestRecordsEmbedded, .genIngestFailures, .genTuneSteps,
    .genRandomSourceHealthFailures]
  | 21 => [.selSelectionPasses, .selRefinementPassesLevels2And3, .selApproximateCuts, .selBoundaryTies,
    .selShortResultsCountBelowK, .selDuplicatesRemoved, .selRowsTooLong]
  | 22 => [.searchQueriesAnswered, .searchNodeVisits, .searchRecordsReadFromFlash, .searchNodeCacheHits,
    .searchNodeCachePromotions, .searchNodeCacheEvictions, .searchNodeCacheShortfallMiB, .searchNavigationDistances,
    .searchExhaustedQueries, .searchBudgetSpentQueries, .searchWidenedWalks, .searchTombstoneCuts, .searchFilterCuts,
    .searchVisitedFilterSaturations, .searchFreeSlotsMet, .searchUpperOverflows, .searchIndexCommits,
    .searchPeerPayloadsSent, .searchPeerPayloadsReceived, .searchPeerWritesDiscarded, .searchPeerFailures]
  | 23 => [.scanScansCompleted, .scanRecordsScanned, .scanRecordsMatched, .scanScanPagesRead, .scanScanPagesSkipped,
    .scanGroupKeysOutOfRange, .scanWaitsForAnEngineSlot, .scanEngineBusyCycles, .scanBytesTransferredPerClass]
  | 24 => [.flashFreeBlocks, .flashFineMapsInUse, .flashFullPoolRewrites, .flashOpenStripeGroups, .flashParitySpills,
    .flashPagesRebuiltFromParity, .flashGarbageCollectionBytesCopied, .flashDestageWaitsForGarbageCollection,
    .flashSourceFallbackReads, .flashRefreshQueuedBlocks, .flashBlocksRefreshed, .flashRefreshBlockedEvents,
    .flashEraseSuspends, .flashProgramSuspends, .flashReadsThatWaitedForAFullEraseOrProgram, .flashReadRetries,
    .flashSoftDecodes, .flashMapIntegrityReads, .flashRetirementBlocksRemaining]
  | 25 => [.integWordsCorrectedT0, .integWordsCorrectedT1, .integFramesCorrectedByPageCode,
    .integUncorrectableFrames, .integPoisonedWords, .integSpareFramesUsed, .integScrubLapsT0, .integScrubLapsT1,
    .integT1ScrubFramesDoneInCurrentLap, .integMigratedMiB, .integErrorLogEntriesWritten, .integReportsMerged]
  | 26 => [.calibScaleCandidatesDerived, .calibScalesApplied, .calibScalesHeldAtTheStepLimit,
    .calibReadLevelEvaluations, .calibBlockGroupsChanged, .calibBlockGroupsAtLimit, .calibThermalTrimSteps,
    .calibBankMeasurements, .calibBankMeasurementsStoppedBySupplySag]
  | 27 => [.powerTicksInEachState, .powerWakesFromRETAINOrOFF, .powerAppliedThrottleLevel,
    .powerTicksAtAppliedLevel8OrAbove, .powerDispatchesRefusedByThrottling, .powerTickAveragePowerW,
    .powerSupplyWarnings, .powerPowerEmergencies, .powerThermalEmergencies, .powerIsolations,
    .powerIncompleteFlushes, .powerWriteCacheResizes]
  | 28 => [.lanternPacketsSent, .lanternRecordsDropped, .lanternLossPackets, .lanternMarkStarts,
    .lanternTicksWithBothLanesTransmitting]
  | _ => []

/-- The base of each block in BAR2 (Table 22-14). -/
def ctrBlockBase : Nat → Option Nat
  | 16 => some 0x11000
  | 17 => some 0x13000
  | 18 => some 0x2e000
  | 19 => some 0x57000
  | 20 => some 0x63000
  | 21 => some 0x6d000
  | 22 => some 0x70000
  | 23 => some 0x73000
  | 24 => some 0x74000
  | 25 => some 0x75000
  | 26 => some 0x7c000
  | 27 => some 0x7d000
  | 28 => some 0x7e000
  | _ => none

end Sys2Proof.Machine
end

