-- ==== Sys2Proof/Machine/State.lean ====
section
/-! DEFINITION. The state of the KD240-P7A, as plain data: every register, queue, buffer, counter, mode and pin that the
spec names, in one record for each subsystem. The default of a field is its value in State.reset: the module at the moment
when configuration space first becomes ready after a power-up (00 R18). Each field's docstring gives its width, the rule that
names it and its reset value. -/

namespace Sys2Proof.Machine

open Sys2Proof

/-- Sparse bytes, in rising address order, no zero byte listed. An unlisted byte reads 0 (log 6). -/
abbrev Mem := List Host.Cell

/-! ### Functions, queues and the controller -/

/-- The life of the module between supplies, resets and start-up (16 R448, R456, R458; 17 R475, R477). -/
inductive Phase where
  | unpowered | aux | held | starting | up | failed | isolated | thermalDown
deriving DecidableEq, Repr

/-- The power-fail flush under way (16 R459): its next item and what began it. -/
inductive FlushKind where
  | isolation | thermal | perst | abrupt
deriving DecidableEq, Repr

/-- The NVMe features that Get and Set Features reach (04 Table 4-1), for each function. -/
structure Features where
  /-- 32 bits, feature 0x01 Arbitration | 04 R109 | 0: PRESUMED (NVM Express) log 7 -/
  arbitration : DWord := 0
  /-- kelvin, feature 0x04 over-temperature threshold | 20 R533 | 368 (WCTEMP) -/
  tempOver : Nat := 368
  /-- kelvin, feature 0x04 under-temperature threshold | 04 R109 | 0: PRESUMED (NVM Express) log 7 -/
  tempUnder : Nat := 0
  /-- 32 bits, feature 0x07 Number of Queues as granted, each count less 1 | 04 R114 | 1,022 of each (all that R114 allows): DESIGN
  CHOICE log 5 -/
  numQueues : DWord := 0x03FE03FE
  /-- 32 bits, feature 0x08 Interrupt Coalescing | 04 R109 | 0: PRESUMED (NVM Express) log 7 -/
  coalescing : DWord := 0
  /-- list of vectors with Coalescing Disable set, feature 0x09 | 04 R109 | []: PRESUMED log 7 -/
  vectorConfig : List Nat := []
  /-- 48 bits of ms, feature 0x0E Timestamp as set | 04 R109 | 0: PRESUMED (NVM Express) log 7 -/
  timestamp : Nat := 0
  /-- 1 bit, feature 0x0E Timestamp Origin: set by Set Features | 04 R109 | false: PRESUMED (NVM Express) log 7 -/
  timestampSet : Bool := false
  /-- 64 bits, the tick count at which the timestamp was set | 04 R109 | 0: PRESUMED (NVM Express) log 7 -/
  timestampTick : Nat := 0
  /-- 32 bits, feature 0x19 I/O Command Set Profile | 04 R109 | 0: PRESUMED (NVM Express) log 7 -/
  ioProfile : DWord := 0
  /-- 32 bits, feature 0x0B Asynchronous Event Configuration | 04 R141 | 0: PRESUMED (NVM Express) log 7 -/
  asyncConfig : DWord := 0
deriving DecidableEq, Repr

/-- One function (19 R510, 22 R554): the physical function 0 or a virtual function 1 to 63. -/
structure Func where
  /-- 6 bits | 04 R114 | 0 for the physical function -/
  id : Nat
  /-- 1 bit | 04 R134 | true (the physical function), virtual functions absent: DESIGN CHOICE log 5 -/
  enabled : Bool := true
  /-- 1 bit | 01 R28 | false: PRESUMED (PCI Express) log 7 -/
  busMaster : Bool := false
  /-- 1 bit | 22 R568 | false: PRESUMED (PCI Express) log 7 -/
  memSpace : Bool := false
  /-- 2 bits | 15 R434 | 0 (D0): PRESUMED (PCI Express) log 7 -/
  dstate : Nat := 0
  /-- 1 bit | 15 R434 | false: PRESUMED (PCI Express) log 7 -/
  msix : Bool := false
  /-- up to 2,048 entries | 15 R434 | [] (no vector unmasked; MSI-X vectors are masked at reset): PRESUMED log 7 -/
  unmasked : List Nat := []
  /-- up to 2,048 entries | 15 R434, the Pending Bit Array | [] -/
  pba : List Nat := []
  /-- 1 bit | 05 R178 | false: PRESUMED (PCI Express) log 7 -/
  priEnable : Bool := false
  /-- 32 bits | 05 R177 | 0: PRESUMED (PCI Express) log 7 -/
  priAlloc : Nat := 0
  /-- 32 bits | 05 R177 page requests outstanding | 0 -/
  priOut : Nat := 0
  /-- 7 bits | 04 R114 queue pairs assigned (VQ resources) | 0: DESIGN CHOICE log 5 -/
  queues : Nat := 0
  /-- 7 bits | 04 R114 vectors assigned (VI resources) | 0: DESIGN CHOICE log 5 -/
  vectors : Nat := 0
  /-- 1 bit, a virtual function's controller is online | 04 R114 | false: PRESUMED (NVM Express) log 7 -/
  online : Bool := false
  /-- 32 bits, CC | 22 R555, 17 R475 | 0: PRESUMED (NVM Express) log 7 -/
  cc : DWord := 0
  /-- 1 bit, CSTS.RDY | 17 R475 | false -/
  rdy : Bool := false
  /-- 2 bits, CSTS.SHST | 22 R555, 17 R476 | 0: PRESUMED (NVM Express) log 7 -/
  shst : Nat := 0
  /-- 32 bits, AQA | 22 R555 | 0: PRESUMED (NVM Express) log 7 -/
  aqa : DWord := 0
  /-- 64 bits, ASQ | 22 R555 | 0: PRESUMED (NVM Express) log 7 -/
  asq : QWord := 0
  /-- 64 bits, ACQ | 22 R555 | 0: PRESUMED (NVM Express) log 7 -/
  acq : QWord := 0
  /-- 32 bits, the interrupt mask of INTMS and INTMC | 22 R555 | 0: PRESUMED (NVM Express) log 7 -/
  intm : DWord := 0
  /-- the NVMe features of the function | 04 Table 4-1 | as each says -/
  feat : Features := {}
  /-- 3 bits, the Critical Warning bits 0 to 2 at the last tick boundary | 12 R373 | 0 -/
  critical : Nat := 0
deriving DecidableEq, Repr

/-- The module's life between supplies, resets and start-up. -/
structure Life where
  /-- enumeration | 16 R448, 17 R475 | starting -/
  phase : Phase := .starting
  /-- 1 bit, pin | 16 R448 | true -/
  vaux : Bool := true
  /-- 1 bit | 19 R514 12 V present | true -/
  v12 : Bool := true
  /-- 1 bit, pin | 19 R510 PERST# asserted | false -/
  perst : Bool := false
  /-- 1 bit | 17 R475 configuration space ready | true (the moment State.reset stands for, R18) -/
  cfgReady : Bool := true
  /-- 1 bit | 00 R18, 22 R557 firmware has set the FW fields: CSTS.RDY has been set since the reset | false -/
  fwSet : Bool := false
  /-- 8 bits, BOOTST | 22 R557, 17 R477 | 0x00 -/
  bootst : BitVec 8 := 0
  /-- 1 bit, CSTS.CFS | 17 R477, 13 R392, 16 R456 | false: PRESUMED (NVM Express) log 7 -/
  cfs : Bool := false
  /-- 1 bit | 17 R476 the operation before this start ended with a completed normal shutdown | true: DESIGN CHOICE log 8 -/
  cleanBefore : Bool := true
  /-- 1 bit | 17 R476 a normal shutdown notification has completed since the start | false -/
  normalDone : Bool := false
  /-- 1 bit | 17 R476 an abrupt shutdown completed: the next start is not counted unsafe | false -/
  abruptDone : Bool := false
  /-- counter | 17 R476 Unsafe Shutdowns of log page 0x02 | 0: DESIGN CHOICE log 8 -/
  unsafeShutdowns : Nat := 0
  /-- 1 bit | 17 R475 start-up waits for the die to cool | false -/
  coolWait : Bool := false
  /-- record | 16 R459 the flush under way | none -/
  flushing : Option FlushKind := none
  /-- items complete when the last flush stopped before its record | 16 R461 | none -/
  flushCut : Option Nat := none
  /-- list of sender, opcode, dome | 16 R460 commands recorded in flush item 2 | [] -/
  flushCmds : List (Src × Nat × Nat) := []
  /-- 64 bits | 16 R460 tick count of the isolation | 0 -/
  flushTick : Nat := 0
  /-- enumeration: 0 L0, 1 ASPM L1 | 16 R443 | 0: DESIGN CHOICE log 5 -/
  l1 : Bool := false
  /-- lanes | 16 R443 width that L0p runs | 16: DESIGN CHOICE log 5 -/
  width : Nat := 16
  /-- list of errors reported through Advanced Error Reporting: 0 completion timeout, 1 IDE check failed | 19 R512, 18 R501 | [] -/
  aer : List Nat := []
deriving DecidableEq, Repr

/-- A 16-byte completion entry (04 R123): status code type, status code, Dwords 0 and 1; and, once it is written, the head of its
submission queue and its phase (log 13). -/
structure Completion where
  src : Src
  sct : Nat := 0
  sc : Nat := 0
  dw0 : Nat := 0
  dw1 : Nat := 0
  sqhd : Nat := 0
  phase : Bool := false
deriving DecidableEq, Repr

/-- A submission queue (04 R109, R118, R136). -/
structure Sq where
  id : Nat
  fn : Nat
  size : Nat
  head : Nat := 0
  tail : Nat := 0
  cq : Nat
  /-- T2 address of its entries -/
  base : Nat := 0
  frozen : Bool := false
  pasid : Option Nat := none
  /-- the Delete I/O Submission Queue that waits for its commands (R139) -/
  deleting : Option Src := none
deriving DecidableEq, Repr

/-- A completion queue (04 R109, 22 R555). `waiting` holds completions that found it full. -/
structure Cq where
  id : Nat
  fn : Nat
  size : Nat
  head : Nat := 0
  tail : Nat := 0
  phase : Bool := true
  vector : Nat := 0
  ien : Bool := false
  /-- T2 address of its entries -/
  base : Nat := 0
  waiting : List Completion := []
deriving DecidableEq, Repr

/-- Queues, asynchronous events and what the front end has fetched. -/
structure Queues where
  /-- up to 1,023 I/O queues | 04 R109 | [] (I/O queues absent) -/
  sqs : List Sq := []
  /-- up to 1,023 I/O queues | 04 R109 | [] -/
  cqs : List Cq := []
  /-- entries the front end has fetched and not yet begun: function and queue | 04 R120 | [] -/
  fetched : List (Nat × Nat) := []
  /-- commands fetched and not completed: sender, opcode, dome (0xFFFF but for a Milris command) | 16 R459 item 2 | [] -/
  begun : List (Src × Nat × Nat) := []
  /-- Asynchronous Event Requests held | 04 R141 | [] -/
  aerHeld : List Src := []
  /-- events that wait for a request: function, type, information, log page | 04 R141 | [] -/
  aerEvents : List (Nat × Nat × Nat × Nat) := []
  /-- event types masked until their log page is read: function and type | 04 R141 | [] -/
  aerMasked : List (Nat × Nat) := []
  /-- percent, vendor feature 0xD1 | 04 R119 | 10 -/
  spareThreshold : Nat := 10
  /-- percent, the threshold in force since the last tick boundary | 04 R119 | 10 -/
  spareThresholdEff : Nat := 10
deriving DecidableEq, Repr

/-! ### Structure -/

/-- A dome (02 R40, R41). -/
structure Dome where
  id : Nat
  parent : Nat
  volatile_ : Bool := false
  lowPri : Bool := false
  /-- membership order (R33) -/
  clusters : List Nat
  /-- change count of the sizes record, 16 bits, wraps (R34) -/
  changeCount : BitVec 16 := 0
  empty : Bool := false
  dissolving : Bool := false
deriving DecidableEq, Repr

/-- A route entry (02 R42). -/
structure Route where
  dome : Nat
  dest : Nat
  hops : List Nat
deriving DecidableEq, Repr

/-- A bandwidth split (02 R44). -/
structure Split where
  dome : Nat
  rd : Nat
  wr : Nat
  remote : Nat
deriving DecidableEq, Repr

/-- A tier quota (02 R45). -/
structure Quota where
  dome : Nat
  t1 : Nat
  t2 : Nat
  obj : Nat
deriving DecidableEq, Repr

/-- A stream reservation (02 R47). -/
structure StreamDecl where
  id : Nat
  producer : Nat
  consumer : Nat
  inT1 : Bool
  buffer : Nat
  spill : Nat
deriving DecidableEq, Repr

/-- A shared-semaphore declaration (02 R49). -/
structure SemDecl where
  id : Nat
  initial : Nat
  maximum : Nat
  domes : List Nat
deriving DecidableEq, Repr

/-- An entry of a slice table (02 R52): its length in ticks and its domes. -/
structure SliceEntry where
  length : Nat
  domes : List Nat
deriving DecidableEq, Repr

/-- A slice table (02 R52). -/
structure SliceTable where
  part : Nat
  period : Nat
  entries : List SliceEntry
deriving DecidableEq, Repr

/-- An event-group definition (02 R51, kind 0). -/
structure EvGroupDef where
  group : Nat
  holdoff : Nat
  receiver : Nat
deriving DecidableEq, Repr

/-- A parsed Wiram image (02 R37 to R52). A section that the image does not carry is none. -/
structure Image where
  partial_ : Bool
  target : Nat
  newGen : Nat
  domes : List Dome
  routes : Option (List Route)
  splits : Option (List Split)
  quotas : Option (List Quota)
  streams : Option (List StreamDecl)
  sems : Option (List SemDecl)
  evGroups : Option (List EvGroupDef × List (Nat × Nat))
  slices : Option (List SliceTable)
  /-- SHAKE256 input: the image's bytes -/
  raw : List Byte
deriving DecidableEq, Repr

/-- A structure change that has been validated and waits (02 R56). -/
inductive ChangeKind where
  | image (img : Image)
  | dissolve (dome : Nat)
deriving DecidableEq, Repr

structure Change where
  kind : ChangeKind
  src : Src
  /-- the boundary at which dispatch into the subtree stopped (R59) -/
  stopped : Option Nat := none
deriving DecidableEq, Repr

/-- A fence or unfence that waits (02 R56, R61). -/
structure FenceReq where
  cluster : Nat
  replace : Bool
  src : Src
  unfence : Bool
  stopped : Option Nat := none
deriving DecidableEq, Repr

/-- The structure that the Wiram image defines. -/
structure Str where
  /-- 32 bits | 02 R37, R56 | 0 -/
  generation : Nat := 0
  /-- up to 4,095 domes besides the root | 02 R31 | [] -/
  domes : List Dome := []
  /-- partition slots, in order | 15 R439 | [] -/
  slots : List Nat := []
  /-- up to 32,768 | 02 R42 | [] -/
  routes : List Route := []
  /-- up to 4,095 | 02 R44 | [] -/
  splits : List Split := []
  /-- up to 4,095 | 02 R45 | [] -/
  quotas : List Quota := []
  /-- up to 64 | 02 R52 | [] -/
  slices : List SliceTable := []
  /-- fenced clusters | 02 R65 | [] -/
  fenced : List Nat := []
  /-- the structure change that waits | 02 R56 | none -/
  change : Option Change := none
  /-- fences and unfences that wait | 02 R56, R61 | [] -/
  fences : List FenceReq := []
  /-- virtual function and dome ID | 04 R115 | [] -/
  bindings : List (Nat × Nat) := []
  /-- 32 bits, CHANGES | 22 R563 | 0 -/
  changes : BitVec 32 := 0
  /-- 64 bytes, the structure digest of measurement block 10 | 18 R492 | 64 zero bytes -/
  digest : List Byte := List.replicate 64 0
deriving DecidableEq, Repr

/-! ### Memory tiers -/

/-- What holds a charge (05 R160). -/
inductive Owner where
  | object (id : Nat)
  | resident (id page : Nat)
  /-- the old placement of an object, or of one of its resident pages, while a PLACE moves it | 05 R153 -/
  | moving (id : Nat) (page : Option Nat)
  | saveArea (part : Nat)
  | stream (id : Nat)
  | parked (src : Src)
  | task (t : TaskRef)
  | nodeCache (index : Nat)
  | inbox (n : Nat)
  | adapter (id version : Nat)
  | tuneState (src : Src)
  /-- held by a validated image until it takes effect (R570) -/
  | reserved (o : Nat)
deriving DecidableEq, Repr

/-- A charge: tier 0 T0 (by cluster), 1 T1, 2 T2, 3 object store, on a dome's path (02 R46). -/
structure Charge where
  owner : Owner
  tier : Nat
  dome : Nat
  bytes : Nat
deriving DecidableEq, Repr

/-- T0 bytes that an object or stream takes on a cluster (05 R150, 02 R47). -/
structure T0Use where
  owner : Owner
  dome : Nat
  cluster : Nat
  bytes : Nat
deriving DecidableEq, Repr

/-- An object (05 R148 to R159). -/
structure Obj where
  id : Nat
  /-- the owning partition -/
  part : Nat
  /-- the dome whose path is charged -/
  dome : Nat
  tenant : Nat
  size : Nat
  /-- allocation flags [7:0] (Table 5-3) -/
  flags : BitVec 8
  data : Mem := []
  /-- resident 2 MiB pages of a BACKED object, each with the stamp of its last use (R154, R160) -/
  resident : List (Nat × Nat) := []
  dirty : List Nat := []
  /-- T2 region list (R151): address and length -/
  regions : List (Nat × Nat) := []
  /-- the PASID recorded with a T2 object (R152) -/
  pasid : Option Nat := none
  /-- 16 bytes stored with a BACKED object (18 R496) -/
  keyCheck : List Byte := []
  /-- a fence has released it: chunks stay readable to tasks in flight only (02 R571) -/
  released : Bool := false
deriving DecidableEq, Repr

/-- A durable copy in the object store (05 R154, R158): it outlives every reset. -/
structure Durable where
  id : Nat
  part : Nat
  tenant : Nat
  size : Nat
  data : Mem
  keyCheck : List Byte
  /-- the keys it was written under: media key generation (18 R499) -/
  mediaGen : Nat := 0
deriving DecidableEq, Repr

structure Objs where
  /-- objects | 05 R148 | [] -/
  list : List Obj := []
  /-- durable copies | 05 R158 | []: DESIGN CHOICE log 8 -/
  store : List Durable := []
  /-- charges against quotas | 02 R46, 05 R160 | [] -/
  charges : List Charge := []
  /-- T0 bytes by cluster | 05 R150 | [] -/
  t0 : List T0Use := []
  /-- bytes, T1ALLOC | 22 R558 Table 22-8, 13 R396 | 738,600,157,184 (FW: 0 until RDY is a view, R18) -/
  t1Alloc : Nat := 738600157184
  /-- stamps given so far: the order of use of resident pages | 05 R160 | 0 -/
  uses : Nat := 0
  /-- host memory as the module has written it | 05 Table 5-1 | []: DESIGN CHOICE log 6 -/
  t2 : Mem := []
deriving DecidableEq, Repr

/-! ### Commands, tasks and the scheduler core -/

/-- A task as its plan declares it (08 Table 8-2). -/
structure TaskSpec where
  /-- declared worst case, µs (03 R68) -/
  worst : Nat
  /-- declared T0 bytes -/
  t0 : Nat
  releasing : Bool := false
  /-- worst case, µs rounded up, of its longest non-preemptible operation (03 R85) -/
  np : Nat := 0
  stage : Nat := 0
  firstOp : Nat := 0
  ops : Nat := 0
  /-- a layer boundary follows its stage (05 R164) -/
  layerEnd : Bool := false
  /-- object pages its stage declares: object and 2 MiB page (05 R155) -/
  pages : List (Nat × Nat) := []
deriving DecidableEq, Repr

/-- What a task waits for. -/
inductive Wait where
  | none
  | semaphore (id : Nat)
  | streamIn (id : Nat)
  | streamOut (id : Nat)
  | page (address : Nat)
  | memory
  /-- arrays that other products keep (07 R212) -/
  | arrays
deriving DecidableEq, Repr

/-- A dome's sizes record (02 Table 2-1). -/
structure Sizes where
  clusters : Nat := 0
  changeCount : BitVec 16 := 0
  /-- quotas in bytes, its own or inherited -/
  t1 : Nat := 0
  t2 : Nat := 0
deriving DecidableEq, Repr

/-- A dispatched task (03 R68). Its cluster is the one cluster number that the module supplies it with (02 R34). -/
structure Run where
  cluster : Nat
  /-- absolute µs of its dispatch -/
  start : Nat
  /-- the waiter's dome, when the task is lent to it (03 R89) -/
  lent : Option Nat := none
  wait : Wait := .none
  /-- absolute µs since it waits -/
  waitSince : Nat := 0
  /-- the wait already held at the last tick boundary (05 R171) -/
  waitOld : Bool := false
  /-- operators of the task done so far -/
  ops : Nat := 0
  /-- rows done of the operator at hand, when it goes row by row: QUANT, ATTEND, ROUTE, SAMPLE -/
  rows : List Nat := []
  /-- the effective scales of its dome's watch slots at its dispatch (14 R410) -/
  scales : List (Nat × BitVec 16) := []
  /-- tensors that found no watch slot: they stay unwatched to the task's end (06 R203) -/
  unwatched : List Nat := []
  /-- the sizes record of the dome that its plan is addressed to, as the module supplies it (02 R34, R66) -/
  sizes : Sizes := {}
deriving DecidableEq, Repr

/-- A chain of tasks of a command (08 R235). `dynamic` marks a chain that ends when its last task says so (walks, collectors, decoding). -/
structure Chain where
  tasks : List TaskSpec
  dynamic : Bool := false
  /-- tasks ended -/
  done : Nat := 0
  run : Option Run := none
  /-- the first task's layer-0 fill: absolute µs at which it began (05 R165) -/
  fillStart : Option Nat := none
  /-- the clusters on which the fill for the layer at hand, layer 0 at first, has not ended (05 R164, R165) -/
  filling0 : List Nat := []
  /-- the clusters on which the fill for the next layer is under way (05 R164) -/
  filling : List Nat := []
  /-- live T0 bytes declared at the last task boundary, and the cluster that holds them (03 R78) -/
  live : Nat := 0
  at_ : Option Nat := none
  finished : Bool := false
  /-- the sizes record that the tasks of the stage at hand see (02 R66) -/
  sizes : Sizes := {}
deriving DecidableEq, Repr

/-- A tensor of a plan (08 Table 8-3). -/
structure Tensor where
  object : Nat
  codes : Nat
  scales : Nat
  rows : Nat
  len : Nat
  /-- quantisation word (Table 6-3) -/
  qword : QWord
  cls : Nat
deriving DecidableEq, Repr

/-- An operator of a plan (08 Table 8-4). A tensor index of 0xFFFF_FFFF is none. -/
structure Operator where
  code : Nat
  /-- array product word (Table 7-6) -/
  apw : DWord
  in0 : Nat
  in1 : Nat
  in2 : Nat
  out : Nat
  params : QWord
deriving DecidableEq, Repr

/-- A plan (08 R233) in the form the model runs it. -/
structure Plan where
  object : Nat
  minClusters : Nat
  minT1 : Nat
  tasks : List TaskSpec
  ops : List Operator
  tensors : List Tensor
  /-- stages with DYNAMIC-RANGES: the pages of each expert's range (08 R242) -/
  dyn : List (Nat × List (List (Nat × Nat))) := []
  /-- the byte ranges that each of its layers reads: object, offset, length (05 R164) -/
  layers : List (List (Nat × Nat × Nat)) := []
  /-- objects that its tensors and ranges name, and those it writes -/
  objs : List Nat := []
  writes : List Nat := []
deriving DecidableEq, Repr

/-- A Milris command outstanding on a dome (04 R120). -/
structure Cmd where
  src : Src
  opcode : Nat
  dome : Nat
  tenant : Nat
  /-- objects it names (04 R129) -/
  objs : List Nat
  /-- objects it writes -/
  writes : List Nat := []
  plan : Option Plan := none
  /-- the input bytes: plan arguments and the like (04 Table 4-3) -/
  args : List Byte := []
  /-- plan scratch in T0: object ID 0 (08 R234) -/
  scratch : Mem := []
  /-- the commands whose sequences a run of a decode plan steps, in admission order (08 R255) -/
  batch : List Src := []
  /-- row scales of row-dynamic tensors in the scratch: codes offset, row, format, scale (06 R186) -/
  rowScales : List (Nat × Nat × Nat × BitVec 16) := []
  chains : List Chain := []
  /-- the host buffer of its input: T2 address and length (01 R21) -/
  inAddr : Nat := 0
  inLen : Nat := 0
  outObj : Bool := false
  outAddr : Nat := 0
  outLen : Nat := 0
  /-- output bytes produced so far -/
  out : List Byte := []
  /-- the end of the bytes written in objects -/
  wrote : List (Nat × Nat) := []
  dw0 : Nat := 0
  dw1 : Nat := 0
  tasksRun : Nat := 0
  /-- the first failure (03 R69); its tasks in flight run on, nothing further is dispatched -/
  failed : Option Failure := none
  /-- the task at which it failed: index and cluster -/
  failTask : Nat := 0xFFFFFFFF
  failCluster : Nat := 0xFFFF
  /-- its queue is being deleted: it stops at the next task boundary (04 R139) -/
  deleting : Bool := false
  /-- suspended with a semaphore, or at a task boundary (03 R88, R100) -/
  suspended : Bool := false
  /-- it waits for its turn (10 R315, 11 R343, 08 R255) -/
  waiting : Bool := false
  /-- it has ended in quiesce, and its answer stays in place on the clusters for want of T1 (03 R101) -/
  kept : Bool := false
  /-- it has been discarded while a task of it was in flight: it goes, without completion, when that task has ended (03 R69, R105) -/
  dropped : Bool := false
deriving DecidableEq, Repr

/-- A semaphore (03 R87): shared (dome none) or private to a dome (02 R50). -/
structure Sem where
  id : Nat
  dome : Option Nat
  count : Nat
  maximum : Nat
  domes : List Nat
  /-- units held: command and number -/
  held : List (Src × Nat) := []
  /-- waiters, in the order in which they blocked -/
  waiters : List TaskRef := []
  /-- the holder of a semaphore held-by-suspended (03 R88) -/
  suspended : Option Src := none
  /-- the holder lent to: command, waiter's dome, cluster, absolute µs of the restore's start (03 R89); its live T0 is out of the save area
  meanwhile -/
  lending : Option (Src × Nat × Nat × Nat) := none
deriving DecidableEq, Repr

/-- Where a partition's switch stands (03 R80 to R88). -/
inductive SwitchPhase where
  | idle | window | saving
deriving DecidableEq, Repr

/-- A switch whose slice boundary has passed before it was done (03 R82, R86). -/
structure Switch where
  outgoing : List Nat
  incoming : List Nat
  /-- clusters whose save, and whose restore, is still to end -/
  saving : List Nat
  restoring : List Nat
  /-- live T0 as it stood when the save started on a cluster: dome, cluster, bytes -/
  captured : List (Nat × Nat × Nat) := []
  /-- absolute µs of the start of the save and of the slice boundary -/
  saveAt : Nat
  boundary : Nat
  /-- the incoming domes start only when every restore has ended (R82) -/
  overrun : Bool := false
deriving DecidableEq, Repr

/-- The slice pointer of one partition, with the switch of its coming slice boundary (03 R72, R80). -/
structure SlicePtr where
  part : Nat
  /-- entry in force -/
  entry : Nat := 0
  /-- ticks left in the entry -/
  left : Nat
  /-- the entry starts on the coming boundary: its ticks do not yet count (R72) -/
  fresh : Bool := true
  phase : SwitchPhase := .idle
  /-- switch lead computed at the last tick boundary, µs (R80) -/
  lead : Nat := 0
  /-- slice debt to add to the next switch whose save has not started, µs (R86) -/
  debt : Nat := 0
  /-- absolute µs at which the window opened and at which the save started -/
  windowAt : Nat := 0
  saveAt : Nat := 0
  outgoing : List Nat := []
  incoming : List Nat := []
  /-- clusters whose save, and whose restore, is still to end -/
  saving : List Nat := []
  restoring : List Nat := []
  /-- live T0 as it stood when the save started on a cluster: dome, cluster, bytes (R80) -/
  captured : List (Nat × Nat × Nat) := []
  /-- the incoming domes start only when every restore has ended (R82) -/
  overrun : Bool := false
  /-- earlier switches that are not done, oldest first (R82, R86) -/
  late : List Switch := []
  /-- the slice has counted in the stretched-slice counter (R96) -/
  stretched : Bool := false
deriving DecidableEq, Repr

/-- The scheduler core. -/
structure Sch where
  /-- Milris commands outstanding, in fetch order | 03 R75 | [] -/
  cmds : List Cmd := []
  /-- semaphores | 03 R87 | [] -/
  sems : List Sem := []
  /-- one for each partition with a slice table | 03 R72 | [] -/
  ptrs : List SlicePtr := []
  /-- live T0 in save areas: dome, cluster, bytes | 03 R79 | [] -/
  saved : List (Nat × Nat × Nat) := []
  /-- 12 bits, the dome served first at the last tick | 03 R77 | 0 -/
  firstServed : Nat := 0
  /-- domes served since, in this tick, and whether one has been | 03 R77 | none -/
  lastServed : Option Nat := none
  /-- domes skipped until a context or T0 bytes are freed in them | 03 R77 | [] -/
  skipped : List Nat := []
  /-- cycles of the dispatch budget left in the tick | 03 R94 | 900,000 -/
  budget : Nat := 900000
  /-- demand estimated at step 6 | 03 R94 | 0 -/
  demand : Nat := 0
  /-- 4 bits, the shed steps of the tick | 03 R95 | 0 -/
  shed : BitVec 4 := 0
  /-- 1 bit, dispatches carried into the next tick | 03 R96 | false -/
  carried : Bool := false
  /-- 64 bits, the last tick in which counters were mirrored (MIRROR TICK) | 21 R549 | 0 -/
  mirrorTick : Nat := 0
  /-- the step of Table 3-1 at which the boundary under way stands: 1 while a structure change takes effect, 4 while the start of quiesce or
  the hold limit does, 5 while commits of TUNE do; 0 when no boundary is under way | 03 R71 | 0 -/
  step : Nat := 0
  /-- the demand that the boundary under way estimated: the rest, sampling, calibration | 03 R94 | (0, 0, 0) -/
  estimate : Nat × Nat × Nat := (0, 0, 0)
  /-- the part of it that dispatches, completions and semaphore operations make, which draw on the budget as they happen | 03 R94 | 0 -/
  extra : Nat := 0
  /-- flits that a dome has sent in the window at hand: cluster, dome, class, 3.2 µs window, flits | 05 R162 | [] -/
  shares : List (Nat × Nat × Nat × Nat × Nat) := []
  /-- when the last save or restore ended, µs | 17 R481 | none -/
  switchEnd : Option Nat := none
deriving DecidableEq, Repr

/-- A parked answer (03 R100): the output bytes of a command; its completion is held with the others. -/
structure Parked where
  src : Src
  dome : Nat
  outObj : Bool
  addr : Nat
  out : List Byte
  /-- the command's opcode and tenant context, for the compute error log -/
  opcode : Nat := 0
  tenant : Nat := 0
deriving DecidableEq, Repr

/-- The attachment of the driver: epoch, heartbeat and quiesce (22 Table 22-11). -/
structure Hb where
  /-- 32 bits, EPOCH | 03 R97 | 0 -/
  epoch : DWord := 0
  /-- 32 bits, QEPOCH | 22 Table 22-11 | 0 -/
  qEpoch : DWord := 0
  /-- 1 bit, ARMED | 03 R98 | false -/
  armed : Bool := false
  /-- 64 bits, NEG | 04 R135 | 0 -/
  neg : QWord := 0
  /-- absolute µs of the last heartbeat | 22 R561 | 0 -/
  lastBeat : Nat := 0
  /-- 1 bit, QUIESCED | 03 R99 | false -/
  quiesced : Bool := false
  /-- absolute µs of the start of quiesce | 03 R106 | 0 -/
  qStart : Nat := 0
  /-- 1 bit, HELDOUT | 03 R106 | false -/
  heldOut : Bool := false
  /-- answers parked in T1, in completion order | 03 R100 | [] -/
  parked : List Parked := []
  /-- completions held, in order | 03 R100, 18 R501 | [] -/
  held : List Completion := []
  /-- outbound writes to T2 held in quiesce, in order: address and bytes | 03 R100 | [] -/
  dma : List (Nat × List Byte) := []
  /-- writes to peers held in quiesce, in order: address and bytes | 10 R328 | [] -/
  peer : List (Nat × List Byte) := []
deriving DecidableEq, Repr

/-- The programmable fields of the capabilities and the heartbeat block (22 Tables 22-10, 22-11). -/
structure Settings where
  /-- 11 bits | 21 R541 | 16 -/
  period : Nat := 16
  /-- 1 bit | 14 R405 | true -/
  scales : Bool := true
  /-- 1 bit | 14 R405 | true -/
  readLevels : Bool := true
  /-- 1 bit | 14 R405 | true -/
  thermal : Bool := true
  /-- 8 bits, sixteenths | 14 R414 | 64 -/
  target : Nat := 64
  /-- 3 bits | 14 R409 | 2 -/
  step : Nat := 2
  /-- 21 bits | 14 R408 | 4,096 -/
  minRows : Nat := 4096
  /-- 16 bits | 14 R409 | 65,472 -/
  coverage : Nat := 65472
  /-- 64 bits | 14 R405 | 0 -/
  freeze : QWord := 0
  /-- 20 bits | 12 R375 | 60,000 -/
  refresh : Nat := 60000
  /-- 14 bits, ms | 03 R99 | 500 -/
  silence : Nat := 500
  /-- 12 bits, s | 03 R99 | 60 -/
  hold : Nat := 60
deriving DecidableEq, Repr

/-! ### Streams, transfers, quantiser, arrays -/

/-- A stream (05 R169 to R173). A chunk is its bytes. -/
structure Stream where
  decl : StreamDecl
  buffer : List (List Byte) := []
  spilled : List (List Byte) := []
  halted : Bool := false
  /-- the stream that could not spill (R173) -/
  haltBy : Nat := 0
  /-- a chunk has been written or read since the last boundary (R171) -/
  moved : Bool := false
  /-- chunks written into the buffer so far: where in it the next one goes (02 R570) -/
  written : Nat := 0
  /-- it is of a cycle that has been reported and is not broken yet (R172) -/
  found : Bool := false
deriving DecidableEq, Repr

/-- A transfer channel of a task (05 R174 to R178). -/
structure Transfer where
  task : TaskRef
  desc : List Byte
  /-- the objects or streams of its ends (log 31) -/
  ends : XferEnds := {}
  /-- the first chunk not delivered -/
  next : Nat := 0
  /-- the page request outstanding: faulting address -/
  request : Option Nat := none
  halted : Bool := false
  /-- where the next descriptor of its chain lies in T0, while none is under way: desc is empty then (R174) -/
  chained : Option Nat := none
deriving DecidableEq, Repr

/-- A watch slot (06 R203 to R205, 14 R406 to R411). -/
structure Watch where
  slot : Nat
  dome : Nat
  plan : Nat
  tensor : Nat
  qword : QWord
  /-- per-window counts (06 R205) -/
  wElems : Nat := 0
  wClip : Nat := 0
  wNan : Nat := 0
  /-- 128 buckets of 32 bits (14 R407) -/
  hist : List Nat := List.replicate 128 0
  /-- binary16 -/
  effective : BitVec 16
  pending : Option (BitVec 16) := none
  /-- its application has been deferred: it comes at the first boundary on which its dome is eligible (03 R95) -/
  deferred : Bool := false
  atStep : Bool := false
  applied : Nat := 0
  appliedTick : Nat := 0
  /-- the boundary at which its last window was evaluated -/
  evaluated : Option Nat := none
deriving DecidableEq, Repr

structure Qnt where
  /-- 4,096 watch slots | 06 R203 | [] -/
  slots : List Watch := []
  /-- identities refused, counted once each: dome, plan, tensor | 06 R203 | [] -/
  refused : List (Nat × Nat × Nat) := []
  /-- row scales that the quantiser wrote: object, codes offset, row, format, scale | 06 R186, R193 | [] -/
  rowScales : List (Nat × Nat × Nat × Nat × BitVec 16) := []
deriving DecidableEq, Repr

/-- An output tile (07 R219). -/
structure Tile where
  task : TaskRef
  op : Nat
  rowBlock : Nat
  laneBlock : Nat
  /-- none is UNSET -/
  exponent : Option Nat := none
  saturated : Bool := false
  /-- row-major mantissas, 24-bit signed -/
  mant : List Int := []
  passes : Nat := 0
  reruns : Nat := 0
  /-- slabs of the reduction done here, and whether the tile has been written -/
  slabs : Nat := 0
  written : Bool := false
deriving DecidableEq, Repr

/-- The arrays of a product (07 R212): its cluster, mode and the arrays or quads it keeps. -/
structure Grant where
  task : TaskRef
  op : Nat
  cluster : Nat
  quad : Bool
  arrays : List Nat
  /-- how far its quads have come on the clock of their array (07 R232; log 85) -/
  ran : Nat := 0
deriving DecidableEq, Repr

/-- A product, or a walk, that waits for arrays of its cluster (07 R212). -/
structure ArrayAsk where
  task : TaskRef
  op : Nat
  cluster : Nat
  quad : Bool
  /-- arrays, or quads of one array -/
  count : Nat
deriving DecidableEq, Repr

structure Arr where
  /-- output tiles of the tasks in flight | 07 R219 | [] -/
  tiles : List Tile := []
  /-- arrays or quads kept by products: array a is a, quad q of array a is 4a + q | 07 R212 | [] -/
  grants : List Grant := []
  /-- products that wait for arrays, in the order in which they asked | 07 R212 | [] -/
  waiting : List ArrayAsk := []
  /-- arrays in quad mode: cluster and array | 07 R214 | []: DESIGN CHOICE log 5 -/
  quads : List (Nat × Nat) := []
  /-- the task whose pass each quad of an array ran last, and its length in cycles: cluster, quad (quad q of array a is 4a + q), task,
  cycles | 07 R211, R214 | [] -/
  last : List (Nat × Nat × TaskRef × Nat) := []
  /-- cycles for which arrays in quad mode have run since quads of theirs were granted: cluster, array, cycles | 07 R232 | [] -/
  clocks : List (Nat × Nat × Nat) := []
deriving DecidableEq, Repr

/-! ### Inference -/

/-- A sequence of a GENERATE (08 R246 to R258). -/
structure Seq where
  src : Src
  dome : Nat
  part : Nat
  model : Nat
  adapter : Nat
  /-- adapter version it binds to (R252) -/
  version : Nat
  pool : Nat
  /-- admission order -/
  order : Nat
  admitted : Bool := false
  prefilled : Bool := false
  paused : Bool := false
  /-- the tick in which it paused (R246) -/
  pausedAt : Nat := 0
  /-- the blocks of the pool that it holds, in the order of its positions -/
  blocks : List Nat := []
  /-- positions written -/
  position : Nat := 0
  /-- the decode plan of its model as it was checked (R253) -/
  decode : Plan := { object := 0, minClusters := 0, minT1 := 0, tasks := [], ops := [], tensors := [] }
  tokens : List Nat := []
  prompt : List Nat
  maxNew : Nat
  maxCtx : Nat
  stops : List Nat
  /-- sampling: 0 arg-max, 1 top-k, 2 top-p, with its parameters and temperature -/
  mode : Nat
  k : Nat
  p : BitVec 16
  temp : BitVec 16
  detok : Bool
  vocab : Nat
  stopped : Option Nat := none
deriving DecidableEq, Repr

/-- An ingest arm (08 R262). -/
structure Arm where
  part : Nat
  number : Nat
  dome : Nat
  tenant : Nat
  fn : Nat
  source : Nat
  plan : Nat
  index : Nat
  cursor : Nat
  /-- the end of the bytes that commands have written in the source -/
  limit : Nat := 0
  /-- a command that wrote the source at or beyond the cursor has completed -/
  due : Bool := false
deriving DecidableEq, Repr

/-- A TUNE run (08 R265 to R267). The masters and state are binary32. -/
structure TuneRun where
  src : Src
  adapter : Nat
  steps : Nat
  step : Nat := 0
  eta : DWord
  beta1 : DWord
  beta2 : DWord
  eps : DWord
  lambda : DWord
  clip : DWord
  w : List DWord
  m : List DWord
  v : List DWord
  t : Nat
  /-- the examples in object order: target positions and token IDs; and how many a step takes -/
  examples : List (Nat × List Nat)
  batch : Nat
  /-- what the step at hand has made: terms of the gradients, each from a place in master order on, and the losses of its target positions
  (R265, R266) -/
  grads : List (Nat × List DWord) := []
  terms : List DWord := []
  /-- the inputs of the products of each target in the step at hand, decoded, with A·x: target, row, x, A·x (R265) -/
  inputs : List (Nat × Nat × List DWord × List DWord) := []
  /-- the last step has ended: the commit comes at a tick boundary -/
  ready : Bool := false
deriving DecidableEq, Repr

/-- An EMBED run (08 R259 to R261): what its plan's embedding header gives and what it has made. -/
structure EmbedRun where
  src : Src
  /-- the index of WRITE-INDEX -/
  index : Option Nat
  /-- RETURN-VECTORS -/
  returns : Bool
  dims : Nat
  format : Nat
  pooling : Nat
  normalise : Bool
  maxTokens : Nat
  vocab : Nat
  prefix_ : List Nat
  /-- texts of the command -/
  texts : Nat
  /-- node ID, attribute word, byte offset and length of each text in the input -/
  table : List (Nat × List Byte × Nat × Nat)
  input : List Byte
  /-- the source's offset after the last record, of a triggered run (08 R262) -/
  stop : Nat := 0
  /-- the records made so far, as RETURN-VECTORS returns them -/
  records : List (List Byte) := []
deriving DecidableEq, Repr

structure Inf where
  /-- EMBED runs | 08 R260 | [] -/
  embeds : List EmbedRun := []
  /-- sequences | 08 R255 | [] -/
  seqs : List Seq := []
  /-- adapter versions that sequences still use after TUNE replaced them: adapter, version, contents | 08 R252 | [] -/
  versions : List (Nat × Nat × Mem) := []
  /-- up to 16 a partition | 08 R262 | [] -/
  arms : List Arm := []
  /-- TUNE runs | 08 R267 | [] -/
  tunes : List TuneRun := []
  /-- admissions so far | 08 R246 | 0 -/
  order : Nat := 0
  /-- 1 bit, the random source passes its health test | 08 R257 | true: DESIGN CHOICE log 5 -/
  rngOk : Bool := true
deriving DecidableEq, Repr

/-! ### Search and merge -/

/-- An entry of a candidate queue (10 R308). -/
structure QEntry where
  slot : Nat
  /-- navigation distance, binary32 -/
  dist : DWord
  expanded : Bool := false
  inFlight : Bool := false
  /-- its read takes the record from the node cache (R301) -/
  hit : Bool := false
  depth : Nat := 0
deriving DecidableEq, Repr

/-- A list entry (09 Table 9-6): object ID, shard tag and distance. -/
structure ListEntry where
  id : Nat
  shard : Nat := 0
  dist : DWord
deriving DecidableEq, Repr

/-- A walk (10 R304 to R312). -/
structure Walk where
  src : Src
  walk : Nat
  query : Nat
  window : Nat
  budget : Nat
  visits : Nat := 0
  flashReads : Nat := 0
  navs : Nat := 0
  widening : Nat := 0
  queue : List QEntry := []
  /-- entries that left a full queue with their reads in flight -/
  pushed : List QEntry := []
  visited : List Nat := []
  /-- slots whose records the walk has read (10 R317) -/
  read : List Nat := []
  results : List ListEntry := []
  widened : Bool := false
  saturated : Bool := false
  transitCut : Bool := false
  readError : Bool := false
  exhausted : Bool := false
  stop : Option Nat := none
deriving DecidableEq, Repr

/-- What a SEARCH asks (04 Table 4-3, 10 Table 10-6). -/
structure SearchRun where
  src : Src
  index : Nat
  distance : Nat
  approx : Bool
  shardTag : Bool
  k : Nat
  beam : Nat
  queries : Nat
  budget : Nat
  ways : Nat
  tombHops : Nat
  filtHops : Nat
  depth : Nat
  program : List Byte
  /-- the queries as quantised to the index's format: scale and levels (10 R298) -/
  full : List (Nat × List Int)
  /-- the squared norms of the decoded queries, binary32 -/
  norms : List DWord
  /-- and of their navigation parts -/
  navNorms : List DWord
  /-- the navigation parts as quantised: scale and levels (10 R298) -/
  navQ : List (Nat × List Int)
  /-- the node to be inserted whose build walk this is (10 R317) -/
  node : Option Nat := none
deriving DecidableEq, Repr

/-- An index as it runs: its node cache (10 R300). -/
structure IndexRt where
  object : Nat
  part : Nat
  /-- bytes of T1 the cache has -/
  cacheBytes : Nat
  /-- slots cached, least recently read first -/
  cache : List Nat := []
deriving DecidableEq, Repr

/-- A node to insert: the fields of an INSERT entry (10 R316). -/
structure NodeIn where
  id : Nat
  scale : BitVec 16
  attr : List Byte
  codes : List Byte
deriving DecidableEq, Repr

/-- What the build walk of a new node found (10 R317): its node ID, the layer (0 for the record), and the slots whose records the walk read,
or which its descent met at that layer. -/
structure Relink where
  node : Nat
  layer : Nat
  cands : List Nat
deriving DecidableEq, Repr

/-- An INSERT, DELETE or COMPACT in progress (10 R315 to R322). -/
inductive IndexOp where
  | insert (nodes : List NodeIn)
  | delete (ids : List Nat)
  | compact (limit : Nat)
deriving DecidableEq, Repr

structure IndexJob where
  src : Src
  index : Nat
  op : IndexOp
  /-- what the build walks of this batch have found, and how many of its nodes they have served (10 R317) -/
  links : List Relink := []
  built : Nat := 0
  /-- the counts of the completion: inserted, tombstoned or rewritten; replaced, not found or reclaimed -/
  done0 : Nat := 0
  done1 : Nat := 0
deriving DecidableEq, Repr

/-- A MERGE (10 R326). -/
structure Merge where
  src : Src
  kind : Nat
  position : Nat
  length : Nat
  id : Nat
  k : Nat
  queries : Nat
  payload : Nat
  succBase : Nat
  succInbox : Nat
  ownInbox : Nat
  ownSlot : Nat
  predSlot : Nat
  predBase : Nat
  /-- the payload it will send, or its own partial -/
  local_ : List Byte
  merged : Bool := false
  /-- payload and header written: waits for the read-back -/
  sent : Bool := false
  removed : Nat := 0
deriving DecidableEq, Repr

structure Idx where
  /-- upper-layer lists, in the module's own layout (log 42): index object, layer, slot, neighbours | 10 R295 | []: DESIGN CHOICE log 8 -/
  upper : List (Nat × Nat × Nat × List Nat) := []
  /-- index object, and the slots tombstoned when its compact pass began, less those deleted again or re-inserted | 10 R322 | []: DESIGN CHOICE log 8 -/
  passes : List (Nat × List Nat) := []
  /-- walks | 10 R304 | [] -/
  walks : List Walk := []
  /-- searches in progress | 10 R303 | [] -/
  searches : List SearchRun := []
  /-- indexes in use | 10 R300 | [] -/
  indexes : List IndexRt := []
  /-- INSERT, DELETE and COMPACT in fetch order | 10 R315 | [] -/
  jobs : List IndexJob := []
deriving DecidableEq, Repr

structure Mrg where
  /-- the BAR4 peer window, 1 GiB | 10 R324 | [] (all bytes 0) -/
  window : Mem := []
  /-- MERGE commands in progress | 10 R326 | [] -/
  merges : List Merge := []
  /-- armed inboxes: inbox, merge ID, armed bytes | 10 R326 | [] -/
  armed : List (Nat × Nat × Nat) := []
  /-- writes issued to peers: address and bytes, in order | 10 R326 | [] -/
  sent : List (Nat × List Byte) := []
deriving DecidableEq, Repr

/-! ### Filters and scans -/

/-- An aggregate slot (11 Table 11-9): the 128-bit value, the values that contributed and the NaN values left out. -/
structure AggSlot where
  value : BitVec 128 := 0
  count : Nat := 0
  nans : Nat := 0
  /-- the binary64 terms of a SUM of F, whose order of addition is open (11 R348) -/
  terms : List Nat := []
deriving DecidableEq, Repr

/-- What one engine has of a scan (11 R339, R342, R349). -/
structure EnginePart where
  group : Nat
  loaded : Bool
  scanned : Nat := 0
  matched : Nat := 0
  outKeys : Nat := 0
  skipped : Nat := 0
  /-- group matched counts and slots -/
  groups : List (Nat × List AggSlot) := []
deriving DecidableEq, Repr

/-- A FILTER SCAN (11 R341 to R349). -/
structure Scan where
  src : Src
  object : Nat
  mode : Nat
  limit : Nat
  first : Nat
  count : Nat
  recBytes : Nat
  attrOff : Nat
  recOff : Nat
  program : List Byte
  /-- projections: record offset and length -/
  projs : List (Nat × Nat)
  /-- aggregates: kind, type, width, record offset -/
  aggs : List (Nat × Nat × Nat × Nat)
  grouped : Bool
  keyOff : Nat
  keyWidth : Nat
  groupCount : Nat
  layout : DWord
  rows : Nat := 0
  parts : List EnginePart
  /-- pages done -/
  pages : List Nat := []
  stopped : Bool := false
deriving DecidableEq, Repr

structure Scn where
  /-- kinds and types of the aggregates that scans have used, by layout check (log 44) | 11 R350 | [] -/
  layouts : List (DWord × List (Nat × Nat)) := []
  /-- scans in progress | 11 R341 | [] -/
  scans : List Scan := []
deriving DecidableEq, Repr

/-! ### Flash media -/

/-- The block states of Table 12-3. -/
inductive BlockState where
  | free | openB | closed | stale | erasing | eraseSuspended | bad | retired
deriving DecidableEq, Repr

/-- A physical block (12 R366, R375). A block with no record is FREE, with a read count of 0. -/
structure Block where
  id : Nat
  state : BlockState := .free
  reads : Nat := 0
  /-- group it is a member of -/
  group : Option Nat := none
  verified : Bool := false
  grown : Bool := false
  /-- reads that resolved to it and have not completed -/
  pendingReads : Nat := 0
deriving DecidableEq, Repr

/-- The write sources kept apart (12 R362). -/
inductive WriteSource where
  | host | object | index | gc | refresh
deriving DecidableEq, Repr

/-- An extent's key: its namespace, or 2^48 and the ID of an object, and its number there. -/
abbrev ExtKey := Nat × Nat

/-- A program operation under way: an extent's units go to a run of unit slots of the group, all of them as one coarse run or some of
them as fine-mapped units (12 R357, R358). `cached` marks data of the write cache. -/
structure Prog where
  key : ExtKey
  coarse : Bool
  at_ : Nat
  units : List Nat
  cached : Bool
deriving DecidableEq, Repr

/-- A stripe group (12 R361). Unit slot n lies in page n / 4 of the group, which is page (n / 4) / m of member (n / 4) % m. -/
structure Group where
  id : Nat
  members : List Nat
  source : WriteSource
  /-- it takes fine-mapped units -/
  fine : Bool := false
  /-- unit slots given out, of 12,288 for each member -/
  used : Nat := 0
  open_ : Bool := true
  /-- parity held (R363) -/
  parity : Bool := true
  /-- parity spilled to the SLC area (R365) -/
  spilled : Bool := false
  /-- programs under way -/
  programming : List Prog := []
  /-- source groups that wait for this group's verification (R369) -/
  sources : List Nat := []
  /-- the program count at its last program -/
  stamp : Nat := 0
deriving DecidableEq, Repr

/-- The map of an extent (12 Table 12-1). An extent with no record is UNMAPPED. -/
inductive ExtMap where
  /-- group and first unit slot -/
  | coarse (group slot : Nat)
  /-- unit, group and unit slot, for each mapped unit -/
  | fine (units : List (Nat × Nat × Nat))
deriving DecidableEq, Repr

structure Extent where
  key : ExtKey
  map : ExtMap
  /-- units lost (R382, 13 R392, 16 R461) -/
  lost : List Nat := []
deriving DecidableEq, Repr

/-- An erase or a program under way on a die (12 R377, R378): the suspends used, whether it is suspended, and how many of the reads
queued the suspend still serves. -/
structure DieOp where
  block : Nat
  erase : Bool
  suspends : Nat := 0
  suspended : Bool := false
  batch : Nat := 0
deriving DecidableEq, Repr

/-- A die's activity (12 R377, R378) and health (R382). -/
structure Die where
  id : Nat
  busy : Option DieOp := none
  /-- reads queued: block and page -/
  queued : List (Nat × Nat) := []
  retiring : Bool := false
  retired : Bool := false
deriving DecidableEq, Repr

/-- A read of a block namespace that waits for flash (12 R367). -/
structure NvmRead where
  src : Src
  nsid : Nat
  first : Nat
  count : Nat
  addr : Nat
  /-- verify only: no data is returned -/
  verify : Bool
  /-- flash reads awaited: block and page -/
  waits : List (Nat × Nat)
  failed : Bool := false
  /-- one of its flash reads has ended -/
  begun : Bool := false
deriving DecidableEq, Repr

/-- A block namespace (12 R355, 04 R111). -/
structure Ns where
  nsid : Nat
  /-- logical blocks -/
  size : Nat
  /-- LBA format: 0 is 4,096 bytes, 1 is 512 bytes -/
  fmt : Nat
  /-- functions attached -/
  attached : List Nat := []
  /-- 64-byte XTS key, by its generation number (18 R494) -/
  key : Nat
  data : Mem := []
  /-- a format or sanitize runs on it (04 R145) -/
  busy : Bool := false
deriving DecidableEq, Repr

/-- Progress of a format or sanitize (04 Table 4-12). -/
structure Progress where
  fn : Nat
  op : Nat
  state : Nat
  progress : Nat := 0
  nsid : Nat
  interruptions : Nat := 0
  status : Nat := 0
  src : Option Src := none
  /-- the LBA format that a format sets -/
  lbaf : Nat := 0
  /-- progress recorded last in the reserved SLC area, and the tick of the record (04 R145) -/
  recorded : Nat := 0
  recordedTick : Nat := 0
deriving DecidableEq, Repr

/-- A dirty unit of the write cache: namespace, unit. -/
abbrev Unit4K := Nat × Nat

/-- A Write that waits: for cache space, or for its program when the cache is write-through (16 R463). -/
structure WriteWait where
  n : Nvm
  programmed : Bool
deriving DecidableEq, Repr

structure Fls where
  /-- block-state table, 5,591,040 blocks | 12 R366 | [] (every block FREE): DESIGN CHOICE log 8 -/
  blocks : List Block := []
  /-- stripe groups | 12 R361 | [] -/
  groups : List Group := []
  /-- Logical Extent Table, 16,777,216 entries | 12 R354 | [] (UNMAPPED): DESIGN CHOICE log 8 -/
  extents : List Extent := []
  /-- the map as the last checkpoint holds it, which the journal's deltas follow | 16 R459, 14 R416 | []: DESIGN CHOICE log 8 -/
  checkpoint : List Extent := []
  /-- 512 dies with something to say | 12 R377 | [] -/
  dies : List Die := []
  /-- FREE blocks, 24 bits | 12 R368, Table 12-7 | 5,468,980: DESIGN CHOICE log 8 -/
  free : Nat := 5468980
  /-- spares remaining | 12 R372 | 696,512 (the factory spares at least, Table 12-2): DESIGN CHOICE log 8 -/
  spares : Nat := 696512
  /-- grown bad blocks, 32 bits saturating | 12 R372 | 0: DESIGN CHOICE log 8 -/
  grownBad : Nat := 0
  /-- 1 bit, flash read-only, for ever | 12 R374 | false: DESIGN CHOICE log 8 -/
  readOnly : Bool := false
  /-- 1 bit, Critical Warning bit 2: data lost | 12 R373 | false: DESIGN CHOICE log 8 -/
  dataLost : Bool := false
  /-- blocks queued for refresh | 12 R375 | [] -/
  refreshQ : List Nat := []
  /-- dirty units of the protected write cache | 12 R357 | [] -/
  dirty : List Unit4K := []
  /-- units being programmed: taken from the cache by a destage | 12 R357 | [] -/
  inFlight : List Unit4K := []
  /-- whole extents of objects that wait in the write cache | 12 R357 | [] -/
  dirtyExt : List ExtKey := []
  /-- MiB, size of the protected write cache | 16 R462 | 4,096 -/
  cacheMiB : Nat := 4096
  /-- MiB, size to which it shrinks | 16 R463 | none -/
  cacheTarget : Option Nat := none
  /-- Writes that wait | 16 R463 | [] -/
  writes : List WriteWait := []
  /-- reads that wait for flash | 12 R367 | [] -/
  reads : List NvmRead := []
  /-- Media and Data Integrity Errors | 12 R373 | 0: DESIGN CHOICE log 8 -/
  mediaErrors : Nat := 0
  /-- programs so far, which order the groups by last program | 12 R365 | 0 -/
  programs : Nat := 0
  /-- QLC program/erase cycles summed over the blocks in service | 12 R373 | 0: DESIGN CHOICE log 8 -/
  peCycles : Nat := 0
  /-- groups formed so far: the next group number | 12 R361 | 0 -/
  nextGroup : Nat := 0
  /-- block namespaces 1 to 256 | 04 R111 | []: DESIGN CHOICE log 8 -/
  nss : List Ns := []
  /-- format and sanitize progress, one for each function | 04 R142 | [] (operation 0, idle) -/
  progress : List Progress := []
  /-- the retirements under way: die, sender and the extents with a page on it | 12 R380 | [] -/
  retire : List (Nat × Option Src × Nat) := []
deriving DecidableEq, Repr

/-! ### Integrity and the error logs -/

/-- An entry of the device error log (13 Table 13-5). -/
structure DevEntry where
  first : Nat
  last : Nat
  seq : Nat
  merged : Nat
  /-- kind and index (Table 13-6) -/
  kind : Nat
  index : Nat
  cls : Nat
  uncorrectable : Bool
  flags : Nat := 0
  address : Nat := 0
  syndrome : Nat := 0
  symbols : Nat := 0
  erasures : Nat := 0
  dome : Nat := 0xFFFF
  fn : Nat := 0xFFFF
  linked : Nat := 0
deriving DecidableEq, Repr

/-- An entry of a compute error log (04 Table 4-11). -/
structure CmpEntry where
  tick : Nat
  sq : Nat
  cid : Nat
  opcode : Nat
  sct : Nat
  sc : Nat
  dome : Nat
  tenant : Nat
  cluster : Nat := 0xFFFF
  fn : Nat
  task : Nat := 0xFFFFFFFF
  detail : Nat := 0
  object : Nat := 0
  cursor : List Nat := []
  seq : Nat
deriving DecidableEq, Repr

/-- A function's compute error log (04 R141). -/
structure CmpLog where
  fn : Nat
  entries : List CmpEntry := []
  /-- sequence number of the newest entry, 32 bits, wraps -/
  seq : BitVec 32 := 0
  overwritten : Nat := 0
deriving DecidableEq, Repr

/-- A merge key of the current tick (13 R400). -/
structure MergeKey where
  kind : Nat
  index : Nat
  cls : Nat
  first : Nat
  last : Nat
  count : Nat
  /-- the flags of its reports together, and what its first report says of the place (log 53) -/
  flags : Nat := 0
  address : Nat := 0
  syndrome : Nat := 0
  symbols : Nat := 0
  erasures : Nat := 0
deriving DecidableEq, Repr

/-- A scrubber's lap (13 R394, R395): next frame, words corrected in the lap before, laps done. -/
structure Scrub where
  /-- 0 to 799 a cluster, 800 + package a package -/
  unit_ : Nat
  next : Nat := 0
  /-- frame and word corrected in this lap and in the one before -/
  now : List (Nat × Nat) := []
  before : List (Nat × Nat) := []
  lapDone : Bool := false
deriving DecidableEq, Repr

structure Itg where
  /-- ring of up to 256 entries, oldest first | 13 R399 | [] -/
  ring : List DevEntry := []
  /-- 32 bits, wraps: sequence of the newest entry | 13 R399 | 0 -/
  seq : BitVec 32 := 0
  /-- 32 bits, saturating | 13 R399 | 0 -/
  lost : Nat := 0
  /-- 1 bit: a drop has been counted since the last clear | 13 R401 | false -/
  dropped : Bool := false
  /-- up to 64 merge keys of the tick, in order of first report | 13 R400 | [] -/
  keys : List MergeKey := []
  /-- compute error logs, one for each function | 04 R141 | [] (empty logs) -/
  logs : List CmpLog := []
  /-- poisoned words: frame and word | 13 R391 | [] -/
  poisoned : List (FrameAt × Nat) := []
  /-- frames moved to a spare: package and frame, one for each spare used | 13 R388, R391 | [] -/
  spares : List (Nat × Nat) := []
  /-- uncorrectable T0 frames of each cluster since reset | 13 R393 | [] -/
  t0Bad : List (Nat × Nat) := []
  /-- DRAM channel groups retired (recorded in the system area) | 13 R398 | []: DESIGN CHOICE log 8 -/
  retired : List Nat := []
  /-- retirements that wait for their boundary or migrate: group, sender, lowered | 13 R396 | [] -/
  retiring : List (Nat × Option Src × Bool) := []
  /-- packages that stopped responding | 13 R398 | [] -/
  deadPkgs : List Nat := []
  /-- scrubbers that have started | 13 R394 | [] -/
  scrubs : List Scrub := []
  /-- µs, last T0 lap | 13 R395, Table 4-13 | 0xFFFF_FFFF -/
  t0Lap : Nat := 0xFFFFFFFF
  /-- s, last T1 lap | 13 R395, Table 4-13 | 0xFFFF_FFFF -/
  t1Lap : Nat := 0xFFFFFFFF
deriving DecidableEq, Repr

/-! ### Calibration -/

/-- Decoder statistics (14 R414): corrected reads, their iterations, and the bits above and below each threshold. -/
structure RdStats where
  reads : Nat := 0
  iterations : Nat := 0
  up : List Nat := List.replicate 15 0
  down : List Nat := List.replicate 15 0
deriving DecidableEq, Repr

/-- A block group's read levels (14 R413, R414). A group with no record has offsets 0. -/
structure RdGroup where
  id : Nat
  offsets : List Int := List.replicate 15 0
  pending : Option (List Int) := none
  atLimit : Bool := false
  stats : RdStats := {}
  /-- the sample reads of SERVICE 0x06: how many have ended, and their statistics (R417) -/
  sample : Option (Nat × RdStats) := none
deriving DecidableEq, Repr

/-- Where a bank measurement stands (14 R421). -/
inductive BankPhase where
  | idle | shrinking | drawing | recharging
deriving DecidableEq, Repr

structure Cal where
  /-- 88,064 block groups | 14 R413 | []: DESIGN CHOICE log 8 -/
  groups : List RdGroup := []
  /-- the offsets of the last checkpoint | 14 R416 | []: DESIGN CHOICE log 8 -/
  checkpoint : List RdGroup := []
  /-- 64 bits, tick of the last checkpoint | 14 R416 | 0 -/
  checkpointTick : Nat := 0
  /-- SERVICE 0x06 under way: sender, groups to do, groups changed | 14 R417 | [] -/
  recal : List (Src × List Nat × Nat) := []
  /-- 40 live trims, −16 to +16 steps of 0.125 °C | 14 R418 | 0 each -/
  trims : List Int := List.replicate 40 0
  /-- trims that wait for the next tick boundary | 14 R418 | none -/
  trimsNext : Option (List Int) := none
  /-- sensors that have raised thermal-trim-limit | 14 R418 | [] -/
  trimRaised : List Nat := []
  /-- last trimmed readings, eighths of a degree | 14 Table 14-7 | [] (no sample yet) -/
  readings : List Int := []
  /-- mJ, usable energy as last measured | 14 R421, 16 R464 | 30,000 (nominal bank, Table 1-1): DESIGN CHOICE log 9 -/
  energy : Nat := 30000
  /-- µF | 14 Table 14-8 | 98,700 (nominal bank, R421): DESIGN CHOICE log 9 -/
  capUF : Nat := 98700
  /-- µΩ | 14 Table 14-8 | 0: DESIGN CHOICE log 9 -/
  esr : Nat := 0
  /-- µV, the bank's voltage as the charger brings it up after a power-up | 16 R464 | 27,000,000: DESIGN CHOICE log 9 -/
  bankUV : Nat := 27000000
  /-- 64 bits, tick of the last completed measurement | 14 Table 14-8 | 0 -/
  bankTick : Nat := 0
  /-- result code 0 to 5 | 14 Table 14-8 | 0 -/
  bankResult : Nat := 0
  /-- enumeration: where the bank measurement stands | 14 R420 | idle -/
  bankPhase : BankPhase := .idle
  /-- senders of SERVICE 0x07, and whether the measurement under way is theirs | 14 R420 | [] -/
  bankSrc : List (Src × Bool) := []
  /-- µF, mJ and µΩ of the draw that has ended, until the measurement completes | 14 R421 | none -/
  bankNew : Option (Nat × Nat × Nat) := none
  /-- snapshot of log page 0xC3 | 14 R424 | [] -/
  snapshot : List Byte := []
deriving DecidableEq, Repr

/-! ### The Belfry -/

/-- An event group (15 R430 to R432, Table 15-2). -/
structure EvGroup where
  /-- 10 bits, µs | 15 Table 15-2 | 0 -/
  holdoff : Nat := 0
  /-- 1 bit | 15 Table 15-2 | true -/
  enable : Bool := true
  /-- 1 bit | 15 R430 | false -/
  new : Bool := false
  /-- absolute µs at which the running hold-off ends | 15 R432 | none -/
  holding : Option Nat := none
  /-- 11 bits, vector on the physical function | 15 Table 15-2 | 0x7E0 + g -/
  vector : Nat
  /-- 6 bits, vector on a virtual function | 15 Table 15-2 | 32 + g -/
  vfVector : Nat
  /-- 16 bits, wraps | 15 Table 15-2 | 0 -/
  deliveries : BitVec 16 := 0
  /-- receiver: 0x000 or a partition | 15 R435 | 0 -/
  receiver : Nat := 0
deriving DecidableEq, Repr

structure Evt where
  /-- 4,096 bits: pending sources | 15 R426 | [] -/
  pend : List Nat := []
  /-- 4,096 bits: sources unmasked (EVMASK resets to all ones) | 15 R441 | [] -/
  unmasked : List Nat := []
  /-- 4,096 bits: lines that are high | 15 R426 | [] -/
  level : List Nat := []
  /-- 8 bits each, saturating: source and edges | 15 R427 | [] -/
  edges : List (Nat × Nat) := []
  /-- 32 bits each: source and detail word | 15 R427 | [] -/
  detail : List (Nat × DWord) := []
  /-- 32 groups | 15 R430 | Table 15-2 -/
  groups : List EvGroup :=
    (List.range 32).map fun g => { vector := 0x7E0 + g, vfVector := 32 + g : EvGroup }
  /-- sources that the image assigns: source and group | 15 R438 | [] -/
  assigned : List (Nat × Nat) := []
  /-- 12 bits for each function, EDGESEL | 15 Table 15-3 | [] (0 each) -/
  edgeSel : List (Nat × Nat) := []
  /-- value that the last read of EDGECNT returned | 15 R427 | 0 -/
  edgeRead : Nat := 0
deriving DecidableEq, Repr

/-! ### Power -/

/-- The states of a power domain (16 R443). -/
inductive DomState where
  | on | gated | retain | off
deriving DecidableEq, Repr

structure Domain where
  /-- enumeration: ON, GATED, RETAIN, OFF | 16 R443 | Pwr.domains says -/
  state : DomState := .on
  /-- full ticks spent GATED, or idle | 16 R445 | 0 -/
  idle : Nat := 0
  /-- 1 bit, bands only: its core image is the new one | 17 R481 | false -/
  newImage : Bool := false
deriving DecidableEq, Repr

structure Pwr where
  /-- 50 domains | 16 R443 | cluster bands OFF (every cluster in the free pool), Lantern OFF, the others ON (Table 16-1): log 10 -/
  domains : List Domain :=
    List.replicate 25 ({ state := .off } : Domain) ++ List.replicate 24 ({ } : Domain) ++ [({ state := .off } : Domain)]
  /-- W: 150, 300, 450 or 600 | 16 R449 | 600: DESIGN CHOICE log 8 -/
  sense : Nat := 600
  /-- power state 0 to 2 | 16 R449 | 0 -/
  ps : Nat := 0
  /-- power state set for the next boundary | 16 R449 | none -/
  psNext : Option Nat := none
  /-- 4 bits | 16 R451 | 0 -/
  powerLevel : Nat := 0
  /-- 4 bits | 16 R451 | 0 -/
  thermalLevel : Nat := 0
  /-- 4 bits, the applied throttle level of this tick | 16 R451 | 0 -/
  level : Nat := 0
  /-- consecutive ticks below 95 % of the cap | 16 R451 | 0 -/
  calm : Nat := 0
  /-- µs for which samples have stayed above 1.15 × the sense limit | 16 R451 | 0 -/
  over115 : Nat := 0
  /-- 1 bit: level 15 at the next boundary | 16 R451 | false -/
  force15 : Bool := false
  /-- W, average power of the last tick | 16 R450 | 0 -/
  tickPower : Nat := 0
  /-- consecutive ticks at level 15 with the average above the cap | 16 R454 | 0 -/
  overTicks : Nat := 0
  /-- consecutive ticks at or below the cap | 16 R454 | 0 -/
  underTicks : Nat := 0
  /-- 4 cause bits of the power emergency | 16 R454 | 0 -/
  causes : BitVec 4 := 0
  /-- 1 bit | 16 R454 | false -/
  thermalEmerg : Bool := false
  /-- mV, edge-connector input at the last sample | 16 R450 | 12,000: DESIGN CHOICE log 5 -/
  edgeMv : Nat := 12000
  /-- mV, 12V-2x6 input at the last sample | 16 R450 | 12,000: DESIGN CHOICE log 5 -/
  auxMv : Nat := 12000
  /-- 64 bits: tick of the last boundary before which an input was below 11.3 V, for each input | 16 R454 | 0 -/
  edgeLow : Nat := 0
  /-- 64 bits: the same for the 12V-2x6 input | 16 R454 | 0 -/
  auxLow : Nat := 0
  /-- 64 bits: the first boundary at which no emergency is active any longer, none while one is | 17 R484, 14 R420 | some 0 -/
  calmSince : Option Nat := some 0
  /-- eighths of a degree, highest trimmed reading at the last sample | 16 R451 | 560 (70 °C, R5): DESIGN CHOICE log 5 -/
  temp : Int := 560
  /-- µs for which module power has stayed below 40 W | 14 R418 | 0 -/
  lowPowerUs : Nat := 0
deriving DecidableEq, Repr

/-! ### Firmware -/

/-- A slot record (17 R468). -/
structure SlotRecord where
  sequence : Nat
  length : Nat
  security : Nat
  build : Nat
  revision : List Byte
  staged : Bool
  digest : List Byte
deriving DecidableEq, Repr

/-- A firmware slot (17 R466): its record page as programmed and its image area. -/
structure Slot where
  record : Option SlotRecord
  image : Mem
  length : Nat
deriving DecidableEq, Repr

/-- The cores of a live activation, in order (17 R481). -/
inductive SwapCore where
  | band (b : Nat) (stopped : Option Nat)
  | scheduler (since : Nat)
  | keep (since : Nat)
  | vane (since : Nat)
deriving DecidableEq, Repr

/-- A commit that programs (17 R480): slot, commit action and the image checked. -/
structure Commit where
  src : Src
  slot : Nat
  action : Nat
  image : Mem
  length : Nat
deriving DecidableEq, Repr

structure Fw where
  /-- slot 1 | 17 R466 | the shipped image (shippedSlot): DESIGN CHOICE log 11 -/
  slot1 : Slot
  /-- slot 2 | 17 R466 | no image: DESIGN CHOICE log 11 -/
  slot2 : Slot
  /-- booted slot, 1 or 2; 0 before start-up chooses | 17 R473 | 1: DESIGN CHOICE log 11 -/
  booted : Nat := 1
  /-- slot whose image each core runs: cluster bands by Pwr.domains, scheduler, Keep, Vane | 17 R483 | 1: DESIGN CHOICE log 11 -/
  scheduler : Nat := 1
  /-- slot whose image the Keep runs | 17 R483 | 1: DESIGN CHOICE log 11 -/
  keep : Nat := 1
  /-- slot whose image the Vane runs | 17 R483 | 1: DESIGN CHOICE log 11 -/
  vane : Nat := 1
  /-- slot each band runs | 17 R483 | 1 each: DESIGN CHOICE log 11 -/
  bands : List Nat := List.replicate 25 1
  /-- staged pieces of the download: offset and length | 17 R479 | [] -/
  pieces : List (Nat × Nat) := []
  /-- staged bytes | 17 R479 | [] -/
  staged : Mem := []
  /-- the commit whose programming runs | 17 R480 | none -/
  commit : Option Commit := none
  /-- the live activation: target slot, next core, held, sender of the commit | 17 R481 | none -/
  activation : Option (Nat × SwapCore × Bool × Option Src) := none
  /-- 1 bit: a commit with CA 001b or 010b has written its record | 17 R482 | false -/
  pendingNext : Bool := false
deriving DecidableEq, Repr

/-! ### Security -/

/-- A loaded tenant key (18 R495). -/
structure TenantKey where
  tenant : Nat
  part : Nat
  key : BitVec 256
deriving DecidableEq, Repr

/-- An IDE stream (18 R500). -/
structure IdeStream where
  id : Nat
  keys : List IdeKey := []
  /-- key set in use -/
  active : Option Nat := none
  insecure : Bool := false
deriving DecidableEq, Repr

/-- Security: keys, fuses and the SPDM conversation (18 R485 to R501). -/
structure Sec where
  /-- up to 4,096 | 18 R495 | [] -/
  keys : List TenantKey := []
  /-- 0 to 128, burned fuses | 18 R488 | 0: DESIGN CHOICE log 11 -/
  floor : Nat := 0
  /-- 4 revocation fuses | 18 R487 | 0: DESIGN CHOICE log 11 -/
  revoked : BitVec 4 := 0
  /-- 1 fuse: observation off | 18 R505 | false: DESIGN CHOICE log 11 -/
  obsOff : Bool := false
  /-- media key, by its generation number | 18 R494, R499 | 0 -/
  mediaGen : Nat := 0
  /-- namespace keys generated so far | 18 R494 | 0 -/
  nsKeys : Nat := 0
  /-- 64 bytes: digest of the Keep section that booted, which the alias key and certificate carry | 18 R485 | Config.bootKeepDigest -/
  aliasDigest : List Byte
  /-- security version in the alias certificate | 18 R486 | 0: log 11 -/
  aliasSecver : Nat := 0
  /-- 0 none, 1 version, 2 capabilities, 3 algorithms | 18 R490 | 0 -/
  spdm : Nat := 0
  /-- SPDM transcript: the version, capabilities and algorithms messages | 18 R491 | [] -/
  vca : List Byte := []
  /-- SPDM transcript: the digest and certificate messages since the last challenge | 18 R491 | [] -/
  transcript : List Byte := []
  /-- SPDM transcript: the measurement messages since the last signature | 18 R491 | [] -/
  measured : List Byte := []
  /-- open sessions (at most 2): session ID and established | 18 R490 | [] -/
  sessions : List (Nat × Bool) := []
  /-- sessions opened so far, which number them | 18 R490 | 0 -/
  opened : Nat := 0
  /-- one link stream (0) and eight selective streams (1 to 8) | 18 R500 | [] (none programmed) -/
  ide : List IdeStream := []
deriving DecidableEq, Repr

/-! ### Lantern, management, outputs -/

/-- A packet (21 R544): its type, source bit, timestamp and payload bytes 12 to 31. -/
structure Packet where
  type_ : Nat
  source : Nat
  seq : Nat
  time : Nat
  payload : List Byte
deriving DecidableEq, Repr

structure Lan where
  /-- 1 bit, ENABLED | 21 R539 | false -/
  enabled : Bool := false
  /-- 64 bits, MASK | 21 R539 | 1 -/
  mask : QWord := 1
  /-- actions that wait for the next tick boundary: 0 disable, 1 enable, 2 mask | 21 R539 | [] -/
  pending : List (Nat × QWord) := []
  /-- 1 bit, pin LPRES high | 19 R519 | false -/
  lpres : Bool := false
  /-- up to 16,384 packets awaiting transmission | 21 R546 | [] -/
  fifo : List Packet := []
  /-- 16 bits, next sequence number | 21 R544 | 0 -/
  seq : Nat := 0
  /-- 1 bit: packets are being formed (RING_STATUS ACTIVE) | 21 R547 | false -/
  active : Bool := false
  /-- 32 bits, RING_TOTAL, wraps | 21 R547 | 0 -/
  total : Nat := 0
  /-- mirror ring, 32,768 slots: slot and packet | 21 R547 | [] -/
  ring : List (Nat × Packet) := []
  /-- records dropped since the last LOSS, first and last drop | 21 R546 | none -/
  drops : Option (Nat × Nat × Nat) := none
  /-- packets sent in this tick, both lanes | 21 Table 21-3 | 0 -/
  sentNow : Nat := 0
  /-- packets sent in the tick before | 21 Table 21-3 | 0 -/
  sentLast : Nat := 0
deriving DecidableEq, Repr

/-- The SMBus endpoint (19 R516). -/
structure Mgt where
  /-- kHz: 100 or 400 | 19 R516 | 100: PRESUMED (NVMe-MI) log 7 -/
  freq : Nat := 100
  /-- bytes, MCTP transmission unit | 19 R517 | 64: PRESUMED (NVMe-MI) log 7 -/
  mtu : Nat := 64
  /-- 1 bit: the interface drives an answer: set with each answer, cleared when the interface resets | 20 R532 | false -/
  busy : Bool := false
deriving DecidableEq, Repr

/-- What leaves the module (01 R21, R22), in order. -/
structure Out where
  /-- completion entries posted | 04 R123 | [] -/
  posted : List Completion := []
  /-- MSI-X messages: function and vector | 15 R431 | [] -/
  msix : List (Nat × Nat) := []
  /-- page request messages: function, PASID and address | 05 R177 | [] -/
  pages : List (Nat × Option Nat × Nat) := []
  /-- DOE and SPDM responses | 18 R490 | [] -/
  doe : List (List Byte) := []
  /-- SMBus responses | 19 R517 | [] -/
  smbus : List (List Byte) := []
  /-- Lantern packets sent: lane and packet | 21 R538 | [] -/
  lantern : List (Nat × Packet) := []
deriving DecidableEq, Repr

/-- The state of the module. -/
structure State where
  /-- 64 bits, wraps | 03 R67 | 0 -/
  tick : BitVec 64 := 0
  life : Life := {}
  fns : List Func := [{ id := 0 }]
  q : Queues := {}
  str : Str := {}
  obj : Objs := {}
  sch : Sch := {}
  hb : Hb := {}
  /-- RW fields as written | 22 R560 | Tables 22-10, 22-11 -/
  reg : Settings := {}
  /-- RW fields in force since the last tick boundary | 22 R560 | Tables 22-10, 22-11 -/
  eff : Settings := {}
  /-- streams | 05 R169 | [] -/
  strm : List Stream := []
  /-- transfer channels | 05 R175 | [] -/
  xfer : List Transfer := []
  qnt : Qnt := {}
  arr : Arr := {}
  inf : Inf := {}
  idx : Idx := {}
  mrg : Mrg := {}
  scn : Scn := {}
  fls : Fls := {}
  itg : Itg := {}
  cal : Cal := {}
  evt : Evt := {}
  pwr : Pwr := {}
  fw : Fw
  sec : Sec
  lan : Lan := {}
  mgt : Mgt := {}
  /-- counters that are not 0: counter, index and value | 22 R565 | [] -/
  ctr : List (Ctr × Nat × Nat) := []
  /-- the counters as last mirrored to the counter window | 21 R549 | [] -/
  mirror : List (Ctr × Nat × Nat) := []
  out : Out := {}
  /-- the MODEL's own: free values drawn so far (log 3) | 08 R257 | 0: DESIGN CHOICE log 3 -/
  free : Nat := 0
  /-- the commands that wait, first in, first out | the block's queue | [] -/
  pending : List Instr := []
deriving DecidableEq, Repr

/-- Faults of the block: none. The spec gives every command of the table an effect, a status or a reason why it does not
happen; so no constructor is needed and nobody raises one (safe: nothing is cut short). -/
inductive Fault
deriving DecidableEq, Repr

/-- Refusals. -/
inductive Refusal where
  /-- Raised by an arm of exec whose command has no meaning yet, by its mnemonic. Safe: the machine stops. -/
  | notModelled (mnemonic : String)
deriving DecidableEq, Repr

/-- The image that the module ships with, in slot 1 (log 11). -/
def shippedSlot : Slot where
  record := some { sequence := 1, length := Config.shippedLength, security := Config.shippedSecurity,
                   build := Config.shippedBuild, revision := Config.shippedRevision, staged := false,
                   digest := Config.shippedDigest }
  image := (List.range Config.shippedLength).filterMap fun a =>
    if Config.shippedByte a = 0 then none else some (a, Config.shippedByte a)
  length := Config.shippedLength

/-- The module right after reset: the moment at which configuration space first becomes ready after a power-up (00 R18). -/
def State.reset : State where
  fw := { slot1 := shippedSlot, slot2 := { record := none, image := [], length := 0 } }
  sec := { aliasDigest := Config.bootKeepDigest }

end Sys2Proof.Machine
end

