-- ==== Sys2Proof/Machine/Memory.lean ====
section
/-! DEFINITION. The operations over a memory: a canonical list of addresses and bytes, in which an unlisted byte reads 0
(log 6). -/

namespace Sys2Proof.Machine

open Sys2Proof

/-- The canonical form: addresses strictly rising, no zero byte listed (log 6). -/
abbrev Memory.wf (m : Mem) : Prop := m.Pairwise (fun x y => x.1 < y.1) ∧ ∀ c ∈ m, c.2 ≠ 0

/-- Read a byte. -/
def memGet : Mem → Nat → Byte
  | [], _ => 0
  | (k, v) :: r, a => if k = a then v else memGet r a

/-- Write a byte. -/
def memSet : Mem → Nat → Byte → Mem
  | [], a, b => if b = 0 then [] else [(a, b)]
  | (k, v) :: r, a, b =>
    if a < k then (if b = 0 then (k, v) :: r else (a, b) :: (k, v) :: r)
    else if a = k then (if b = 0 then r else (a, b) :: r)
    else (k, v) :: memSet r a b

/-- Write bytes from an address up. -/
def memPut : Mem → Nat → List Byte → Mem
  | m, _, [] => m
  | m, a, b :: r => memPut (memSet m a b) (a + 1) r

/-- Read n bytes from an address up. -/
def memRead (m : Mem) : Nat → Nat → List Byte
  | _, 0 => []
  | a, n + 1 => memGet m a :: memRead m (a + 1) n

/-- Set n bytes from an address up to 0. -/
def memClear (m : Mem) (a n : Nat) : Mem := m.filter fun c => !(a ≤ c.1 && c.1 < a + n)

/-- The bytes of a list as a memory. -/
def memOf (bs : List Byte) : Mem := memPut [] 0 bs

/-- The little-endian field of n bytes at an address. -/
def memLE (m : Mem) (a n : Nat) : Nat := ofLE (memRead m a n)

end Sys2Proof.Machine
end

