-- ==== Sys2Proof/Machine/Update.lean ====
section
/-! DEFINITION. One named update for each record of State; every write to the state goes through one of them. -/

namespace Sys2Proof.Machine

open Sys2Proof

/-- Update the `life` record. -/
def State.modLife (s : State) (f : Life → Life) : State := { s with life := f s.life }
/-- Update the `fns` record. -/
def State.modFns (s : State) (f : List Func → List Func) : State := { s with fns := f s.fns }
/-- Update the `q` record. -/
def State.modQ (s : State) (f : Queues → Queues) : State := { s with q := f s.q }
/-- Update the `str` record. -/
def State.modStr (s : State) (f : Str → Str) : State := { s with str := f s.str }
/-- Update the `obj` record. -/
def State.modObj (s : State) (f : Objs → Objs) : State := { s with obj := f s.obj }
/-- Update the `sch` record. -/
def State.modSch (s : State) (f : Sch → Sch) : State := { s with sch := f s.sch }
/-- Update the `hb` record. -/
def State.modHb (s : State) (f : Hb → Hb) : State := { s with hb := f s.hb }
/-- Update the `reg` record. -/
def State.modReg (s : State) (f : Settings → Settings) : State := { s with reg := f s.reg }
/-- Update the `eff` record. -/
def State.modEff (s : State) (f : Settings → Settings) : State := { s with eff := f s.eff }
/-- Update the `strm` record. -/
def State.modStrm (s : State) (f : List Stream → List Stream) : State := { s with strm := f s.strm }
/-- Update the `xfer` record. -/
def State.modXfer (s : State) (f : List Transfer → List Transfer) : State := { s with xfer := f s.xfer }
/-- Update the `qnt` record. -/
def State.modQnt (s : State) (f : Qnt → Qnt) : State := { s with qnt := f s.qnt }
/-- Update the `arr` record. -/
def State.modArr (s : State) (f : Arr → Arr) : State := { s with arr := f s.arr }
/-- Update the `inf` record. -/
def State.modInf (s : State) (f : Inf → Inf) : State := { s with inf := f s.inf }
/-- Update the `idx` record. -/
def State.modIdx (s : State) (f : Idx → Idx) : State := { s with idx := f s.idx }
/-- Update the `mrg` record. -/
def State.modMrg (s : State) (f : Mrg → Mrg) : State := { s with mrg := f s.mrg }
/-- Update the `scn` record. -/
def State.modScn (s : State) (f : Scn → Scn) : State := { s with scn := f s.scn }
/-- Update the `fls` record. -/
def State.modFls (s : State) (f : Fls → Fls) : State := { s with fls := f s.fls }
/-- Update the `itg` record. -/
def State.modItg (s : State) (f : Itg → Itg) : State := { s with itg := f s.itg }
/-- Update the `cal` record. -/
def State.modCal (s : State) (f : Cal → Cal) : State := { s with cal := f s.cal }
/-- Update the `evt` record. -/
def State.modEvt (s : State) (f : Evt → Evt) : State := { s with evt := f s.evt }
/-- Update the `pwr` record. -/
def State.modPwr (s : State) (f : Pwr → Pwr) : State := { s with pwr := f s.pwr }
/-- Update the `fw` record. -/
def State.modFw (s : State) (f : Fw → Fw) : State := { s with fw := f s.fw }
/-- Update the `sec` record. -/
def State.modSec (s : State) (f : Sec → Sec) : State := { s with sec := f s.sec }
/-- Update the `lan` record. -/
def State.modLan (s : State) (f : Lan → Lan) : State := { s with lan := f s.lan }
/-- Update the `mgt` record. -/
def State.modMgt (s : State) (f : Mgt → Mgt) : State := { s with mgt := f s.mgt }
/-- Update the `ctr` record. -/
def State.modCtr (s : State) (f : List (Sys2Proof.Machine.Ctr × Nat × Nat) → List (Sys2Proof.Machine.Ctr × Nat × Nat)) : State := { s with ctr := f s.ctr }
/-- Update the `out` record. -/
def State.modOut (s : State) (f : Out → Out) : State := { s with out := f s.out }

end Sys2Proof.Machine
end

