-- ==== Sys2Proof/Machine/Trace.lean ====
section
/-! DEFINITION. Time, counters, free values, and the packets of the Lantern port (03 R67; 00 R19; 21 R539 to R546). -/

namespace Sys2Proof.Machine

open Sys2Proof

/-! ### Time and counters -/

/-- The absolute time in µs of a moment `us` after the last tick boundary (03 R67, 00 R8; log 4). -/
def State.now (s : State) (us : Nat) : Nat := s.tick.toNat * 500 + us

/-- A counter's value; an unlisted counter is 0. -/
def ctrGet (s : State) (c : Ctr) (i : Nat) : Nat :=
  ((s.ctr.find? fun e => e.1 == c && e.2.1 == i).map (·.2.2)).getD 0

/-- Give a counter a value; 0 is not listed. -/
def ctrSet (c : Ctr) (i v : Nat) (s : State) : State :=
  s.modCtr fun l =>
    let r := l.filter fun e => !(e.1 == c && e.2.1 == i)
    if v = 0 then r else (c, i, v) :: r

/-- The value after a counter rises by n: it wraps or saturates at its width (00 R19). -/
def ctrNext (c : Ctr) (v n : Nat) : Nat :=
  match c.spec.atMax with
  | .wraps => (v + n) % 2 ^ c.spec.width
  | _ => sat (2 ^ c.spec.width - 1) (v + n)

/-- Add to a counter (00 R19). -/
def ctrAdd (c : Ctr) (i n : Nat) (s : State) : State := ctrSet c i (ctrNext c (ctrGet s c i) n) s

/-! ### Free values (log 3) -/

/-- Draw a free value: nothing constrains it (log 3). -/
def draw (s : State) : BitVec 64 × State := (Config.freeValue s.free, { s with free := s.free + 1 })

/-- Some free values, one for each of n (log 3). -/
def draws : Nat → State → List Nat × State
  | 0, s => ([], s)
  | n + 1, s =>
    let d := draw s
    let r := draws n d.2
    (d.1.toNat :: r.1, r.2)

/-! ### Lantern packets (21 R541 to R547) -/

/-- The timestamp of a packet (21 Table 21-2). The cycle within the tick is a free value (log 57). -/
def stampOf (s : State) (cycle : Nat) : Nat := s.tick.toNat % 2 ^ 44 * 2 ^ 20 + cycle % 750000

/-- Form a packet: it takes the next sequence number, awaits transmission and goes to the mirror ring (R544, R546, R547). -/
def putPacket (ty src : Nat) (payload : List Byte) (s : State) : State :=
  let d := draw s
  let p : Packet := { type_ := ty, source := src, seq := s.lan.seq, time := stampOf s d.1.toNat, payload := padTo payload 20 }
  d.2.modLan fun l =>
    { l with fifo := l.fifo ++ [p], seq := (l.seq + 1) % 65536, total := (l.total + 1) % 2 ^ 32, ring := putN (l.total % 32768) p l.ring }

/-- The places of records other than TICK, MARK and LOSS are full (R546). -/
def Lan.full (l : Lan) : Bool := (l.fifo.filter fun p => p.type_ > 3).length ≥ 16320

/-- A record of an occurrence (R541, R542, R546): formed while formation is active and its source is enabled; left out in a tick whose
trace sampling is shed; dropped when its places are full; preceded by a LOSS packet after a drop. -/
def record (src ty : Nat) (payload : List Byte) (s : State) : State :=
  if !s.lan.active || !s.lan.mask.toNat.testBit src || s.sch.shed.getLsbD 0 then s
  else if s.lan.full then
    let d := draw s
    let now := stampOf s d.1.toNat
    ctrAdd .lanternRecordsDropped 0 1 (d.2.modLan fun l =>
      { l with drops := match l.drops with
                 | none => some (1, now, now)
                 | some x => some (sat 0xFFFFFFFF (x.1 + 1), x.2.1, now) })
  else
    let s1 := match s.lan.drops with
      | none => s
      | some x => ctrAdd .lanternLossPackets 0 1
          ((putPacket 0x03 0 (toLE 4 x.1 ++ toLE 8 x.2.1 ++ toLE 8 x.2.2) s).modLan fun l => { l with drops := none })
    putPacket ty src payload s1

/-- A QUEUE packet (Table 21-3): 0 fetched, 1 completed, 2 frozen, 3 resumed, 4 flushed. -/
def queuePacket (kind : Nat) (src : Src) (opcode sct sc dome : Nat) (s : State) : State :=
  record 1 0x10 (toLE 1 kind ++ toLE 1 src.fn ++ toLE 2 src.sq ++ toLE 1 opcode ++ [0] ++ toLE 2 (sc % 256 + 256 * (sct % 8)) ++ toLE 2 dome) s

/-- An EVENT packet: 0 raised, 1 edge merged, 2 message issued. -/
def eventPacket (kind group source : Nat) (s : State) : State := record 6 0x15 (toLE 1 kind ++ toLE 1 group ++ toLE 2 source) s

end Sys2Proof.Machine
end

