-- ==== Sys2Proof/Machine/Ops.lean ====
section
/-! DEFINITION. The operations that several subsystems share: events, interrupts, completions, the two error logs,
domes, charges and objects. -/

namespace Sys2Proof.Machine

open Sys2Proof

/-- The answer of a command: the block always goes on. -/
abbrev Ans := Host.Outcome State Fault Refusal

/-! ### Domes (02 R31 to R36) -/

/-- The dome with an ID. -/
def State.dome? (s : State) (d : Nat) : Option Dome := s.str.domes.find? (·.id == d)

/-- A dome and its ancestors up to its partition, in a dome list; `fuel` bounds the depth. -/
def pathIn (ds : List Dome) : Nat → Nat → List Nat
  | 0, _ => []
  | fuel + 1, d =>
    match ds.find? (·.id == d) with
    | none => []
    | some x => d :: (if x.parent = 0 then [] else pathIn ds fuel x.parent)

/-- The path of R46: the dome and every ancestor up to its partition. -/
def State.path (s : State) (d : Nat) : List Nat := pathIn s.str.domes s.str.domes.length d

/-- The partition of a dome: the last of its path; 0 for a dome that does not exist. -/
def State.part (s : State) (d : Nat) : Nat := (s.path d).getLastD 0

/-- Dome d is dome a or lies below it. -/
def State.under (s : State) (d a : Nat) : Bool := (s.path d).contains a

/-- The clusters of a dome in membership order (02 R33). -/
def State.clusters (s : State) (d : Nat) : List Nat := ((s.dome? d).map (·.clusters)).getD []

/-- The slot of a partition (15 R439). -/
def State.slot (s : State) (p : Nat) : Option Nat := s.str.slots.findIdx? (· == p)

/-- The slot of a dome's partition; none for a partition without a slot. -/
def State.slotOf (s : State) (d : Nat) : Option Nat := s.slot (s.part d)

/-- The partition slot of a dome as a packet carries it; 0xFF for none (21 Table 21-3). -/
def State.slotByte (s : State) (d : Nat) : Nat := (s.slotOf d).getD 0xFF

/-- A TASK packet (21 Table 21-3): 0 dispatched, 1 ended, 2 overrun stop, 3 failed, 4 lent dispatch. -/
def taskPacket (kind : Nat) (src : Src) (opcode dome cluster sct sc cycles : Nat) (s : State) : State :=
  record 2 0x11 (toLE 1 kind ++ [0] ++ toLE 2 dome ++ toLE 2 cluster ++ toLE 2 (Nat.min 0xFFFF src.sq) ++ toLE 1 opcode ++ [0] ++
    toLE 2 (sc % 256 + 256 * (sct % 8)) ++ toLE 4 (sat 0xFFFFFFFF cycles) ++ toLE 1 (s.slotByte dome)) s

/-- A SWITCH packet: 0 release window opens, 1 save starts, 2 save ends, 3 restore ends, 4 switch overrun, 5 debt. -/
def switchPacket (kind part outgoing incoming cluster cycles : Nat) (s : State) : State :=
  record 3 0x12 (toLE 1 kind ++ toLE 1 (s.slotByte part) ++ toLE 2 outgoing ++ toLE 2 incoming ++ toLE 2 cluster ++ toLE 4 cycles) s

/-- A SEMAPHORE packet of a shared semaphore: 0 wait, 1 yield request, 2 held-by-suspended, 3 lending starts, 4 lending ends, 5 released
on failure, 6 acquired after a wait. -/
def semPacket (kind id dome cluster cycles : Nat) (s : State) : State :=
  record 4 0x13 (toLE 1 kind ++ toLE 1 (s.slotByte dome) ++ toLE 2 id ++ toLE 2 dome ++ toLE 2 cluster ++ toLE 4 cycles) s

/-- A STREAM packet: 0 producer waits, 1 consumer waits, 2 wait ends, 3 spill, 4 halt. -/
def streamPacket (kind id dome cluster credits cycles : Nat) (s : State) : State :=
  record 5 0x14 (toLE 1 kind ++ toLE 1 (s.slotByte dome) ++ toLE 2 id ++ toLE 2 dome ++ toLE 2 cluster ++ toLE 4 credits ++ toLE 4 cycles) s

/-- A STRUCTURE packet: 0 image took effect, 1 fence took effect, 2 unfence, 3 dome dissolved, 4 dome empty. -/
def structurePacket (kind dome cluster : Nat) (s : State) : State :=
  record 7 0x16 (toLE 1 kind ++ toLE 1 (s.slotByte dome) ++ toLE 2 dome ++ toLE 2 cluster) s

/-- Every cluster that a partition holds. -/
def State.owned (s : State) : List Nat :=
  (s.str.domes.filter (·.parent == 0)).flatMap (·.clusters)

/-- The free pool: clusters that no partition holds and that are not fenced (02 R31, R65). -/
def State.freePool (s : State) : List Nat :=
  (List.range 800).filter fun c => !s.owned.contains c && !s.str.fenced.contains c

/-- The partition that holds a cluster. -/
def State.holder (s : State) (c : Nat) : Option Nat :=
  (s.str.domes.find? fun d => d.parent == 0 && d.clusters.contains c).map (·.id)

/-- Add to a counter of the partition slot of a dome. -/
def ctrPart (c : Ctr) (d n : Nat) (s : State) : State :=
  match s.slotOf d with
  | none => s
  | some i => ctrAdd c i n s

/-! ### Events (15 R426 to R431) -/

/-- The sources that Table 15-4 lists. -/
def eventExists (src : Nat) : Bool := src ≤ 0x017 || (0x100 ≤ src && src < 0x500 && src % 16 ≤ 10)

/-- The sources whose line stays high while the condition lasts (Table 15-4). -/
def eventLevel (src : Nat) : Bool := [0x005, 0x008, 0x00A, 0x00B, 0x00C].contains src

/-- The default group of a source (Table 15-4). -/
def defaultGroup (src : Nat) : Nat :=
  if src ≤ 3 then 0 else if src ≤ 7 then 1 else if src ≤ 0xF then 2 else if src ≤ 0x12 then 4
  else if src = 0x13 then 5 else if src ≤ 0x17 then 3
  else if 0x100 ≤ src ∧ src < 0x500 then 16 + (src - 0x100) / 16 / 4 else 0

/-- The group of a source: the image's assignment or the default (15 R438). -/
def State.group (s : State) (src : Nat) : Nat := (lookN src s.evt.assigned).getD (defaultGroup src)

/-- Update event group g. -/
def updGroup (g : Nat) (f : EvGroup → EvGroup) (e : Evt) : Evt :=
  { e with groups := e.groups.zipIdx.map fun p => if p.2 = g then f p.1 else p.1 }

/-- Set NEW of the group of a source (15 R430). -/
def setNew (src : Nat) (s : State) : State := s.modEvt (updGroup (s.group src) fun g => { g with new := true })

/-- A slot source is raised only while a partition occupies its slot (15 R439). -/
def State.sourceLive (s : State) (src : Nat) : Bool :=
  eventExists src && (src < 0x100 || (src - 0x100) / 16 < s.str.slots.length)

/-- A rising edge of a source (15 R427, R430): a clear pending bit is set, a set one counts the edge; the detail word is
written. -/
def raise (src : Nat) (detail : DWord) (s : State) : State :=
  if !s.sourceLive src then s else
  if s.evt.pend.contains src then
    eventPacket 1 (s.group src) src (s.modEvt fun e =>
      { e with edges := putN src (sat 255 ((lookN src e.edges).getD 0 + 1)) e.edges, detail := putN src detail e.detail })
  else
    let s1 := eventPacket 0 (s.group src) src (s.modEvt fun e => { e with pend := insN src e.pend, detail := putN src detail e.detail })
    if s.evt.unmasked.contains src then setNew src s1 else s1

/-- The line of a level source rises: an event only when it was low (15 R427). -/
def lineUp (src : Nat) (detail : DWord) (s : State) : State :=
  if s.evt.level.contains src then s
  else (raise src detail s).modEvt fun e => { e with level := insN src e.level }

/-- The line of a level source falls (15 R427). -/
def lineDown (src : Nat) (s : State) : State := s.modEvt fun e => { e with level := delN src e.level }

/-- Raise a per-partition event of a kind on the slot of a dome's partition (15 R442). -/
def raisePart (d kind : Nat) (detail : DWord) (s : State) : State :=
  match s.slotOf d with
  | none => s
  | some i => raise (0x100 + 16 * i + kind) detail s

/-! ### Functions and interrupts (15 R434) -/

/-- The function with a number. -/
def State.fn? (s : State) (f : Nat) : Option Func := s.fns.find? (·.id == f)

/-- The peer window is present: the Memory Space Enable of the physical function is set, whether or not PEER is granted (22 R568). -/
def State.windowOpen (s : State) : Bool := s.life.cfgReady && (s.fn? 0).any (·.memSpace)

/-- Update a function. -/
def modFn (f : Nat) (g : Func → Func) (s : State) : State := s.modFns (updIf (·.id == f) g)

/-- An MSI-X message of a function: sent, or held in the Pending Bit Array while its vector is masked, MSI-X is disabled or the
function is not in D0 (15 R434). -/
def sendMsix (f vec : Nat) (s : State) : State :=
  match s.fn? f with
  | none => s
  | some x =>
    if x.msix && x.unmasked.contains vec && x.dstate == 0 then s.modOut fun o => { o with msix := o.msix ++ [(f, vec)] }
    else modFn f (fun x => { x with pba := insN vec x.pba }) s

/-! ### Completions (04 R123, 03 R100) -/

/-- The submission queue of a function. -/
def State.sq? (s : State) (f q : Nat) : Option Sq := s.q.sqs.find? fun x => x.fn == f && x.id == q

/-- The PASID bound to a submission queue (04 R118). -/
def State.pasidOf (s : State) (src : Src) : Option Nat := (s.sq? src.fn src.sq).bind (·.pasid)

/-- The completion queue of a function. -/
def State.cq? (s : State) (f q : Nat) : Option Cq := s.q.cqs.find? fun x => x.fn == f && x.id == q

/-- Update a submission queue. -/
def modSq (f q : Nat) (g : Sq → Sq) (s : State) : State :=
  s.modQ fun x => { x with sqs := updIf (fun y => y.fn == f && y.id == q) g x.sqs }

/-- Update a completion queue. -/
def modCq (f q : Nat) (g : Cq → Cq) (s : State) : State :=
  s.modQ fun x => { x with cqs := updIf (fun y => y.fn == f && y.id == q) g x.cqs }

/-- The completion queue that a sender's completions go to; the admin queue's is number 0. -/
def State.cqOf (s : State) (src : Src) : Option Cq :=
  if src.sq = 0 then s.cq? src.fn 0 else (s.sq? src.fn src.sq).bind fun q => s.cq? src.fn q.cq

/-- A completion queue has no free entry. -/
def Cq.full (q : Cq) : Bool := (q.tail + 1) % q.size == q.head

/-- A completion queue after one entry is written: its tail moves and, at the end, its phase turns. -/
def Cq.push (q : Cq) : Cq :=
  if q.tail + 1 ≥ q.size then { q with tail := 0, phase := !q.phase } else { q with tail := q.tail + 1 }

/-- Write a completion entry to its queue, with its interrupt; an entry that finds the queue full waits, and one whose queue has gone
is not written (log 13). -/
def postNow (c : Completion) (s : State) : State :=
  match s.cqOf c.src with
  | none => s.modQ fun q => { q with begun := q.begun.filter (·.1 ≠ c.src) }
  | some q =>
    if q.full then modCq q.fn q.id (fun x => { x with waiting := x.waiting ++ [c] }) s
    else
      let of_ := ((s.q.begun.find? (·.1 == c.src)).map (·.2)).getD (0, 0xFFFF)
      let s0 := queuePacket 1 c.src of_.1 c.sct c.sc of_.2 (s.modQ fun q => { q with begun := q.begun.filter (·.1 ≠ c.src) })
      let s1 := modCq q.fn q.id Cq.push (s0.modOut fun o => { o with posted := o.posted ++ [{ c with sqhd := ((s.sq? c.src.fn c.src.sq).map (·.head)).getD 0, phase := q.phase }] })
      if q.ien then sendMsix q.fn q.vector s1 else s1

/-- The link's IDE stream 0 is Insecure: no completion is written (18 R501; log 19). -/
def State.linkInsecure (s : State) : Bool := s.sec.ide.any fun x => x.id == 0 && x.insecure

/-- Post a completion; during quiesce a completion on an I/O queue is held (03 R100), and so is every completion while the link
stream is Insecure (18 R501). -/
def post (c : Completion) (s : State) : State :=
  if (s.hb.quiesced && c.src.sq != 0) || s.linkInsecure then s.modHb fun h => { h with held := h.held ++ [c] } else postNow c s

/-- Complete a command with success and the two dwords. -/
def ok (src : Src) (dw0 dw1 : Nat) (s : State) : State := post { src, dw0, dw1 } s

/-- Complete a command with a status. -/
def status (src : Src) (sct sc : Nat) (s : State) : State := post { src, sct, sc } s

/-- Invalid Field in Command (00 R13): Status Code Type 0, code 0x02. -/
def invalidField (src : Src) (s : State) : State := status src 0 0x02 s

/-- Invalid Opcode: Status Code Type 0, code 0x01 (PRESUMED: NVM Express; log 14). -/
def invalidOpcode (src : Src) (s : State) : State := status src 0 0x01 s

/-- Command Sequence Error: Status Code Type 0, code 0x0C (PRESUMED: NVM Express; log 14). -/
def sequenceError (src : Src) (s : State) : State := status src 0 0x0C s

/-! ### Asynchronous events (04 R141) -/

/-- Give the oldest waiting event of a function whose type is not masked to the function's oldest request. -/
def aenPump (s : State) : State :=
  match s.q.aerEvents.find? fun e => !s.q.aerMasked.contains (e.1, e.2.1) && s.q.aerHeld.any (·.fn == e.1) with
  | none => s
  | some e =>
    match s.q.aerHeld.find? (·.fn == e.1) with
    | none => s
    | some r =>
      ok r (e.2.1 + 256 * e.2.2.1 + 65536 * e.2.2.2) 0
        (s.modQ fun q => { q with aerEvents := q.aerEvents.erase e, aerHeld := q.aerHeld.erase r,
                                  aerMasked := q.aerMasked ++ [(e.1, e.2.1)] })

/-- An asynchronous event: function, type, information, log page. -/
def aen (f ty info page : Nat) (s : State) : State :=
  if s.q.aerEvents.contains (f, ty, info, page) then s
  else aenPump (s.modQ fun q => { q with aerEvents := q.aerEvents ++ [(f, ty, info, page)] })

/-- The vendor notice of a new entry in log 0xC0 or 0xC1, when Asynchronous Event Configuration enables it (04 R141). The spec
does not name the bit that does (log 15). -/
def vendorNotice (f page : Nat) (s : State) : State :=
  match s.fn? f with
  | none => s
  | some x => if x.feat.asyncConfig.toNat.testBit (Config.vendorNoticeBit % 32) then aen f 7 page page s else s

/-! ### The compute error log (04 R136, R141) -/

/-- A function's compute error log. -/
def State.cmpLog (s : State) (f : Nat) : CmpLog := (s.itg.logs.find? (·.fn == f)).getD { fn := f }

/-- A log after one more entry: the newest sequence number, and the oldest entry of a full ring overwritten (04 R141). -/
def CmpLog.add (l : CmpLog) (e : CmpEntry) : CmpLog :=
  let n := l.seq + 1
  { l with seq := n,
           entries := (if l.entries.length ≥ 256 then l.entries.drop 1 else l.entries) ++ [{ e with seq := n.toNat }],
           overwritten := if l.entries.length ≥ 256 then sat 0xFFFFFFFF (l.overwritten + 1) else l.overwritten }

/-- Write an entry to its function's compute error log. -/
def logCmp (e : CmpEntry) (s : State) : State :=
  vendorNotice e.fn 0xC1
    (s.modItg fun t => { t with logs := (s.cmpLog e.fn).add e :: t.logs.filter (·.fn ≠ e.fn) })

/-- A Milris command's failure as its completion and its log entry carry it. -/
structure Fail where
  sct : Nat := 7
  sc : Nat
  detail : Nat := 0
  object : Nat := 0
  cursor : List Nat := []
  cluster : Nat := 0xFFFF
  task : Nat := 0xFFFFFFFF
deriving DecidableEq, Repr

/-- A Milris command completes with a status other than success (04 R123, R136): a compute error log entry, Dword 0 its
sequence number, Dword 1 its detail code, and its submission queue freezes. -/
def failMilris (src : Src) (opcode dome tenant : Nat) (f : Fail) (s : State) : State :=
  let s1 := logCmp { tick := s.tick.toNat, sq := src.sq, cid := src.cid, opcode, sct := f.sct, sc := f.sc, dome, tenant,
                     cluster := f.cluster, fn := src.fn, task := f.task, detail := f.detail, object := f.object,
                     cursor := f.cursor, seq := 0 } s
  let s2 := if (s.sq? src.fn src.sq).any (!·.frozen) then queuePacket 2 src opcode f.sct f.sc dome s1 else s1
  post { src, sct := f.sct, sc := f.sc, dw0 := (s1.cmpLog src.fn).seq.toNat, dw1 := f.detail }
    (modSq src.fn src.sq (fun q => { q with frozen := true }) s2)

/-! ### The device error log (13 R399 to R401) -/

/-- Put an entry into the ring (13 R401): a full ring gives up its oldest correctable entry, or drops the new one. -/
def ringAdd (e : DevEntry) (s : State) : State :=
  if s.itg.ring.length < 256 then
    vendorNotice 0 0xC0 (ctrAdd .integErrorLogEntriesWritten 0 1 (s.modItg fun t =>
      { t with seq := t.seq + 1, ring := t.ring ++ [{ e with seq := (t.seq + 1).toNat }] }))
  else
    match s.itg.ring.find? fun x => !x.uncorrectable with
    | some old =>
      vendorNotice 0 0xC0 (ctrAdd .integErrorLogEntriesWritten 0 1 (s.modItg fun t =>
        { t with seq := t.seq + 1, ring := t.ring.erase old ++ [{ e with seq := (t.seq + 1).toNat }],
                 lost := sat 0xFFFFFFFF (t.lost + old.merged) }))
    | none =>
      let s1 := s.modItg fun t => { t with lost := sat 0xFFFFFFFF (t.lost + e.merged), dropped := true }
      if s.itg.dropped then s1 else raise 0x003 (BitVec.ofNat 32 s1.itg.lost) s1

/-- An uncorrectable report: its own entry, at once (13 R400). -/
def reportUnc (e : DevEntry) (s : State) : State :=
  ringAdd { e with first := s.tick.toNat, last := s.tick.toNat, merged := 1, uncorrectable := true } s

/-- The entry of an uncorrectable report on a NAND die (13 Tables 13-6, 13-7). -/
def nandEntry (die cls : Nat) : DevEntry :=
  { first := 0, last := 0, seq := 0, merged := 1, kind := 3, index := die, cls, uncorrectable := true }

/-- A correctable report: it merges into the key of its source and class, takes a free key, or is lost (13 R400). What it says of
its place is kept from the first report, its flags from all (log 53). -/
def reportAt (e : DevEntry) (s : State) : State :=
  let hit (k : MergeKey) : Bool := k.kind == e.kind && k.index == e.index && k.cls == e.cls
  if s.itg.keys.any hit then
    s.modItg fun t =>
      { t with keys := updIf hit (fun k => { k with last := s.tick.toNat, count := k.count + 1, flags := k.flags ||| e.flags }) t.keys }
  else if s.itg.keys.length < 64 then
    s.modItg fun t =>
      { t with keys := t.keys ++ [{ kind := e.kind, index := e.index, cls := e.cls, first := s.tick.toNat, last := s.tick.toNat,
                                    count := 1, flags := e.flags, address := e.address, syndrome := e.syndrome,
                                    symbols := e.symbols, erasures := e.erasures }] }
  else s.modItg fun t => { t with lost := sat 0xFFFFFFFF (t.lost + 1) }

/-- A correctable report that says nothing of its place. -/
def reportCor (kind index cls : Nat) (s : State) : State :=
  reportAt { first := 0, last := 0, seq := 0, merged := 1, kind, index, cls, uncorrectable := false } s

/-- The coalescing window closes: the merge keys are written as entries in the order of their first reports (13 R400). -/
def closeWindow (s : State) : State :=
  s.itg.keys.foldl (fun s k =>
    ctrAdd .integReportsMerged 0 k.count (ringAdd
      { first := k.first, last := k.last, seq := 0, merged := sat 0xFFFFFFFF k.count, kind := k.kind, index := k.index,
        cls := k.cls, uncorrectable := false, flags := k.flags, address := k.address, syndrome := k.syndrome,
        symbols := k.symbols, erasures := k.erasures } s))
    (s.modItg fun t => { t with keys := [] })

/-! ### Quotas and charges (02 R46, 05 R160, R161) -/

/-- The quota of a dome for a tier (1 T1, 2 T2, 3 object store) in a dome list and a quota list: its own entry, or its parent's
(02 R45); no quota where nothing names one. -/
def quotaIn (ds : List Dome) (qs : List Quota) (d tier : Nat) : Option Nat :=
  ((pathIn ds ds.length d).findSome? fun a => qs.find? (·.dome == a)).map fun q =>
    if tier = 1 then q.t1 else if tier = 2 then q.t2 else q.obj

/-- The quota of a dome for a tier. -/
def State.quota (s : State) (d tier : Nat) : Option Nat := quotaIn s.str.domes s.str.quotas d tier

/-- The bytes charged to a dome in a tier, its descendants included (02 R46). -/
def State.used (s : State) (d tier : Nat) : Nat :=
  sumN ((s.obj.charges.filter fun c => c.tier == tier && s.under c.dome d).map (·.bytes))

/-- The first dome of the path whose quota an allocation would exceed (02 R46); none when it fits. An allocation in T1 also fits
in the allocatable T1 (13 R397), where the partition stands for the module. -/
def State.blocked (s : State) (d tier bytes : Nat) : Option Nat :=
  match (s.path d).find? fun a => match s.quota a tier with
    | none => false
    | some q => s.used a tier + bytes > q with
  | some a => some a
  | none =>
    if tier = 1 ∧ sumN ((s.obj.charges.filter (·.tier == 1)).map (·.bytes)) + bytes > s.obj.t1Alloc then some (s.part d)
    else none

/-- Take a charge (02 R46). A charge of 0 bytes is not listed. -/
def charge (owner : Owner) (tier dome bytes : Nat) (s : State) : State :=
  if bytes = 0 then s else s.modObj fun o => { o with charges := o.charges ++ [{ owner, tier, dome, bytes }] }

/-- Give the charges of an owner back. -/
def uncharge (owner : Owner) (s : State) : State :=
  s.modObj fun o => { o with charges := o.charges.filter (·.owner ≠ owner), t0 := o.t0.filter (·.owner ≠ owner) }

/-- The object with an ID. -/
def State.obj? (s : State) (id : Nat) : Option Obj := s.obj.list.find? (·.id == id)

/-- Update an object. -/
def modOne (id : Nat) (f : Obj → Obj) (s : State) : State := s.modObj fun o => { o with list := updIf (·.id == id) f o.list }

/-- Allocation flag n of an object (Table 5-3). -/
def Obj.flag (o : Obj) (n : Nat) : Bool := o.flags.toNat.testBit n

/-- A page of a BACKED object is resident in its home tier. -/
def State.residentPage (s : State) (p : Nat × Nat) : Bool :=
  match s.obj? p.1 with
  | some o => !o.flag 5 || o.resident.any (·.1 == p.2)
  | none => true

/-- The pages that a ready or running task has declared (05 R155, R160): those of the task that a chain runs, or of its next task once
they are all resident. -/
def State.declared (s : State) : List (Nat × Nat) :=
  s.sch.cmds.flatMap fun c => c.chains.flatMap fun h =>
    let pages := ((h.tasks[h.done]?).map (·.pages)).getD []
    if h.run.isSome || (!h.finished && c.failed.isNone && !c.deleting && !c.waiting && pages.all s.residentPage) then pages else []

/-- The clean resident page used longest ago that an allocation in T1 on the path of dome a may free, other than some pages
(05 R160). -/
def State.victim (s : State) (keep : List (Nat × Nat)) (a : Nat) : Option (Nat × Nat × Nat) :=
  let all := (s.obj.list.filter fun o => o.flag 1 && o.flag 5 && !o.flag 3 && s.under o.dome a).flatMap fun o =>
    (o.resident.filter fun p => !o.dirty.contains p.1 && !s.declared.contains (o.id, p.1) && !keep.contains (o.id, p.1)).map fun p => (p.2, o.id, p.1)
  all.foldl (fun best x => match best with
    | none => some x
    | some b => if x.1 < b.1 then some x else some b) none

/-- Drop a resident page and its charges. -/
def dropPage (id page : Nat) (s : State) : State :=
  (uncharge (.moving id (some page)) (uncharge (.resident id page) s)).modObj fun o =>
    { o with list := updIf (·.id == id) (fun x => { x with resident := x.resident.filter (·.1 ≠ page), dirty := delN page x.dirty }) o.list }

/-- Free clean resident pages, other than some, until an allocation in T1 fits; `fuel` bounds the pages. none when it cannot fit. -/
def freeFor (keep : List (Nat × Nat)) : Nat → Nat → Nat → State → Option State
  | fuel, d, bytes, s =>
    match s.blocked d 1 bytes with
    | none => some s
    | some a =>
      match fuel with
      | 0 => none
      | n + 1 =>
        match s.victim keep a with
        | none => none
        | some v => freeFor keep n d bytes (ctrPart .tierResidentPagesFreedAtAQuota d 1 (dropPage v.2.1 v.2.2 s))

/-- How many pages are resident. -/
def State.residents (s : State) : Nat := sumN (s.obj.list.map fun o => o.resident.length)

/-- Make room for an allocation, some pages kept, and say which dome stops it (05 R160, R161): the state in which it fits, or the
dome. -/
def fitKeeping (keep : List (Nat × Nat)) (d tier bytes : Nat) (s : State) : Except Nat State :=
  if tier = 1 then
    match freeFor keep s.residents d bytes s with
    | some t => .ok t
    | none => .error ((s.blocked d 1 bytes).getD (s.part d))
  else match s.blocked d tier bytes with
    | none => .ok s
    | some a => .error a

/-- Make room for an allocation and say which dome stops it. -/
def fit (d tier bytes : Nat) (s : State) : Except Nat State := fitKeeping [] d tier bytes s

/-- The detail code of Quota Exceeded (05 R161): the tier in [3:0] and the dome in [15:4]. -/
def quotaDetail (tier dome : Nat) : Nat := tier + 16 * dome

/-! ### T0 space (02 R35, 05 R150) -/

/-- The T0 bytes of a cluster that plans and objects share (02 R35). -/
def t0Bytes : Nat := 1966080

/-- How many of the first n chunks fall on position i of w clusters (05 R150). -/
def dealt (w n i : Nat) : Nat := n / w + (if i < n % w then 1 else 0)

/-- The clusters over which the n chunks of 4 KiB from chunk k on are dealt, with the bytes each takes (05 R150). -/
def dealFrom (cs : List Nat) (k n : Nat) : List (Nat × Nat) :=
  (cs.zipIdx.map fun p => (p.1, (dealt cs.length (k + n) p.2 - dealt cs.length k p.2) * 4096)).filter (·.2 ≠ 0)

/-- The clusters over which n chunks of 4 KiB are dealt, with the bytes each takes. -/
def deal (cs : List Nat) (n : Nat) : List (Nat × Nat) := dealFrom cs 0 n

/-- The live T0 of a dome on a cluster is in a save area (03 R79). -/
def State.savedAway (s : State) (d c : Nat) : Bool := s.sch.saved.any fun v => v.1 == d && v.2.1 == c

/-- A use of T0 that a switch saves: an object's; stream buffers stay in place (03 R78). -/
def Owner.savable : Owner → Bool
  | .object _ => true
  | .resident _ _ => true
  | _ => false

/-- The T0 bytes that a dome finds taken by objects and stream buffers on a cluster: what other domes have saved away is not
there. -/
def State.t0Held (s : State) (d c : Nat) : Nat :=
  sumN ((s.obj.t0.filter fun u => u.cluster == c && (u.dome == d || !(u.owner.savable && s.savedAway u.dome c))).map (·.bytes))

/-- The tasks in flight on a cluster. -/
def State.running (s : State) (c : Nat) : List (Cmd × Chain × Run) :=
  s.sch.cmds.flatMap fun m => m.chains.filterMap fun h => match h.run with
    | some r => if r.cluster = c then some (m, h, r) else none
    | none => none

/-- The T0 bytes that tasks in flight hold on a cluster. -/
def State.t0Tasks (s : State) (c : Nat) : Nat :=
  sumN ((s.running c).map fun x => ((x.2.1.tasks[x.2.1.done]?).map (·.t0)).getD 0)

/-- Free the watch slots that a test picks (06 R203, 14 R411), with their counters (22 R551). -/
def freeSlots (p : Watch → Bool) (s : State) : State :=
  let gone := (s.qnt.slots.filter p).map (·.slot)
  (s.modQnt fun q => { q with slots := q.slots.filter fun w => !p w }).modCtr fun l =>
    l.filter fun e => !(e.1.spec.scope == .slot && gone.contains e.2.1)

/-- A context or T0 bytes have been freed on some clusters: the domes that hold one are tried again (03 R76, R77). -/
def freedOn (cs : List Nat) (s : State) : State :=
  s.modSch fun k => { k with skipped := k.skipped.filter fun d => !(s.clusters d).any cs.contains }

/-- The clusters on which an owner has T0 bytes. -/
def State.t0At (s : State) (p : Owner → Bool) : List Nat := (s.obj.t0.filter fun u => p u.owner).map (·.cluster)

/-! ### Objects -/

/-- The key of a T2 address as translated with a PASID or with none (04 R118, 05 R152): each PASID has an address space of its own. -/
def t2Key (pasid : Option Nat) (a : Nat) : Nat := a + 2 ^ 64 * (pasid.map (· + 1)).getD 0

/-- A byte of host memory: what the module wrote there last, else what the host has put there (05 R151; log 6). -/
def hostGet (t2 : Mem) (k : Nat) : Byte := memGet t2 k ^^^ Config.hostByte k

/-- Host memory after bytes are written from a key up. -/
def hostPut (t2 : Mem) (k : Nat) (bs : List Byte) : Mem := memPut t2 k (bs.zipIdx.map fun b => b.1 ^^^ Config.hostByte (k + b.2))

/-- What the regions of a T2 object hold, the first one's bytes from an offset up (05 R151). -/
def regionCells (t2 : Mem) (pasid : Option Nat) : List (Nat × Nat) → Nat → Mem
  | [], _ => []
  | (a, n) :: r, off =>
    ((List.range n).filterMap fun i =>
      let b := hostGet t2 (t2Key pasid (a + i))
      if b = 0 then none else some (off + i, b)) ++ regionCells t2 pasid r (off + n)

/-- The T2 address of a byte of a region list (05 R151). -/
def regionAddr : List (Nat × Nat) → Nat → Option Nat
  | [], _ => none
  | (a, n) :: r, off => if off < n then some (a + off) else regionAddr r (off - n)

/-- The bytes of an object, wherever it lives: a T2 object reads what the host has put there (05 R151). -/
def State.contents (s : State) (o : Obj) : Mem := if o.flag 2 then regionCells s.obj.t2 o.pasid o.regions 0 else o.data

/-- Read bytes of an object; a byte beyond those listed reads 0. -/
def State.objBytes (s : State) (id off n : Nat) : List Byte :=
  match s.obj? id with
  | none => List.replicate n 0
  | some o =>
    if o.flag 2 then (List.range n).map fun i => match regionAddr o.regions (off + i) with
      | none => 0
      | some a => hostGet s.obj.t2 (t2Key o.pasid a)
    else memRead o.data off n

/-- Write bytes to host memory, at an address without PASID or at the key of one with it. -/
def writeT2 (a : Nat) (bs : List Byte) (s : State) : State := s.modObj fun o => { o with t2 := hostPut o.t2 a bs }

/-- The pieces of host memory that bytes written from an offset of a region list fall on, each at its key. -/
def t2Pieces (pasid : Option Nat) : List (Nat × Nat) → Nat → List Byte → List (Nat × List Byte)
  | [], _, _ => []
  | (a, n) :: r, off, bs =>
    if bs.isEmpty then [] else if off < n then (t2Key pasid (a + off), bs.take (n - off)) :: t2Pieces pasid r 0 (bs.drop (n - off))
    else t2Pieces pasid r (off - n) bs

/-- Host memory after some pieces are written. -/
def putPieces (l : List (Nat × List Byte)) (t2 : Mem) : Mem := l.foldl (fun m p => hostPut m p.1 p.2) t2

/-- Outbound writes of tasks to T2: held in quiesce (03 R100), else made. -/
def sendT2 (l : List (Nat × List Byte)) (s : State) : State :=
  if s.hb.quiesced then s.modHb fun h => { h with dma := h.dma ++ l } else s.modObj fun o => { o with t2 := putPieces l o.t2 }

/-- Write bytes of an object, wherever it lives, marking the written 2 MiB pages of a BACKED object dirty (05 R151, R157); in quiesce a
write to host memory is held (03 R100). -/
def writeObj (id off : Nat) (bs : List Byte) (s : State) : State :=
  match s.obj? id with
  | none => s
  | some o =>
    if o.flag 2 then sendT2 (t2Pieces o.pasid o.regions off bs) s
    else modOne id (fun o =>
      let pages := if bs.isEmpty then [] else (List.range ((off + bs.length - 1) / 2097152 + 1)).drop (off / 2097152)
      { o with data := memPut o.data off bs, dirty := if o.flag 5 then pages.foldl (fun l p => insN p l) o.dirty else o.dirty }) s

end Sys2Proof.Machine
end

