-- ==== Sys2Proof/Machine/Media.lean ====
section
/-! DEFINITION. Physical flash as several subsystems see it: blocks, dies, channels and read counts (12 R361, R366, R375). -/

namespace Sys2Proof.Machine

open Sys2Proof

/-- Blocks of the module (12 Table 12-2). -/
def blockTotal : Nat := 5591040

/-- The die of a block: 4 planes of 2,730 blocks each (Table 12-2; the numbering of log 45). -/
def dieOf (block : Nat) : Nat := block / 10920

/-- The channel of a die: 64 channels of 8 dies (01 Table 1-1; log 45). -/
def channelOf (die : Nat) : Nat := die / 8

/-- The flash channel group of a die: 8 groups of 8 channels. -/
def chanGroup (die : Nat) : Nat := die / 64

/-- The block group of a block: 64 consecutive blocks of one plane (14 R413). -/
def blockGroup (block : Nat) : Nat := block / 2730 * 43 + block % 2730 / 64

/-- A block's record; one with no record is FREE with a read count of 0. -/
def State.block (s : State) (b : Nat) : Block := (s.fls.blocks.find? (·.id == b)).getD { id := b }

/-- Update a block's record. -/
def modBlock (b : Nat) (f : Block → Block) (s : State) : State :=
  s.modFls fun x =>
    { x with blocks := if x.blocks.any (·.id == b) then updIf (·.id == b) f x.blocks else x.blocks ++ [f { id := b }] }

/-- A read sent to the NAND adds 1 to its block's read count, 24 bits saturating (12 R375). -/
def countRead (b n : Nat) (s : State) : State := modBlock b (fun x => { x with reads := sat 0xFFFFFF (x.reads + n) }) s

/-- A die's record. -/
def State.die (s : State) (d : Nat) : Die := (s.fls.dies.find? (·.id == d)).getD { id := d }

/-- Update a die's record. -/
def modDie (d : Nat) (f : Die → Die) (s : State) : State :=
  s.modFls fun x => { x with dies := if x.dies.any (·.id == d) then updIf (·.id == d) f x.dies else x.dies ++ [f { id := d }] }

/-- A page's read still waits in its die's queue: what the die does has not been suspended for it (12 R377, R378). -/
def State.stillQueued (s : State) (p : Nat × Nat) : Bool :=
  match (s.die (dieOf p.1)).busy with
  | none => false
  | some o => !o.suspended || ((s.die (dieOf p.1)).queued.findIdx? (· == p)).any (o.batch ≤ ·)

/-- Reads of blocks are given up: their pages no longer wait for them, and those that only they waited for leave their die's queue unless
they are being served. -/
def dropReads (gone : NvmRead → Bool) (s : State) : State :=
  let s1 := s.modFls fun x => { x with reads := x.reads.filter fun r => !gone r }
  ((s.fls.reads.filter gone).flatMap (·.waits)).foldl (fun t p =>
    if s1.fls.reads.any (·.waits.contains p) || !(s.die (dieOf p.1)).queued.contains p then t
    else
      let u := modBlock p.1 (fun b => { b with pendingReads := b.pendingReads - 1 }) t
      if s.stillQueued p then modDie (dieOf p.1) (fun d => { d with queued := d.queued.erase p }) u else u) s1

/-- A Format NVM or Sanitize operation is running (04 Table 4-12). -/
def Progress.running (p : Progress) : Bool := p.state == 1 || p.state == 4

/-- Bytes transferred on the channels of a class (11 Table 11-14): 0 L, 1 P, 2 S, 3 W, 4 M, in the order of Table 11-10. -/
def countClass (die cls bytes : Nat) (s : State) : State := ctrAdd .scanBytesTransferredPerClass (5 * chanGroup die + cls) bytes s

/-- A read that failed after every recovery step writes an uncorrectable entry on its die, and its block is queued for refresh
(12 R379); it counts as a media error (12 Table 12-4). -/
def unrecovered (die : Nat) (s : State) : State :=
  reportUnc (nandEntry die 0x0B) (s.modFls fun x => { x with mediaErrors := x.mediaErrors + 1 })

/-- A read that the block-state table stopped (12 R367): a map-integrity entry, the event and the counter. -/
def guarded (die : Nat) (s : State) : State :=
  ctrAdd .flashMapIntegrityReads 0 1 (raise 0x004 (BitVec.ofNat 32 die) (reportUnc (nandEntry die 0x0A) s))

/-- What a read's end counts: its retries and soft decoding (12 Table 12-7), and what a failed one reports. -/
def readEnd (r : ReadEnd) (s : State) : State :=
  match r with
  | .ok => s
  | .retried n soft =>
    let s1 := ctrAdd .flashReadRetries 0 n s
    if soft then ctrAdd .flashSoftDecodes 0 1 s1 else s1
  | .unrecovered die => unrecovered die s
  | .guarded die => guarded die s

/-- Mapped data may be read from a block (Table 12-3). -/
def Block.readable (b : Block) : Bool := b.state == .openB || b.state == .closed

/-- A block is queued for refresh once (R375, R376, R379). -/
def queueRefresh (b : Nat) (s : State) : State :=
  if (s.block b).readable then s.modFls fun x => { x with refreshQ := insN b x.refreshQ } else s

/-- What a read's end means for its block: one that needed soft decoding, or failed, is queued for refresh (R376, R379); one that failed
after every step goes bad once its valid data has moved (R372). -/
def readBlock (b : Nat) (r : ReadEnd) (s : State) : State :=
  match r with
  | .retried _ true => queueRefresh b s
  | .unrecovered _ => queueRefresh b (if (s.block b).readable then modBlock b (fun x => { x with grown := true }) s else s)
  | _ => s

/-- A read's end is a failure. -/
def readFailed : ReadEnd → Bool
  | .unrecovered _ => true
  | .guarded _ => true
  | _ => false

/-- A filter engine evaluates records, 600,000,000 in a second: 5 cycles of 1.5 GHz for two (11 R339, R353; log 99). -/
def countEngine (group records : Nat) (s : State) : State := ctrAdd .scanEngineBusyCycles group (ceilDiv (5 * records) 2) s

end Sys2Proof.Machine
end

