-- ==== Sys2Proof/Machine/Flags.lean ====
section
/-! DEFINITION. The status codes as failures of Milris commands (04 Table 4-14) and as statuses of the other commands. A code of
the NVM Express specifications that the spec names without a number carries the number of that specification (log 14). -/

namespace Sys2Proof.Machine

open Sys2Proof

namespace St

/-- Invalid Field in Command (00 R13). -/
def invalidField : Fail := { sct := 0, sc := 0x02 }
/-- Invalid Opcode (00 R3). -/
def invalidOpcode : Fail := { sct := 0, sc := 0x01 }
/-- Invalid Namespace or Format (04 R120). -/
def invalidNamespace : Fail := { sct := 0, sc := 0x0B }
/-- Namespace Write Protected (04 R130): Status Code Type 0, 0x20. -/
def writeProtected : Fail := { sct := 0, sc := 0x20 }
/-- Command Sequence Error (04 R137). -/
def sequenceError : Fail := { sct := 0, sc := 0x0C }
/-- Command Aborted due to SQ Deletion (04 R139). -/
def sqDeleted : Fail := { sct := 0, sc := 0x08 }
/-- Commands Aborted due to Power Loss Notification (16 R460). -/
def powerLoss : Fail := { sct := 0, sc := 0x05 }
/-- Sanitize In Progress (04 R145; log 14). -/
def sanitizeBusy : Fail := { sct := 0, sc := 0x1D }
/-- Structure Invalid. -/
def structureInvalid : Fail := { sc := 0x80 }
/-- Structure Busy. -/
def structureBusy : Fail := { sc := 0x81 }
/-- Structure Access Denied. -/
def accessDenied : Fail := { sc := 0x82 }
/-- Dome Dissolved. -/
def domeDissolved : Fail := { sc := 0x83 }
/-- Plan Invalid. -/
def planInvalid : Fail := { sc := 0x84 }
/-- Unit Too Small. -/
def unitTooSmall : Fail := { sc := 0x85 }
/-- Task Overrun. -/
def taskOverrun : Fail := { sc := 0x86 }
/-- Quota Exceeded, with the tier and the dome that stopped the allocation (05 R161). -/
def quotaExceeded (tier dome : Nat) : Fail := { sc := 0x87, detail := quotaDetail tier dome }
/-- Object Not Found. -/
def objectNotFound (id : Nat) : Fail := { sc := 0x88, object := id }
/-- Object Busy. -/
def objectBusy (id : Nat) : Fail := { sc := 0x89, object := id }
/-- Object Exists. -/
def objectExists (id : Nat) : Fail := { sc := 0x8A, object := id }
/-- Output Overflow, with the byte count that the command needed (04 R122). -/
def outputOverflow (need : Nat) : Fail := { sc := 0x8B, detail := sat 0xFFFFFFFF need }
/-- Transfer Fault (05 R178): the cursor and the faulting address's bits [43:12]. -/
def transferFault (addr : Nat) (cursor : List Nat) : Fail := { sc := 0x8C, detail := bits addr 43 12, cursor }
/-- Uncorrectable Memory Error (13 R392). -/
def memoryError (cursor : List Nat) : Fail := { sc := 0x8D, cursor }
/-- Stream Cycle Halted, with the stream that could not spill (05 R173). -/
def streamHalted (id : Nat) : Fail := { sc := 0x8E, detail := id }
/-- Row Too Long (09 R273). -/
def rowTooLong : Fail := { sc := 0x8F }
/-- Driver Quiesced. -/
def quiesced : Fail := { sc := 0x90 }
/-- Epoch Mismatch. -/
def epochMismatch : Fail := { sc := 0x91 }
/-- Service Refused. -/
def serviceRefused : Fail := { sc := 0x92 }
/-- Cluster Fault (02 R61). -/
def clusterFault : Fail := { sc := 0x93 }
/-- Tenant Key Unavailable. -/
def keyUnavailable : Fail := { sc := 0x94 }
/-- Peer Unreachable. -/
def peerUnreachable : Fail := { sc := 0x95 }
/-- Flushed. -/
def flushed : Fail := { sc := 0x96 }
/-- Code Flash Bank Busy. -/
def bankBusy : Fail := { sc := 0x97 }
/-- Lantern Unavailable. -/
def lanternUnavailable : Fail := { sc := 0x98 }

end St

/-- Complete an admin or NVM command with a failure's status (no log entry, no freeze: 04 R136). -/
def refuse (src : Src) (f : Fail) (s : State) : State := status src f.sct f.sc s

/-- The first check that fails: each is the condition under which it fails and its failure. -/
def firstFail {α : Type} : List (Bool × α) → Option α
  | [] => none
  | (b, f) :: r => if b then some f else firstFail r

end Sys2Proof.Machine
end

