-- ==== Sys2Proof/Machine/Operands.lean ====
section
/-! DEFINITION. The operand forms: the fields of the Milris entry (04 Table 4-2), of an admin entry and of an object ID, and the
checks that every Milris command makes before its own (log 16 gives their order). -/

namespace Sys2Proof.Machine

open Sys2Proof

/-- Opcode: Dword 0 [7:0]. -/
def Fe.opcode (e : Entry) : Nat := bits e.dw0.toNat 7 0
/-- PSDT: Dword 0 [15:14]. -/
def Fe.psdt (e : Entry) : Nat := bits e.dw0.toNat 15 14
/-- CID: Dword 0 [31:16]. -/
def Fe.cid (e : Entry) : Nat := bits e.dw0.toNat 31 16
/-- Target dome: Dword 2 [11:0]. -/
def Fe.dome (e : Entry) : Nat := bits e.dw2.toNat 11 0
/-- Tenant context: Dword 2 [27:16]. -/
def Fe.tenant (e : Entry) : Nat := bits e.dw2.toNat 27 16
/-- OUTOBJ: Dword 2 bit 31. -/
def Fe.outObj (e : Entry) : Bool := bit e.dw2.toNat 31
/-- The first object ID (04 R125): Dword 12, and Dword 13 [15:0]. -/
def Fe.obj1 (e : Entry) : Nat := e.dw12.toNat + 2 ^ 32 * bits e.dw13.toNat 15 0
/-- The second object ID (04 R125): Dword 14, and Dword 15 [15:0]. -/
def Fe.obj2 (e : Entry) : Nat := e.dw14.toNat + 2 ^ 32 * bits e.dw15.toNat 15 0

/-- What Table 4-3 says of a command: its opcode, its feature bit (Table 4-7), the bits of Dwords 13 to 15 that it names, and
whether it has an input and an output. -/
structure Shape where
  opcode : Nat
  feature : Nat
  dw13 : DWord
  dw14 : DWord
  dw15 : DWord
  input : Bool
  output : Bool

/-- A granted feature (04 R135). -/
def State.granted (s : State) (bit : Nat) : Bool := s.hb.neg.toNat.testBit bit

/-- Flash is read-only for ever (12 R374). -/
def State.readOnly (s : State) : Bool := s.fls.readOnly

/-- The partition of a function's binding in force (04 R115); none for an unbound function. -/
def State.boundTo (s : State) (f : Nat) : Option Nat :=
  ((s.str.bindings.find? (·.1 == f)).map (·.2)).bind fun d =>
    if s.str.domes.any fun x => x.id == d && x.parent == 0 then some d else none

/-- The virtual function whose binding to a partition is in force (04 R115). -/
def State.boundFn (s : State) (p : Nat) : Option Nat := (s.str.bindings.find? (·.2 == p)).map (·.1)

/-- A function may address a dome (04 R116). -/
def State.mayAddress (s : State) (f d : Nat) : Bool :=
  f == 0 || (match s.boundTo f with | some p => s.under d p | none => false)

/-- A key is loaded for a tenant context (18 R497). -/
def State.key? (s : State) (tenant : Nat) : Option TenantKey := s.sec.keys.find? (·.tenant == tenant)

/-- The reserved fields of the entry: FUSE, Dword 0 [13:10], Dword 2 [15:12] and [30:28], Dword 3, and the bits of Dwords 13 to
15 that Table 4-3 does not name (04 R120, R126). -/
def reservedSet (sh : Shape) (e : Entry) : Bool :=
  bits e.dw0.toNat 13 8 != 0 || bits e.dw2.toNat 15 12 != 0 || bits e.dw2.toNat 30 28 != 0 || e.dw3 != 0 ||
  (e.dw13 &&& ~~~(sh.dw13 ||| 0xFFFF#32)) != 0 || (e.dw14 &&& ~~~sh.dw14) != 0 || (e.dw15 &&& ~~~sh.dw15) != 0

/-- The lengths and the output field of the entry (04 R120): true when they break Table 4-2, or when a length is set for which the command's
row of Table 4-3 lists no input or no output, which R126 leaves open (DESIGN CHOICE, log 96). -/
def lengthsBad (sh : Shape) (e : Entry) : Bool :=
  e.inLen.toNat > 67108864 || e.outLen.toNat % 8 != 0 || e.outLen.toNat > 1073741824 ||
  (!sh.input && e.inLen != 0) || (!sh.output && (e.outLen != 0 || e.output != 0 || Fe.outObj e)) ||
  (e.outLen == 0 && (e.output != 0 || Fe.outObj e)) || (!Fe.outObj e && e.output.toNat % 8 != 0) || Fe.psdt e == 3

/-- The output object (04 R121, R125; 05 R159 for a SHARED object of another partition): none when it is in order. -/
def outputFail (e : Entry) (s : State) : Option Fail :=
  if Fe.outObj e ∧ e.outLen ≠ 0 then
    if e.output.toNat / 2 ^ 48 ≠ 0 ∨ e.output = 0 then some St.invalidField
    else match (s.obj? e.output.toNat).filter fun o => !o.released with
      | none => some (St.objectNotFound e.output.toNat)
      | some o =>
        if o.part ≠ s.part (Fe.dome e) then some (if o.flag 7 then { St.accessDenied with object := o.id } else St.objectNotFound o.id)
        else if o.size < e.outLen.toNat then some St.invalidField else none
  else none

/-- A sanitize runs (04 R145). -/
def State.sanitizing (s : State) : Bool := s.fls.progress.any fun p => (p.op == 4 || p.op == 5) && (p.state == 1 || p.state == 4)

/-- The checks that come before a Milris command's own (log 16): namespace (R120), reserved fields (R13), feature (R3), tenant
key (R128), dome (R30, R116, R128), the key's partition (R128), the output object (R121) and the lengths (Table 4-2). -/
def commonFail (sh : Shape) (e : Entry) (s : State) : Option Fail :=
  (firstFail [
    (e.nsid != 257, St.invalidNamespace),
    (s.sanitizing, St.sanitizeBusy),
    (reservedSet sh e, St.invalidField),
    (!s.granted sh.feature, St.invalidOpcode),
    ((s.key? (Fe.tenant e)).isNone, St.keyUnavailable),
    (Fe.dome e == 0, St.invalidField),
    (!s.mayAddress e.src.fn (Fe.dome e), St.accessDenied),
    (!(match s.dome? (Fe.dome e) with | some d => !d.dissolving | none => false), St.domeDissolved),
    ((match s.key? (Fe.tenant e) with | some k => k.part != s.part (Fe.dome e) | none => true), St.keyUnavailable)]).orElse
  fun _ => (outputFail e s).orElse fun _ => if lengthsBad sh e then some St.invalidField else none

/-- The front end has fetched an entry of a sender that no command has taken yet (log 1). -/
def State.has (s : State) (src : Src) : Bool := s.q.fetched.contains (src.fn, src.sq)

/-- A sender's fetched entry is taken: its command has begun, with a QUEUE packet (21 Table 21-3). -/
def begun (src : Src) (opcode dome : Nat) (s : State) : State :=
  queuePacket 0 src opcode 0 0 dome (s.modQ fun q =>
    { q with fetched := q.fetched.erase (src.fn, src.sq), begun := q.begun ++ [(src, opcode, dome)] })

/-- Take the entry that the front end fetched for a sender and act on it; without such an entry the command does not happen
(log 1). -/
def taken (src : Src) (opcode dome : Nat) (f : State → State) (s : State) : Ans :=
  if s.has src then .next (f (begun src opcode dome s)) else .next s

/-- CC.CSS of the function is 110b, which the Milris command set needs (04 Table 4-1). -/
def State.milrisOn (s : State) (f : Nat) : Bool := (s.fn? f).any fun x => bits x.cc.toNat 6 4 == 6

/-- A Milris command with an entry is executed: the entry is its own and fetched, the function has the Milris command set, and no
common check fails. -/
def milrisRuns (sh : Shape) (e : Entry) (s : State) : Bool :=
  Fe.opcode e == sh.opcode && Fe.cid e == e.src.cid && s.has e.src && s.milrisOn e.src.fn && (commonFail sh e s).isNone

/-- An admin command is executed: its entry was fetched from the admin queue, and no quiesce stops it (03 R102). -/
def adminRuns (src : Src) (duringQuiesce : Bool) (s : State) : Bool :=
  src.sq == 0 && s.has src && (duringQuiesce || !s.hb.quiesced)

/-- Run a Milris command: its entry is taken, the common checks are made, and the command's own part answers the next state or
the failure (04 R123, R136). Without the Milris command set its opcode is invalid, as for an NVM command (log 16). -/
def runMilris (sh : Shape) (e : Entry) (own : State → Except Fail State) (s : State) : Ans :=
  if Fe.opcode e ≠ sh.opcode ∨ Fe.cid e ≠ e.src.cid then .next s
  else taken e.src sh.opcode (Fe.dome e) (fun s =>
    let no (f : Fail) : State := failMilris e.src sh.opcode (Fe.dome e) (Fe.tenant e) f s
    if !s.milrisOn e.src.fn then invalidOpcode e.src s
    else match commonFail sh e s with
      | some f => no f
      | none => match own s with
        | .ok t => t
        | .error f => no f) s

/-- Run an admin command: its entry is taken; during quiesce only the commands of R102 are executed. A refusal is a status
without a log entry. -/
def runAdmin (opcode : Nat) (src : Src) (duringQuiesce : Bool) (own : State → Except Fail State) (s : State) : Ans :=
  if src.sq ≠ 0 then .next s
  else taken src opcode 0xFFFF (fun s =>
    if s.hb.quiesced && !duringQuiesce then refuse src St.quiesced s
    else match own s with
      | .ok t => t
      | .error f => refuse src f s) s

/-- The failure of a check, or the answer of what follows. -/
def orFail {α : Type} (f : Option Fail) (k : Unit → Except Fail α) : Except Fail α :=
  match f with
  | some x => .error x
  | none => k ()

end Sys2Proof.Machine
end

