-- ==== Sys2Proof/Machine/Stripe.lean ====
section
/-! DEFINITION. Stripe groups and the extent map: where units lie, what has bad blocks and spares, and what leaves the map (12 R354, R355,
R361, R367, R372, R374). -/

namespace Sys2Proof.Machine

open Sys2Proof

/-! ### Groups and places (R361) -/

/-- A group's record. -/
def State.group? (s : State) (g : Nat) : Option Group := s.fls.groups.find? (·.id == g)

/-- Update a group's record. -/
def modGroup (g : Nat) (f : Group → Group) (s : State) : State := s.modFls fun x => { x with groups := updIf (·.id == g) f x.groups }

/-- Unit slots of a group: 3 page positions of 1,024 pages for each member, four units a page. -/
def Group.capacity (g : Group) : Nat := 12288 * g.members.length

/-- The block and page of a unit slot. -/
def Group.place (g : Group) (slot : Nat) : Nat × Nat :=
  let m := Nat.max 1 g.members.length
  (g.members.getD (slot / 4 % m) 0, slot / 4 / m)

/-- An extent's record. -/
def State.extent? (s : State) (k : ExtKey) : Option Extent := s.fls.extents.find? (·.key == k)

/-- Put an extent's record. -/
def putExtent (e : Extent) (s : State) : State := s.modFls fun x => { x with extents := e :: x.extents.filter (·.key != e.key) }

/-- Drop an extent's record: it is UNMAPPED. -/
def unmapExtent (k : ExtKey) (s : State) : State := s.modFls fun x => { x with extents := x.extents.filter (·.key != k) }

/-- Where a unit of an extent lies: group and unit slot. -/
def ExtMap.slot (m : ExtMap) (unit : Nat) : Option (Nat × Nat) := match m with
  | .coarse g at_ => some (g, at_ + unit)
  | .fine us => (us.find? (·.1 == unit)).map (·.2)

/-- The groups that a map points into. -/
def ExtMap.groups : ExtMap → List Nat
  | .coarse g _ => [g]
  | .fine us => nubN (us.map (·.2.1))

/-- The block and page of a unit. -/
def State.locate (s : State) (k : ExtKey) (unit : Nat) : Option (Nat × Nat) :=
  (s.extent? k).bind fun e => (e.map.slot unit).bind fun p => (s.group? p.1).map fun g => g.place p.2

/-- Valid units of a group. -/
def State.validUnits (s : State) (g : Nat) : Nat :=
  sumN (s.fls.extents.map fun e => match e.map with
    | .coarse h _ => if h = g then 4096 else 0
    | .fine us => (us.filter (·.2.1 == g)).length)

/-- The extents with a unit in a group. -/
def State.extentsIn (s : State) (g : Nat) : List Extent := s.fls.extents.filter fun e => e.map.groups.contains g

/-- Fine maps in use (R358). -/
def State.fineMaps (s : State) : Nat := (s.fls.extents.filter fun e => match e.map with | .fine _ => true | _ => false).length

/-! ### Spares (R372, R374) -/

/-- The spares have run out: flash is read-only for ever (R374). -/
def checkSpares (s : State) : State :=
  if s.fls.spares ≠ 0 ∨ s.fls.readOnly then s
  else
    let s1 := lineUp 0x005 0 (s.modFls fun x => { x with readOnly := true })
    (s1.fns.filter fun f => f.feat.asyncConfig.getLsbD 3).foldl (fun s f => aen f.id 1 0 0x02 s) s1

/-- A block joins the grown bad-block table and the spares fall by 1 (R372). -/
def growBad (b : Nat) (s : State) : State :=
  checkSpares ((modBlock b (fun x => { x with state := .bad, grown := true, group := none }) s).modFls fun x =>
    { x with grownBad := sat 0xFFFFFFFF (x.grownBad + 1), spares := x.spares - 1, refreshQ := delN b x.refreshQ })

/-- Blocks that hold no mapped data any longer and wait for no verification become STALE; one marked bad joins the bad blocks, and one
on a retiring die is RETIRED (R364, R367, R369, R372, R380). -/
def leaveBlock (b : Nat) (s : State) : State :=
  if (s.block b).state == .bad then s
  else if (s.block b).grown then growBad b s
  else if (s.die (dieOf b)).retiring then modBlock b (fun x => { x with state := .retired, group := none }) s
  else modBlock b (fun x => { x with state := .stale, group := none }) s

/-- A group is empty: closed, with nothing mapped or under way in it, and no source of an unverified copy (R367, R369). -/
def State.groupEmpty (s : State) (g : Group) : Bool :=
  !g.open_ && g.programming.isEmpty && (s.extentsIn g.id).isEmpty && !s.fls.groups.any fun h => h.sources.contains g.id

/-- Empty groups are dissolved. -/
def sweep (s : State) : State :=
  (s.fls.groups.filter s.groupEmpty).foldl (fun s g =>
    (g.members.foldl (fun s b => leaveBlock b s) s).modFls fun x => { x with groups := x.groups.filter (·.id ≠ g.id) }) s

/-! ### What programs at once, and the parity of open groups (R363, R365; 16 R452) -/

/-- Dies that program or erase now; one whose operation is suspended does not. -/
def State.diesAtWork (s : State) : Nat := (s.fls.dies.filter fun d => d.busy.any (!·.suspended)).length

/-- The dies that may program or erase at once: 256 from throttle level 8, and 64 at level 15 (16 R452). -/
def State.dieLimit (s : State) : Nat := if s.pwr.level ≥ 15 then 64 else if s.pwr.level ≥ 8 then 256 else 2048

/-- An operation may start on these dies under the limit of R452. -/
def State.diesMayWork (s : State) (dies : List Nat) : Bool :=
  s.diesAtWork + (dies.filter fun d => (s.die d).busy.isNone).length ≤ s.dieLimit

/-- Parity bytes that a group holds in T1 (R363): a page for each page position programmed in any member. -/
def Group.parityBytes (g : Group) : Nat :=
  if g.parity && !g.spilled then ceilDiv (ceilDiv g.used 4) (Nat.max 1 g.members.length) * 16384 else 0

/-- A group's parity goes to the reserved SLC area as class M traffic (R365). -/
def spillParity (g : Group) (s : State) : State :=
  ctrAdd .flashParitySpills 0 1 (modGroup g.id (fun x => { x with spilled := true })
    (g.members.foldl (fun s b => countClass (dieOf b) 4 (g.parityBytes / Nat.max 1 g.members.length) s) s))

/-- A flush spills the parity of every open group (R365; 16 Table 16-4). -/
def spillOpen (s : State) : State := (s.fls.groups.filter fun g => g.open_ && g.parity && !g.spilled).foldl (fun s g => spillParity g s) s

/-- A start after an unsafe shutdown reinstates the saved parity (17 R475). -/
def reinstateParity (s : State) : State :=
  s.modFls fun x => { x with groups := x.groups.map fun g => if g.open_ then { g with spilled := false } else g }

/-! ### Closing groups (R361, R380; 13 R392; 16 R461) -/

/-- A group is closed where it stands (R380; 13 R392). -/
def closeGroup (g : Group) (s : State) : State :=
  g.members.foldl (fun s b => modBlock b (fun x => { x with state := .closed }) s) (modGroup g.id (fun x => { x with open_ := false }) s)

/-- The open groups of a kind are closed where they stand, and are verified without parity (13 R392; 16 R461). -/
def closeBare (p : Group → Bool) (s : State) : State :=
  (s.fls.groups.filter fun g => g.open_ && p g).foldl (fun s g => modGroup g.id (fun x => { x with parity := false }) (closeGroup g s)) s

/-! ### What leaves the map, and the extents of objects (R355, R357) -/

/-- The name under which the extents of an object stand in the map, beside the namespaces 1 to 256 (R355; log 8). -/
def objSpace (id : Nat) : Nat := 2 ^ 48 + id

/-- The extents, cached units and programs under way of a namespace or an object go (R355). -/
def dropSpace (n : Nat) (s : State) : State :=
  sweep (s.modFls fun x =>
    { x with extents := x.extents.filter (·.key.1 ≠ n), dirty := x.dirty.filter (·.1 ≠ n), inFlight := x.inFlight.filter (·.1 ≠ n),
             dirtyExt := x.dirtyExt.filter (·.1 ≠ n),
             groups := x.groups.map fun g => { g with programming := g.programming.filter (·.key.1 ≠ n) } })

/-- Pages of an object's durable copy are written: their extents wait in the write cache, each to be written whole (R357; log 8). -/
def backExtents (id : Nat) (pages : List Nat) (s : State) : State :=
  let ks : List ExtKey := (nubN (pages.map (· / 8))).map fun e => (objSpace id, e)
  s.modFls fun x => { x with dirtyExt := x.dirtyExt ++ ks.filter fun k => !x.dirtyExt.contains k }

/-- Whole extents of objects that are being programmed from the write cache. -/
def Fls.wholeFlying (f : Fls) : List ExtKey := f.groups.flatMap fun g => (g.programming.filter fun p => p.cached && p.key.1 ≥ 2 ^ 48).map (·.key)

/-- Units that the write cache holds: dirty ones, and ones being programmed (16 R462). -/
def State.cacheUsed (s : State) : Nat :=
  s.fls.dirty.length + s.fls.inFlight.length + 4096 * (s.fls.dirtyExt.length + s.fls.wholeFlying.length)

end Sys2Proof.Machine
end

