-- ==== Sys2Proof/Machine/Tasks.lean ====
section
/-! DEFINITION. Outstanding Milris commands and their tasks: how they end, fail and complete (03 R69, R87, R91, R100, R101; 04 R122,
R123, R136, R139; 05 R157), and how semaphores pass from hand to hand. -/

namespace Sys2Proof.Machine

open Sys2Proof

/-- The outstanding command of a sender. -/
def State.cmd? (s : State) (src : Src) : Option Cmd := s.sch.cmds.find? (·.src == src)

/-- Update an outstanding command. -/
def modCmd (src : Src) (f : Cmd → Cmd) (s : State) : State :=
  s.modSch fun k => { k with cmds := updIf (·.src == src) f k.cmds }

/-- Update element i of a list. -/
def updAt {α : Type} (i : Nat) (f : α → α) (l : List α) : List α := l.zipIdx.map fun p => if p.2 = i then f p.1 else p.1

/-- Update a chain of a command. -/
def modChain (t : TaskRef) (f : Chain → Chain) (s : State) : State :=
  modCmd t.src (fun c => { c with chains := updAt t.chain f c.chains }) s

/-- The chain that a task reference names. -/
def State.chain? (s : State) (t : TaskRef) : Option Chain := (s.cmd? t.src).bind fun c => c.chains[t.chain]?

/-- The task in flight that a reference names: its command, chain and run. -/
def State.flight? (s : State) (t : TaskRef) : Option (Cmd × Chain × Run) :=
  match s.cmd? t.src with
  | none => none
  | some c => match c.chains[t.chain]? with
    | none => none
    | some h => h.run.map fun r => (c, h, r)

/-- It is a job's turn: no earlier one is on its index (10 R315). -/
def State.jobTurn (s : State) (j : IndexJob) : Bool := ((s.idx.jobs.find? (·.index == j.index)).map (·.src)) == some j.src

/-- The jobs whose turn it is go on: each waits while an earlier one is on its index (10 R315). -/
def wakeJobs (s : State) : State :=
  let turn (c : Cmd) : Bool := s.idx.jobs.any fun j => j.src == c.src && s.jobTurn j
  s.modSch fun k => { k with cmds := updIf turn (fun c => { c with waiting := false }) k.cmds }

/-- What stands in a step's batch for a sequence that has left it. -/
def goneSrc : Src := { fn := 0, sq := 0x10001, cid := 0 }

/-- The sender under which the runs of an ingest arm stand (08 R262). -/
def armSrc (a : Arm) : Src := { fn := a.fn, sq := 0xFFFF, cid := a.number + 32 * a.part }

/-- The arm of a triggered run. -/
def State.armBy (s : State) (src : Src) : Option Arm := s.inf.arms.find? fun a => armSrc a == src

/-- A decode step with a command's sequence has a task in flight. -/
def State.stepping (s : State) (src : Src) : Bool := s.sch.cmds.any fun d => d.src.inner && d.chains.any (·.run.isSome) && d.batch.contains src

/-- A command's sequence is in a decode step. -/
def State.inStep (s : State) (src : Src) : Bool := s.sch.cmds.any fun d => d.src.inner && d.batch.contains src

/-- The outstanding commands that a host sent: all but the module's own runs (log 38). -/
def State.hostCmds (s : State) : List Cmd := s.sch.cmds.filter (!·.src.inner)

/-- The output that a failed command still delivers: a scan that skipped pages writes its output and then fails (11 R344). -/
def Cmd.failOut (c : Cmd) (x : Failure) : List Byte := if c.opcode = 0x88 ∧ x.sct = 2 then c.out.take c.outLen else []

/-- The µs for which a task has run, `us` after the last boundary. -/
def State.ranFor (s : State) (r : Run) (us : Nat) : Nat := s.now us - r.start

/-- A command has a task in flight. -/
def Cmd.inFlight (c : Cmd) : Bool := c.chains.any (·.run.isSome)

/-- The task that a chain runs or will run next. -/
def Chain.task (h : Chain) : TaskSpec := (h.tasks[h.done]?).getD { worst := 1, t0 := 0 }

/-- A task in flight belongs to a dome of a subtree. -/
def State.busyUnder (s : State) (d : Nat) : Bool := s.sch.cmds.any fun c => c.inFlight && s.under c.dome d

/-! ### Semaphores (03 R87, R91) -/

/-- Add units to a holder in a list of holders; a holder of 0 units leaves it. -/
def addHeld (src : Src) (n : Int) (l : List (Src × Nat)) : List (Src × Nat) :=
  let now : Int := ((l.find? (·.1 == src)).map (·.2)).getD 0
  let rest := l.filter (·.1 ≠ src)
  if now + n ≤ 0 then rest else rest ++ [(src, (now + n).toNat)]

/-- A semaphore's record is the one at a position. -/
def modSem (i : Nat) (f : Sem → Sem) (s : State) : State := s.modSch fun k => { k with sems := updAt i f k.sems }

/-- The semaphore that a task of a dome means by an ID: the shared one, or the dome's own (02 R50). -/
def State.semIndex (s : State) (dome id : Nat) : Option Nat :=
  match s.sch.sems.findIdx? fun m => m.id == id && m.dome.isNone with
  | some i => some i
  | none => s.sch.sems.findIdx? fun m => m.id == id && m.dome == some dome

/-- No context of a cluster is ready: every task in flight on it waits (05 R168). -/
def State.starved (s : State) (cl : Nat) : Bool := !(s.running cl).isEmpty && (s.running cl).all fun x => x.2.2.wait != .none

/-- A wait on a cluster ends. The cycles for which the cluster idled, since no context of it was ready, are added to its starve cycles
(03 R92, 05 R168); how many they are is a free value, for no command gives the moment at which a wait began (log 57). -/
def starveEnd (cl : Nat) (s : State) : State :=
  if s.starved cl then
    let d := draw s
    ctrAdd .tierStarveCycles cl (d.1.toNat % 2 ^ 32) d.2
  else s

/-- The wait of a task ends. -/
def endWait (t : TaskRef) (s : State) : State :=
  modChain t (fun h => { h with run := h.run.map fun r => { r with wait := .none, waitOld := false } })
    (match s.flight? t with
      | some (_, _, r) => if r.wait = .none then s else starveEnd r.cluster s
      | none => s)

/-! ### Arrays (07 R212, R214) -/

/-- What a grant keeps of array a: all of it, or one of its quads. -/
def Grant.keeps (g : Grant) (a : Nat) : Bool := if g.quad then g.arrays.any (· / 4 == a) else g.arrays.contains a

/-- The arrays that a grant works on. -/
def Grant.on (g : Grant) : List Nat := nubN (if g.quad then g.arrays.map (· / 4) else g.arrays)

/-- The quads that a grant works on: all four of an array that it keeps whole. -/
def Grant.units (g : Grant) : List Nat := if g.quad then g.arrays else g.arrays.flatMap fun a => (List.range 4).map (4 * a + ·)

/-- The arrays, or the quads of one array, that are free for a product on a cluster (R212). -/
def State.freeArrays (s : State) (cl : Nat) (quad : Bool) (n : Nat) : Option (List Nat) :=
  let mine := s.arr.grants.filter (·.cluster == cl)
  if quad then
    (List.range 4).findSome? fun a =>
      if mine.any fun g => !g.quad && g.keeps a then none
      else
        let qs := ((List.range 4).map (4 * a + ·)).filter fun q => !mine.any fun g => g.quad && g.arrays.contains q
        if qs.length ≥ n then some (qs.take n) else none
  else
    let as := (List.range 4).filter fun a => !mine.any fun g => g.keeps a
    if as.length ≥ n then some (as.take n) else none

/-- The clock of an array in quad mode (R232; log 85). -/
def State.clockOf (s : State) (cl a : Nat) : Nat := ((s.arr.clocks.find? fun c => c.1 == cl && c.2.1 == a).map (·.2.2)).getD 0

/-- A product gets its arrays; an array that was in the other mode changes it (R214). -/
def grantArrays (k : ArrayAsk) (as : List Nat) (s : State) : State :=
  let g : Grant := { task := k.task, op := k.op, cluster := k.cluster, quad := k.quad, arrays := as,
                     ran := if k.quad then s.clockOf k.cluster (as.headD 0 / 4) else 0 }
  let turned := g.on.filter fun a => s.arr.quads.contains (k.cluster, a) != k.quad
  ctrAdd .arrayModeChangesWholeAndQuad k.cluster turned.length (s.modArr fun x =>
    { x with grants := x.grants ++ [g],
             quads := if k.quad then x.quads ++ turned.map (fun a => (k.cluster, a))
               else x.quads.filter fun q => !(q.1 == k.cluster && turned.contains q.2) })

/-- The first product of a list of asks that may have its arrays now: none before it waits on its cluster (R212). -/
def State.nextAsk (s : State) : List Nat → List ArrayAsk → Option (ArrayAsk × List Nat)
  | _, [] => none
  | seen, k :: r =>
    if seen.contains k.cluster then s.nextAsk seen r
    else match s.freeArrays k.cluster k.quad k.count with
      | some as => some (k, as)
      | none => s.nextAsk (k.cluster :: seen) r

/-- The products that wait for arrays get them in the order in which they asked, as far as arrays are free (R212). -/
def serveArrays : Nat → State → State
  | 0, s => s
  | n + 1, s => match s.nextAsk [] s.arr.waiting with
    | none => s
    | some (k, as) => serveArrays n (endWait k.task (grantArrays k as (s.modArr fun x => { x with waiting := x.waiting.erase k })))

/-- A product asks for its arrays (R212): it gets them when they are free and no product of its cluster waits, else its task waits. -/
def askArrays (k : ArrayAsk) (s : State) : State :=
  match (if s.arr.waiting.any (·.cluster == k.cluster) then none else s.freeArrays k.cluster k.quad k.count) with
  | some as => grantArrays k as s
  | none => modChain k.task (fun h => { h with run := h.run.map fun r => { r with wait := .arrays, waitOld := false, waitSince := s.now 0 } })
      (s.modArr fun x => { x with waiting := x.waiting ++ [k] })

/-- Arrays whose quads no product keeps have no clock. -/
def Arr.trimmed (x : Arr) : Arr :=
  { x with clocks := x.clocks.filter fun c => x.grants.any fun g => g.quad && g.cluster == c.1 && g.keeps c.2.1 }

/-- Grants that a test picks are given back, and the products that waited go on (R212). -/
def freeGrants (p : Grant → Bool) (s : State) : State :=
  serveArrays s.arr.waiting.length (s.modArr fun x => Arr.trimmed { x with grants := x.grants.filter fun g => !p g })

/-- What tasks that leave their clusters had of the arrays goes: tiles, grants, and the weights that hide a load (R211, R212). -/
def dropArrays (p : TaskRef → Bool) (s : State) : State :=
  freeGrants (fun g => p g.task) (s.modArr fun x =>
    { x with tiles := x.tiles.filter fun y => !p y.task, waiting := x.waiting.filter fun k => !p k.task,
             last := x.last.filter fun l => !p l.2.2.1 })

/-! ### Units (03 R87) -/

/-- One unit comes free: the first waiter takes it and goes on, or the count rises (03 R87). -/
def giveUnit (i : Nat) (s : State) : State :=
  match s.sch.sems[i]? with
  | none => s
  | some m => match m.waiters with
    | [] => modSem i (fun m => { m with count := m.count + 1 }) s
    | w :: rest =>
      let s1 := endWait w
        (modSem i (fun m => { m with waiters := rest, held := addHeld w.src 1 m.held }) s)
      match s.flight? w with
      | some (c, _, r) => if m.dome.isNone then semPacket 6 m.id c.dome r.cluster ((s.now 0 - r.waitSince) * 1500) s1 else s1
      | none => s1

/-- Give n units. -/
def giveUnits (i : Nat) : Nat → State → State
  | 0, s => s
  | n + 1, s => giveUnits i n (giveUnit i s)

/-- A semaphore is held-by-suspended with a holder that still holds it and is suspended: the one marked, or, when that one no longer is,
the next (R88). -/
def remark (s : State) : State :=
  let down (m : Sem) (x : Src) : Bool := m.held.any (·.1 == x) && (s.cmd? x).any (·.suspended)
  s.modSch fun k => { k with sems := k.sems.map fun m => match m.suspended with
    | none => m
    | some x => if down m x then m else { m with suspended := (m.held.find? fun h => down m h.1).map (·.1) } }

/-! ### Live T0 and lending (03 R78, R79, R89) -/

/-- The domes eligible in a partition's entry in force (02 R53): without a table every dome is. -/
def State.eligible (s : State) (d : Nat) : Bool :=
  match s.sch.ptrs.find? (·.part == s.part d) with
  | none => true
  | some p => match s.str.slices.find? (·.part == p.part) with
    | none => true
    | some t => match t.entries[p.entry]? with
      | none => true
      | some e => e.domes.any fun a => s.under d a

/-- A plan reads a STREAM object layer by layer (05 R164). -/
def State.streams (s : State) (c : Cmd) : Bool := c.plan.any fun p => p.objs.any fun o => (s.obj? o).any (·.flag 6)

/-- The layer of task k of a chain, in its pass of the plan. -/
def Chain.layerAt (h : Chain) (c : Cmd) (k : Nat) : Nat :=
  let n := Nat.max 1 ((c.plan.map (·.tasks.length)).getD 1)
  (((h.tasks.take k).drop (k / n * n)).filter (·.layerEnd)).length

/-- The next task of a chain is the first of a layer. -/
def Chain.layerStarts (h : Chain) : Bool := h.done == 0 || (h.tasks[h.done - 1]?).any (·.layerEnd)

/-- A layer follows the one at hand (05 R165). -/
def Chain.layerFollows (h : Chain) : Bool :=
  (h.tasks.drop h.done).zipIdx.any fun k => k.1.layerEnd && h.done + k.2 + 1 < h.tasks.length

/-- The fill of layer 0 has not begun: the first task waits for its pages (05 R165). -/
def Chain.fillWaits (h : Chain) : Bool := h.done == 0 && !h.filling0.isEmpty && h.fillStart.isNone

/-- A cluster's part of the ranges of STREAM objects that a layer reads, as chunks are dealt (05 R150, R164). -/
def State.layerPart (s : State) (c : Cmd) (layer cl : Nat) : Nat :=
  let ranges := (c.plan.bind fun p => p.layers[layer]?).getD []
  sumN ((ranges.filter fun r => (s.obj? r.1).any (·.flag 6)).flatMap fun r =>
    ((deal (s.clusters c.dome) (ceilDiv r.2.2 4096)).filter (·.1 == cl)).map (·.2))

/-- The two buffers of a chain's STREAM objects on a cluster (05 R164), as far as they are full: that of the layer at hand, and that of the
next layer; they swap their roles at the layer boundary. -/
def State.fullBuffers (s : State) (c : Cmd) (h : Chain) (cl : Nat) : Nat :=
  if !s.streams c || h.finished then 0
  else
    let n := h.layerAt c h.done
    (if h.fillWaits || h.filling0.contains cl then 0 else s.layerPart c n cl) +
    (if h.layerFollows && !(h.layerStarts && h.run.isNone) && !h.filling.contains cl then s.layerPart c (n + 1) cl else 0)

/-- The live T0 of a dome on a cluster (R78): its objects there, the prefetch buffers that are full there (05 R167), and the regions of its
suspended plans at their last task boundary (log 29). -/
def State.liveT0 (s : State) (d c : Nat) : Nat :=
  sumN ((s.obj.t0.filter fun u => u.dome == d && u.cluster == c && u.owner.savable).map (·.bytes)) +
  sumN ((s.sch.cmds.filter (·.dome == d)).map fun m =>
    sumN ((m.chains.filter fun h => h.at_ == some c && h.run.isNone && !h.finished).map (·.live)) +
    sumN (m.chains.map fun h => s.fullBuffers m h c))

/-- The bound of R79 in whole µs: 6 µs + L_max ÷ 40 GB/s + L_total ÷ 1.6 TB/s, rounded up. -/
def switchBound (lmax ltotal : Nat) : Nat := ceilDiv (9600000 + 40 * lmax + ltotal) 1600000

/-- The bound for byte counts by cluster. -/
def boundOf (l : List Nat) : Nat := switchBound (maxN l) (sumN l)

/-- The saved bytes of a dome on a cluster change by n. -/
def shiftSaved (d c : Nat) (n : Int) (l : List (Nat × Nat × Nat)) : List (Nat × Nat × Nat) :=
  let now := sumN ((l.filter fun v => v.1 == d && v.2.1 == c).map (·.2.2))
  let rest := l.filter fun v => !(v.1 == d && v.2.1 == c)
  if (now : Int) + n ≤ 0 then rest else rest ++ [(d, c, ((now : Int) + n).toNat)]

/-- The regions that a suspended command declares live leave the save area for a lending (`out`), or are saved back after it (R89). -/
def moveSaved (c : Cmd) (out : Bool) (s : State) : State :=
  (c.chains.filter (!·.finished)).foldl (fun t h => match h.at_ with
    | some x => t.modSch fun k => { k with saved := shiftSaved c.dome x (if out then -(h.live : Int) else h.live) k.saved }
    | none => t) s

/-- The lending of semaphore i ends at a moment: the holder's live T0 is saved back, within the bound of R79, unless its own dome is in
by now, and the time is charged to the waiter's partition (R89, R90). -/
def endLending (i : Nat) (at_ : Nat) (s : State) : State :=
  match s.sch.sems[i]? with
  | none => s
  | some m => match m.lending with
    | none => s
    | some (src, wd, cl, start) =>
      let live := ((s.cmd? src).map fun c => sumN ((c.chains.filter (!·.finished)).map (·.live))).getD 0
      let s1 := match s.cmd? src with
        | some c => if s.eligible c.dome then s else moveSaved c false s
        | none => s
      semPacket 4 m.id wd cl ((at_ + boundOf [live] - start) * 1500)
        (ctrPart .schedLentTimeUs wd (at_ + boundOf [live] - start) (modSem i (fun m => { m with lending := none }) s1))

/-- Every lending to a command ends at a moment. -/
def endLendings (src : Src) (at_ : Nat) (s : State) : State :=
  s.sch.sems.zipIdx.foldl (fun t m => if m.1.lending.any (·.1 == src) then endLending m.2 at_ t else t) s

/-- Release the units of semaphore i that a command's plan holds, and take its tasks from the waiters. -/
def releaseHeld (src : Src) (s : State) (i : Nat) : State :=
  match s.sch.sems[i]? with
  | none => s
  | some m =>
    let n := ((m.held.find? (·.1 == src)).map (·.2)).getD 0
    let s1 := giveUnits i n (modSem i (fun m =>
      { m with held := m.held.filter (·.1 ≠ src), waiters := m.waiters.filter (·.src ≠ src) }) s)
    if n ≠ 0 then
      let d := ((s.cmd? src).map (·.dome)).getD 0
      raisePart d 3 (BitVec.ofNat 32 m.id) (if m.dome.isNone then semPacket 5 m.id d 0xFFFF 0 s1 else s1)
    else s1

/-- The semaphores of a command that fails or is dropped are released, with the semaphore-released-on-failure event for each
(03 R91). A lending to it that a failure ends elsewhere than at a task's end is charged to the last tick boundary (log 57). -/
def releaseSems (src : Src) (s0 : State) : State :=
  let s := endLendings src (s0.now 0) s0
  remark ((List.range s.sch.sems.length).foldl (releaseHeld src) s)

/-- A command that ends with success holds nothing further: no plan is left to hold the units that it acquired and did not
release, and no rule gives them back (log 20). -/
def endSems (src : Src) (s : State) : State :=
  remark (s.modSch fun k => { k with sems := k.sems.map fun m => { m with held := m.held.filter (·.1 ≠ src) } })

/-! ### The end of a command -/

/-- What belongs to a charge of a command. -/
def ownedBy (src : Src) : Owner → Bool
  | .parked x => x == src
  | .task t => t.src == src
  | .tuneState x => x == src
  | _ => false

/-- An adapter version that no sequence uses any longer goes, with its charge (08 R252). -/
def dropVersions (s : State) : State :=
  let used (a v : Nat) : Bool := s.inf.seqs.any fun q => q.adapter == a && q.version == v
  (s.inf.versions.filter fun v => !used v.1 v.2.1).foldl (fun s v => uncharge (.adapter v.1 v.2.1) s)
    (s.modInf fun x => { x with versions := x.versions.filter fun v => used v.1 v.2.1 })

/-- Disarm an inbox: its allocation is freed and its header is cleared (10 R326, R328; log 47). -/
def disarm (n : Nat) (s : State) : State :=
  (uncharge (.inbox n) s).modMrg fun m => { m with armed := m.armed.filter (·.1 ≠ n), window := memClear m.window (n * 0x1000000) 64 }

/-- Remove a command with everything that it alone holds: its channels, tiles, arrays, walks, scans, runs and charges, and its place in the
batch of a decode step. An object that a fence has released goes with the last command that names it, and with it the watch slots of its
plan (02 R571; 06 R203). -/
def forget (src : Src) (s : State) : State :=
  let s1 := s.modSch fun k => { k with cmds := (k.cmds.filter (·.src ≠ src)).map fun c =>
    { c with batch := c.batch.map fun x => if x = src then goneSrc else x } }
  let s2 := s1.modXfer fun l => l.filter (·.task.src ≠ src)
  let s3 := dropArrays (·.src == src) s2
  let s4 := wakeJobs (s3.modIdx fun x =>
    { x with walks := x.walks.filter (·.src ≠ src), searches := x.searches.filter (·.src ≠ src), jobs := x.jobs.filter (·.src ≠ src) })
  let boxes := (s4.mrg.merges.filter fun g => g.src == src && g.position != 0).map (·.ownInbox)
  let s5 := boxes.foldl (fun s n => disarm n s) (s4.modMrg fun m => { m with merges := m.merges.filter (·.src ≠ src) })
  let s6 := s5.modScn fun x => { x with scans := x.scans.filter (·.src ≠ src) }
  let s7 := dropVersions (s6.modInf fun x =>
    { x with seqs := x.seqs.filter (·.src ≠ src), tunes := x.tunes.filter (·.src ≠ src), embeds := x.embeds.filter (·.src ≠ src) })
  let left (x : Obj) : Bool := x.released && !s1.sch.cmds.any (·.objs.contains x.id)
  freeSlots (fun w => s.obj.list.any fun x => left x && x.id == w.plan) (s7.modObj fun o =>
    { o with charges := o.charges.filter (fun c => !ownedBy src c.owner), list := o.list.filter fun x => !left x })

/-- Delete I/O Submission Queue completes after the last of its queue's commands (04 R139). -/
def deleteCheck (f q : Nat) (s : State) : State :=
  match s.sq? f q with
  | none => s
  | some x => match x.deleting with
    | none => s
    | some by_ =>
      if s.sch.cmds.any fun c => c.src.fn == f && c.src.sq == q && !c.dropped then s
      else ok by_ 0 0 (s.modQ fun z => { z with sqs := z.sqs.filter fun y => !(y.fn == f && y.id == q),
                                                fetched := z.fetched.filter (· ≠ (f, q)) })

/-- A failure without a place, from one of the named statuses. -/
def Fail.toFailure (f : Fail) : Failure := { sct := f.sct, sc := f.sc, detail := f.detail, object := f.object, cursor := f.cursor }

/-- A failure in the form of a task's (03 R69) as a completion's. -/
def toFail (x : Failure) (c : Cmd) : Fail :=
  { sct := x.sct, sc := x.sc, detail := x.detail, object := x.object, cursor := x.cursor, cluster := c.failCluster, task := c.failTask }

/-- The dirty pages of an object go back to the object store (05 R157). -/
def writeBack (id : Nat) (s : State) : State :=
  match s.obj? id with
  | none => s
  | some o =>
    if !o.flag 5 || o.dirty.isEmpty then s
    else ctrPart .tierDirtyPagesWrittenBack o.dome o.dirty.length
      (backExtents id o.dirty ((modOne id (fun o => { o with dirty := [] }) s).modObj fun x =>
        { x with store := updIf (fun d => d.id == id) (fun d => { d with data := o.data }) x.store }))

/-- Where a command's output goes: the object, or the key of its T2 address with the PASID of its queue (04 R118, R121). -/
def State.outKey (s : State) (c : Cmd) : Nat := if c.outObj then c.outAddr else t2Key (s.pasidOf c.src) c.outAddr

/-- Put a command's output where its entry says (04 R121, R122). -/
def deliver (outObj : Bool) (addr : Nat) (out : List Byte) (s : State) : State :=
  if out.isEmpty then s else if outObj then writeBack addr (writeObj addr 0 out s) else writeT2 addr out s

/-- The bytes of an answer in T1: its completion entry and its output (03 R100). -/
def answerBytes (out : Nat) : Nat := 16 + out

/-- A command's answer would exceed the T1 quota of its partition in quiesce (03 R101). -/
def State.noRoomFor (s : State) (c : Cmd) (out : Nat) : Bool :=
  s.hb.quiesced && (match fit (s.part c.dome) 1 (answerBytes out) s with | .ok _ => false | .error _ => true)

/-- The answer of a command that has just completed in quiesce is parked and charged to its partition (03 R100, R101; log 33). -/
def park (c : Cmd) (part : Nat) (out : List Byte) (s : State) : State :=
  let t := match fit part 1 (answerBytes out.length) s with
    | .ok u => charge (.parked c.src) 1 part (answerBytes out.length) u
    | .error _ => s
  ctrAdd .schedParkedAnswers 0 1 (t.modHb fun h =>
    { h with parked := h.parked ++ [{ src := c.src, dome := c.dome, outObj := c.outObj, addr := s.outKey c, out, opcode := c.opcode, tenant := c.tenant }] })

/-- The objects that a command writes, and of which a page is dirty, go back to the object store before its completion (05 R157); while
flash is read-only they stay in the resident copies. -/
def writeBackAll (c : Cmd) (s : State) : State := if s.readOnly then s else c.writes.foldl (fun s id => writeBack id s) s

/-- A command of a queue completes with a failure and perhaps a cut output: its dirty pages are written back (05 R157), its semaphores are released
(03 R91), it is no longer outstanding, and R136 applies. In quiesce its answer is parked; one without room stays in place, with the
command outstanding (03 R101). -/
def endWith (src : Src) (out : List Byte) (f : Fail) (s0 : State) : State :=
  match s0.cmd? src with
  | none => s0
  | some c =>
    if s0.noRoomFor c out.length then modCmd src (fun c => { c with kept := true, failed := c.failed.or (some f.toFailure) }) s0
    else
      let s := writeBackAll c s0
      if s.hb.quiesced then
        failMilris src c.opcode c.dome c.tenant f (park c (s.part c.dome) out (forget src (releaseSems src s)))
      else
        deleteCheck src.fn src.sq (failMilris src c.opcode c.dome c.tenant f (forget src (releaseSems src (deliver c.outObj (s.outKey c) out s))))

/-- A command is dropped without completion; its semaphores are released (03 R91, R105, R106). -/
def dropCmd (src : Src) (s : State) : State :=
  (forget src (releaseSems src s)).modQ fun q => { q with begun := q.begun.filter (·.1 ≠ src) }

/-- A command is discarded: dropped, or, while a task of it is in flight, once that task has ended (03 R69, R105). -/
def discardCmd (src : Src) (s : State) : State :=
  if (s.cmd? src).any (·.inFlight) ∨ s.stepping src then modCmd src (fun c => { c with dropped := true }) s else dropCmd src s

/-- A command wrote an object up to an offset. -/
def noteWrite (src : Src) (id stop : Nat) (s : State) : State :=
  modCmd src (fun c => { c with wrote := putN id (Nat.max stop ((lookN id c.wrote).getD 0)) c.wrote }) s

/-- A command of a partition completes having written objects: the ingest arms whose source it wrote at or beyond their cursors fall
due (08 R262). -/
def markArms (c : Cmd) (wrote : List (Nat × Nat)) (s : State) : State :=
  s.modInf fun x => { x with arms := x.arms.map fun a => match lookN a.source wrote with
    | none => a
    | some stop => if a.part == s.part c.dome && stop > a.cursor then { a with due := true, limit := Nat.max a.limit stop } else a }

/-- A command whose tasks have all ended completes: its output is cut to the output length (04 R122), its dirty pages are written back,
or stay in the resident copies while flash is read-only (05 R157), and its answer is delivered, or during quiesce parked (03 R100,
R101). -/
def finish (c : Cmd) (s0 : State) : State :=
  let s := endSems c.src s0
  let cut := c.out.take c.outLen
  if s.readOnly && c.writes.any (fun id => (s.obj? id).any (·.flag 5)) then
    if c.outObj then endWith c.src [] St.writeProtected (writeObj c.outAddr 0 cut s) else endWith c.src cut St.writeProtected s
  else
    let wrote := if c.outObj ∧ !cut.isEmpty then (c.outAddr, cut.length) :: c.wrote else c.wrote
    let s1 := markArms c wrote (writeBackAll c s)
    let dw0 := if c.opcode = 0x85 then cut.length else c.dw0
    let dw1 := if c.opcode = 0x85 then sat 0xFFFFFFFF c.tasksRun else c.dw1
    if c.out.length > c.outLen then endWith c.src cut (St.outputOverflow c.out.length) s1
    else if s.hb.quiesced then post { src := c.src, dw0, dw1 } (park c (s1.part c.dome) cut (forget c.src s1))
    else
      deleteCheck c.src.fn c.src.sq (ok c.src dw0 dw1 (forget c.src (deliver c.outObj (s1.outKey c) cut s1)))

/-- The answer of a command stays in place on the clusters, and the command stays outstanding (03 R101). -/
def keepAnswer (src : Src) (s : State) : State := modCmd src (fun c => { c with kept := true }) s

/-- See whether a command of a queue now ends: without completion when it was discarded (03 R105), with its failure once no task of it, and
none of a decode step with its sequence, is in flight, with the deletion of its queue at a task boundary (04 R139), or with success when
every chain has finished and no decode step has its sequence; in quiesce, an answer without room keeps it outstanding (03 R101). -/
def settleHost (src : Src) (s : State) : State :=
  match s.cmd? src with
  | none => s
  | some c =>
    if c.inFlight ∨ s.stepping src then s
    else if c.dropped then dropCmd src s
    else match c.failed with
      | some x => if s.noRoomFor c (c.failOut x).length then keepAnswer src s else endWith src (c.failOut x) (toFail x c) s
      | none =>
        if c.deleting then (if s.noRoomFor c 0 then keepAnswer src s else endWith src [] St.sqDeleted s)
        else if !c.chains.all (·.finished) ∨ s.inStep src then s
        else if s.noRoomFor c (Nat.min c.out.length c.outLen) then keepAnswer src s
        else finish c s

/-! ### The module's own runs (08 R255, R262, R263; log 38) -/

/-- A triggered run fails (08 R263): its arm goes, with an entry of the compute error log under queue 0xFFFF and the arm's number, and the
ingest-failure event. While flash is read-only it has not failed: the arm stays and the cursor waits. -/
def ingestFailed (a : Arm) (f : Failure) (s : State) : State :=
  if f.sct = St.writeProtected.sct ∧ f.sc = St.writeProtected.sc then s
  else ctrPart .genIngestFailures a.dome 1 (raisePart a.dome 10 (BitVec.ofNat 32 a.number)
    (logCmp { tick := s.tick.toNat, sq := 0xFFFF, cid := a.number, opcode := 0x89, sct := f.sct, sc := f.sc, dome := a.dome,
              tenant := a.tenant, fn := a.fn, detail := f.detail, object := f.object, cursor := f.cursor, seq := 0 }
      (s.modInf fun x => { x with arms := x.arms.filter fun b => !(b.part == a.part && b.number == a.number) })))

/-- A run of the module's own goes, with its dirty pages written back and its semaphores released (03 R91; 05 R157). -/
def endOwn (src : Src) (s : State) : State :=
  match s.cmd? src with
  | none => s
  | some c => forget src (releaseSems src (writeBackAll c s))

/-- A sequence's command fails with the decode step that it is in. -/
def failMember (f : Failure) (s : State) (src : Src) : State :=
  settleHost src (modCmd src (fun c => { c with failed := c.failed.or (some f) }) s)

/-- A run of the module's own fails: every command of a decode step with it, or the arm of a triggered run. -/
def failOwn (src : Src) (f : Failure) (s : State) : State :=
  match s.cmd? src with
  | none => s
  | some c =>
    if src.decodes then c.batch.foldl (failMember f) (endOwn src s)
    else match s.armBy src with
      | none => endOwn src s
      | some a => ingestFailed a f (endOwn src s)

/-- The cursor of an arm moves past the records that a run has embedded and inserted (08 R262). -/
def moveCursor (src : Src) (stop : Nat) (s : State) : State :=
  s.modInf fun x => { x with arms := updIf (fun a => armSrc a == src) (fun a => { a with cursor := stop, due := a.limit > stop }) x.arms }

/-- A run of the module's own has done its work: the sequences that have stopped in a decode step complete, or an arm's cursor moves. A
triggered run whose index may not be written back, flash being read-only, leaves the cursor where it is. -/
def finishOwn (c : Cmd) (s : State) : State :=
  if c.src.decodes then c.batch.foldl (fun t m => settleHost m t) (endOwn c.src s)
  else if s.readOnly && c.writes.any (fun id => (s.obj? id).any (·.flag 5)) then failOwn c.src (St.writeProtected).toFailure s
  else moveCursor c.src (((s.inf.embeds.find? (·.src == c.src)).map (·.stop)).getD 0) (endOwn c.src s)

/-- A command is to end without success. -/
def Cmd.ending (c : Cmd) : Bool := c.failed.isSome || c.deleting || c.dropped

/-- The commands that are to end without success leave a decode step at its task boundary; a step without sequences ends. -/
def settleBatch (c : Cmd) (s : State) : State :=
  let t := c.batch.foldl (fun t m => if (t.cmd? m).any (·.ending) then settleHost m t else t) s
  if (t.cmd? c.src).any fun d => d.batch.all (· == goneSrc) then endOwn c.src t else t

/-- See whether a run of the module's own now ends. -/
def settleOwn (src : Src) (s : State) : State :=
  match s.cmd? src with
  | none => s
  | some c =>
    if c.inFlight then s
    else if c.dropped then endOwn src s
    else match c.failed with
      | some x => failOwn src x s
      | none =>
        if c.chains.all (·.finished) then finishOwn c s
        else if src.decodes then settleBatch c s else s

/-- See whether a command or a run of the module's own now ends. -/
def settle (src : Src) (s : State) : State := if src.inner then settleOwn src s else settleHost src s

/-- A command completes with a failure and no output, or a run of the module's own fails. -/
def endFailed (src : Src) (f : Fail) (s : State) : State := if src.inner then failOwn src f.toFailure s else endWith src [] f s

/-- A command fails: nothing further of it is dispatched, and it completes once its tasks in flight have ended (03 R69). The
first failure is the one reported. -/
def failCmd (src : Src) (x : Failure) (task cluster : Nat) (s : State) : State :=
  settle src (modCmd src (fun c => match c.failed with
    | some _ => c
    | none => { c with failed := some x, failTask := task, failCluster := cluster }) s)

/-- The context and the waits of a task that leaves its cluster. -/
def leaveCluster (t : TaskRef) (s : State) : State :=
  let c := ((s.flight? t).map fun f => f.2.2.cluster).getD 0xFFFF
  (dropArrays (· == t) ((modChain t (fun h => { h with run := none }) (endWait t s)).modXfer fun l => l.filter (·.task ≠ t))).modSch
    fun k => { k with sems := k.sems.map fun m => { m with waiters := m.waiters.filter (· ≠ t) },
                      skipped := k.skipped.filter fun d => !(s.clusters d).contains c }

/-- The cycles since a task was dispatched, to the last tick boundary (21 Table 21-3; log 57). -/
def State.cyclesOf (s : State) (r : Run) : Nat := (s.now 0 - r.start) * 1500

/-- A task in flight fails and its command with it (03 R69). -/
def failTask (t : TaskRef) (f : Fail) (s : State) : State :=
  match s.flight? t with
  | none => s
  | some (c, h, r) =>
    failCmd t.src (f.toFailure) h.done r.cluster (taskPacket 3 t.src c.opcode c.dome r.cluster f.sct f.sc (s.cyclesOf r) (leaveCluster t s))

/-- A command without a task in flight, or with tasks in flight that run to their end, fails without a task of its own. -/
def failWhole (src : Src) (f : Fail) (s : State) : State := failCmd src (f.toFailure) 0xFFFFFFFF 0xFFFF s

/-! ### Admission -/

/-- A command becomes outstanding, after those fetched before it. -/
def enrol (c : Cmd) (s : State) : State := s.modSch fun k => { k with cmds := k.cmds ++ [c] }

/-- An object is named by an outstanding command (04 R129), by an ingest arm (08 R263) or by an unfinished TUNE (08 R267). -/
def State.named (s : State) (id : Nat) : Bool :=
  s.sch.cmds.any (fun c => c.objs.contains id) ||
  s.inf.arms.any fun a => a.source == id || a.plan == id || a.index == id

/-- An object that a command of a partition may read (04 R129, 05 R159). -/
def State.readable (s : State) (id part : Nat) : Bool :=
  (s.obj? id).any fun o => !o.released && (o.part == part || o.flag 7)

/-- The outstanding command of an entry, before its own fields. -/
def cmdOf (e : Entry) (opcode : Nat) (objs : List Nat) : Cmd :=
  { src := e.src, opcode, dome := Fe.dome e, tenant := Fe.tenant e,
    objs := objs ++ (if Fe.outObj e ∧ e.outLen ≠ 0 then [e.output.toNat] else []),
    inAddr := e.inPtr.toNat, inLen := e.inLen.toNat, outObj := Fe.outObj e, outAddr := e.output.toNat, outLen := e.outLen.toNat,
    writes := if Fe.outObj e ∧ e.outLen ≠ 0 then [e.output.toNat] else [] }

end Sys2Proof.Machine
end

