-- ==== Sys2Proof/Machine/Objects.lean ====
section
/-! DEFINITION. Objects: placement, release, the durable copy and resident pages (05 R147 to R161; 04 R129, R130; 18 R496, R497). -/

namespace Sys2Proof.Machine

open Sys2Proof

/-- Bytes of a 2 MiB page. -/
def pageBytes : Nat := 2097152

/-- An object that exists for new commands: one that a fence has released does not (02 R571). -/
def State.live? (s : State) (id : Nat) : Option Obj := (s.obj? id).filter fun o => !o.released

/-- The key check of a tenant key (18 R496): the first 16 bytes of SHAKE256 over "KCHK" and the key. -/
def keyCheck (key : BitVec 256) : List Byte := (Config.shake256 (ascii "KCHK" ++ toLE 32 key.toNat)).take 16

/-- An object cannot be opened: the key of its owner is not loaded, or differs from its key check (18 R497). -/
def State.keyRefuses (s : State) (o : Obj) : Bool :=
  o.flag 5 && (match s.key? o.tenant with
    | none => true
    | some k => keyCheck k.key != o.keyCheck)

/-- Why a command of a partition may not name an object as an input (04 R125, R128; 05 R159). -/
def inputFail (id part : Nat) (s : State) : Option Fail :=
  if id = 0 then some St.invalidField
  else match s.live? id with
    | none => some (St.objectNotFound id)
    | some o =>
      if !(o.part == part || o.flag 7) then some (St.objectNotFound id)
      else if s.keyRefuses o then some { St.keyUnavailable with object := id } else none

/-- Why a command of a partition may not write an object (05 R159). -/
def writeFail (id part : Nat) (s : State) : Option Fail :=
  (inputFail id part s).orElse fun _ =>
    if (s.live? id).any (·.part != part) then some { St.accessDenied with object := id } else none

/-- The flags break a rule of Table 5-3 (R148). -/
def flagsBad (f : BitVec 8) : Bool :=
  let b (n : Nat) : Bool := f.toNat.testBit n
  b2n (b 0) + b2n (b 1) + b2n (b 2) != 1 || (b 2 && (b 5 || b 4)) || (b 3 && b 4) || (b 4 && !b 0) || (b 5 && b 2) ||
  (b 6 && b 0)

/-- The regions of a region list (R151, Table 5-4). -/
def regionList (bs : List Byte) : List (Nat × Nat) :=
  (List.range (bs.length / 16)).map fun i => (le bs (16 * i) 8, le bs (16 * i + 8) 8)

/-- A region list breaks R151 for an object of a size. -/
def regionsBad (bs : List Byte) (size : Nat) : Bool :=
  bs.length % 16 != 0 || (regionList bs).any (fun r => r.1 % 4096 != 0 || r.2 % 4096 != 0 || r.2 == 0) ||
  sumN ((regionList bs).map (·.2)) < size

/-- The home tier of flags. -/
def homeTier (f : BitVec 8) : Nat := if f.toNat.testBit 0 then 0 else if f.toNat.testBit 1 then 1 else 2

/-- The T0 space for the chunks of an object from one on, dealt over the clusters of a dome, with the charge added, or the dome when a
cluster lacks it (R150). -/
def takeT0 (owner : Owner) (dome first chunks : Nat) (s : State) : Except Nat State :=
  let cs := s.clusters dome
  if cs.isEmpty then .error dome
  else
    let d := dealFrom cs first chunks
    if d.any (fun p => s.t0Held dome p.1 + s.t0Tasks p.1 + p.2 > t0Bytes) then .error dome
    else .ok (s.modObj fun o => { o with t0 := o.t0 ++ d.map fun p => { owner, dome, cluster := p.1, bytes := p.2 } })

/-- Take the charge of bytes in a tier for a dome, freeing clean pages in T1 other than some (R160); the error is the dome that stops it. -/
def take (owner : Owner) (tier dome bytes : Nat) (s : State) (keep : List (Nat × Nat) := []) : Except Nat State :=
  if tier = 0 then takeT0 owner dome 0 (ceilDiv bytes 4096) s
  else match fitKeeping keep dome tier bytes s with
    | .ok t => .ok (charge owner tier dome bytes t)
    | .error d => .error d

/-- An error of `take` as Quota Exceeded (R161). -/
def quotaOr (tier : Nat) (r : Except Nat State) : Except Fail State :=
  match r with
  | .ok t => .ok t
  | .error d => .error (St.quotaExceeded tier d)

/-- The object-store bytes of a BACKED object: whole 16 MiB extents (R154). -/
def storeBytes (size : Nat) : Nat := ceilDiv size 16777216 * 16777216

/-- The number of 2 MiB pages of a size. -/
def pageCount (size : Nat) : Nat := ceilDiv size pageBytes

/-- Take the home-tier charge of a page of a BACKED object: in T0 that of the object's chunks which the page holds, each on the cluster
to which the object's dealing gives it (R150), in T1 that of the page (R154). -/
def takeResident (o : Obj) (page : Nat) (s : State) (keep : List (Nat × Nat) := []) : Except Fail State :=
  if homeTier o.flags = 0 then
    quotaOr 0 (takeT0 (.resident o.id page) o.dome (512 * page) (Nat.min 512 (ceilDiv o.size 4096 - 512 * page)) s)
  else quotaOr (homeTier o.flags) (take (.resident o.id page) (homeTier o.flags) o.dome pageBytes s keep)

/-- A page of an object that was resident is still so: an allocation may have freed it (R160). -/
def State.stillResident (s : State) (id page : Nat) : Bool :=
  (s.obj? id).all fun o => !o.flag 5 || o.resident.any (·.1 == page)

/-- Take the home-tier charge of an object: the whole of it, or for a BACKED object its resident pages, but those that the taking frees
(R150, R152, R154); T0 of a dome without clusters holds no object (R150). -/
def takeHome (o : Obj) (s : State) : Except Fail State :=
  let t := homeTier o.flags
  if t = 0 ∧ (s.clusters o.dome).isEmpty then .error (St.quotaExceeded 0 o.dome)
  else if o.flag 5 then
    o.resident.foldl (fun r p => match r with
      | .error e => .error e
      | .ok s => if s.stillResident o.id p.1 then takeResident o p.1 s else .ok s) (.ok s)
  else quotaOr t (take (.object o.id) t o.dome (if t = 2 then sumN (o.regions.map (·.2)) else o.size) s)

/-- A fresh stamp of use (R160). -/
def stamp (s : State) : Nat × State := (s.obj.uses, s.modObj fun o => { o with uses := o.uses + 1 })

/-- The durable copy of an object. -/
def State.durable? (s : State) (id : Nat) : Option Durable := s.obj.store.find? (·.id == id)

/-- An ID that no live object has exists in another partition, as a durable copy that is not placed. Such a copy has no flags, so it is not
SHARED (04 R129; DEDUCED, log 92). -/
def State.elsewhere (s : State) (id part : Nat) : Bool := (s.durable? id).any (·.part != part)

/-- The charge of an object's own placement. -/
def Owner.homeOf (id : Nat) : Owner → Bool
  | .object x => x == id
  | .resident x _ => x == id
  | .moving x _ => x == id
  | _ => false

/-- Release an object: its charges, resident pages, watch slots (06 R203), node cache (10 R300) and row scales go, and a dome that waited
for its T0 bytes is tried again (03 R76); its durable copy stays (02 R57), and with it the charge of its extents, in its partition
(R154). -/
def dropObject (id : Nat) (s : State) : State :=
  let part := ((s.obj? id).map (·.part)).getD 0
  let s1 := freedOn (s.t0At (Owner.homeOf id)) <| s.modObj fun o =>
    { o with list := o.list.filter (·.id ≠ id),
             charges := (o.charges.filter fun c => !(c.owner == .nodeCache id || (c.owner.homeOf id && c.tier != 3))).map fun c =>
               if c.owner.homeOf id then { c with dome := part } else c,
             t0 := o.t0.filter fun u => !u.owner.homeOf id }
  let s2 := freeSlots (·.plan == id) s1
  let s3 := s2.modIdx fun x => { x with indexes := x.indexes.filter (·.object ≠ id) }
  s3.modQnt fun q => { q with rowScales := q.rowScales.filter (·.1 ≠ id), refused := q.refused.filter (·.2.1 ≠ id) }

/-- Delete the durable copy of an object and its object-store charge. -/
def destroy (id : Nat) (s : State) : State :=
  (dropSpace (objSpace id) (s.modIdx fun x => { x with upper := x.upper.filter (·.1 ≠ id), passes := x.passes.filter (·.1 ≠ id) })).modObj fun o =>
    { o with store := o.store.filter (·.id ≠ id),
             charges := o.charges.filter fun c => !(c.owner == .object id && c.tier == 3) }

/-- Take the charge of the extents of a durable copy for a dome; it stands once (R154). -/
def takeExtents (id dome size : Nat) (s : State) : Except Fail State :=
  quotaOr 3 (take (.object id) 3 dome (storeBytes size) (s.modObj fun x =>
    { x with charges := x.charges.filter fun c => !(c.owner == .object id && c.tier == 3) }))

/-- The charges of the durable copies, each in its partition, where no object is placed (R154, R158). -/
def storeCharges (l : List Durable) : List Charge :=
  l.map fun d => { owner := .object d.id, tier := 3, dome := d.part, bytes := storeBytes d.size }

/-- What a PLACE of an object that does not exist does (R150 to R154, R158). -/
def placeNew (e : Entry) (id size : Nat) (f : BitVec 8) (s : State) : Except Fail State :=
  let dome := Fe.dome e
  let part := s.part dome
  let key := ((s.key? (Fe.tenant e)).map fun k => keyCheck k.key).getD []
  let base : Obj := { id, part, dome, tenant := Fe.tenant e, size, flags := f, keyCheck := if f.toNat.testBit 5 then key else [] }
  match s.durable? id with
  | some d =>
    if f.toNat.testBit 5 then
      if e.inLen ≠ 0 ∨ d.size ≠ size then .error St.invalidField
      else if d.keyCheck ≠ key then .error { St.keyUnavailable with object := id }
      else match (takeHome base s).bind fun t => takeExtents id dome size t with
        | .error x => .error x
        | .ok t => .ok (ok e.src f.toNat 0 (t.modObj fun o => { o with list := o.list ++ [{ base with data := d.data }] }))
    else placeFresh base f s
  | none => placeFresh base f s
where
  /-- A new object with the entry's contents; a BACKED one is written to the object store, no page resident (log 23). -/
  placeFresh (base : Obj) (f : BitVec 8) (s : State) : Except Fail State :=
    if homeTier f = 2 then
      if regionsBad e.input size ∨ e.input.length ≠ e.inLen.toNat then .error St.invalidField
      else
        let o := { base with regions := regionList e.input, pasid := s.pasidOf e.src }
        match takeHome o s with
        | .error x => .error x
        | .ok t => .ok (ok e.src f.toNat 0 (t.modObj fun x => { x with list := x.list ++ [o] }))
    else if e.input.length > size ∨ e.input.length ≠ e.inLen.toNat then .error St.invalidField
    else
      let o := { base with data := memOf e.input }
      match takeHome o s with
      | .error x => .error x
      | .ok t =>
        if f.toNat.testBit 5 then
          match takeExtents id o.dome size t with
          | .error x => .error x
          | .ok u => .ok (ok e.src f.toNat 0 (backExtents id (List.range (pageCount e.input.length)) <| u.modObj fun x =>
              { x with list := x.list ++ [o], store := x.store.filter (·.id ≠ id) ++
                [{ id, part := o.part, tenant := o.tenant, size, data := o.data, keyCheck := o.keyCheck, mediaGen := s.sec.mediaGen }] }))
        else .ok (ok e.src f.toNat 0 (t.modObj fun x => { x with list := x.list ++ [o] }))

/-- The resident pages of an object under new flags (R153): all of them for a BACKED object that was whole in its home tier or
keeps it, with their stamps. -/
def residentAfter (o : Obj) (f : BitVec 8) (n : Nat) : List (Nat × Nat) :=
  if !f.toNat.testBit 5 then []
  else if o.flag 5 then o.resident
  else (List.range (pageCount o.size)).map fun p => (p, n)

/-- The data of an object, up to its size. -/
def State.whole (s : State) (o : Obj) : Mem := (s.contents o).filter (·.1 < o.size)

/-- The data of an object moved into a region list, over its size (R153; log 82). -/
def fillRegions (rs : List (Nat × Nat)) (pasid : Option Nat) (size : Nat) (m : Mem) (t2 : Mem) : Mem :=
  (List.range size).foldl (fun t i => match regionAddr rs i with
    | none => t
    | some a => hostPut t (t2Key pasid a) [memGet m i]) t2

/-- The old placement of an object while a PLACE moves it: its home-tier charges, and those of its extents where its dome changes, stand
beside the new ones (R153). -/
def moveAway (o : Obj) (extents : Bool) (s : State) : State :=
  let old (x : Owner) : Owner := match x with
    | .resident i p => .moving i (some p)
    | _ => .moving o.id none
  s.modObj fun x =>
    { x with charges := x.charges.map fun c => if c.owner.homeOf o.id && (c.tier != 3 || extents) then { c with owner := old c.owner } else c,
             t0 := x.t0.map fun u => if u.owner.homeOf o.id then { u with owner := old u.owner } else u }

/-- The charges of an old placement are freed (R153); a dome that waited for its T0 bytes is tried again (03 R76). -/
def movedAway (id : Nat) (s : State) : State :=
  let old (x : Owner) : Bool := match x with
    | .moving i _ => i == id
    | _ => false
  freedOn (s.t0At old) (s.modObj fun x => { x with charges := x.charges.filter (fun c => !old c.owner), t0 := x.t0.filter (fun u => !old u.owner) })

/-- Drop the home-tier charges of an object that a PLACE keeps in its tier and dome: what the change alters is taken anew, and nothing is
charged twice (R153). -/
def dropHome (id : Nat) (s : State) : State :=
  freedOn (s.t0At (Owner.homeOf id)) <| s.modObj fun x =>
    { x with charges := x.charges.filter (fun c => !(c.owner.homeOf id && c.tier != 3)), t0 := x.t0.filter (fun u => !u.owner.homeOf id) }

/-- An existing object as a PLACE leaves it (R153, R154): an added durable copy is the tenant's that the PLACE names. -/
def Obj.placed (o : Obj) (e : Entry) (f : BitVec 8) (key : List Byte) (s : State) : Obj :=
  let backed := f.toNat.testBit 5
  { o with flags := f, dome := Fe.dome e, tenant := if backed && !o.flag 5 then Fe.tenant e else o.tenant,
           data := if homeTier f = 2 then [] else s.whole o, resident := residentAfter o f s.obj.uses,
           dirty := if backed then o.dirty else [],
           regions := if homeTier f = 2 then regionList e.input else [],
           pasid := if homeTier f = 2 then s.pasidOf e.src else none,
           keyCheck := if backed then (if o.flag 5 then o.keyCheck else key) else [] }

/-- What a PLACE of an object that exists in the partition does (R149, R153): the new placement is charged beside the old one, whose
charges go at the end. -/
def placeAgain (e : Entry) (o : Obj) (size : Nat) (f : BitVec 8) (s : State) : Except Fail State :=
  if size ≠ o.size ∨ (homeTier f = 2 ∧ (regionsBad e.input size ∨ e.input.length ≠ e.inLen.toNat)) then .error St.invalidField
  else if s.named o.id then .error (St.objectBusy o.id)
  else if s.keyRefuses o then .error { St.keyUnavailable with object := o.id }
  else
    let dome := Fe.dome e
    let adds := f.toNat.testBit 5 && !o.flag 5
    let removes := !f.toNat.testBit 5 && o.flag 5
    let same := homeTier f == homeTier o.flags && dome == o.dome && homeTier f != 2
    let key := ((s.key? (Fe.tenant e)).map fun k => keyCheck k.key).getD []
    let n := o.placed e f key s
    let s0 := if same && !adds && !removes then s else if same then dropHome o.id s else moveAway o (dome != o.dome && !adds) s
    match (if same && !adds && !removes then .ok s else takeHome n s0) with
    | .error x => .error x
    | .ok t =>
      let absent := pageCount o.size - (((t.obj? o.id).map (·.resident.length)).getD 0)
      match (if adds then
          (takeExtents o.id dome size t).map fun u => backExtents o.id (List.range (pageCount size)) <| u.modObj fun x =>
            { x with store := x.store.filter (·.id ≠ o.id) ++
                [{ id := o.id, part := o.part, tenant := n.tenant, size, data := s.whole o, keyCheck := key, mediaGen := s.sec.mediaGen }] }
        else if removes then .ok (ctrPart .tierPagesPagedIn o.dome absent (destroy o.id t))
        else if o.flag 5 && dome != o.dome then takeExtents o.id dome size t
        else .ok t) with
      | .error x => .error x
      | .ok u =>
        let u1 := if homeTier f = 1 then u else
          (uncharge (.nodeCache o.id) u).modIdx fun x => { x with indexes := x.indexes.filter (·.object ≠ o.id) }
        let left := n.resident.filter fun p => t.stillResident o.id p.1
        .ok (ok e.src f.toNat 0 (movedAway o.id (u1.modObj fun x =>
          { x with list := updIf (·.id == o.id) (fun _ => { n with resident := left }) x.list,
                   t2 := if homeTier f = 2 then fillRegions n.regions n.pasid size (s.whole o) x.t2 else x.t2 })))

/-- The size field of PLACE: Dwords 14 and 15. -/
def placeSize (e : Entry) : Nat := e.dw14.toNat + 2 ^ 32 * e.dw15.toNat

/-- The flags field of PLACE: Dword 13 [23:16]. -/
def placeFlags (e : Entry) : BitVec 8 := BitVec.ofNat 8 (bits e.dw13.toNat 23 16)

/-- The fields of PLACE, DELETE and the like that Table 4-3 names. -/
def shapePlace : Shape := ⟨0x81, 0, 0x00FFFFFF#32, 0xFFFFFFFF#32, 0xFFFFFFFF#32, true, false⟩

/-- PLACE (04 Table 4-3, R129, R130; 05 R148 to R154). -/
def execPlace (e : Entry) (s : State) : Ans :=
  runMilris shapePlace e (fun s =>
    let id := Fe.obj1 e
    let f := placeFlags e
    let size := placeSize e
    let part := s.part (Fe.dome e)
    if id = 0 then .error St.invalidField
    else match s.live? id with
      | some o =>
        if o.part ≠ part then .error (if o.flag 7 then { St.accessDenied with object := id } else St.objectExists id)
        else if f = 0 then .ok (ok e.src o.flags.toNat 0 s)
        else if flagsBad f ∨ size = 0 ∨ size ≥ 2 ^ 48 then .error St.invalidField
        else if f.toNat.testBit 5 ∧ s.readOnly then .error St.writeProtected
        else placeAgain e o size f s
      | none =>
        if s.elsewhere id part then .error (St.objectExists id)
        else if f = 0 then .error (St.objectNotFound id)
        else if flagsBad f ∨ size = 0 ∨ size ≥ 2 ^ 48 then .error St.invalidField
        else if f.toNat.testBit 5 ∧ s.readOnly then .error St.writeProtected
        else placeNew e id size f s) s

/-- The shape of RELEASE. -/
def shapeRelease : Shape := ⟨0x82, 0, 0x0001FFFF#32, 0#32, 0#32, false, false⟩

/-- RELEASE (04 Table 4-3, R129; 05 R159). -/
def execRelease (e : Entry) (s : State) : Ans :=
  runMilris shapeRelease e (fun s =>
    let id := Fe.obj1 e
    if id = 0 then .error St.invalidField
    else match s.live? id with
      | none => .error (if s.elsewhere id (s.part (Fe.dome e)) then St.objectExists id else St.objectNotFound id)
      | some o =>
        if o.part ≠ s.part (Fe.dome e) then .error (if o.flag 7 then { St.accessDenied with object := id } else St.objectExists id)
        else if s.named id then .error (St.objectBusy id)
        else
          let s1 := dropObject id s
          .ok (ok e.src 0 0 (if bit e.dw13.toNat 16 then destroy id s1 else s1))) s

/-! ### Paging (R155, R160, R161, R379) -/

/-- The declared pages of BACKED objects that are not resident. -/
def State.missing (s : State) (pages : List (Nat × Nat)) : List (Nat × Nat) := pages.filter fun p => !s.residentPage p

/-- Take the home-tier charge of one page to be paged in, unless it has one. -/
def takePage (keep : List (Nat × Nat)) (p : Nat × Nat) (s : State) : Except Fail State :=
  match s.obj? p.1 with
  | none => .error (St.objectNotFound p.1)
  | some o =>
    if s.obj.charges.any (·.owner == .resident p.1 p.2) || s.obj.t0.any (·.owner == .resident p.1 p.2) then .ok s
    else takeResident o p.2 s keep

/-- Take the charges of pages in order. -/
def takePages (keep : List (Nat × Nat)) : List (Nat × Nat) → State → Except Fail State
  | [], s => .ok s
  | p :: r, s => match takePage keep p s with
    | .error e => .error e
    | .ok t => takePages keep r t

/-- A page that is being paged in: charged, not resident. -/
def State.pagingIn (s : State) (id page : Nat) : Bool :=
  (s.obj? id).any (fun o => o.flag 5 && !o.resident.any (·.1 == page)) &&
  (s.obj.charges.any (·.owner == .resident id page) || s.obj.t0.any (·.owner == .resident id page))

/-- PAGING_START (R155): the tier manager starts paging for the stage of a chain's next task, which would otherwise be ready, or starts
again where a page has been freed meanwhile. It does not free the stage's own pages for each other (DEDUCED, log 92); a stage for which no
space can be freed fails its first task (R161). -/
def execPagingStart (t : TaskRef) (s : State) : Ans :=
  .next (match s.cmd? t.src, s.chain? t with
    | some c, some h =>
      if h.run.isSome || h.finished || c.failed.isSome || (s.missing h.task.pages).all (fun p => s.pagingIn p.1 p.2) then s
      else match takePages h.task.pages (s.missing h.task.pages) s with
        | .ok u => u
        | .error f => failCmd t.src (f.toFailure) h.done 0xFFFF s
    | _, _ => s)

/-- The commands whose next task declares a page. -/
def State.declarers (s : State) (id page : Nat) : List Src :=
  (s.sch.cmds.filter fun c => c.chains.any fun h => !h.finished && h.task.pages.contains (id, page)).map (·.src)

/-- The fills of layer 0 that waited for the first task's pages begin (R165). -/
def startWaitingFills (s : State) : State :=
  s.modSch fun k => { k with cmds := k.cmds.map fun c => { c with chains := c.chains.map fun h =>
    if h.done == 0 && !h.filling0.isEmpty && h.fillStart.isNone && (s.missing h.task.pages).isEmpty then { h with fillStart := some (s.now 0) }
    else h } }

/-- PAGE_IN_COMPLETE (R155): the page is resident; a page that the read guard or the flash could not give fails the tasks that
need it (12 R367, R379). -/
def execPageInComplete (object page : Nat) (r : ReadEnd) (s : State) : Ans :=
  .next (
    if !s.pagingIn object page then s
    else match r with
      | .ok | .retried _ _ =>
        let n := stamp s
        ctrPart .tierPagesPagedIn (((s.obj? object).map (·.dome)).getD 0) 1
          (readEnd r (startWaitingFills (modOne object (fun o => { o with resident := o.resident ++ [(page, n.1)] }) n.2)))
      | .unrecovered die =>
        (s.declarers object page).foldl (fun s src => failWhole src { sct := 2, sc := 0x81, object } s)
          (unrecovered die (uncharge (.resident object page) s))
      | .guarded die =>
        (s.declarers object page).foldl (fun s src => failWhole src { St.memoryError [] with object } s)
          (Machine.guarded die (uncharge (.resident object page) s)))

end Sys2Proof.Machine
end

