-- ==== Sys2Proof/Machine/Wiram.lean ====
section
/-! DEFINITION. The Wiram image: its format and its validation (02 R37 to R59, R569, R570). A failure is the byte offset of the
field that failed and the reason code of Table 2-4 (R55). The sections are checked in ascending type (log 18). -/

namespace Sys2Proof.Machine

open Sys2Proof

/-- A failure of validation: offset and reason (R55). -/
abbrev Bad := Nat × Nat

/-- A check of validation. -/
def need (good : Bool) (off reason : Nat) : Except Bad Unit := if good then .ok () else .error (off, reason)

/-- Check every element, in order, up to the first failure (R54). -/
def each {α : Type} (f : α → Except Bad Unit) : List α → Except Bad Unit
  | [] => .ok ()
  | a :: r => match f a with
    | .ok _ => each f r
    | .error e => .error e

/-- The checks of a list of conditions with their offset and reason, in order. -/
def needs (l : List (Bool × Nat × Nat)) : Except Bad Unit := each (fun x => need x.1 x.2.1 x.2.2) l

/-- A directory entry (R38). -/
structure Section where
  type_ : Nat
  off : Nat
  len : Nat
  count : Nat
  at_ : Nat
deriving DecidableEq, Repr

/-- The entry size (0: variable) and the limit of a section type (Table 2-3). -/
def sectionShape : Nat → Option (Nat × Nat)
  | 1 => some (16, 4095) | 2 => some (2, 65536) | 3 => some (8, 32768) | 4 => some (8, 4095)
  | 5 => some (32, 4095) | 6 => some (24, 8192) | 7 => some (0, 1024) | 8 => some (8, 4128)
  | 9 => some (0, 64) | _ => none

/-- The kind byte of an image: 0 full, 1 partial. -/
def imageKind (b : List Byte) : Nat := le b 6 1

/-- The header checks (R37, Table 2-2), in the order of its fields. -/
def checkHeader (b : List Byte) (sent : Nat) (s : State) : Except Bad Unit :=
  let length := le b 8 4
  let target := le b 14 2
  let full := imageKind b == 0
  needs [
    (le b 0 4 == 0x4D495257, 0, 0x0001), (le b 4 2 == 1, 4, 0x0001), (imageKind b ≤ 1, 6, 0x0001),
    (le b 7 1 == 0, 7, 0x0004),
    (128 ≤ length && length ≤ 4194304 && length % 8 == 0 && length ≤ sent && length ≤ b.length, 8, 0x0002),
    (1 ≤ le b 12 2 && le b 12 2 ≤ 16 && 64 + 16 * le b 12 2 ≤ length, 12, 0x0005),
    (target < 4096, 14, 0x0004),
    (!full || target == 0, 14, 0x0001),
    (full || (target != 0 && (s.dome? target).isSome), 14, 0x0030),
    (full || le b 16 4 == s.str.generation, 16, 0x0006),
    (le b 20 4 > s.str.generation, 20, 0x0006),
    ((crc32c (patch (b.take length) 24 [0, 0, 0, 0])).toNat == le b 24 4, 24, 0x0003),
    (allZero (slice b 28 36), 28, 0x0004)]

/-- The directory entry at a position. -/
def sectionAt (b : List Byte) (i : Nat) : Section :=
  let d := 64 + 16 * i
  { type_ := le b d 2, off := le b (d + 4) 4, len := le b (d + 8) 4, count := le b (d + 12) 4, at_ := d }

/-- The directory (R38). -/
def directory (b : List Byte) : List Section := (List.range (le b 12 2)).map (sectionAt b)

/-- The bytes from `o` to `stop` that n semaphores (type 7) or slice tables (type 9) take (R38): where they end, or none when
one runs past the section. -/
def variableEnd (b : List Byte) (ty stop : Nat) : Nat → Nat → Option Nat
  | 0, o => some o
  | n + 1, o =>
    if o + 8 > stop then none
    else
      let k := if ty = 7 then le b (o + 6) 2 else le b (o + 2) 2
      let e := o + 8 + (if ty = 7 then (2 * k + 7) / 8 * 8 else 16 * k)
      if e > stop then none else variableEnd b ty stop n e

/-- Two sections overlap. -/
def overlap (x y : Section) : Bool := x.len != 0 && y.len != 0 && x.off < y.off + y.len && y.off < x.off + x.len

/-- The checks of one directory entry, given those before it (R38, R55). -/
def checkSection (b : List Byte) (before : List Section) (x : Section) : Except Bad Unit :=
  let length := le b 8 4
  match sectionShape x.type_ with
  | none => .error (x.at_, 0x0005)
  | some (size, limit) => needs [
      (!before.any (·.type_ == x.type_), x.at_, 0x0005),
      (le b (x.at_ + 2) 1 == 1, x.at_ + 2, 0x0005),
      (le b (x.at_ + 3) 1 == 0, x.at_ + 3, 0x0004),
      (x.off % 8 == 0 && x.off ≥ 64 + 16 * le b 12 2 && x.off ≤ length, x.at_ + 4, 0x0005),
      (!before.any (overlap x), x.at_ + 4, 0x0005),
      (x.off + x.len ≤ length, x.at_ + 8, 0x0005),
      (x.count ≤ limit, x.at_ + 12, if x.type_ = 1 then 0x0010 else 0x0005),
      (if size ≠ 0 then x.len == x.count * size
       else variableEnd b x.type_ (x.off + x.len) x.count x.off == some (x.off + x.len), x.at_ + 8, 0x0005)]

/-- The directory's checks, then the required and refused sections (R39, R55). -/
def checkDirectory (b : List Byte) : Except Bad Unit := do
  let ds := directory b
  let full := imageKind b == 0
  each (fun p => checkSection b (ds.take p.2) p.1) ds.zipIdx
  needs [(ds.any (·.type_ == 1) && ds.any (·.type_ == 2) && (!full || ds.any (·.type_ == 5)), 12, 0x0007)]
  each (fun x => need (full || x.type_ != 8) x.at_ 0x0007) ds

/-- The section of a type. -/
def sectionOf (b : List Byte) (ty : Nat) : Option Section := (directory b).find? (·.type_ == ty)

/-- The offsets of a fixed-size section's entries; none for an absent section. -/
def entriesOf (b : List Byte) (ty size : Nat) : List Nat :=
  match sectionOf b ty with
  | none => []
  | some x => (List.range x.count).map fun i => x.off + size * i

/-- The offsets of a variable section's entries. -/
def variableOffsets (b : List Byte) (ty : Nat) : Nat → Nat → List Nat
  | 0, _ => []
  | n + 1, o =>
    let k := if ty = 7 then le b (o + 6) 2 else le b (o + 2) 2
    o :: variableOffsets b ty n (o + 8 + (if ty = 7 then (2 * k + 7) / 8 * 8 else 16 * k))

/-- The offsets of the entries of the semaphore or the slice-table section. -/
def variableEntries (b : List Byte) (ty : Nat) : List Nat :=
  match sectionOf b ty with
  | none => []
  | some x => variableOffsets b ty x.count x.off

/-! ### The parsed image -/

/-- The offset of membership entry i. -/
def memberAt (b : List Byte) (i : Nat) : Nat := ((sectionOf b 2).map (·.off)).getD 0 + 2 * i

/-- The dome of a dome-tree entry (R40, R41). -/
def parseDome (b : List Byte) (o : Nat) : Dome :=
  { id := le b o 2 % 4096, parent := le b (o + 2) 2 % 4096, volatile_ := bit (le b (o + 4) 2) 0,
    lowPri := bit (le b (o + 4) 2) 1,
    clusters := (List.range (le b (o + 6) 2)).map fun k => le b (memberAt b (le b (o + 8) 4 + k)) 2 }

/-- A route entry (R42). -/
def parseRoute (b : List Byte) (o : Nat) : Route :=
  { dome := le b o 2, dest := le b (o + 2) 1, hops := (List.range (le b (o + 3) 1)).map fun k => le b (o + 4 + k) 1 }

/-- A split entry (R44). -/
def parseSplit (b : List Byte) (o : Nat) : Split :=
  { dome := le b o 2, rd := le b (o + 2) 1, wr := le b (o + 3) 1, remote := le b (o + 4) 1 }

/-- A quota entry (R45). -/
def parseQuota (b : List Byte) (o : Nat) : Quota :=
  { dome := le b o 2, t1 := le b (o + 8) 8, t2 := le b (o + 16) 8, obj := le b (o + 24) 8 }

/-- A stream entry (R47). -/
def parseStream (b : List Byte) (o : Nat) : StreamDecl :=
  { id := le b o 2, producer := le b (o + 2) 2, consumer := le b (o + 4) 2, inT1 := bit (le b (o + 6) 2) 0,
    buffer := le b (o + 8) 4, spill := le b (o + 16) 8 }

/-- A shared-semaphore entry (R49). -/
def parseSem (b : List Byte) (o : Nat) : SemDecl :=
  { id := le b o 2, initial := le b (o + 2) 2, maximum := le b (o + 4) 2,
    domes := (List.range (le b (o + 6) 2)).map fun k => le b (o + 8 + 2 * k) 2 }

/-- A slice-table entry (R52). -/
def parseSliceEntry (b : List Byte) (e : Nat) : SliceEntry :=
  { length := le b e 1, domes := (List.range (Nat.min (le b (e + 2) 2) 4)).map fun j => le b (e + 4 + 2 * j) 2 }

/-- A slice table (R52). -/
def parseSlice (b : List Byte) (o : Nat) : SliceTable :=
  { part := le b o 2, period := le b (o + 4) 2,
    entries := (List.range (le b (o + 2) 2)).map fun k => parseSliceEntry b (o + 8 + 16 * k) }

/-- An optional section, parsed. -/
def optional {α : Type} (b : List Byte) (ty : Nat) (l : List α) : Option (List α) :=
  if (sectionOf b ty).isSome then some l else none

/-- The image that validated bytes hold. -/
def parseImage (b : List Byte) : Image :=
  let ev := entriesOf b 8 8
  { partial_ := imageKind b == 1, target := le b 14 2, newGen := le b 20 4,
    domes := (entriesOf b 1 16).map (parseDome b),
    routes := optional b 3 ((entriesOf b 3 8).map (parseRoute b)),
    splits := optional b 4 ((entriesOf b 4 8).map (parseSplit b)),
    quotas := optional b 5 ((entriesOf b 5 32).map (parseQuota b)),
    streams := optional b 6 ((entriesOf b 6 24).map (parseStream b)),
    sems := optional b 7 ((variableEntries b 7).map (parseSem b)),
    evGroups := if (sectionOf b 8).isSome then
        some ((ev.filter fun o => le b o 1 == 0).map fun o =>
            { group := le b (o + 1) 1, holdoff := le b (o + 2) 2, receiver := le b (o + 4) 2 },
          (ev.filter fun o => le b o 1 == 1).map fun o => (le b (o + 2) 2, le b (o + 4) 1))
      else none,
    slices := optional b 9 ((variableEntries b 9).map (parseSlice b)),
    raw := b.take (le b 8 4) }

/-! ### The structure as it will stand (R57, R58) -/

/-- A dome lies in the subtree of another, in a dome list. -/
def underIn (ds : List Dome) (d a : Nat) : Bool := (pathIn ds ds.length d).contains a

/-- The domes that an image leaves standing (R57, R58): its own, and for a partial image those outside the target's subtree. -/
def standingDomes (img : Image) (s : State) : List Dome :=
  if img.partial_ then (s.str.domes.filter fun d => !s.under d.id img.target) ++ img.domes else img.domes

/-- Entries by dome that stand (R58): a section that a partial image carries replaces those of the subtree; one that it does
not carry keeps those of the domes that still exist. -/
def standing {α : Type} (img : Image) (s : State) (dome : α → Nat) (old : List α) (new : Option (List α)) : List α :=
  let ds := standingDomes img s
  let kept := old.filter fun x => ds.any (·.id == dome x) && img.partial_
  match new with
  | some l => (kept.filter fun x => !s.under (dome x) img.target) ++ l
  | none => kept

/-- The quotas that will be in force; a partition target keeps its entry (R58). -/
def standingQuotas (img : Image) (s : State) : List Quota := standing img s (·.dome) s.str.quotas img.quotas

/-- The streams that will stand: those whose endpoints exist (R58, R170). -/
def standingStreams (img : Image) (s : State) : List StreamDecl :=
  let ds := standingDomes img s
  let fresh := (img.streams.getD []).map (·.id)
  let kept := (s.strm.map (·.decl)).filter fun x => img.partial_ && ds.any (·.id == x.producer) && ds.any (·.id == x.consumer) &&
    !(img.streams.isSome && s.under x.producer img.target) && !fresh.contains x.id
  kept ++ img.streams.getD []

/-- The slice tables that will stand (R58). -/
def standingSlices (img : Image) (s : State) : List SliceTable :=
  let ds := standingDomes img s
  let kept := s.str.slices.filter fun t => img.partial_ && ds.any (·.id == t.part)
  match img.slices with
  | some l => (kept.filter fun t => !(l.any (·.part == t.part)) && t.part != img.target) ++ l
  | none => kept

/-- The save area of a table (R83): clusters × 1,966,080 over the domes named in some entry but not in every one. -/
def saveArea (ds : List Dome) (t : SliceTable) : Nat :=
  let named := nubN (t.entries.flatMap (·.domes))
  let some_ := named.filter fun d => !t.entries.all fun e => e.domes.contains d
  sumN (some_.map fun d => (((ds.find? (·.id == d)).map (·.clusters.length)).getD 0) * t0Bytes)

/-- The T1 bytes of a stream (R47). -/
def streamT1 (x : StreamDecl) : Nat := (if x.inT1 then x.buffer else 0) + x.spill

/-- The T0 bytes of a stream on the clusters of its producer (R47, R150). -/
def streamT0 (ds : List Dome) (x : StreamDecl) : List (Nat × Nat) :=
  if x.inT1 then []
  else match ds.find? (·.id == x.producer) with
    | none => []
    | some d => if d.clusters.isEmpty then [] else deal d.clusters (x.buffer / 4096)

/-! ### The sections' checks -/

/-- A dome named by an entry exists, and for a partial image lies in the subtree (R58). -/
def scope (img : Image) (s : State) (d off reason : Nat) : List (Bool × Nat × Nat) :=
  [(d != 0 && (standingDomes img s).any (·.id == d), off, reason), (!img.partial_ || img.domes.any (·.id == d), off, 0x0030)]

/-- The clusters of one dome-tree entry (R31, R32, R40, R65), each at its membership entry. -/
def checkMembers (b : List Byte) (img : Image) (s : State) (before : List Dome) (o : Nat) (d : Dome) : Except Bad Unit :=
  let outside := if img.partial_ then s.str.domes.filter fun x => !s.under x.id img.target else []
  let rivals := ((outside ++ before).filter fun x => x.parent == 0).flatMap (·.clusters)
  let parent := ((standingDomes img s).find? (·.id == d.parent)).map (·.clusters)
  each (fun p =>
    let at_ := memberAt b (le b (o + 8) 4 + p.2)
    needs [(p.1 ≤ 799 && !(d.clusters.take p.2).contains p.1, at_, 0x0014), (!s.str.fenced.contains p.1, at_, 0x0015),
      (d.parent != 0 || !rivals.contains p.1, at_, 0x0014),
      (d.parent == 0 || (match parent with | some l => l.contains p.1 | none => false), at_, 0x0014)]) d.clusters.zipIdx

/-- One dome-tree entry, given the domes of the entries before it (R31, R32, R40, R41, R58). -/
def checkDome (b : List Byte) (img : Image) (s : State) (before : List Dome) (o : Nat) : Except Bad Unit := do
  let d := parseDome b o
  let ds := standingDomes img s
  let outside := if img.partial_ then s.str.domes.filter fun x => !s.under x.id img.target else []
  let path := pathIn ds ds.length d.id
  let rooted := match path.getLast? with
    | some l => (ds.find? (·.id == l)).any (·.parent == 0)
    | none => false
  needs [
    (le b o 2 < 4096, o, 0x0004),
    (d.id != 0 && !before.any (·.id == d.id) && !outside.any (·.id == d.id) && outside.length + before.length < 4095, o, 0x0010),
    (!img.partial_ || !rooted || path.contains img.target, o, 0x0030),
    (le b (o + 2) 2 < 4096, o + 2, 0x0004),
    (!img.partial_ || d.id != img.target || (s.dome? img.target).any (·.parent == d.parent), o + 2, 0x0030),
    (d.parent == 0 || ds.any (·.id == d.parent), o + 2, 0x0011),
    (rooted, o + 2, 0x0011),
    (d.parent != 0 || ((outside ++ before).filter (·.parent == 0)).length < 64, o + 2, 0x0012),
    (le b (o + 4) 2 < 4, o + 4, 0x0004),
    (le b (o + 6) 2 != 0, o + 6, 0x0013),
    (le b (o + 8) 4 + le b (o + 6) 2 ≤ ((sectionOf b 2).map (·.count)).getD 0, o + 8, 0x0014),
    (le b (o + 12) 4 == 0, o + 12, 0x0004)]
  checkMembers b img s before o d

/-- The quadrant of a route's destination (Table 2-7). -/
def destQuadrant (dest : Nat) : Option Nat :=
  match dest / 16, dest % 16 with
  | 0, i => if i < 8 then some (i / 2) else none
  | 1, i => if i < 8 then some (i / 2) else none
  | 2, i => if i < 2 then some i else none
  | 3, 0 => some 0
  | _, _ => none

/-- Two quadrants are adjacent (R42). -/
def adjacent (x y : Nat) : Bool := x < 4 && y < 4 && x != y && x + y != 3

/-- One route entry (R42). -/
def checkRoute (b : List Byte) (img : Image) (s : State) (before : List Route) (o : Nat) : Except Bad Unit := do
  let r := parseRoute b o
  let n := r.hops.length
  let home := (((standingDomes img s).find? (·.id == r.dome)).map (·.clusters)).getD []
  needs (scope img s r.dome o 0x0020 ++ [
    ((destQuadrant r.dest).isSome, o + 2, 0x0020),
    (!before.any fun x => x.dome == r.dome && x.dest == r.dest, o + 2, 0x0020),
    (1 ≤ n && n ≤ 4, o + 3, 0x0020)])
  each (fun k => need (if k < n then le b (o + 4 + k) 1 < 4 else le b (o + 4 + k) 1 == 0xFF) (o + 4 + k) 0x0020) (List.range 4)
  each (fun k => need (adjacent (le b (o + 4 + k) 1) (le b (o + 5 + k) 1)) (o + 5 + k) 0x0020) (List.range (n - 1))
  needs [
    (home.any fun c => Config.quadrant c == le b (o + 4) 1, o + 4, 0x0020),
    (destQuadrant r.dest == some (le b (o + 3 + n) 1), o + 3 + n, 0x0020)]

/-- One split entry (R44). -/
def checkSplit (b : List Byte) (img : Image) (s : State) (before : List Split) (o : Nat) : Except Bad Unit :=
  let x := parseSplit b o
  needs (scope img s x.dome o 0x0021 ++ [
    (!before.any (·.dome == x.dome), o, 0x0021),
    (1 ≤ x.rd && x.rd ≤ 16, o + 2, 0x0021), (1 ≤ x.wr && x.wr ≤ 16, o + 3, 0x0021),
    (1 ≤ x.remote && x.remote ≤ 16, o + 4, 0x0021), (x.rd + x.wr + x.remote ≤ 16, o + 2, 0x0021),
    (allZero (slice b (o + 5) 3), o + 5, 0x0004)])

/-- The bound of R46 on the object-store quotas (R113): 16 MiB for each extent that the block namespaces leave. -/
def State.objLimit (s : State) : Nat :=
  16777216 * (14305114 - sumN (s.fls.nss.map fun n => ceilDiv (n.size * (if n.fmt = 0 then 4096 else 512)) 16777216))

/-- The quotas above a dome (R45, R46): its parent's, or for a partition the module's limits. -/
def capAbove (ds : List Dome) (qs : List Quota) (s : State) (d tier : Nat) : Nat :=
  let parent := ((ds.find? (·.id == d)).map (·.parent)).getD 0
  (if parent = 0 then none else quotaIn ds qs parent tier).getD
    (if tier = 1 then s.obj.t1Alloc else if tier = 2 then 2 ^ 64 - 1 else s.objLimit)

/-- One quota entry, given the entries before it (R45, R46). -/
def checkQuota (b : List Byte) (img : Image) (s : State) (before : List Quota) (o : Nat) : Except Bad Unit :=
  let q := parseQuota b o
  let ds := standingDomes img s
  let qs := standingQuotas img s
  let isPart (d : Nat) : Bool := ds.any fun x => x.id == d && x.parent == 0
  let others := (qs.filter fun x => isPart x.dome && !(img.quotas.getD []).any (·.dome == x.dome)) ++
    before.filter fun x => isPart x.dome
  needs (scope img s q.dome o 0x0022 ++ [
    (!before.any (·.dome == q.dome), o, 0x0022),
    (allZero (slice b (o + 2) 6), o + 2, 0x0004),
    (q.t1 % 2097152 == 0 && q.t1 ≤ capAbove ds qs s q.dome 1, o + 8, 0x0022),
    (!isPart q.dome || sumN (others.map (·.t1)) + q.t1 ≤ s.obj.t1Alloc, o + 8, 0x0022),
    (q.t2 % 2097152 == 0 && q.t2 ≤ capAbove ds qs s q.dome 2, o + 16, 0x0022),
    (q.obj % 16777216 == 0 && q.obj ≤ capAbove ds qs s q.dome 3, o + 24, 0x0022),
    (!isPart q.dome || sumN (others.map (·.obj)) + q.obj ≤ s.objLimit, o + 24, 0x0022)])

/-- Every partition that the image defines has a quota entry (R45, R58), reported at its dome-tree entry (log 18). -/
def checkPartitionQuotas (b : List Byte) (img : Image) (s : State) : Except Bad Unit :=
  let qs := standingQuotas img s
  each (fun o => let d := parseDome b o
    need (d.parent != 0 || qs.any (·.dome == d.id)) o 0x0022) (entriesOf b 1 16)

/-- The quota entries that a partial image without a quota section keeps for its domes stay within their parents' (R46, R58), reported at
the dome-tree entry (log 18). -/
def checkKeptQuotas (b : List Byte) (img : Image) (s : State) : Except Bad Unit :=
  let ds := standingDomes img s
  let qs := standingQuotas img s
  each (fun o => let d := parseDome b o
    match qs.find? (·.dome == d.id) with
    | none => .ok ()
    | some q => need (q.t1 ≤ capAbove ds qs s d.id 1 && q.t2 ≤ capAbove ds qs s d.id 2 && q.obj ≤ capAbove ds qs s d.id 3) o 0x0022)
    (if img.quotas.isSome then [] else entriesOf b 1 16)

/-! ### The charges of R570 -/

/-- The T1 bytes that stand beside an image's streams and save areas on the path of a dome: the charges that it neither replaces
nor removes, less the clean resident pages that can be freed (R570, R160). -/
def standingUse (img : Image) (s : State) (d : Nat) : Nat :=
  let ds := standingDomes img s
  let declared := s.declared
  let freeable (c : Charge) : Bool := match c.owner with
    | .resident id p => match s.obj? id with
      | some o => o.flag 1 && !o.flag 3 && !o.dirty.contains p && !declared.contains (id, p)
      | none => false
    | .stream _ => true
    | .saveArea _ => true
    | .reserved _ => true
    | _ => false
  sumN ((s.obj.charges.filter fun c => c.tier == 1 && !freeable c && underIn ds c.dome d).map (·.bytes))

/-- The T1 charges that the structure will make: each with the entry's owner, the dome and the bytes. -/
def imageCharges (img : Image) (s : State) : List (Owner × Nat × Nat) :=
  let ds := standingDomes img s
  ((standingStreams img s).map fun x => (.stream x.id, x.producer, streamT1 x)) ++
  ((standingSlices img s).map fun t => (.saveArea t.part, t.part, saveArea ds t))

/-- A T1 charge fits beside the charges before it on every path (R570). -/
def chargeFits (img : Image) (s : State) (before : List (Owner × Nat × Nat)) (c : Owner × Nat × Nat) : Bool :=
  let ds := standingDomes img s
  let qs := standingQuotas img s
  c.2.2 == 0 || (pathIn ds ds.length c.2.1).all fun a =>
    match quotaIn ds qs a 1 with
    | none => true
    | some q => standingUse img s a + sumN ((before.filter fun x => underIn ds x.2.1 a).map (·.2.2)) + c.2.2 ≤ q

/-- The T0 bytes that stand on a cluster beside an image's own stream buffers (R570). -/
def standingT0 (img : Image) (s : State) (c : Nat) : Nat :=
  let ds := standingDomes img s
  sumN ((s.obj.t0.filter fun u => u.cluster == c && ds.any (·.id == u.dome) && (match u.owner with
    | .object _ => true | .resident _ _ => true | _ => false)).map (·.bytes))

/-- A T0 stream buffer fits on each producer cluster beside those before it (R570). -/
def t0Fits (img : Image) (s : State) (before : List StreamDecl) (x : StreamDecl) : Bool :=
  let ds := standingDomes img s
  (streamT0 ds x).all fun p =>
    standingT0 img s p.1 + sumN ((before.flatMap (streamT0 ds)).filterMap fun q => if q.1 = p.1 then some q.2 else none) + p.2
      ≤ t0Bytes

/-- The T0 bytes that the streams of an image need on each cluster beyond what they hold there already (R570). -/
def freshT0 (img : Image) (s : State) : List (StreamDecl × List (Nat × Nat)) :=
  let ds := standingDomes img s
  (standingStreams img s).map fun x =>
    let old := if s.strm.any (·.decl == x) then streamT0 s.str.domes x else []
    (x, ((streamT0 ds x).map fun p => (p.1, p.2 - ((old.find? (·.1 == p.1)).map (·.2)).getD 0)).filter (·.2 ≠ 0))

/-- One stream entry (R47, R58, R570); `kept` are the streams that stand outside the section; the save areas that the image neither
carries nor changes count beside it. -/
def checkStream (b : List Byte) (img : Image) (s : State) (kept before : List StreamDecl) (o : Nat) : Except Bad Unit :=
  let x := parseStream b o
  let ds := standingDomes img s
  let part (d : Nat) : Nat := (pathIn ds ds.length d).getLastD 0
  let shared := (if img.partial_ then (s.sch.sems.filter fun m => m.dome.isNone &&
      !(img.sems.getD []).any (·.id == m.id)).map (·.domes) else []) ++ (img.sems.getD []).map (·.domes)
  let t1 (y : StreamDecl) : Owner × Nat × Nat := (.stream y.id, y.producer, streamT1 y)
  let areas := ((standingSlices img s).filter fun t =>
    !(img.slices.getD []).any (·.part == t.part) && saveArea ds t == saveArea s.str.domes t).map fun t =>
      ((.saveArea t.part, t.part, saveArea ds t) : Owner × Nat × Nat)
  needs [
    (!before.any (·.id == x.id) && !kept.any (·.id == x.id), o, 0x0023),
    (ds.any (·.id == x.producer), o + 2, 0x0023),
    (!img.partial_ || underIn ds x.producer img.target, o + 2, 0x0030),
    (ds.any (·.id == x.consumer), o + 4, 0x0023),
    (part x.producer == part x.consumer || shared.any (fun l => l.contains x.producer && l.contains x.consumer), o + 4, 0x0023),
    (le b (o + 6) 2 < 2, o + 6, 0x0004),
    (x.buffer % 4096 == 0 && 4096 ≤ x.buffer && x.buffer ≤ (if x.inT1 then 268435456 else 1048576), o + 8, 0x0023),
    (le b (o + 12) 4 == 0, o + 12, 0x0004),
    (x.spill == 0 || (x.spill % 4096 == 0 && x.spill ≥ x.buffer), o + 16, 0x0023),
    (chargeFits img s (areas ++ (kept ++ before).map t1) (t1 x) && t0Fits img s (kept ++ before) x, o, 0x0023)]

/-- One shared-semaphore entry (R49). -/
def checkSem (b : List Byte) (img : Image) (s : State) (before : List SemDecl) (o : Nat) : Except Bad Unit := do
  let x := parseSem b o
  let n := x.domes.length
  let ds := standingDomes img s
  needs [
    (x.id ≤ 0x3FF && !before.any (·.id == x.id), o, 0x0024), (x.initial ≤ x.maximum, o + 2, 0x0024),
    (1 ≤ x.maximum, o + 4, 0x0024), (2 ≤ n && n ≤ 64, o + 6, 0x0024)]
  each (fun p => need (ds.any (·.id == p.1)) (o + 8 + 2 * p.2) 0x0024) x.domes.zipIdx
  need (allZero (slice b (o + 8 + 2 * n) ((2 * n + 7) / 8 * 8 - 2 * n))) (o + 8 + 2 * n) 0x0004
  need (!img.partial_ || x.domes.any fun d => underIn ds d img.target) o 0x0030

/-- One event-group entry (R51), given the offsets before it. -/
def checkEvent (b : List Byte) (s : State) (img : Image) (before : List Nat) (o : Nat) : Except Bad Unit :=
  let rcv := le b (o + 4) 2
  let vf := rcv == 0 || (img.domes.any (fun d => d.id == rcv && d.parent == 0) && (s.boundFn rcv).isSome)
  match le b o 1 with
  | 0 => needs [
      (le b (o + 1) 1 ≤ 31 && !before.any (fun p => le b p 1 == 0 && le b (p + 1) 1 == le b (o + 1) 1), o + 1, 0x0025),
      (le b (o + 2) 2 ≤ 1023, o + 2, 0x0025), (vf, o + 4, 0x0025), (le b (o + 6) 2 == 0, o + 6, 0x0004)]
  | 1 => needs [
      (le b (o + 1) 1 == 0, o + 1, 0x0004), (le b (o + 2) 2 < 4096, o + 2, 0x0004),
      (eventExists (le b (o + 2) 2) && !before.any (fun p => le b p 1 == 1 && le b (p + 2) 2 == le b (o + 2) 2), o + 2, 0x0025),
      (le b (o + 4) 1 ≤ 31, o + 4, 0x0025), (allZero (slice b (o + 5) 3), o + 5, 0x0004)]
  | _ => .error (o, 0x0025)

/-- One entry of a slice table (R52). -/
def checkSliceEntry (b : List Byte) (ds : List Dome) (part e : Nat) : Except Bad Unit := do
  let n := le b (e + 2) 2
  needs [(1 ≤ le b e 1 && le b e 1 ≤ 64, e, 0x0026), (le b (e + 1) 1 == 0, e + 1, 0x0004), (1 ≤ n && n ≤ 4, e + 2, 0x0026)]
  each (fun j => let d := le b (e + 4 + 2 * j) 2
    need (if j < n then underIn ds d part else d == 0) (e + 4 + 2 * j) 0x0026) (List.range 4)
  need (le b (e + 12) 4 == 0) (e + 12) 0x0004

/-- One slice table, given those before it (R52, R58, R83, R570). -/
def checkSlice (b : List Byte) (img : Image) (s : State) (before : List SliceTable) (o : Nat) : Except Bad Unit := do
  let t := parseSlice b o
  let ds := standingDomes img s
  let n := le b (o + 2) 2
  let own (x : SliceTable) : Owner × Nat × Nat := (.saveArea x.part, x.part, saveArea ds x)
  needs [
    (ds.any (fun d => d.id == t.part && d.parent == 0) && !before.any (·.part == t.part), o, 0x0026),
    (!img.partial_ || t.part == img.target, o, 0x0030),
    (1 ≤ n && n ≤ 1024, o + 2, 0x0026), (t.period ≤ 1024, o + 4, 0x0026), (le b (o + 6) 2 == 0, o + 6, 0x0004)]
  each (fun k => checkSliceEntry b ds t.part (o + 8 + 16 * k)) (List.range n)
  needs [
    (sumN (t.entries.map (·.length)) == t.period, o + 4, 0x0026),
    (chargeFits img s (((standingStreams img s).map fun x => (.stream x.id, x.producer, streamT1 x)) ++ before.map own) (own t),
      o, 0x0022)]

/-- Check the entries of a section in image order, each with what the entries before it hold. -/
def eachAfter {α : Type} (parse : Nat → α) (f : List α → Nat → Except Bad Unit) (os : List Nat) : Except Bad Unit :=
  each (fun p => f ((os.take p.2).map parse) p.1) os.zipIdx

/-- A partial image may not remove a dome that a slice table outside its subtree, or a shared semaphore that it does not
redeclare, names (reason 0x0031, at the target: R55). -/
def checkRemoved (img : Image) (s : State) : Except Bad Unit :=
  let gone := (s.str.domes.filter fun d => s.under d.id img.target && !img.domes.any (·.id == d.id)).map (·.id)
  needs [
    (img.domes.any (·.id == img.target), 14, 0x0030),
    (!(s.str.slices.filter fun t => !s.under t.part img.target).any fun t => t.entries.any fun e => e.domes.any gone.contains,
      14, 0x0031),
    (!(s.sch.sems.filter fun m => m.dome.isNone && !(img.sems.getD []).any (·.id == m.id)).any fun m => m.domes.any gone.contains,
      14, 0x0031)]

/-- The charges of the streams and tables that a partial image keeps (R570), reported at the target (R55): in T1, and in T0 where a changed
membership deals a buffer over other clusters. -/
def checkKept (img : Image) (s : State) : Except Bad Unit := do
  let all := imageCharges img s
  let streams := standingStreams img s
  let carried (o : Owner) : Bool := match o with
    | .stream id => (img.streams.getD []).any (·.id == id)
    | .saveArea p => (img.slices.getD []).any (·.part == p)
    | _ => false
  each (fun p => need (carried p.1.1 || chargeFits img s (all.take p.2) p.1) 14 (match p.1.1 with
    | .stream _ => 0x0023
    | _ => 0x0022)) all.zipIdx
  each (fun p => need ((img.streams.getD []).any (·.id == p.1.1.id) || p.1.2.isEmpty || t0Fits img s (streams.take p.2) p.1.1) 14 0x0023)
    (freshT0 img s).zipIdx

/-- The validation of an image of which `sent` bytes were transferred (R54): the image, or where and why it fails. -/
def validate (b : List Byte) (sent : Nat) (s : State) : Except Bad Image := do
  checkHeader b sent s
  checkDirectory b
  let img := parseImage b
  let own := (img.streams.getD []).map (·.id)
  let kept := (standingStreams img s).filter fun x => !own.contains x.id
  let stay := if img.partial_ then (s.strm.map (·.decl)).filter fun x => !s.under x.producer img.target else []
  eachAfter (parseDome b) (checkDome b img s) (entriesOf b 1 16)
  if img.partial_ then need (img.domes.any (·.id == img.target)) 14 0x0030
  eachAfter (parseRoute b) (checkRoute b img s) (entriesOf b 3 8)
  eachAfter (parseSplit b) (checkSplit b img s) (entriesOf b 4 8)
  eachAfter (parseQuota b) (checkQuota b img s) (entriesOf b 5 32)
  checkPartitionQuotas b img s
  checkKeptQuotas b img s
  eachAfter (parseStream b) (fun before o => do
    need (!stay.any (·.id == (parseStream b o).id)) o 0x0023
    checkStream b img s kept before o) (entriesOf b 6 24)
  eachAfter (parseSem b) (checkSem b img s) (variableEntries b 7)
  eachAfter id (checkEvent b s img) (entriesOf b 8 8)
  eachAfter (parseSlice b) (checkSlice b img s) (variableEntries b 9)
  if img.partial_ then
    checkRemoved img s
    checkKept img s
  return img

end Sys2Proof.Machine
end

