-- ==== Sys2Proof/Machine/Structure.lean ====
section
/-! DEFINITION. Structure: images and dissolutions taking effect, fencing, bindings (02 R56 to R66; 04 R115, R117, R131 to R134). -/

namespace Sys2Proof.Machine

open Sys2Proof

/-! ### Routes and splits in force (R42 to R44) -/

/-- The default path between two quadrants (R43): the fewest hops, and of two equal paths the one through the lower-numbered quadrant. -/
def defaultPath (a b : Nat) : List Nat :=
  if a = b then [a] else if adjacent a b then [a, b]
  else [a] ++ ((List.range 4).find? fun q => adjacent a q && adjacent q b).toList ++ [b]

/-- The route entry that a dome's traffic to a destination uses (R43): its own, or that of its nearest ancestor that has one. -/
def State.routeOf (s : State) (d dest : Nat) : Option Route :=
  (s.path d).findSome? fun a => s.str.routes.find? fun r => r.dome == a && r.dest == dest

/-- The quadrants that traffic of a dome crosses from a cluster to a destination (R42, R43): the entry's hops, or the default path. From a
cluster outside the first hop's quadrant it reaches that quadrant on the default path (log 17). -/
def State.trafficPath (s : State) (d c dest : Nat) : List Nat :=
  let q := Config.quadrant c
  match s.routeOf d dest with
  | some r => (defaultPath q (r.hops.headD q)).dropLast ++ r.hops
  | none => defaultPath q ((destQuadrant dest).getD q)

/-- The split in force for a dome (R44): its own entry, or that of its nearest ancestor that has one; 10/4/2 where none has. -/
def State.splitOf (s : State) (d : Nat) : Split :=
  ((s.path d).findSome? fun a => s.str.splits.find? (·.dome == a)).getD { dome := d, rd := 10, wr := 4, remote := 2 }

/-- The slice pointer at the first entry of a table (R72). -/
def startPtr (t : SliceTable) : SlicePtr := { part := t.part, left := ((t.entries[0]?).map (·.length)).getD 1 }

/-- A structure change, a fence or an unfence is validated and waits (R56). -/
def State.changing (s : State) : Bool := s.str.change.isSome || !s.str.fences.isEmpty

/-- The sizes record of a dome (Table 2-1). -/
def State.sizesOf (s : State) (d : Nat) : Sizes :=
  { clusters := (s.clusters d).length, changeCount := ((s.dome? d).map (·.changeCount)).getD 0,
    t1 := (s.quota d 1).getD 0, t2 := (s.quota d 2).getD 0 }

/-- A sizes record as its 32 bytes (Table 2-1). -/
def Sizes.bytes (z : Sizes) : List Byte :=
  toLE 2 z.clusters ++ toLE 2 (4 * z.clusters) ++ toLE 2 (32 * z.clusters) ++ toLE 2 z.changeCount.toNat ++ toLE 8 (1966080 * z.clusters) ++
    toLE 8 z.t1 ++ toLE 8 z.t2

/-- The fields of a sizes record other than its change count (Table 2-1). -/
def State.sizeKey (s : State) (d : Nat) : Sizes := { s.sizesOf d with changeCount := 0 }

/-- The change counts of the records that a change altered rise by 1 (R34, R36), and CHANGES by 1 (22 R563). The spec gives neither the
count with which the record of a new dome starts nor what becomes of a dome that a full image keeps: the model starts at 0, and a dome
whose ID is kept goes on with its count (DESIGN CHOICE, log 86). -/
def countChanges (old : State) (s : State) : State :=
  s.modStr fun x =>
    { x with domes := x.domes.map fun d =>
               if (old.dome? d.id).isSome && old.sizeKey d.id != s.sizeKey d.id then { d with changeCount := d.changeCount + 1 } else d,
             changes := x.changes + 1 }

/-- Counters of a removed dome are cleared (22 R551). -/
def clearDomeCounters (gone : List Nat) (s : State) : State :=
  s.modCtr fun l => l.filter fun e => !(e.1.spec.scope == .dome && gone.contains e.2.1)

/-- The shared semaphores that plans of a dome hold. -/
def State.heldShared (s : State) (d : Nat) : List Nat :=
  (s.sch.sems.filter fun m => m.dome.isNone && m.held.any fun h => ((s.cmd? h.1).map (·.dome)) == some d).map (·.id)

/-- The structure-change events of a removed dome (R59): one for the removal, and one for each shared semaphore released. -/
def removalEvents (d : Nat) (s : State) : State :=
  (s.heldShared d).foldl (fun t id => raise 0x014 (BitVec.ofNat 32 (d + id * 2 ^ 16 + 2 ^ 26)) t)
    (raise 0x014 (BitVec.ofNat 32 d) s)

/-- What the removal of domes does before they are gone (R57, R59, R133; 06 R203; 08 R263): events, commands completed with Dome
Dissolved, objects released, watch slots and arms freed, saved T0 discarded (R83). -/
def removeDomes (gone : List Nat) (s : State) : State :=
  let s0 := gone.foldl (fun t d => removalEvents d t) s
  let s1 := s0.modInf fun x => { x with arms := x.arms.filter fun a => !gone.contains a.dome }
  let s2 := (s1.sch.cmds.filter fun c => gone.contains c.dome).foldl (fun t c => endFailed c.src St.domeDissolved t) s1
  let s3 := (s2.obj.list.filter fun o => gone.contains o.dome).foldl (fun t o => dropObject o.id t) s2
  let s4 := freeSlots (fun w => gone.contains w.dome) s3
  let s5 := s4.modSch fun k =>
    { k with saved := k.saved.filter fun v => !gone.contains v.1, sems := k.sems.filter fun m => !(m.dome.any gone.contains) }
  clearDomeCounters gone s5

/-- Streams after a change (R170): a stream declared as it was keeps its buffer and is no longer halted; commands waiting on a
stream that goes complete with Dome Dissolved. -/
def settleStreams (decls : List StreamDecl) (redeclared : Nat → Bool) (s : State) : State :=
  let waitsOn (id : Nat) (c : Cmd) : Bool :=
    c.chains.any fun h => h.run.any fun r => r.wait == .streamIn id || r.wait == .streamOut id
  let dead := s.strm.filter fun x => !decls.contains x.decl
  let s1 := dead.foldl (fun t x =>
    (t.sch.cmds.filter (waitsOn x.decl.id)).foldl (fun t c => endFailed c.src St.domeDissolved t) t) s
  s1.modStrm fun old => decls.map fun d => match old.find? (fun x => x.decl == d) with
    | some x => if redeclared d.id then { x with halted := false } else x
    | none => { decl := d }

/-- The charges of streams and save areas are made anew from the structure in force; the reservations go unless an image still waits
(R47, R83, R570). -/
def chargeStructure (s : State) : State :=
  let fixed (o : Owner) : Bool := match o with
    | .stream _ => true | .saveArea _ => true | .reserved _ => s.str.change.isNone | _ => false
  let s1 := s.modObj fun o => { o with charges := o.charges.filter (fun c => !fixed c.owner), t0 := o.t0.filter (fun u => !fixed u.owner) }
  let s2 := s1.strm.foldl (fun t x => (charge (.stream x.decl.id) 1 x.decl.producer (streamT1 x.decl) t).modObj fun o =>
    { o with t0 := o.t0 ++ (streamT0 t.str.domes x.decl).map fun p =>
        { owner := .stream x.decl.id, dome := x.decl.producer, cluster := p.1, bytes := p.2 } }) s1
  s2.str.slices.foldl (fun t x => charge (.saveArea x.part) 1 x.part (saveArea t.str.domes x) t) s2

/-- The charges that an image makes anew free clean resident pages where a quota now in force asks for it (R160, R570). -/
def freeForImage (img : Image) (old : State) (s : State) : State :=
  ((imageCharges img old).filter fun c =>
      c.2.2 != 0 && !old.obj.charges.any fun x => x.owner == c.1 && x.tier == 1 && x.bytes == c.2.2 && x.dome == c.2.1).foldl
    (fun t c => match fit c.2.1 1 0 t with
      | .ok u => u
      | .error _ => t) s

/-- Shared semaphores after an image (R49). -/
def semsAfter (img : Image) (old : List Sem) : List Sem :=
  let fresh (d : SemDecl) : Sem := { id := d.id, dome := none, count := d.initial, maximum := d.maximum, domes := d.domes }
  let decls := img.sems.getD []
  if img.partial_ then
    (old.map fun m => match decls.find? fun d => m.dome.isNone && d.id == m.id with
      | some d => { m with count := Nat.min m.count d.maximum, maximum := d.maximum, domes := d.domes }
      | none => m) ++
    (decls.filter fun d => !old.any fun m => m.dome.isNone && m.id == d.id).map fresh
  else (old.filter fun m => m.dome.isSome) ++ decls.map fresh

/-- Tasks blocked on a shared semaphore whose list no longer names their dome fail (R49, R50). -/
def failUnlisted (s : State) : State :=
  let bad := s.sch.sems.flatMap fun m => if m.dome.isSome then [] else
    m.waiters.filter fun w => (s.cmd? w.src).any fun c => !m.domes.contains c.dome
  bad.foldl (fun t w => failTask w St.accessDenied t) s

/-- The event routing of a full image with an event-group section (15 R438). -/
def routeEvents (gs : List EvGroupDef × List (Nat × Nat)) (s : State) : State :=
  let movedNew := s.evt.pend.filter fun p => s.evt.unmasked.contains p && (lookN p gs.2).getD (defaultGroup p) != s.group p
  let s1 := s.modEvt fun e =>
    { e with assigned := gs.2,
             groups := e.groups.zipIdx.map fun p => match gs.1.find? (·.group == p.2) with
               | some d => { p.1 with holdoff := d.holdoff, receiver := d.receiver }
               | none => { p.1 with holdoff := 0, receiver := 0 } }
  movedNew.foldl (fun t p => setNew p t) s1

/-- When a full image takes effect, the per-partition sources lose their pending bits, edges and details (15 R439), and the
counters of partition scope are cleared (22 R551). -/
def clearSlotSources (s : State) : State :=
  let per (x : Nat) : Bool := 0x100 ≤ x && x < 0x500
  (s.modEvt fun e => { e with pend := e.pend.filter (fun x => !per x), edges := e.edges.filter (fun x => !per x.1),
                              detail := e.detail.filter (fun x => !per x.1) }).modCtr fun l =>
    l.filter fun e => e.1.spec.scope != .partition

/-- A validated image takes effect (R57 to R60): removals, the new structure, streams, semaphores, slice tables, events, charges,
generation and digest, and the completion of LOAD STRUCTURE. The change count of a new dome's sizes record starts at 0, and an ID that a
full image keeps goes on with its count: R36 gives neither (DESIGN CHOICE, log 86). -/
def applyImage (img : Image) (src : Src) (s : State) : State :=
  let ds := standingDomes img s
  let gone := (s.str.domes.filter fun d => !ds.any (·.id == d.id)).map (·.id)
  let s1 := removeDomes gone s
  let s2 := if img.partial_ then s1 else clearSlotSources s1
  let kept (d : Dome) : Dome := match s.dome? d.id with
    | some o => { d with changeCount := o.changeCount, dissolving := false }
    | none => { d with dissolving := false }
  let tables := standingSlices img s
  let ptrs := (s.sch.ptrs.filter fun p => img.partial_ && tables.any (·.part == p.part) && !(img.slices.getD []).any (·.part == p.part)) ++
    (img.slices.getD []).map startPtr
  let s3 := s2.modStr fun x =>
    { x with generation := img.newGen, domes := ds.map kept,
             slots := if img.partial_ then x.slots else (img.domes.filter (·.parent == 0)).map (·.id),
             routes := standing img s (·.dome) s.str.routes img.routes,
             splits := standing img s (·.dome) s.str.splits img.splits,
             quotas := standingQuotas img s, slices := tables, change := none,
             digest := Config.shake256 (if img.partial_ then x.digest ++ img.raw else img.raw) }
  let s4 := settleStreams (standingStreams img s) (fun id => (img.streams.getD []).any (·.id == id)) s3
  let s5 := failUnlisted (s4.modSch fun k => { k with sems := semsAfter img k.sems, ptrs })
  let s6 := match img.evGroups with
    | some g => if img.partial_ then s5 else routeEvents g s5
    | none => s5
  ok src img.newGen 0 (countChanges s (freeForImage img s (chargeStructure s6)))

/-- A dome and its subtree are dissolved (R133, 03 R106). -/
def dissolveNow (dome : Nat) (s : State) : State :=
  let gone := (s.str.domes.filter fun d => s.under d.id dome).map (·.id)
  let s1 := removeDomes gone s
  let stays (d : Nat) : Bool := !gone.contains d
  let s2 := s1.modStr fun x =>
    { x with domes := x.domes.filter (fun d => stays d.id), routes := x.routes.filter (fun r => stays r.dome),
             splits := x.splits.filter (fun r => stays r.dome), quotas := x.quotas.filter (fun r => stays r.dome),
             slices := (x.slices.filter fun t => stays t.part).map fun t =>
               { t with entries := t.entries.map fun e => { e with domes := e.domes.filter stays } } }
  let s3 := settleStreams ((s.strm.map (·.decl)).filter fun d => stays d.producer && stays d.consumer) (fun _ => false) s2
  let s4 := s3.modSch fun k =>
    { k with ptrs := k.ptrs.filter (fun p => stays p.part), sems := k.sems.map fun m => { m with domes := m.domes.filter stays } }
  structurePacket 3 dome 0xFFFF (countChanges s (chargeStructure s4))

/-- The dissolution of a dome takes effect and completes (R133). -/
def applyDissolve (dome : Nat) (src : Src) (s : State) : State :=
  ok src 0 0 (dissolveNow dome (s.modStr fun x => { x with change := none }))

/-- The dome whose subtree a waiting change touches; none for a full image. -/
def ChangeKind.target : ChangeKind → Option Nat
  | .image img => if img.partial_ then some img.target else none
  | .dissolve d => some d

/-- A structure change may take effect at this boundary (R57, R59): a full image at the next boundary; a partial image and a
dissolution once dispatch has stopped at a boundary and no task of the subtree is in flight. -/
def State.changeReady (s : State) (c : Change) : Bool :=
  match c.kind.target with
  | none => true
  | some d => c.stopped.any (· < s.tick.toNat) && !s.busyUnder d

/-- The waiting structure change takes effect (R57 to R60, R133). -/
def changeNow (s : State) : State :=
  match s.str.change with
  | some c => match c.kind with
    | .image img => structurePacket 0 img.target 0xFFFF (applyImage img c.src s)
    | .dissolve d => applyDissolve d c.src s
  | none => s

/-! ### Loading and dissolving -/

/-- A vendor admin command that a virtual function may not send (04 R117). -/
def vendorGate (src : Src) (bit : Nat) (s : State) : Option Fail :=
  if src.fn ≠ 0 ∨ !s.granted bit then some St.invalidOpcode else none

/-- Reservations for the charges that an image will make anew (R570): made from the clean pages that can be freed. The charge of a dome
that the image adds is reserved on the nearest dome of its path that exists already. -/
def reserve (img : Image) (s : State) : State :=
  let ds := standingDomes img s
  let anchor (d : Nat) : Nat := ((pathIn ds ds.length d).find? fun a => (s.dome? a).isSome).getD d
  let s1 := (imageCharges img s).foldl (fun t c =>
    if t.obj.charges.any (fun x => x.owner == c.1 && x.tier == 1 && x.bytes == c.2.2 && x.dome == c.2.1) then t
    else match fit (anchor c.2.1) 1 c.2.2 t with
      | .ok u => charge (.reserved 0) 1 (anchor c.2.1) c.2.2 u
      | .error _ => charge (.reserved 0) 1 (anchor c.2.1) c.2.2 t) s
  let uses : List T0Use := (freshT0 img s).flatMap fun x =>
    x.2.map fun p => { owner := .reserved x.1.id, dome := x.1.producer, cluster := p.1, bytes := p.2 }
  s1.modObj fun o => { o with t0 := o.t0 ++ uses }

/-- Mark the domes that a validated change will remove (22 R563). -/
def markDissolving (gone : Nat → Bool) (s : State) : State :=
  s.modStr fun x => { x with domes := x.domes.map fun d => if gone d.id then { d with dissolving := true } else d }

/-- LOAD_STRUCTURE (R54 to R60; 04 R117, R131, R135). -/
def execLoadStructure (a : Admin) (s : State) : Ans :=
  runAdmin 0xC0 a.src false (fun s =>
    let sent := Nat.min a.cdw10.toNat a.input.length
    orFail (vendorGate a.src 0 s) fun _ =>
    if a.cdw11 ≠ 0 ∨ a.cdw12 ≠ 0 ∨ a.cdw13 ≠ 0 ∨ a.cdw14 ≠ 0 ∨ a.cdw15 ≠ 0 then .error St.invalidField
    else if s.changing then .error St.structureBusy
    else if imageKind a.input = 1 ∧ !s.granted 7 then .error St.invalidField
    else if imageKind a.input = 0 ∧ s.hostCmds.any (fun c => c.opcode != 0x81 && c.opcode != 0x82) then .error St.structureBusy
    else match validate a.input sent s with
      | .error (off, reason) => .ok (post { src := a.src, sct := 7, sc := 0x80, dw0 := off, dw1 := reason } s)
      | .ok img =>
        let ds := standingDomes img s
        .ok (markDissolving (fun d => !ds.any (·.id == d))
          ((reserve img s).modStr fun x => { x with change := some { kind := .image img, src := a.src } }))) s

/-- The dome field of DOME CONTROL: CDW10 [27:16]. -/
def controlDome (a : Admin) : Nat := bits a.cdw10.toNat 27 16

/-- Reserved bits of DOME CONTROL: CDW10 [15:4] and [31:28], and CDW12 to 15. -/
def controlReserved (a : Admin) : Bool :=
  bits a.cdw10.toNat 15 4 != 0 || bits a.cdw10.toNat 31 28 != 0 || a.cdw12 != 0 || a.cdw13 != 0 || a.cdw14 != 0 || a.cdw15 != 0

/-- DOME_DISSOLVE (R56, R133): DOME CONTROL with action 0; an action that Table 4-5 does not list is refused here (R13). -/
def execDomeDissolve (a : Admin) (s : State) : Ans :=
  if bits a.cdw10.toNat 3 0 = 1 ∨ bits a.cdw10.toNat 3 0 = 2 then .next s
  else runAdmin 0xC1 a.src false (fun s =>
    let d := controlDome a
    orFail (vendorGate a.src 0 s) fun _ =>
    if bits a.cdw10.toNat 3 0 ≠ 0 ∨ controlReserved a ∨ a.cdw11 ≠ 0 ∨ d = 0 then .error St.invalidField
    else if s.changing then .error St.structureBusy
    else if (s.dome? d).isNone then .error St.domeDissolved
    else .ok (markDissolving (fun x => s.under x d)
      (s.modStr fun x => { x with change := some { kind := .dissolve d, src := a.src } }))) s

/-- A virtual function has a Milris command outstanding (R134). -/
def State.vfBusy (s : State) (f : Nat) : Bool := s.hostCmds.any fun c => c.src.fn == f

/-- The binding of an ID or of a virtual function changes; the structural fields change with it (22 R563). -/
def setBindings (f : List (Nat × Nat) → List (Nat × Nat)) (s : State) : State :=
  s.modStr fun x => { x with bindings := f x.bindings, changes := x.changes + 1 }

/-- DOME_BIND (04 R115, R134). -/
def execDomeBind (a : Admin) (s : State) : Ans :=
  if bits a.cdw10.toNat 3 0 ≠ 1 then .next s
  else runAdmin 0xC1 a.src false (fun s =>
    let d := controlDome a
    let f := bits a.cdw11.toNat 5 0
    orFail (vendorGate a.src 0 s) fun _ =>
    if controlReserved a ∨ bits a.cdw11.toNat 31 6 ≠ 0 ∨ d = 0 ∨ f = 0 ∨ !(s.fn? f).any (·.enabled) then .error St.invalidField
    else if s.vfBusy f then .error St.structureBusy
    else if s.str.bindings.contains (f, d) then .ok (ok a.src 0 0 s)
    else if s.str.bindings.any (fun b => b.1 == f || b.2 == d) then .error St.sequenceError
    else .ok (ok a.src 0 0 (setBindings (fun l => l ++ [(f, d)]) s))) s

/-- DOME_UNBIND (04 R134). -/
def execDomeUnbind (a : Admin) (s : State) : Ans :=
  if bits a.cdw10.toNat 3 0 ≠ 2 then .next s
  else runAdmin 0xC1 a.src false (fun s =>
    let d := controlDome a
    orFail (vendorGate a.src 0 s) fun _ =>
    if controlReserved a ∨ a.cdw11 ≠ 0 ∨ d = 0 then .error St.invalidField
    else match s.boundFn d with
      | none => .error St.sequenceError
      | some f => if s.vfBusy f then .error St.structureBusy
                  else .ok (ok a.src 0 0 (setBindings (fun l => l.filter (·.2 ≠ d)) s))) s

/-! ### Fencing (R61 to R66, R571) -/

/-- The gate and the reserved bits of SERVICE (04 R131): CDW10 [7:0] action, bit 8 REPLACE where the action takes it. -/
def serviceGate (a : Admin) (action : Nat) (replace : Bool) (s : State) : Option Fail :=
  (vendorGate a.src 10 s).orElse fun _ =>
    if bits a.cdw10.toNat 7 0 ≠ action ∨ bits a.cdw10.toNat 31 9 ≠ 0 ∨ (!replace ∧ bit a.cdw10.toNat 8) ∨
       a.cdw12 ≠ 0 ∨ a.cdw13 ≠ 0 ∨ a.cdw14 ≠ 0 ∨ a.cdw15 ≠ 0 then some St.invalidField else none

/-- SERVICE_FENCE (R56, R61; 04 R132). An action that Table 4-6 does not list is refused here. -/
def execServiceFence (a : Admin) (s : State) : Ans :=
  if 2 ≤ bits a.cdw10.toNat 7 0 ∧ bits a.cdw10.toNat 7 0 ≤ 7 then .next s
  else runAdmin 0xC5 a.src false (fun s =>
    orFail (serviceGate a 1 true s) fun _ =>
    if a.cdw11.toNat > 799 then .error St.invalidField
    else if s.str.fenced.contains a.cdw11.toNat then .error St.serviceRefused
    else .ok (s.modStr fun x =>
      { x with fences := x.fences ++ [{ cluster := a.cdw11.toNat, replace := bit a.cdw10.toNat 8, src := a.src, unfence := false }] })) s

/-- SERVICE_UNFENCE (R65; 04 R132). -/
def execServiceUnfence (a : Admin) (s : State) : Ans :=
  if bits a.cdw10.toNat 7 0 ≠ 2 then .next s
  else runAdmin 0xC5 a.src false (fun s =>
    orFail (serviceGate a 2 false s) fun _ =>
    if a.cdw11.toNat > 799 then .error St.invalidField
    else if !s.str.fenced.contains a.cdw11.toNat then .error St.serviceRefused
    else .ok (s.modStr fun x =>
      { x with fences := x.fences ++ [{ cluster := a.cdw11.toNat, replace := false, src := a.src, unfence := true }] })) s

/-- The objects with a chunk in T0 of a cluster. -/
def State.t0Objects (s : State) (c : Nat) : List Nat :=
  nubN ((s.obj.t0.filter (·.cluster == c)).filterMap fun u => match u.owner with
    | .object id => some id | .resident id _ => some id | _ => none)

/-- A SPILL object moves to T1 (R62): its T1 charge is taken, its T0 space is given back, its home tier becomes T1 and SPILL is
clear; none when the charge does not fit. -/
def spillToT1 (o : Obj) (s : State) : Option State :=
  let n : Obj := { o with flags := (o.flags &&& ~~~0x11#8) ||| 0x02#8 }
  match takeHome n s with
  | .error _ => none
  | .ok t => some (freedOn (t.t0At (Owner.homeOf o.id)) ((modOne o.id (fun _ => n) t).modObj fun x =>
      { x with t0 := x.t0.filter fun u => !u.owner.homeOf o.id }))

/-- The ID, above the 48 bits of an object ID, under which an object that a fence has released stays readable to tasks in flight. -/
def relic (id : Nat) : Nat := id + 2 ^ 48

/-- A command with one object ID replaced by another. -/
def Cmd.renamed (a b : Nat) (c : Cmd) : Cmd :=
  let r (x : Nat) : Nat := if x = a then b else x
  let rp (l : List (Nat × Nat)) : List (Nat × Nat) := l.map fun p => (r p.1, p.2)
  { c with objs := c.objs.map r, writes := c.writes.map r, outAddr := if c.outObj then r c.outAddr else c.outAddr,
           chains := c.chains.map fun h => { h with tasks := h.tasks.map fun k => { k with pages := rp k.pages } },
           plan := c.plan.map fun p =>
             { p with object := r p.object, objs := p.objs.map r, writes := p.writes.map r,
                      tensors := p.tensors.map fun t => { t with object := r t.object },
                      tasks := p.tasks.map fun k => { k with pages := rp k.pages },
                      layers := p.layers.map fun l => l.map fun x => (r x.1, x.2), dyn := p.dyn.map fun d => (d.1, d.2.map rp) } }

/-- The charges, T0 space, resident pages, watch slots and row scales of an object go; its bytes stay under its relic ID (R571; 06 R203). -/
def retire (id : Nat) (s : State) : State :=
  let old := s.obj? id
  (dropObject id s).modObj fun o => { o with list := o.list ++ (old.map fun x => { x with id := relic id, resident := [] }).toList }

/-- A fence releases an object (R571): at once when no command names it; otherwise it stays readable to the tasks in flight, and
each command that names it completes with Object Not Found. A command in flight goes on under the relic ID, so that a PLACE of the ID finds
no object. -/
def fenceRelease (id : Nat) (s : State) : State :=
  let users := s.sch.cmds.filter fun c => c.objs.contains id
  if users.isEmpty then dropObject id s
  else
    let s1 := retire id (modOne id (fun o => { o with released := true }) s)
    let s2 := s1.modSch fun k => { k with cmds := k.cmds.map fun c => if c.objs.contains id then c.renamed id (relic id) else c }
    users.foldl (fun t c => failWhole c.src (St.objectNotFound id) t) s2

/-- What happens to the T0 contents of a fenced cluster without a driver's replacement (R62). -/
def loseT0 (c : Nat) (s : State) : State :=
  let s1 := (s.t0Objects c).foldl (fun t id => match t.obj? id with
    | none => t
    | some o =>
      if o.flag 4 then (match spillToT1 o t with | some u => u | none => fenceRelease id t)
      else fenceRelease id t) s
  (s1.modObj fun o => { o with t0 := o.t0.filter (·.cluster ≠ c) }).modSch fun k => { k with saved := k.saved.filter (·.2.1 ≠ c) }

/-- The cluster that replaces a fenced one (R62, R63): the lowest of the free pool, when some list held the fenced cluster. -/
def State.replacement (s : State) (c : Nat) : Option Nat :=
  if s.str.domes.any (·.clusters.contains c) then s.freePool.find? (· != c) else none

/-- The T0 contents of a fenced cluster, with the regions of suspended plans, are copied to its replacement (R62). -/
def moveT0 (c r : Nat) (s : State) : State :=
  let s1 := s.modObj fun o => { o with t0 := updIf (·.cluster == c) (fun u => { u with cluster := r }) o.t0 }
  s1.modSch fun k =>
    { k with saved := updIf (·.2.1 == c) (fun v => (v.1, r, v.2.2)) k.saved,
             cmds := k.cmds.map fun m => { m with chains := updIf (·.at_ == some c) (fun h => { h with at_ := some r }) m.chains } }

/-- A fence takes effect (R62 to R64): membership, the T0 contents, EMPTY domes with their event, the cluster-fenced event
(15 Table 15-4: bit 31 for a fault fence) and the change counts. -/
def applyFence (c : Nat) (repl : Option Nat) (fault : Bool) (s : State) : State :=
  let s1 := s.modStr fun x =>
    { x with domes := x.domes.map fun d =>
               if !d.clusters.contains c then d
               else match repl with
                 | some r => { d with clusters := d.clusters.map fun y => if y = c then r else y }
                 | none => { d with clusters := delN c d.clusters, empty := (delN c d.clusters).isEmpty },
             fenced := insN c x.fenced }
  let s2 := match repl with
    | some r => if fault then loseT0 c s1 else moveT0 c r s1
    | none => loseT0 c s1
  let emptied := (s2.str.domes.filter fun d => d.empty && (s.dome? d.id).any fun o => !o.empty).map (·.id)
  let s3 := emptied.foldl (fun t d => structurePacket 4 d 0xFFFF (raisePart d 6 (BitVec.ofNat 32 d) t)) (structurePacket 1 0 c s2)
  countChanges s (raise 0x015 (BitVec.ofNat 32 (c + (if fault then 2 ^ 31 else 0))) (freedOn repl.toList s3))

/-- A fault fence takes effect at once (R61): the tasks on the cluster fail with Cluster Fault. -/
def faultFence (c : Nat) (s : State) : State :=
  if s.str.fenced.contains c then s
  else
    let refs := s.sch.cmds.flatMap fun m => m.chains.zipIdx.filterMap fun h => match h.1.run with
      | some r => if r.cluster = c then some ({ src := m.src, chain := h.2 } : TaskRef) else none
      | none => none
    applyFence c none true (refs.foldl (fun t r => failTask r St.clusterFault t) s)

/-- The oldest waiting fence or unfence is due at this boundary (R56, R61, R65): one that asks for nothing, an unfence, or a fence to whose
cluster dispatch stopped at an earlier boundary and on which no task is in flight. -/
def State.fenceReady (s : State) (r : FenceReq) : Bool :=
  r.stopped.any (· < s.tick.toNat) && (r.unfence || s.str.fenced.contains r.cluster || (s.running r.cluster).isEmpty)

/-- The oldest waiting fence takes effect (R61, R62); one that finds its cluster fenced is refused (04 R132). -/
def fenceNow (r : FenceReq) (s0 : State) : State :=
  let s := s0.modStr fun x => { x with fences := x.fences.drop 1 }
  if s.str.fenced.contains r.cluster then refuse r.src St.serviceRefused s
  else
    let repl := if r.replace then s.replacement r.cluster else none
    ok r.src (match repl with | some y => 1 + y * 2 ^ 16 | none => 0) 0 (applyFence r.cluster repl false s)

/-- The oldest waiting unfence takes effect (R65): its cluster returns to the free pool. -/
def unfenceNow (r : FenceReq) (s0 : State) : State :=
  let s := s0.modStr fun x => { x with fences := x.fences.drop 1 }
  if !s.str.fenced.contains r.cluster then refuse r.src St.serviceRefused s
  else ok r.src 0 0 (structurePacket 2 0 r.cluster (s.modStr fun x =>
    { x with fenced := delN r.cluster x.fenced, changes := x.changes + 1 }))

end Sys2Proof.Machine
end

