-- ==== Sys2Proof/Machine/Levels.lean ====
section
/-! DEFINITION. Read levels: the decoder statistics of a block group, their evaluation, and SERVICE action 0x06 (14 R413 to R417). -/

namespace Sys2Proof.Machine

open Sys2Proof

/-- A block group's record. -/
def State.rdGroup (s : State) (g : Nat) : RdGroup := (s.cal.groups.find? (·.id == g)).getD { id := g }

/-- Update a block group's record. -/
def modRd (g : Nat) (f : RdGroup → RdGroup) (s : State) : State :=
  s.modCal fun c => { c with groups := if c.groups.any (·.id == g) then updIf (·.id == g) f c.groups else c.groups ++ [f { id := g }] }

/-- Statistics after one corrected read (R414). -/
def RdStats.add (x : RdStats) (iterations : Nat) (updown : List (Nat × Nat)) : RdStats :=
  { reads := x.reads + 1, iterations := x.iterations + iterations,
    up := x.up.zipIdx.map fun p => p.1 + ((updown[p.2]?).map (·.1)).getD 0,
    down := x.down.zipIdx.map fun p => p.1 + ((updown[p.2]?).map (·.2)).getD 0 }

/-- A read that adds to the statistics: corrected without soft decoding (R414). -/
def correctedRead : ReadEnd → Bool
  | .ok => true
  | .retried _ soft => !soft
  | _ => false

/-- The read of a block adds to its group's statistics, or to the sample reads of SERVICE 0x06 (R414, R417). -/
def noteRead (block : Nat) (sampled : Bool) (r : ReadEnd) (iterations : Nat) (updown : List (Nat × Nat)) (s : State) : State :=
  let g := blockGroup block
  if sampled then
    modRd g (fun x => { x with sample := x.sample.map fun y => (y.1 + 1, if correctedRead r then y.2.add iterations updown else y.2) }) s
  else if correctedRead r then modRd g (fun x => { x with stats := x.stats.add iterations updown }) s
  else s

/-- One threshold's move (R414): up, down or none. -/
def levelMove (up down : Nat) : Int := if 8 * (up - down) > up + down then 1 else if 8 * (down - up) > up + down then -1 else 0

/-- The evaluation of statistics (R414): the new offsets, when some change, and whether one is at its bound. -/
def evalLevels (target : Nat) (offsets : List Int) (x : RdStats) : Option (List Int) × Bool :=
  if x.reads = 0 ∨ 16 * x.iterations ≤ target * x.reads then (none, false)
  else
    let moves := (x.up.zip x.down).map fun p => levelMove p.1 p.2
    let new := (offsets.zip moves).map fun p => min 63 (max (-64) (p.1 + p.2))
    let held := (offsets.zip moves).any fun p => (p.1 == 63 && p.2 == 1) || (p.1 == -64 && p.2 == -1)
    (if new = offsets then none else some new, held)

/-- Evaluate a group on statistics: the state, and whether the group changed (R414, R415). -/
def evalGroup (g : Nat) (x : RdStats) (s : State) : State × Bool :=
  let r := s.rdGroup g
  let e := evalLevels s.eff.target (r.pending.getD r.offsets) x
  let s1 := ctrAdd .calibReadLevelEvaluations 0 1 (modRd g (fun r => { r with pending := e.1.orElse fun _ => r.pending, atLimit := r.atLimit || e.2 }) s)
  (if e.1.isSome then ctrAdd .calibBlockGroupsChanged 0 1 s1 else s1, e.1.isSome)

/-- The die of a block group (R413). -/
def dieOfGroup (g : Nat) : Nat := g / 172

/-- A sampled group has been evaluated: a SERVICE 0x06 completes with its last group (R417). -/
def recalStep (g : Nat) (changed : Bool) (s : State) : State :=
  let l := s.cal.recal.map fun e => if e.2.1.contains g then (e.1, delN g e.2.1, e.2.2 + b2n changed) else e
  (l.filter (·.2.1.isEmpty)).foldl (fun s e => ok e.1 e.2.2 0 s) (s.modCal fun c => { c with recal := l.filter (!·.2.1.isEmpty) })

/-- READ_LEVEL_EVALUATION (R405, R414, R416, R417): after 256 corrected reads, or after the 16 sample reads of SERVICE 0x06. -/
def execReadLevelEvaluation (bgroup : Nat) (s : State) : Ans :=
  .next (
    let r := s.rdGroup bgroup
    match r.sample with
    | some (n, x) =>
      if n < 16 then s
      else
        let e := evalGroup bgroup x s
        recalStep bgroup e.2 (modRd bgroup (fun r => { r with sample := none }) e.1)
    | none =>
      if r.stats.reads < 256 || !s.eff.readLevels || (s.die (dieOfGroup bgroup)).retired then s
      else modRd bgroup (fun r => { r with stats := {} }) (evalGroup bgroup r.stats s).1)

/-- The block groups of the dies named that hold a CLOSED block (R417). -/
def State.closedGroups (s : State) (die : Nat) : List Nat :=
  nubN ((s.fls.blocks.filter fun b => b.state == .closed && (die == 0x3FF || dieOf b.id == die) && !(s.die (dieOf b.id)).retired).map
    fun b => blockGroup b.id)

/-- RECALIBRATE_READ_LEVELS (SERVICE 0x06: 04 Table 4-6; 14 R417). -/
def execRecalibrateReadLevels (a : Admin) (s : State) : Ans :=
  if bits a.cdw10.toNat 7 0 ≠ 6 then .next s
  else runAdmin 0xC5 a.src false (fun s =>
    let d := bits a.cdw11.toNat 9 0
    orFail (serviceGate a 0x06 false s) fun _ =>
      if bits a.cdw11.toNat 31 10 ≠ 0 ∨ (d > 511 ∧ d ≠ 0x3FF) then .error St.invalidField
      else
        let gs := s.closedGroups d
        if gs.isEmpty then .ok (ok a.src 0 0 s)
        else .ok (gs.foldl (fun s g => modRd g (fun r => { r with sample := r.sample.orElse fun _ => some (0, {}) }) s) (s.modCal fun c => { c with recal := c.recal ++ [(a.src, gs, 0)] }))) s

end Sys2Proof.Machine
end

