-- ==== Sys2Proof/Machine/Flash.lean ====
section
/-! DEFINITION. Flash media: programs and their parity, garbage collection, refresh, destage, erases, and the retirement of dies (12 R356 to
R382). Log 45 gives the numbering of pages, and log 51 what the model leaves to its driver. -/

namespace Sys2Proof.Machine

open Sys2Proof

/-! ### Forming a group and programming it (R361, R362, R378) -/

/-- Open groups. -/
def State.openGroups (s : State) : Nat := (s.fls.groups.filter (·.open_)).length

/-- A channel has a FREE block (R361). -/
def State.channelFree (s : State) (c : Nat) : Bool :=
  (s.fls.blocks.filter fun b => channelOf (dieOf b.id) == c && b.state != .free).length < 87360

/-- The members can form a group (R361, R362): 48 to 64 FREE blocks on different dies, one on every channel that has one, none on a die
that retires; 96 groups at most; and the floor of 4,096 FREE blocks left, except for copies (R368). -/
def State.mayForm (s : State) (members : List Nat) (floor : Bool) : Bool :=
  48 ≤ members.length && members.length ≤ 64 && distinct (members.map fun b => channelOf (dieOf b)) && s.openGroups < 96 &&
  (List.range 64).all (fun c => !s.channelFree c || members.any fun b => channelOf (dieOf b) == c) &&
  members.all (fun b => b < blockTotal && (s.block b).state == .free && !(s.die (dieOf b)).retiring && !(s.die (dieOf b)).retired) &&
  (floor || members.length + 4096 ≤ s.fls.free) && members.length ≤ s.fls.free

/-- Form a group. -/
def formGroup (members : List Nat) (source : WriteSource) (fine : Bool) (s : State) : State :=
  let n := s.fls.nextGroup
  let s1 := members.foldl (fun s b => modBlock b (fun x => { x with state := .openB, group := some n, verified := false }) s) s
  s1.modFls fun x =>
    { x with nextGroup := n + 1, free := x.free - members.length, groups := x.groups ++ [{ id := n, members, source, fine }] }

/-- An open group that can take units: the one named, or a new one under the next number. Its dies program within the limit of the throttle
level (16 R452). -/
def openTarget (group : Nat) (members : List Nat) (source : WriteSource) (fine floor : Bool) (need : Nat) (s : State) : Option State :=
  match s.group? group with
  | some g => if g.open_ && g.source == source && g.fine == fine && g.used + need ≤ g.capacity && s.diesMayWork (g.members.map dieOf) then some s else none
  | none => if group = s.fls.nextGroup && s.mayForm members floor && s.diesMayWork (members.map dieOf) then some (formGroup members source fine s) else none

/-- The dies of a group's members begin a program (R378); its spilled parity has been read back (R365). -/
def startProgram (group : Nat) (p : Prog) (need : Nat) (s : State) : State :=
  match s.group? group with
  | none => s
  | some g =>
    let s1 := g.members.foldl (fun s b => modDie (dieOf b) (fun d =>
      { d with busy := d.busy.orElse fun _ => some { block := b, erase := false } }) s) s
    modGroup group (fun g => { g with used := g.used + need, programming := g.programming ++ [p], spilled := false }) s1

/-- The dies of a group's members have ended their program. -/
def endProgram (g : Group) (s : State) : State :=
  g.members.foldl (fun s b => modDie (dieOf b) (fun d =>
    { d with busy := d.busy.filter fun o => o.erase || o.block != b }) s) s

/-- A program's units are mapped (R357, R358, R367). -/
def mapProg (group : Nat) (p : Prog) (s : State) : State :=
  let old := s.extent? p.key
  let lost := ((old.map (·.lost)).getD []).filter fun u => !(p.coarse || p.units.contains u)
  let kept : List (Nat × Nat × Nat) := match old with
    | none => []
    | some e => match e.map with
      | .coarse g at_ => ((List.range 4096).filter fun u => !p.units.contains u).map fun u => (u, g, at_ + u)
      | .fine us => us.filter fun u => !p.units.contains u.1
  let map : ExtMap := if p.coarse then .coarse group p.at_ else .fine (kept ++ p.units.zipIdx.map fun u => (u.1, group, p.at_ + u.2))
  let s1 := putExtent { key := p.key, lost, map } s
  if p.cached then s1.modFls fun x => { x with inFlight := x.inFlight.filter fun u => !(u.1 == p.key.1 && u.2 / 4096 == p.key.2 && p.units.contains (u.2 % 4096)) }
  else s1

/-- A full group is closed (Table 12-3). -/
def closeFull (group : Nat) (s : State) : State :=
  match s.group? group with
  | none => s
  | some g =>
    if g.open_ && g.used ≥ g.capacity && g.programming.isEmpty then
      g.members.foldl (fun s b => modBlock b (fun x => { x with state := .closed }) s) (modGroup group (fun g => { g with open_ := false }) s)
    else s

/-- Bytes programmed on each channel of a group (11 Table 11-14): class W, or class M for copies. -/
def countProgram (g : Group) (pages : Nat) (s : State) : State :=
  let cls := match g.source with | .gc => 4 | .refresh => 4 | _ => 3
  g.members.foldl (fun s b => countClass (dieOf b) cls (pages * 16384 / Nat.max 1 g.members.length) s) s

/-- A write-through Write has its units in flash (16 R463). -/
def State.settledWrite (s : State) (units : List Unit4K) : Bool := units.all fun u => !s.fls.dirty.contains u && !s.fls.inFlight.contains u

/-! ### Copies (R360, R368, R369) -/

/-- Copy extents as COARSE runs into a group, as many as it has room for; the source group waits for its verification. -/
def copyExtents (target src : Nat) : List Extent → State → State
  | [], s => s
  | e :: r, s =>
    match s.group? target with
    | none => s
    | some g =>
      if g.used + 4096 > g.capacity then s
      else
        let p : Prog := { key := e.key, coarse := true, at_ := g.used, units := List.range 4096, cached := false }
        copyExtents target src r (ctrAdd .flashGarbageCollectionBytesCopied 0 16777216
          (modGroup target (fun g => { g with sources := insN src g.sources }) (startProgram target p 4096 s)))

/-- The group that garbage collection takes next (R368): closed, holding valid units, those with a member on a retiring die first, then
the fewest valid units, then the lowest number. -/
def State.victimGroup (s : State) : Option Nat :=
  let c := s.fls.groups.filter fun g => !g.open_ && g.programming.isEmpty && s.validUnits g.id != 0
  let key (g : Group) : Nat × Nat × Nat := (b2n !(g.members.any fun b => (s.die (dieOf b)).retiring), s.validUnits g.id, g.id)
  let less (a b : Nat × Nat × Nat) : Bool := a.1 < b.1 || (a.1 == b.1 && (a.2.1 < b.2.1 || (a.2.1 == b.2.1 && a.2.2 < b.2.2)))
  (c.foldl (fun (o : Option Group) g => match o with
    | none => some g
    | some b => if less (key g) (key b) then some g else some b) none).map (·.id)

/-- GARBAGE_COLLECTION (R360, R361, R368, R369): the victim's extents are copied. -/
def execGarbageCollection (group : Nat) (target : Nat) (members : List Nat) (s : State) : Ans :=
  .next (
    if s.victimGroup ≠ some group ∨ !(s.fls.free < 32768 || (s.group? group).any fun g => g.members.any fun b => (s.die (dieOf b)).retiring) then s
    else match openTarget target members .gc false true 4096 s with
      | none => s
      | some s1 => copyExtents target group (s1.extentsIn group) s1)

/-- BLOCK_REFRESH_QUEUED (R375): a block's count has reached the threshold. -/
def execBlockRefreshQueued (block : Nat) (s : State) : Ans :=
  .next (if (s.block block).reads ≥ s.eff.refresh then queueRefresh block s else s)

/-- REFRESH (R360, R374, R376): the queued block with the highest read count is moved; without a target it stays in service and
refresh-blocked is raised. -/
def execRefresh (block : Nat) (target : Nat) (members : List Nat) (s : State) : Ans :=
  .next (
    if !s.fls.refreshQ.contains block ∨ s.fls.refreshQ.any (fun b => (s.block b).reads > (s.block block).reads) then s
    else match (s.block block).group.bind s.group? with
      | none => s.modFls fun x => { x with refreshQ := delN block x.refreshQ }
      | some g =>
        match openTarget target members .refresh false true 4096 s with
        | none =>
          if s.fls.free < 48 then ctrAdd .flashRefreshBlockedEvents 0 1 (raise 0x006 (BitVec.ofNat 32 (dieOf block)) s) else s
        | some s1 =>
          let s2 := copyExtents target g.id (s1.extentsIn g.id) s1
          ctrAdd .flashBlocksRefreshed 0 1 (s2.modFls fun x => { x with refreshQ := delN block x.refreshQ }))

/-! ### Destage (R356 to R359, R368) -/

/-- The dirty units of an extent. -/
def State.dirtyOf (s : State) (k : ExtKey) : List Nat :=
  (s.fls.dirty.filter fun u => u.1 == k.1 && u.2 / 4096 == k.2).map fun u => u.2 % 4096

/-- What an extent is written for (R362): a namespace, the index of commits, or another object. -/
def State.sourceOf (s : State) (k : ExtKey) : WriteSource :=
  if k.1 < 2 ^ 48 then .host else if s.idx.indexes.any (·.object == k.1 - 2 ^ 48) then .index else .object

/-- DESTAGE (R357 to R359, R362, R368, R374): the dirty units of one extent are programmed, as a COARSE run or as fine-mapped units; an extent
of an object is written whole. -/
def execDestage (nsid extent : Nat) (group : Nat) (members : List Nat) (s : State) : Ans :=
  .next (
    let k : ExtKey := (nsid, extent)
    let whole := s.fls.dirtyExt.contains k
    let us := if whole then List.range 4096 else s.dirtyOf k
    if us.isEmpty then s
    else if s.fls.free < 8192 && !s.fls.readOnly then ctrAdd .flashDestageWaitsForGarbageCollection 0 1 s
    else
      let fine := (s.extent? k).any fun e => match e.map with | .fine _ => true | _ => false
      let full := !fine && us.length < 4096 && s.fineMaps ≥ 1048576
      let coarse := us.length == 4096 || full
      let need := if coarse then 4096 else us.length
      match openTarget group members (s.sourceOf k) (!coarse) s.fls.readOnly need s with
      | none => s
      | some s1 =>
        let at_ := ((s1.group? group).map (·.used)).getD 0
        let s2 := startProgram group { key := k, coarse, at_, units := if coarse then List.range 4096 else us, cached := true } need s1
        let s3 := s2.modFls fun x =>
          { x with dirty := x.dirty.filter fun u => !(u.1 == nsid && u.2 / 4096 == extent), dirtyExt := x.dirtyExt.erase k,
                   inFlight := x.inFlight ++ if whole then [] else us.map fun u => (nsid, extent * 4096 + u) }
        if full then ctrAdd .flashFullPoolRewrites 0 1 s3 else s3)

/-! ### Program and erase failures (R370, R371) -/

/-- PROGRAM_FAILURE (R370): the failed member leaves its group, everything that has a page in it is copied to a new open group from
the parity and the good pages, and it joins the bad blocks. The pages rebuilt are a free count (log 3). -/
def execProgramFailure (block : Nat) (target : Nat) (members : List Nat) (s : State) : Ans :=
  .next (match (s.block block).group.bind s.group? with
    | none => s
    | some g =>
      if g.programming.isEmpty || (s.block block).state != .openB then s
      else match openTarget target members g.source g.fine true g.used s with
        | none => s
        | some s1 =>
          if target = g.id then s
          else
            let es := s1.extentsIn g.id
            let d := draw s1
            -- programs under way restart in the target; what is mapped is redirected to its new copy
            let at_ := ((s1.group? target).map (·.used)).getD 0
            let s2 := (g.programming.foldl (fun s p => startProgram target { p with at_ := at_ + p.at_ } 0 s) d.2)
            let move (m : ExtMap) : ExtMap := match m with
              | .coarse h a => if h = g.id then .coarse target (at_ + a) else m
              | .fine us => .fine (us.map fun u => if u.2.1 = g.id then (u.1, target, at_ + u.2.2) else u)
            let s3 := es.foldl (fun s e => putExtent { e with map := move e.map } s) s2
            let s4 := modGroup target (fun t => { t with used := t.used + g.used }) s3
            let s5 := modGroup g.id (fun x => { x with members := x.members.erase block, programming := [] }) (endProgram g s4)
            reportCor 3 (dieOf block) 0x08 (growBad block (ctrAdd .flashPagesRebuiltFromParity 0 (d.1.toNat % 3072) s5)))

/-- The operation under way on a die, when it erases a block. -/
def State.erasing (s : State) (block : Nat) : Bool := (s.die (dieOf block)).busy.any fun o => o.erase && o.block == block

/-- A die becomes idle. -/
def idleDie (d : Nat) (s : State) : State := modDie d (fun x => { x with busy := none }) s

/-- ERASE_FAILURE (R371). -/
def execEraseFailure (block : Nat) (s : State) : Ans :=
  .next (if !s.erasing block then s else reportCor 3 (dieOf block) 0x09 (growBad block (idleDie (dieOf block) s)))

/-- BLOCK_ERASE (R367, R380): a STALE block is erased once every read that resolved to it has completed, on an idle die that is not
being retired, within the limit of the throttle level (16 R452). -/
def execBlockErase (block : Nat) (s : State) : Ans :=
  .next (
    let b := s.block block
    let d := s.die (dieOf block)
    if b.state != .stale || b.pendingReads != 0 || d.busy.isSome || d.retiring || d.retired || !s.diesMayWork [dieOf block] then s
    else modDie (dieOf block) (fun x => { x with busy := some { block, erase := true } }) (modBlock block (fun x => { x with state := .erasing }) s))

/-- ERASE_COMPLETE (R375, R377): the block is FREE with a read count of 0, or RETIRED on a die being retired. -/
def execEraseComplete (block : Nat) (s : State) : Ans :=
  .next (if !s.erasing block || (s.block block).state != .erasing then s
    else
      let s1 := idleDie (dieOf block) s
      if (s.die (dieOf block)).retiring then modBlock block (fun x => { x with state := .retired }) s1
      else (modBlock block (fun x => { x with state := .free, reads := 0, verified := false }) s1).modFls fun x =>
        { x with free := x.free + 1, peCycles := x.peCycles + 1 })

/-- ERASE_RESUME (R377, R378): the reads that the suspend serves have ended. -/
def execEraseResume (die : Nat) (s : State) : Ans :=
  .next (match (s.die die).busy with
    | none => s
    | some o =>
      if !o.suspended || o.batch != 0 then s
      else
        let s1 := modDie die (fun d => { d with busy := some { o with suspended := false } }) s
        if o.erase then modBlock o.block (fun x => { x with state := .erasing }) s1 else s1)

/-! ### Verification and parity (R363 to R365) -/

/-- BLOCK_VERIFY (R364, R369, R372, R376): a closed member is verified; bad pages are rebuilt and rewritten, and the block goes bad after
its data has moved; iterations above the limit queue it for refresh. With the last member the parity is discarded and the sources
are let go. -/
def execBlockVerify (block : Nat) (badPages : Nat) (overLimit : Bool) (s : State) : Ans :=
  .next (match (s.block block).group.bind s.group? with
    | none => s
    | some g =>
      let b := s.block block
      if b.state != .closed || b.verified then s
      else
        let s1 := modBlock block (fun x => { x with verified := true, grown := x.grown || badPages != 0 }) s
        let s2 := if badPages ≠ 0 ∨ overLimit then queueRefresh block (ctrAdd .flashPagesRebuiltFromParity 0 badPages s1) else s1
        if g.members.all fun m => (s2.block m).verified then sweep (modGroup g.id (fun x => { x with parity := false, spilled := false, sources := [] }) s2)
        else s2)

/-- PARITY_SPILL (R365): the region would exceed 4 GiB, and the parity of the open group least recently programmed goes to the SLC area
as class M traffic. -/
def execParitySpill (group : Nat) (s : State) : Ans :=
  .next (match s.group? group with
    | none => s
    | some g =>
      if !g.open_ || g.spilled || !g.parity || sumN (s.fls.groups.map Group.parityBytes) + 22 * 16384 ≤ 4294967296 ||
         s.fls.groups.any (fun h => h.open_ && h.parity && !h.spilled && h.stamp < g.stamp) then s
      else spillParity g s)

/-! ### Retiring a die (R380 to R382) -/

/-- The blocks of a die. -/
def blocksOf (die : Nat) : List Nat := (List.range 10920).map (· + 10920 * die)

/-- Good blocks of a die: those that are not bad. -/
def State.goodBlocks (s : State) (die : Nat) : Nat := 10920 - (s.fls.blocks.filter fun b => dieOf b.id == die && b.state == .bad).length

/-- FREE blocks of a die. -/
def State.freeOn (s : State) (die : Nat) : Nat := 10920 - (s.fls.blocks.filter fun b => dieOf b.id == die && b.state != .free).length

/-- A unit of an extent lies on a die. -/
def State.unitOn (s : State) (die : Nat) (e : Extent) (u : Nat) : Bool :=
  ((e.map.slot u).bind fun p => (s.group? p.1).map fun g => dieOf (g.place p.2).1).any (· == die)

/-- The extents with a page on a die. -/
def State.extentsOn (s : State) (die : Nat) : List Extent := s.fls.extents.filter fun e => (List.range 4096).any (s.unitOn die e)

/-- A retirement begins (R380): no further program or erase; open groups with a member on the die are closed where they are; blocks
without valid data are RETIRED; the spares fall by the die's good blocks. -/
def startRetire (die : Nat) (src : Option Src) (s : State) : State :=
  let ext := (s.extentsOn die).length
  let good := s.goodBlocks die
  let free := s.freeOn die
  let s1 := modDie die (fun d => { d with retiring := true }) s
  let open_ := s1.fls.groups.filter fun g => g.open_ && g.members.any fun b => dieOf b == die
  let s2 := open_.foldl (fun s g => closeGroup g s) s1
  let s3 := s2.modFls fun x =>
    { x with blocks := (x.blocks.filter fun b => dieOf b.id != die) ++ (blocksOf die).map fun b =>
        let r := s2.block b
        if r.state == .free || r.state == .stale then { r with state := .retired } else r }
  checkSpares (s3.modFls fun x => { x with free := x.free - free, spares := x.spares - good, retire := x.retire ++ [(die, src, ext)] })

/-- RETIRE_NAND_DIE (SERVICE 0x04: 04 R132; 12 R380). A die that is leaving is not yet retired: the command waits for the same end
(DEDUCED, log 50). -/
def execRetireNandDie (a : Admin) (s : State) : Ans :=
  if bits a.cdw10.toNat 7 0 ≠ 4 then .next s
  else runAdmin 0xC5 a.src false (fun s =>
    orFail (serviceGate a 4 false s) fun _ =>
      let d := a.cdw11.toNat
      if d > 511 then .error St.invalidField
      else if (s.die d).retired then .error St.serviceRefused
      else match s.fls.retire.find? (·.1 == d) with
      | some r => .ok (s.modFls fun x => { x with retire := x.retire ++ [(d, some a.src, r.2.2)] })
      | none =>
      if s.fls.spares < s.goodBlocks d then .error St.serviceRefused
      else .ok (startRetire d (some a.src) s)) s

/-- The die that a substitute comes from (R380): the same channel first, then the most FREE blocks, then the lowest number. -/
def State.substituteDie (s : State) (die : Nat) : Option Nat :=
  let c := (List.range 512).filter fun d => d != die && !(s.die d).retiring && !(s.die d).retired && s.freeOn d > 0
  let same := c.filter fun d => channelOf d == channelOf die
  (if same.isEmpty then c else same).foldl (fun (o : Option Nat) d => match o with
    | none => some d
    | some b => if s.freeOn d > s.freeOn b then some d else some b) none

/-- A closed block of a retiring die is replaced in its group by a verified substitute, in one update; its 48 MiB are read and written as
class M traffic (R380). -/
def substitute (b : Nat) (s : State) : State :=
  match s.substituteDie (dieOf b) with
  | none => s
  | some d => match (blocksOf d).find? fun x => (s.block x).state == .free with
    | none => s
    | some n =>
      let g := (s.block b).group
      let s0 := countClass d 4 50331648 (countClass (dieOf b) 4 50331648 s)
      let s1 := modBlock n (fun x => { x with state := .closed, group := g, verified := true }) s0
      let s2 := modBlock b (fun x => { x with state := .retired, group := none }) s1
      s2.modFls fun x =>
        { x with free := x.free - 1, refreshQ := delN b x.refreshQ,
                 groups := updIf (fun h => some h.id == g) (fun h => { h with members := h.members.map fun m => if m = b then n else m }) x.groups }

/-- DIE_RETIREMENT_END (R380, R381): every closed block has been replaced; the die is retired, its event is raised and SERVICE
completes. -/
def execDieRetirementEnd (die : Nat) (s : State) : Ans :=
  .next (match s.fls.retire.find? (·.1 == die) with
    | none => s
    | some _ =>
      let s1 := (s.fls.blocks.filter fun b => dieOf b.id == die && b.state == .closed).foldl (fun s b => substitute b.id s) s
      if s1.fls.blocks.any fun b => dieOf b.id == die && b.state != .retired && b.state != .bad then s
      else
        let s2 := reportCor 3 die 0x0E (raise 0x007 (BitVec.ofNat 32 die) ((modDie die (fun d => { d with retiring := false, retired := true }) s1).modFls
          fun x => { x with retire := x.retire.filter (·.1 != die) }))
        (s.fls.retire.filter (·.1 == die)).foldl (fun t r => match r.2.1 with
          | some a => ok a r.2.2 0 t
          | none => t) s2)

/-- The grown bad blocks of a die. -/
def State.grownOn (s : State) (die : Nat) : Nat := (s.fls.blocks.filter fun b => dieOf b.id == die && b.grown && b.state == .bad).length

/-- The units of an extent on a die are lost: an uncorrectable entry for the extent, and Critical Warning bit 2 (R382). -/
def loseExtent (die : Nat) (e : Extent) (s : State) : State :=
  let gone := (List.range 4096).filter (s.unitOn die e)
  reportUnc (nandEntry die 0x0C) ((putExtent { e with lost := nubN (e.lost ++ gone) } s).modFls fun x => { x with dataLost := true })

/-- DIE_AUTO_RETIRE (R382): the module retires a die that holds more than 1,092 grown bad blocks, or that no longer responds; the
pages of a die that does not respond cannot be read, and their units are lost. -/
def execDieAutoRetire (die : Nat) (s : State) : Ans :=
  .next (
    if die > 511 || (s.die die).retiring || (s.die die).retired then s
    else if s.grownOn die > 1092 then startRetire die none s
    else (s.extentsOn die).foldl (fun s e => loseExtent die e s) (startRetire die none s))

end Sys2Proof.Machine
end

