-- ==== Sys2Proof/Machine/Nvm.lean ====
section
/-! DEFINITION. The NVM I/O commands, the write cache, and the ends of flash reads and programs (04 R109, R111; 12 R355, R356, R367,
R373, R374, R377 to R379; 16 R463). -/

namespace Sys2Proof.Machine

open Sys2Proof

/-! ### Namespaces and blocks -/

/-- A block namespace. -/
def State.ns? (s : State) (n : Nat) : Option Ns := s.fls.nss.find? (·.nsid == n)

/-- Update a block namespace. -/
def modNs (n : Nat) (f : Ns → Ns) (s : State) : State := s.modFls fun x => { x with nss := updIf (·.nsid == n) f x.nss }

/-- Bytes of a logical block (Table 4-1). -/
def Ns.blockBytes (n : Ns) : Nat := if n.fmt = 0 then 4096 else 512

namespace St
/-- LBA Out of Range (log 14). -/
def lbaRange : Fail := { sct := 0, sc := 0x80 }
/-- Format In Progress (04 R145; log 14). -/
def formatBusy : Fail := { sct := 0, sc := 0x84 }
/-- Unrecovered Read Error (12 R367): Status Code Type 2, 0x81. -/
def unrecoveredRead : Fail := { sct := 2, sc := 0x81 }
end St

/-- The namespace of a command and its checks: NSID, attachment, a running format or sanitize, and the block range (R111, R145). A block
namespace that does not exist or is not attached is inactive: Invalid Field in Command (log 14). -/
def nvmCheck (fn : Nat) (nsid slba count : Nat) (s : State) : Except Fail Ns :=
  if nsid = 257 then .error St.invalidOpcode
  else match s.ns? nsid with
    | none => .error (if 1 ≤ nsid ∧ nsid ≤ 256 then St.invalidField else St.invalidNamespace)
    | some n =>
      if !n.attached.contains fn then .error St.invalidField
      else if s.sanitizing then .error St.sanitizeBusy
      else if n.busy then .error St.formatBusy
      else if slba + count > n.size then .error St.lbaRange
      else .ok n

/-- An NVM command is executed: its entry was fetched from an I/O queue. -/
def nvmRuns (src : Src) (s : State) : Bool := src.sq != 0 && s.has src

/-- Run an NVM command: its entry is taken; a failure is a status without a log entry, and no queue freezes (04 R136). -/
def runNvm (opcode : Nat) (n : Nvm) (own : State → Except Fail State) (s : State) : Ans :=
  if n.src.sq = 0 then .next s
  else taken n.src opcode 0xFFFF (fun s => match own s with
    | .ok t => t
    | .error f => refuse n.src f s) s

/-- Blocks of a command: the count is 0's based. -/
def blockCount (n : Nvm) : Nat := n.nlb.toNat + 1

/-- The 4 KiB units that blocks touch, and those that they cover (R356). -/
def Ns.units (n : Ns) (slba count : Nat) : List Nat :=
  if count = 0 then [] else
  let a := slba * n.blockBytes / 4096
  let b := ((slba + count) * n.blockBytes - 1) / 4096
  (List.range (b + 1 - a)).map (· + a)

/-- A unit lies wholly within blocks. -/
def Ns.covers (n : Ns) (slba count u : Nat) : Bool := slba * n.blockBytes ≤ u * 4096 && (u + 1) * 4096 ≤ (slba + count) * n.blockBytes

/-! ### Reads (R367, R377 to R379) -/

/-- The suspends that an operation may take (R377, R378). -/
def DieOp.limit (o : DieOp) : Nat := if o.erase then 8 else 4

/-- Suspend the operation under way on a die for the reads queued (R377, R378). -/
def suspendOp (die : Nat) (o : DieOp) (s : State) : State :=
  let n := Nat.min 16 (s.die die).queued.length
  let s1 := modDie die (fun d => { d with busy := some { o with suspends := o.suspends + 1, suspended := true, batch := n } }) s
  if o.erase then ctrAdd .flashEraseSuspends 0 1 (modBlock o.block (fun x => { x with state := .eraseSuspended }) s1)
  else ctrAdd .flashProgramSuspends 0 1 s1

/-- A read is sent towards its die: it suspends what the die does, or waits for its end (R377, R378). A page that waits already is read
once. -/
def sendRead (block page : Nat) (s : State) : State :=
  let d := dieOf block
  if (s.die d).queued.contains (block, page) then s else
  let s1 := modDie d (fun x => { x with queued := x.queued ++ [(block, page)] })
    (modBlock block (fun b => { b with pendingReads := b.pendingReads + 1 }) s)
  match (s.die d).busy with
  | none => s1
  | some o =>
    if o.suspended then s1
    else if o.suspends < o.limit then suspendOp d o s1
    else ctrAdd .flashReadsThatWaitedForAFullEraseOrProgram 0 1 s1

/-- The bytes of a read. -/
def readBytes (r : NvmRead) (s : State) : List Byte := match s.ns? r.nsid with
  | some n => memRead n.data (r.first * n.blockBytes) (r.count * n.blockBytes)
  | none => []

/-- A read completes: its data goes to the host, or in quiesce is parked (03 R100); a failed one returns Unrecovered Read Error. -/
def endRead (r : NvmRead) (s : State) : State :=
  let s1 := s.modFls fun x => { x with reads := x.reads.filter (·.src != r.src) }
  if r.failed then refuse r.src St.unrecoveredRead s1
  else if r.verify then ok r.src 0 0 s1
  else if s.hb.quiesced then
    ok r.src 0 0 (ctrAdd .schedParkedAnswers 0 1 (s1.modHb fun h =>
      { h with parked := h.parked ++ [{ src := r.src, dome := 0, outObj := false, addr := r.addr, out := readBytes r s }] }))
  else ok r.src 0 0 (writeT2 r.addr (readBytes r s) s1)

/-- The flash pages that a read of units needs: those not in the write cache and mapped. -/
def State.flashPages (s : State) (nsid : Nat) (us : List Nat) : List (Nat × Nat) :=
  (us.filter fun u => !s.fls.dirty.contains (nsid, u) && !s.fls.inFlight.contains (nsid, u)).filterMap fun u =>
    s.locate (nsid, u / 4096) (u % 4096)

/-- A unit that has been lost, and has no newer copy in the cache (R382). -/
def State.lostUnit (s : State) (nsid u : Nat) : Bool :=
  !s.fls.dirty.contains (nsid, u) && !s.fls.inFlight.contains (nsid, u) && (s.extent? (nsid, u / 4096)).any fun e => e.lost.contains (u % 4096)

/-- Pages without repeats. -/
def nubPages : List (Nat × Nat) → List (Nat × Nat)
  | [] => []
  | a :: r => a :: (nubPages r).filter (· != a)

/-- A read of blocks begins (R367): a lost unit fails it; the guard stops a page whose block allows no mapped data; the other pages are
read. -/
def beginRead (n : Nvm) (x : Ns) (verify : Bool) (s : State) : State :=
  let us := x.units n.slba.toNat (blockCount n)
  let ps := nubPages (s.flashPages x.nsid us)
  let bad := ps.filter fun p => !(s.block p.1).readable
  let r : NvmRead := { src := n.src, nsid := x.nsid, first := n.slba.toNat, count := (blockCount n), addr := n.dptr.toNat, verify, waits := ps }
  if us.any (s.lostUnit x.nsid) then
    endRead { r with failed := true } (s.modFls fun x => { x with mediaErrors := x.mediaErrors + 1 })
  else if !bad.isEmpty then
    endRead { r with failed := true } (bad.foldl (fun s p => guarded (dieOf p.1) s) (s.modFls fun x => { x with mediaErrors := x.mediaErrors + 1 }))
  else if ps.isEmpty then endRead r s
  else ps.foldl (fun s p => sendRead p.1 p.2 s) (s.modFls fun x => { x with reads := x.reads ++ [r] })

/-- READ (04 Table 4-1; 12 R354, R356, R367). -/
def execRead (n : Nvm) (s : State) : Ans :=
  runNvm 0x02 n (fun s => match nvmCheck n.src.fn n.nsid.toNat n.slba.toNat (blockCount n) s with
    | .error f => .error f
    | .ok x => .ok (beginRead n x false s)) s

/-- VERIFY (04 Table 4-1): the blocks are read and checked, and no data is returned. -/
def execVerify (n : Nvm) (s : State) : Ans :=
  runNvm 0x0C n (fun s => match nvmCheck n.src.fn n.nsid.toNat n.slba.toNat (blockCount n) s with
    | .error f => .error f
    | .ok x => .ok (beginRead n x true s)) s

/-- The read of a page may complete: its die is idle, or its suspend serves it (R377, R378). A read that waited for a resumed operation
suspends it again. -/
def serveRead (block page : Nat) (s : State) : Option State :=
  let d := dieOf block
  match (s.die d).busy, (s.die d).queued.findIdx? (· == (block, page)) with
  | _, none => some s
  | none, some _ => some s
  | some o, some i =>
    if o.suspended then (if i < o.batch then some (modDie d (fun x => { x with busy := some { o with batch := o.batch - 1 } }) s) else none)
    else if o.suspends < o.limit then
      let t := suspendOp d o s
      if i < 16 then some (modDie d (fun x => { x with busy := x.busy.map fun o => { o with batch := o.batch - 1 } }) t) else some t
    else none

/-- A copy that is not verified yet is served again from its source (R369). -/
def State.hasSource (s : State) (block : Nat) : Bool :=
  (((s.block block).group.bind s.group?)).any fun g => !g.sources.isEmpty

/-- FLASH_READ_COMPLETE (12 R369, R372, R375, R376, R379; 14 R414, R417): a page read ends: it counts against its block, adds to the decoder
statistics, and releases the commands that wait for it. -/
def execFlashReadComplete (block page : Nat) (r : ReadEnd) (iterations : Nat) (updown : List (Nat × Nat)) (s : State) : Ans :=
  .next (
    let waited := s.fls.reads.any fun x => x.waits.contains (block, page)
    let sampled := !waited && (s.rdGroup (blockGroup block)).sample.isSome
    if !waited && !(s.block block).readable then s
    else match serveRead block page s with
      | none => s
      | some s0 =>
        let back := readFailed r && waited && s.hasSource block
        let s1 := countRead block 1 (countClass (dieOf block) (if sampled then 4 else 0) 4096 s0)
        let s2 := modDie (dieOf block) (fun d => { d with queued := d.queued.erase (block, page) })
          (modBlock block (fun b => { b with pendingReads := b.pendingReads - b2n waited }) s1)
        let s3 := noteRead block sampled r iterations updown (if back then ctrAdd .flashSourceFallbackReads 0 1 s2 else readEnd r s2)
        let s4 := readBlock block r s3
        let s5 := s4.modFls fun x => { x with reads := x.reads.map fun q => if q.waits.contains (block, page) then
          { q with waits := q.waits.erase (block, page), failed := q.failed || (readFailed r && !back), begun := true } else q }
        (s5.fls.reads.filter fun q => q.waits.isEmpty).foldl (fun s q => endRead q s) s5)

/-! ### Writes and the write cache (16 R463) -/

/-- Units that the write cache holds (16 R462). -/
def State.cacheUnits (s : State) : Nat := s.fls.cacheMiB * 256

/-- The write cache takes the units of a write: those it holds already, and new ones while there is room and no shrink is under way. -/
def State.cacheTakes (s : State) (nsid : Nat) (us : List Nat) : Bool :=
  let new := us.filter fun u => !s.fls.dirty.contains (nsid, u)
  new.isEmpty || (s.fls.cacheTarget.isNone && s.cacheUsed + new.length ≤ s.cacheUnits)

/-- Data goes to the write cache: it is what reads return from now on, and its units are dirty. -/
def cacheWrite (nsid off : Nat) (bs : List Byte) (us : List Nat) (s : State) : State :=
  (modNs nsid (fun x => { x with data := memPut x.data off bs }) s).modFls fun x =>
    { x with dirty := x.dirty ++ (us.filter fun u => !x.dirty.contains (nsid, u)).map fun u => (nsid, u) }

/-- The rest of a unit that a write covers in part, and that only flash holds, is read first (R356). -/
def readRest (n : Nvm) (x : Ns) (s : State) : State :=
  let us := (x.units n.slba.toNat (blockCount n)).filter fun u => !x.covers n.slba.toNat (blockCount n) u
  (s.flashPages x.nsid us).foldl (fun s p => countRead p.1 1 (countClass (dieOf p.1) 0 4096 s)) s

/-- A Write that can be taken now: it completes, or with no cache waits for its program (16 R463). -/
def takeWrite (n : Nvm) (x : Ns) (s0 : State) : Option State :=
  let s := readRest n x s0
  let us := x.units n.slba.toNat (blockCount n)
  let bytes := padTo n.input ((blockCount n) * x.blockBytes)
  if s.cacheUnits = 0 then
    some ((cacheWrite x.nsid (n.slba.toNat * x.blockBytes) bytes us s).modFls fun f => { f with writes := f.writes ++ [{ n, programmed := true }] })
  else if s.cacheTakes x.nsid us then some (ok n.src 0 0 (cacheWrite x.nsid (n.slba.toNat * x.blockBytes) bytes us s))
  else none

/-- WRITE (04 Table 4-1; 12 R374; 16 R463). -/
def execWrite (n : Nvm) (s : State) : Ans :=
  runNvm 0x01 n (fun s => match nvmCheck n.src.fn n.nsid.toNat n.slba.toNat (blockCount n) s with
    | .error f => .error f
    | .ok x =>
      if s.readOnly then .error St.writeProtected
      else match takeWrite n x s with
        | some t => .ok t
        | none => .ok (s.modFls fun f => { f with writes := f.writes ++ [{ n, programmed := false }] })) s

/-- The Writes that wait go on, in their order: those whose units are in flash complete, and those that find cache space are taken. -/
def pumpOne (w : WriteWait) (s : State) : State :=
  let gone (s : State) : State := s.modFls fun f => { f with writes := f.writes.erase w }
  match s.ns? w.n.nsid.toNat with
  | none => refuse w.n.src St.invalidNamespace (gone s)
  | some x =>
    if w.programmed then
      (if s.settledWrite ((x.units w.n.slba.toNat (blockCount w.n)).map fun u => (x.nsid, u)) then ok w.n.src 0 0 (gone s) else s)
    else match takeWrite w.n x (gone s) with
      | some t => t
      | none => s

/-- All the Writes that wait, in order. -/
def pumpWrites (s : State) : State := s.fls.writes.foldl (fun s w => pumpOne w s) s

/-- NAND_PROGRAM_COMPLETE (12 R357, R358, R369; 16 R463): a group's programs have ended: their units are mapped, and a full group is
closed. -/
def execNandProgramComplete (group : Nat) (pages : Nat) (s : State) : Ans :=
  .next (match s.group? group with
    | none => s
    | some g =>
      if g.programming.isEmpty then s
      else
        let s1 := g.programming.foldl (fun s p => mapProg group p s) (endProgram g s)
        let s2 := modGroup group (fun x => { x with programming := [], stamp := s.fls.programs + 1 }) (s1.modFls fun x => { x with programs := x.programs + 1 })
        pumpWrites (sweep (closeFull group (countProgram g pages s2))))

/-- FLUSH (04 Table 4-1): it completes without further media work. -/
def execFlush (n : Nvm) (s : State) : Ans :=
  runNvm 0x00 n (fun s =>
    if n.nsid.toNat = 0xFFFFFFFF then .ok (ok n.src 0 0 s)
    else match nvmCheck n.src.fn n.nsid.toNat 0 0 s with
      | .error f => .error f
      | .ok _ => .ok (ok n.src 0 0 s)) s

/-! ### Deallocation (R356, R358, R360) -/

/-- Units of an extent without a map entry any longer: a whole extent is UNMAPPED, a part is marked in a fine map; an extent left with
no unit becomes UNMAPPED (R356, R360). -/
def unmapUnits (k : ExtKey) (us : List Nat) (s : State) : State :=
  match s.extent? k with
  | none => s
  | some e =>
    let left : List (Nat × Nat × Nat) := match e.map with
      | .coarse g a => ((List.range 4096).filter fun u => !us.contains u).map fun u => (u, g, a + u)
      | .fine l => l.filter fun u => !us.contains u.1
    if left.isEmpty then unmapExtent k s
    else putExtent { e with map := .fine left, lost := e.lost.filter fun u => !us.contains u } s

/-- Deallocate blocks (R356): they read as zeros. Units wholly covered leave the cache and the map; the rest of a unit that is only
partly covered, and units for which no fine map is free, are written as zeros. -/
def deallocate (x : Ns) (slba count : Nat) (s : State) : State :=
  let us := x.units slba count
  let whole := us.filter (x.covers slba count)
  let exts := nubN (whole.map (· / 4096))
  let room (s : State) (e : Nat) : Bool :=
    s.fineMaps < 1048576 || (whole.filter (· / 4096 == e)).length == 4096 ||
    (s.extent? (x.nsid, e)).all fun r => match r.map with | .fine _ => true | _ => false
  let s1 := modNs x.nsid (fun n => { n with data := memClear n.data (slba * x.blockBytes) (count * x.blockBytes) }) s
  let s2 := exts.foldl (fun s e =>
    let part := (whole.filter (· / 4096 == e))
    if room s e then
      (unmapUnits (x.nsid, e) (part.map (· % 4096)) s).modFls fun f => { f with dirty := f.dirty.filter fun u => !(u.1 == x.nsid && part.contains u.2) }
    else s.modFls fun f => { f with dirty := f.dirty ++ (part.filter fun u => !f.dirty.contains (x.nsid, u)).map fun u => (x.nsid, u) }) s1
  let edge := us.filter fun u => !x.covers slba count u
  sweep (s2.modFls fun f => { f with dirty := f.dirty ++ (edge.filter fun u => !f.dirty.contains (x.nsid, u)).map fun u => (x.nsid, u) })

/-- WRITE_ZEROES (12 R356, R374). -/
def execWriteZeroes (n : Nvm) (s : State) : Ans :=
  runNvm 0x08 n (fun s => match nvmCheck n.src.fn n.nsid.toNat n.slba.toNat (blockCount n) s with
    | .error f => .error f
    | .ok x => if s.readOnly then .error St.writeProtected else .ok (ok n.src 0 0 (deallocate x n.slba.toNat (blockCount n) s))) s

/-- The ranges of Dataset Management: start and count, from the 16-byte entries of its input (PRESUMED: NVM Express; log 14). -/
def dsmRanges (n : Nvm) : List (Nat × Nat) :=
  (List.range (bits n.cdw10.toNat 7 0 + 1)).map fun i => (le n.input (16 * i + 8) 8, le n.input (16 * i + 4) 4)

/-- DATASET_MANAGEMENT (12 R356, R374): deallocate; another attribute changes nothing. -/
def execDatasetManagement (n : Nvm) (s : State) : Ans :=
  runNvm 0x09 n (fun s =>
    match nvmCheck n.src.fn n.nsid.toNat 0 0 s with
    | .error f => .error f
    | .ok x =>
      if !bit n.cdw11.toNat 2 then .ok (ok n.src 0 0 s)
      else if s.readOnly then .error St.writeProtected
      else if (dsmRanges n).any fun r => r.1 + r.2 > x.size then .error St.lbaRange
      else .ok (ok n.src 0 0 ((dsmRanges n).foldl (fun s r => deallocate x r.1 r.2 s) s))) s

end Sys2Proof.Machine
end

