-- ==== Sys2Proof/Machine/Numbers.lean ====
section
/-! DEFINITION. Numbers: binary16 and binary32 as bits with exact values behind them, and the narrow codes, scales and rounding of
the quantiser (06 R180 to R199; 08 R238). A finite value is ± mant × 2^exp. -/

namespace Sys2Proof.Machine

open Sys2Proof

/-- A binary format: precision in bits, the exponent of its smallest unit, and the bits of +∞. -/
structure Fmt where
  p : Nat
  emin : Int
  inf : Nat

/-- binary16. -/
def f16 : Fmt := ⟨11, -24, 0x7C00⟩
/-- binary32. -/
def f32 : Fmt := ⟨24, -149, 0x7F800000⟩

/-- binary64. -/
def f64 : Fmt := ⟨53, -1074, 0x7FF0000000000000⟩

/-- The bits of a format's sign. -/
def Fmt.sign (f : Fmt) : Nat := if f.p = 11 then 0x8000 else if f.p = 53 then 2 ^ 63 else 0x80000000
/-- The magnitude bits. -/
def Fmt.mag (f : Fmt) (x : Nat) : Nat := x % f.sign
/-- The value is below zero, or is −0. -/
def Fmt.neg (f : Fmt) (x : Nat) : Bool := x / f.sign % 2 == 1
/-- NaN. -/
def Fmt.nan (f : Fmt) (x : Nat) : Bool := f.mag x > f.inf
/-- ±∞. -/
def Fmt.isInf (f : Fmt) (x : Nat) : Bool := f.mag x == f.inf
/-- Neither NaN nor ±∞. -/
def Fmt.fin (f : Fmt) (x : Nat) : Bool := f.mag x < f.inf
/-- The exponent field. -/
def Fmt.field (f : Fmt) (x : Nat) : Nat := f.mag x / 2 ^ (f.p - 1)
/-- The integer mantissa of a finite value. -/
def Fmt.mant (f : Fmt) (x : Nat) : Nat := f.mag x % 2 ^ (f.p - 1) + (if f.field x = 0 then 0 else 2 ^ (f.p - 1))
/-- The exponent of a finite value's unit. -/
def Fmt.exp (f : Fmt) (x : Nat) : Int := if f.field x = 0 then f.emin else f.emin + (f.field x : Int) - 1

/-- 2 to an integer power as a fraction. -/
def pow2n (e : Int) : Nat := if e < 0 then 1 else 2 ^ e.toNat
/-- The denominator of 2 to an integer power. -/
def pow2d (e : Int) : Nat := if e < 0 then 2 ^ (-e).toNat else 1

/-- ⌊log2 (n ÷ d)⌋ for n, d above 0. -/
def log2Frac (n d : Nat) : Int :=
  let k : Int := (Nat.log2 n : Int) - (Nat.log2 d : Int)
  if n * pow2d k < d * pow2n k then k - 1 else k

/-- The exponent of the last place of a positive value n ÷ d in a format. -/
def Fmt.unit (f : Fmt) (n d : Nat) : Int := max (log2Frac n d - (f.p - 1 : Nat)) f.emin

/-- n ÷ d rounded to the nearest integer, ties to even. -/
def rnNat (n d : Nat) : Nat :=
  let q := n / d
  let r := n % d
  if 2 * r < d then q else if 2 * r = d then (if q % 2 = 0 then q else q + 1) else q + 1

/-- The magnitude bits of n ÷ d × 2^e rounded to nearest, ties to even (R189); ∞ beyond the range. -/
def Fmt.rn (f : Fmt) (n d : Nat) (e : Int) : Nat :=
  if n = 0 then 0
  else
    let a := n * pow2n e
    let b := d * pow2d e
    let u := f.unit a b
    let r := (u - f.emin).toNat * 2 ^ (f.p - 1) + rnNat (a * pow2d u) (b * pow2n u)
    if r ≥ f.inf then f.inf else r

/-- The magnitude bits of n ÷ d × 2^e rounded upward. -/
def Fmt.up (f : Fmt) (n d : Nat) (e : Int) : Nat :=
  if n = 0 then 0
  else
    let a := n * pow2n e
    let b := d * pow2d e
    let u := f.unit a b
    let r := (u - f.emin).toNat * 2 ^ (f.p - 1) + ceilDiv (a * pow2d u) (b * pow2n u)
    if r ≥ f.inf then f.inf else r

/-- Bits with a sign. -/
def Fmt.signed (f : Fmt) (neg : Bool) (m : Nat) : Nat := if neg then f.sign + m else m

/-- The NaN that an operation gives: its payload is open (log 25). -/
def nan32 : Nat := 0x7F800001 + Config.nanPayload % 0x7FFFFF

/-- The signed integer of a finite value in units of 2^emin of binary32. -/
def int32 (x : Nat) : Int :=
  let v : Int := (f32.mant x * 2 ^ (f32.exp x - f32.emin).toNat : Nat)
  if f32.neg x then -v else v

/-- A signed integer times 2^e, over d, rounded to binary32. -/
def rn32 (v : Int) (d : Nat) (e : Int) : Nat := f32.signed (v < 0) (f32.rn v.natAbs d e)

/-- binary32 addition (R238). -/
def add32 (x y : Nat) : Nat :=
  if f32.nan x || f32.nan y then nan32
  else if f32.isInf x then (if f32.isInf y && f32.neg x != f32.neg y then nan32 else x)
  else if f32.isInf y then y
  else
    let v := int32 x + int32 y
    if v = 0 then (if f32.neg x && f32.neg y then 0x80000000 else 0) else rn32 v 1 f32.emin

/-- A binary32 value that is not NaN, as binary64, exactly. -/
def to64 (x : Nat) : Nat :=
  f64.signed (f32.neg x) (if f32.isInf x then f64.inf else f64.rn (f32.mant x) 1 (f32.exp x))

/-- The NaN that an operation in binary64 gives (log 25). -/
def nan64 : Nat := 0x7FF0000000000001 + Config.nanPayload % 0xFFFFFFFFFFFFF

/-- The signed integer of a finite binary64 value in units of 2^emin. -/
def int64 (x : Nat) : Int :=
  let v : Int := (f64.mant x * 2 ^ (f64.exp x - f64.emin).toNat : Nat)
  if f64.neg x then -v else v

/-- binary64 addition (11 R348). -/
def add64 (x y : Nat) : Nat :=
  if f64.nan x || f64.nan y then nan64
  else if f64.isInf x then (if f64.isInf y && f64.neg x != f64.neg y then nan64 else x)
  else if f64.isInf y then y
  else
    let v := int64 x + int64 y
    if v = 0 then (if f64.neg x && f64.neg y then 2 ^ 63 else 0) else f64.signed (v < 0) (f64.rn v.natAbs 1 f64.emin)

/-- The other sign. -/
def neg32 (x : Nat) : Nat := if f32.neg x then f32.mag x else x + 0x80000000

/-- binary32 subtraction (R238). -/
def sub32 (x y : Nat) : Nat := if f32.nan y then nan32 else add32 x (neg32 y)

/-- binary32 multiplication (R238). -/
def mul32 (x y : Nat) : Nat :=
  let n := f32.neg x != f32.neg y
  if f32.nan x || f32.nan y then nan32
  else if f32.isInf x || f32.isInf y then (if f32.mag x = 0 ∨ f32.mag y = 0 then nan32 else f32.signed n f32.inf)
  else f32.signed n (f32.rn (f32.mant x * f32.mant y) 1 (f32.exp x + f32.exp y))

/-- binary32 division (R238). -/
def div32 (x y : Nat) : Nat :=
  let n := f32.neg x != f32.neg y
  if f32.nan x || f32.nan y then nan32
  else if f32.isInf x then (if f32.isInf y then nan32 else f32.signed n f32.inf)
  else if f32.isInf y then f32.signed n 0
  else if f32.mag y = 0 then (if f32.mag x = 0 then nan32 else f32.signed n f32.inf)
  else f32.signed n (f32.rn (f32.mant x) (f32.mant y) (f32.exp x - f32.exp y))

/-- The integer square root by bisection; `fuel` bounds the steps. -/
def isqrt (n : Nat) : Nat → Nat → Nat → Nat
  | 0, lo, _ => lo
  | k + 1, lo, hi => if hi ≤ lo + 1 then lo else
      let m := (lo + hi) / 2
      if m * m ≤ n then isqrt n k m hi else isqrt n k lo m

/-- binary32 square root (R238): the root of a mantissa widened by 64 bits, with a sticky bit, rounded to nearest. -/
def sqrt32 (x : Nat) : Nat :=
  if f32.nan x then nan32
  else if f32.mag x = 0 then x
  else if f32.neg x then nan32
  else if f32.isInf x then x
  else
    let e := f32.exp x - 64
    let m := f32.mant x * 2 ^ 64 * (if e % 2 = 0 then 1 else 2)
    let h := (if e % 2 = 0 then e else e - 1) / 2
    let r := isqrt m 64 0 (2 ^ 46)
    f32.rn (2 * r + (if r * r = m then 0 else 1)) 1 (h - 1)

/-- The order of binary32 values that are not NaN: −0 and +0 are equal. -/
def key32 (x : Nat) : Int := if f32.neg x then -(f32.mag x : Int) else (f32.mag x : Int)

/-- x < y, false with a NaN. -/
def lt32 (x y : Nat) : Bool := !f32.nan x && !f32.nan y && key32 x < key32 y

/-- A binary16 value widened to binary32, exactly (R189). -/
def widen (x : Nat) : Nat :=
  if f16.nan x then f32.signed (f16.neg x) (0x7F800000 + (f16.mag x % 1024) * 8192)
  else if f16.isInf x then f32.signed (f16.neg x) f32.inf
  else f32.signed (f16.neg x) (f32.rn (f16.mant x) 1 (f16.exp x))

/-- A binary32 value as binary16 (R195): to nearest, ties to even; from 65,520 in magnitude it becomes ±65,504 and counts. A NaN
stays a NaN. -/
def narrow (x : Nat) : Nat × Bool :=
  if f32.nan x then (f16.signed (f32.neg x) (0x7C01 + Config.nanPayload % 0x3FF), false)
  else if f32.isInf x then (f16.signed (f32.neg x) 0x7BFF, true)
  else
    let r := f16.rn (f32.mant x) 1 (f32.exp x)
    if r ≥ 0x7C00 then (f16.signed (f32.neg x) 0x7BFF, true) else (f16.signed (f32.neg x) r, false)

/-- A natural number as binary32. -/
def ofNat32 (n : Nat) : Nat := f32.rn n 1 0

/-! ### Narrow codes (Tables 6-1, 6-2; R184, R185) -/

/-- Formats 2 to 6 are narrow (Table 6-3). -/
def isNarrow (f : Nat) : Bool := 2 ≤ f && f ≤ 6
/-- Formats 2 to 4 are bell-grid. -/
def isBell (f : Nat) : Bool := 2 ≤ f && f ≤ 4
/-- Bits of a code. -/
def codeBits (f : Nat) : Nat := if f = 3 then 3 else if f = 4 then 2 else if f = 6 then 8 else 4
/-- Bytes of a run of 32 elements (R184). -/
def runBytes (f : Nat) : Nat := 4 * codeBits f
/-- Bytes of a row of n elements (R184, R185; R234 for the floating formats). -/
def rowBytes (f n : Nat) : Nat := if f = 0 then 2 * n else if f = 1 then 4 * n else ceilDiv n 32 * runBytes f

/-- The magnitudes of a bell grid (Table 6-1). -/
def grid (f : Nat) : List Nat := if f = 2 then [0, 1, 2, 3, 5, 7, 10, 15] else if f = 3 then [0, 2, 6, 15] else [0, 6]
/-- Twice the midpoints (Table 6-2). -/
def midpoints2 (f : Nat) : List Nat := if f = 2 then [1, 3, 5, 8, 12, 17, 25] else if f = 3 then [2, 8, 21] else [6]
/-- The largest magnitude on each side: negative and positive. -/
def topNeg (f : Nat) : Nat := if f = 4 then 6 else if f = 5 then 8 else if f = 6 then 128 else 15
/-- The largest positive level. -/
def topPos (f : Nat) : Nat := if f = 4 then 6 else if f = 5 then 7 else if f = 6 then 127 else 15

/-- The SKIP code of a bell-grid format: the sign bit with index 0 (R182). -/
def skipCode (f : Nat) : Nat := 2 ^ (codeBits f - 1)

/-- The level of a code (Table 6-1, R183). SKIP decodes to level 0. -/
def level (f c : Nat) : Int :=
  if isBell f then
    let g : Int := ((grid f).getD (c % skipCode f) 0 : Nat)
    if c / skipCode f % 2 = 1 then -g else g
  else toSigned (codeBits f) c

/-- A code is SKIP (R182, R183). -/
def isSkip (f c : Nat) : Bool := isBell f && c == skipCode f

/-- The code of a level: the zero level is SKIP with SKIP-ZEROS set (R192). -/
def codeOf (f : Nat) (skipZeros : Bool) (l : Int) : Nat :=
  if isBell f then
    if l = 0 then (if skipZeros then skipCode f else 0)
    else
      let i := ((grid f).findIdx? (· == l.natAbs)).getD 0
      if l < 0 then skipCode f + i else i
  else ofSigned (codeBits f) l

/-- The padding code of a format (R185). -/
def padCode (f : Nat) : Nat := if isBell f then skipCode f else 0

/-- Element j of a packed row (R184). -/
def codeAt (f : Nat) (row : List Byte) (j : Nat) : Nat :=
  le row (j / 32 * runBytes f) (runBytes f) / 2 ^ (codeBits f * (j % 32)) % 2 ^ codeBits f

/-- One run from its codes: code j goes to bits b × j. -/
def packBits (f : Nat) : List Nat → Nat
  | [] => 0
  | c :: r => c + 2 ^ codeBits f * packBits f r

/-- Runs from codes; `n` is the number of runs. -/
def packRuns (f : Nat) : Nat → List Nat → List Byte
  | 0, _ => []
  | n + 1, cs => toLE (runBytes f) (packBits f (cs.take 32)) ++ packRuns f n (cs.drop 32)

/-- A row of codes with its padding (R184, R185). -/
def packRow (f : Nat) (cs : List Nat) : List Byte :=
  let n := ceilDiv cs.length 32
  packRuns f n (cs ++ List.replicate (32 * n - cs.length) (padCode f))

/-- The levels of the first n elements of a packed row. -/
def rowLevels (f n : Nat) (row : List Byte) : List Int := (List.range n).map fun j => level f (codeAt f row j)

/-! ### Scales (R187, R188, R193) -/

/-- A scale is +0 or a positive normal binary16 value. -/
def scaleRegular (s : Nat) : Bool := s == 0 || (0x0400 ≤ s && s ≤ 0x7BFF)

/-- The value of a scale as the arrays use it (R187): mantissa and exponent. -/
def scaleUse (s : Nat) : Nat × Int :=
  let m := f16.mag s
  if f16.field m = 0 then (0, 0)
  else if f16.field m = 31 then (f16.mant 0x7BFF, f16.exp 0x7BFF)
  else (f16.mant m, f16.exp m)

/-- The top level of R193: 15, 6, 7 or 127. -/
def topDynamic (f : Nat) : Nat := topPos f

/-- t of R189: RN32(x × RN32(16 ÷ s)), for a scale that is not +0, as binary32 bits. -/
def quantT (x s : Nat) : Nat :=
  mul32 x (f32.rn 16 (scaleUse s).1 (-(scaleUse s).2))

/-- m × 2^e > k ÷ 2. -/
def aboveHalf (m : Nat) (e : Int) (k : Nat) : Bool := 2 * m * pow2n e > k * pow2d e

/-- How an element quantises: its level, and whether it counts as clipped, NaN or infinite. -/
structure QElem where
  level : Int
  clip : Bool := false
  nan : Bool := false
  inf : Bool := false
deriving DecidableEq, Repr

/-- The magnitude of the integer nearest to a value, ties to the smaller magnitude (R190): ⌈v − ½⌉ for v = m × 2^e. -/
def nearestInt (m : Nat) (e : Int) : Nat := ceilDiv (2 * m * pow2n e - pow2d e) (2 * pow2d e)

/-- The level of a binary32 element under a scale (R189 to R191). -/
def quantElem (f x s : Nat) : QElem :=
  let neg := f32.neg x
  let ext : Int := if neg then -(topNeg f : Int) else topPos f
  if f32.nan x then { level := 0, nan := true }
  else if f32.isInf x then { level := ext, clip := true, inf := true }
  else if (scaleUse s).1 = 0 then { level := 0 }
  else
    let t := quantT x s
    if f32.isInf t then { level := ext, clip := true }
    else
      let m := f32.mant t
      let e := f32.exp t
      if isBell f then
        if aboveHalf m e (2 * topPos f) then { level := ext, clip := true }
        else
          let g : Int := ((grid f).getD ((midpoints2 f).filter fun k => aboveHalf m e k).length 0 : Nat)
          { level := if neg then -g else g }
      else if aboveHalf m e (2 * (if neg then topNeg f else topPos f) + 1) then { level := ext, clip := true }
      else
        let g : Int := nearestInt m e
        { level := if neg then -g else g }

/-- The absolute maximum of a row's finite binary32 elements, as bits (R193). -/
def rowMax (xs : List Nat) : Nat := maxN ((xs.filter f32.fin).map f32.mag)

/-- Raise the candidate scale until the row's maximum does not clip (R193). -/
def raiseScale (f a : Nat) : Nat → Nat → Nat
  | 0, s => s
  | k + 1, s =>
    if s ≥ 0x7BFF then 0x7BFF
    else
      let t := quantT a s
      if f32.isInf t || aboveHalf (f32.mant t) (f32.exp t) (2 * topDynamic f) then raiseScale f a k (s + 1) else s

/-- The scale that the quantiser derives for a row of binary32 elements (R193), as binary16 bits. -/
def dynScale (f : Nat) (xs : List Nat) : Nat :=
  let a := rowMax xs
  if a = 0 then 0
  else
    let s0 := f16.up (f32.mant a * 16) (topDynamic f) (f32.exp a)
    if s0 ≥ 0x7C00 then 0x7BFF else raiseScale f a 0x7C00 (Nat.max s0 0x0400)

/-- The outlier test of R199, exactly (log 26): a > ratio × the mean absolute value of the finite elements. -/
def outlier (ratio : Nat) (xs : List Nat) : Bool :=
  let fs := xs.filter f32.fin
  let w (x : Nat) : Nat := (int32 x).natAbs
  let total := sumN (fs.map w)
  total != 0 && maxN (fs.map w) * fs.length > ratio * total

/-- The value of a level under a scale, in binary32 (R195). -/
def decode32 (l : Int) (s : Nat) : Nat :=
  if l = 0 then 0 else rn32 (l * ((scaleUse s).1 : Int)) 1 ((scaleUse s).2 - 4)

/-- Elements of a floating row as binary32 bits: format 0 is binary16, 1 is binary32. -/
def floatRow (f n : Nat) (row : List Byte) : List Nat :=
  (List.range n).map fun j => if f = 0 then widen (le row (2 * j) 2) else le row (4 * j) 4

/-- binary32 elements written in a floating format, with the number of saturations (R195). -/
def writeRow (f : Nat) (xs : List Nat) : List Byte × Nat :=
  if f = 0 then
    let r := xs.map narrow
    (r.flatMap fun p => toLE 2 p.1, (r.filter (·.2)).length)
  else (xs.flatMap fun x => toLE 4 x, 0)

end Sys2Proof.Machine
end

