-- ==== Sys2Proof/Machine/Select.lean ====
section
/-! DEFINITION. The selection unit: the total order, top-k in its two methods, arg-max and the merge of lists (09 R269 to R286). -/

namespace Sys2Proof.Machine

open Sys2Proof

/-- The rank key of a binary32 value in direction MAX (R271). -/
def rankMax (f : Nat) : Nat :=
  if f32.nan f then 0xFFFFFFFF
  else if f32.mag f = 0 then 0x80000000
  else if f32.neg f then 0xFFFFFFFF - f else f + 0x80000000

/-- The rank key of a value (R271): larger first. -/
def rankKey (max : Bool) (f : Nat) : Nat := if max then rankMax f else if f32.nan f then 0 else 0xFFFFFFFF - rankMax f

/-- Entry a stands before entry b (R271): the larger rank key, then the lower tie key. An entry is a rank key, a tie key and a
payload. -/
def before (a b : Nat × Nat × α) : Bool := a.1 > b.1 || (a.1 == b.1 && a.2.1 ≤ b.2.1)

/-- Insert an entry in rank order. -/
def insertRank (a : Nat × Nat × α) : List (Nat × Nat × α) → List (Nat × Nat × α)
  | [] => [a]
  | b :: r => if before a b then a :: b :: r else b :: insertRank a r

/-- Entries in rank order (R271). -/
def rankSort (l : List (Nat × Nat × α)) : List (Nat × Nat × α) := l.foldr insertRank []

/-- What a selection returns. -/
structure Sel (α : Type) where
  entries : List (Nat × Nat × α)
  tie : Bool
  approx : Bool
  population : Nat
  passes : Nat
  refine : Nat

/-- The number of histogram passes above level 1 that exact mode needs at the k-th place (R276, R278). -/
def refinements (sorted : List (Nat × Nat × α)) (k : Nat) : Nat :=
  match sorted[k - 1]? with
  | none => 0
  | some x =>
    let whole (d : Nat) : Bool :=
      (sorted.filter fun e => e.1 / d == x.1 / d).length == k - (sorted.filter fun e => e.1 / d > x.1 / d).length
    if whole (2 ^ 20) then 0 else if whole (2 ^ 8) then 1 else 2

/-- Select the best k of ranked entries (R275 to R280). -/
def select (approx : Bool) (k : Nat) (l : List (Nat × Nat × α)) : Sel α :=
  let sorted := rankSort l
  let n := sorted.length
  if n < k then
    { entries := sorted, tie := false, approx := false, population := 0, passes := if k ≤ 64 then 1 else 2, refine := 0 }
  else
    let cut := (sorted[k - 1]?).map (·.1)
    if k ≤ 64 ∨ !approx then
      let r := if k ≤ 64 then 0 else refinements sorted k
      { entries := sorted.take k, tie := (sorted[k]?).map (·.1) == cut, approx := false, population := 0,
        passes := if k ≤ 64 then 1 else 2 + r, refine := r }
    else
      let b := (cut.getD 0) / 2 ^ 20
      let above := sorted.filter fun e => e.1 / 2 ^ 20 > b
      let inB := sorted.filter fun e => e.1 / 2 ^ 20 == b
      let byTie := rankSort (inB.map fun e => (0, e.2.1, e))
      let picked := ((byTie.map (·.2.2)).take (k - above.length))
      { entries := rankSort (above ++ picked), tie := inB.length != k - above.length, approx := true, population := inB.length,
        passes := 2, refine := 0 }

/-- The entries of a row or list of values with their tie keys. -/
def ranked (max : Bool) (l : List (Nat × Nat)) : List (Nat × Nat × Nat) := l.map fun e => (rankKey max e.1, e.2, e.1)

/-- A row of values, each with its index as its tie key (R270). -/
def rowEntries (xs : List Nat) : List (Nat × Nat) := xs.zipIdx

/-- Arg-max of a row (R282): the lowest index of the best value; 0 for an empty row. -/
def argMax (xs : List Nat) : Nat := match (select false 1 (ranked true (rowEntries xs))).entries with
  | [] => 0
  | e :: _ => e.2.1

/-- The arg-max of a row as a selection: it sets no tie flag (R282). -/
def argSel (xs : List Nat) : Sel Nat := { select false 1 (ranked true (rowEntries xs)) with tie := false }

/-- The partition's counters of a selection but that of short results (Table 9-7). -/
def countCut (dome : Nat) (r : Sel α) (s : State) : State :=
  let s2 := ctrPart .selRefinementPassesLevels2And3 dome r.refine s
  let s3 := if r.approx then ctrPart .selApproximateCuts dome 1 s2 else s2
  if r.tie then ctrPart .selBoundaryTies dome 1 s3 else s3

/-- The short-results counter, for a selection of k that has a count. -/
def countShort (dome k count : Nat) (s : State) : State :=
  if count < k then ctrPart .selShortResultsCountBelowK dome 1 s else s

/-- The counters of a selection (Table 9-7): passes on its cluster, the rest on the partition of a dome. -/
def countSel (cluster dome k : Nat) (r : Sel α) (s : State) : State :=
  countShort dome k r.entries.length (countCut dome r (ctrAdd .selSelectionPasses cluster r.passes s))

/-- The selection status (Table 9-3) as a number of 64 bits. -/
def selStatus (count : Nat) (tie approx : Bool) (population : Nat) : Nat :=
  count % 2 ^ 13 + 2 ^ 13 * b2n tie + 2 ^ 14 * b2n approx + 2 ^ 32 * sat 0xFFFFFFFF population

/-! ### Merging lists (R284 to R286) -/

/-- One entry replaces another with the same ID (R285): the smaller distance, then the lower shard tag, then the earlier. -/
def better (a b : ListEntry) : Bool :=
  rankKey false a.dist.toNat > rankKey false b.dist.toNat ||
  (rankKey false a.dist.toNat == rankKey false b.dist.toNat && a.shard < b.shard)

/-- Entries without duplicates, the best of each ID kept, in order of first arrival (R285). -/
def dedup : List ListEntry → List ListEntry → List ListEntry
  | acc, [] => acc
  | acc, e :: r => match acc.find? fun x => x.id % 2 ^ 48 == e.id % 2 ^ 48 with
    | none => dedup (acc ++ [e]) r
    | some x => if better e x then dedup (updIf (fun y => y.id % 2 ^ 48 == e.id % 2 ^ 48) (fun _ => e) acc) r else dedup acc r

/-- The entries of a list with their rank keys in direction MIN. -/
def listRanked (l : List ListEntry) : List (Nat × Nat × ListEntry) := l.map fun e => (rankKey false e.dist.toNat, e.id, e)

/-- Merge lists in arrival order (R285): the selection of k and the number of duplicates removed. -/
def mergeLists (k : Nat) (ls : List ListEntry) : Sel ListEntry × Nat :=
  let d := dedup [] ls
  (select false k (listRanked d), ls.length - d.length)

/-- The status of a merged list from its own cut and its input lists (R286). -/
def mergedStatus (own : Sel ListEntry) (ins : List (Sel ListEntry)) : Sel ListEntry :=
  let among (e : ListEntry) : Bool := own.entries.any fun y => y.2.2 == e
  { own with tie := own.tie || ins.any fun x => x.tie && (x.entries.getLast?).any fun e => among e.2.2,
             approx := ins.any (·.approx), population := maxN (ins.map (·.population)) }

/-- An entry's bytes (Table 9-6). -/
def entryBytes (e : ListEntry) : List Byte := toLE 6 e.id ++ toLE 2 e.shard ++ toLE 4 e.dist.toNat ++ toLE 4 0

/-- An entry from its bytes. -/
def entryOf (bs : List Byte) : ListEntry := { id := le bs 0 6, shard := le bs 6 2, dist := BitVec.ofNat 32 (le bs 8 4) }

end Sys2Proof.Machine
end

