-- ==== Sys2Proof/Machine/Accumulator.lean ====
section
/-! DEFINITION. The block-floating accumulator, its tile records, and the tiles of products whose operands are given as levels and scales
(07 R210, R211, R215 to R225). A contribution is an integer in units of 2⁻⁵⁶, which holds every sum of R220 exactly. -/

namespace Sys2Proof.Machine

open Sys2Proof

/-! ### The accumulator (R219 to R224) -/

/-- An integer divided by 2^k, rounded to nearest with ties to even. -/
def rneShift (v : Int) (k : Nat) : Int :=
  let m : Int := rnNat v.natAbs (2 ^ k)
  if v < 0 then -m else m

/-- A contribution in units of the tile: round(c ÷ 2^(E − 128)) (R220). -/
def inUnits (c : Int) (e : Nat) : Int := if e ≤ 72 then c * 2 ^ (72 - e) else rneShift c (e - 72)

/-- The exponent that a tile takes: the smallest E with every |c| below 2²² × u, at most 255 (R221); none for contributions of 0. -/
def firstExponent (cs : List Int) : Option Nat :=
  let a := maxN (cs.map Int.natAbs)
  if a = 0 then none else some (Nat.min 255 (Nat.max 0 (51 + Nat.log2 a)))

/-- A mantissa in its 24-bit range (R219). -/
def inRange (m : Int) : Bool := -8388608 ≤ m && m ≤ 8388607

/-- The accumulator of a tile: exponent, mantissas and SATURATED. -/
structure Acc where
  exponent : Option Nat
  mant : List Int
  saturated : Bool
deriving DecidableEq, Repr

/-- The lanes clipped at the ends of their range (R222). -/
def clipMant (m : Int) : Int := if m > 8388607 then 8388607 else if m < -8388608 then -8388608 else m

/-- A pass with the exponent taken: its overflow re-runs (R221, R222). The answer is the exponent, the mantissas, the re-runs and
whether it saturated. Each re-run raises E by 2, so 128 of them suffice. -/
def addPass (cs : List Int) : Nat → Nat → List Int → Nat × List Int × Nat × Bool
  | fuel, e, ms =>
    let n := (ms.zip cs).map fun p => p.1 + inUnits p.2 e
    if n.all inRange then (e, n, 0, false)
    else if e ≥ 254 then (e, n.map clipMant, 0, true)
    else match fuel with
      | 0 => (e, n.map clipMant, 0, true)
      | k + 1 =>
        let r := addPass cs k (e + 2) (ms.map fun m => rneShift m 2)
        (r.1, r.2.1, r.2.2.1 + 1, r.2.2.2)

/-- One chain pass into an accumulator: the accumulator after it, the re-runs, and whether this pass saturated. -/
def accumulate (a : Acc) (cs : List Int) : Acc × Nat × Bool :=
  match a.exponent.orElse fun _ => firstExponent cs with
  | none => (a, 0, false)
  | some e =>
    let r := addPass cs 128 e a.mant
    ({ exponent := some r.1, mant := r.2.1, saturated := a.saturated || r.2.2.2 }, r.2.2.1, r.2.2.2)

/-- A lane's value in a floating format (R224): the bits, and whether it was held at the largest finite value. -/
def laneOut (f : Fmt) (e : Nat) (m : Int) : Nat × Bool :=
  let v := f.rn m.natAbs 1 ((e : Int) - 128)
  if v ≥ f.inf then (f.signed (m < 0) (f.inf - 1), true) else (if m = 0 then 0 else f.signed (m < 0) v, false)

/-- A tile record (Table 7-2). -/
def tileRecord (lanes rows : Nat) (x : Tile) : List Byte :=
  toLE 1 (x.exponent.getD 0) ++ toLE 1 (b2n x.exponent.isNone + 2 * b2n x.saturated) ++ toLE 2 lanes ++ toLE 4 rows ++
  toLE 4 (sat 0xFFFF x.reruns) ++ toLE 4 (sat 0xFFFFFFFF x.passes) ++ x.mant.flatMap fun m => toLE 4 (ofSigned 32 m)

/-- A received tile record is malformed or of another shape (R225, Table 7-7). -/
def recordBad (lanes rows : Nat) (b : List Byte) : Bool :=
  le b 1 1 > 3 || le b 2 2 != lanes || le b 4 4 != rows || le b 10 2 != 0 ||
  (List.range (lanes * rows)).any fun i => toSigned 32 (le b (16 + 4 * i) 4) != toSigned 24 (le b (16 + 4 * i) 3)

/-- A tile's lanes in a floating format (R224): an UNSET tile gives +0 in every lane. -/
def Acc.out (f : Fmt) (a : Acc) : List (Nat × Bool) := match a.exponent with
  | none => a.mant.map fun _ => (0, false)
  | some e => a.mant.map (laneOut f e)

/-- A new tile of some lanes (R219). -/
def Acc.new (lanes : Nat) : Acc := { exponent := none, mant := List.replicate lanes 0, saturated := false }

/-- A scale in units of 2⁻²⁴ (R187). -/
def scaleInt (s : Nat) : Int := ((scaleUse s).1 * 2 ^ ((scaleUse s).2 + 24).toNat : Nat)

/-! ### Tiles (R210 to R220) -/

/-- An element of a weight row as an array cell holds it: its level and its group's scale. -/
abbrev Cell := Int × Nat

/-- An operand row: its levels and its scale. -/
abbrev OpRow := List Int × Nat

/-- Elements j × d to j × d + d − 1 of a list: those of chain pass j. -/
def slab {α : Type} (d j : Nat) (l : List α) : List α := (l.drop (j * d)).take d

/-- What one chain pass takes: the cells of each lane and the operand rows, over its slab of the reduction; and whether it uses an irregular
scale (R187). -/
structure Slab where
  ws : List (List Cell)
  xs : List OpRow
  odd : Bool := false

/-- Some cells have an irregular scale. -/
def oddCells (ws : List (List Cell)) : Bool := ws.any fun w => w.any fun c => !scaleRegular c.2

/-- The contributions of a chain pass (R217, R220): operand rows against lanes, row-major. -/
def Slab.sums (b : Slab) : List Int :=
  let cells := b.ws.map fun w => w.map fun c => (c.1, scaleInt c.2)
  b.xs.flatMap fun x => cells.map fun w => ((w.zip x.1).map fun q => q.1.1 * q.2 * q.1.2).foldl (· + ·) 0 * scaleInt x.2

/-- The slabs of a forward product: D elements of the reduction a pass. -/
def forwardSlabs (d len : Nat) (ws : List (List Cell)) (xs : List OpRow) : List Slab :=
  (List.range (ceilDiv len d)).map fun j =>
    let cells := ws.map (slab d j)
    { ws := cells, xs := xs.map fun x => (slab d j x.1, x.2), odd := oddCells cells }

/-- A slab of a transposed product (R215): the scales of the stored rows are folded into the operand, which the edge quantises to K8U with one
scale for each row and slab. Every lane has the stored rows' scales. -/
def edgeSlab (ws : List (List Cell)) (us : List (List Nat)) : Slab :=
  let scales := (ws.headD []).map fun c => decode32 16 c.2
  { ws := ws.map fun w => w.map fun c => (c.1, 0x3C00)
    xs := us.map fun u =>
      let v := (u.zip scales).map fun q => mul32 q.1 q.2
      let sv := dynScale 6 v
      (v.map fun e => (quantElem 6 e sv).level, sv)
    odd := oddCells ws }

/-- The slabs of a transposed product: D stored rows a pass. -/
def edgeSlabs (d len : Nat) (ws : List (List Cell)) (us : List (List Nat)) : List Slab :=
  (List.range (ceilDiv len d)).map fun j => edgeSlab (ws.map (slab d j)) (us.map (slab d j))

/-- What a chain pass came to: its overflow re-runs, whether it saturated, and whether it used an irregular scale (R187, R221, R222). -/
structure PassRun where
  reruns : Nat
  saturated : Bool
  odd : Bool

/-- The chain passes of a tile into an accumulator. -/
def tilePasses (slabs : List Slab) (a : Acc) : Acc × List PassRun :=
  slabs.foldl (fun (r : Acc × List PassRun) b =>
    let n := accumulate r.1 b.sums
    (n.1, r.2 ++ [{ reruns := n.2.1, saturated := n.2.2, odd := b.odd }])) (a, [])

/-- A new tile of some lanes and rows: its lanes in a floating format (R224), row-major, each with whether it was held, and its passes. -/
def tileOut (f : Fmt) (lanes rows : Nat) (slabs : List Slab) : List (Nat × Bool) × List PassRun :=
  let r := tilePasses slabs (Acc.new (lanes * rows))
  (r.1.out f, r.2)

/-- A weight row whose one scale spans it (10 R299; 08 R240). -/
def spanRow (sc : Nat) (ls : List Int) : List Cell := ls.map fun l => (l, sc)

/-- A row of binary32 values in K8U with a row-dynamic scale (08 R251). -/
def rowK8U (v : List Nat) : OpRow := (v.map fun e => (quantElem 6 e (dynScale 6 v)).level, dynScale 6 v)

end Sys2Proof.Machine
end

