-- ==== Sys2Proof/Machine/Plans.lean ====
section
/-! DEFINITION. Plan objects: the header, the tables, the quantisation word, the array product word and the operators, with the
checks made before any task runs (08 R233 to R237; 06 R197, R198, R202; 07 R218, R227, R230). Log 28 gives the order of the checks
and where the arguments lie. -/

namespace Sys2Proof.Machine

open Sys2Proof

/-- Plan Invalid with a detail code. -/
def planBad (detail : Nat) : Fail := { St.planInvalid with detail }
/-- Invalid Field in Command with a detail code of Table 8-11. -/
def fieldBad (detail : Nat) : Fail := { St.invalidField with detail }

/-- Fail when a condition holds. -/
def failIf (b : Bool) (f : Fail) : Except Fail Unit := if b then .error f else .ok ()

/-- The failure of a list of checks, as an answer. -/
def checks (l : List (Bool × Fail)) : Except Fail Unit :=
  match firstFail l with
  | some f => .error f
  | none => .ok ()

/-- Run a check over a list, in order. -/
def eachOf {α : Type} (l : List α) (f : α → Except Fail Unit) : Except Fail Unit :=
  match l with
  | [] => .ok ()
  | a :: r => match f a with
    | .error e => .error e
    | .ok _ => eachOf r f

/-- Map a list with a check, in order. -/
def mapOf {α β : Type} (l : List α) (f : α → Except Fail β) : Except Fail (List β) :=
  match l with
  | [] => .ok []
  | a :: r => match f a with
    | .error e => .error e
    | .ok b => match mapOf r f with
      | .error e => .error e
      | .ok bs => .ok (b :: bs)

/-! ### The quantisation word (Tables 6-3, 6-4) -/

namespace Qw
/-- Format. -/
def fmt (q : Nat) : Nat := bits q 2 0
/-- NAN-EVENT. -/
def nanEvent (q : Nat) : Bool := bit q 3
/-- Scale mode: 0 group, 1 row-dynamic, 2 static. -/
def mode (q : Nat) : Nat := bits q 5 4
/-- Group size field. -/
def groupField (q : Nat) : Nat := bits q 7 6
/-- Group size in elements. -/
def group (q : Nat) : Nat := 32 * 2 ^ groupField q
/-- SKIP-ZEROS. -/
def skipZeros (q : Nat) : Bool := bit q 8
/-- LIVECAL. -/
def livecal (q : Nat) : Bool := bit q 9
/-- KV-FALLBACK. -/
def kvFallback (q : Nat) : Bool := bit q 10
/-- Static scale. -/
def scale (q : Nat) : Nat := bits q 31 16
/-- Clip threshold. -/
def clip (q : Nat) : Nat := bits q 47 32
/-- Watch window in ticks. -/
def window (q : Nat) : Nat := bits q 55 48
/-- Outlier ratio as written. -/
def ratioField (q : Nat) : Nat := bits q 63 56
/-- Outlier ratio in force: 0 selects 24. -/
def ratio (q : Nat) : Nat := if ratioField q = 0 then 24 else ratioField q
/-- The tensor is watched (06 R203). -/
def watched (q : Nat) : Bool := clip q != 0 || nanEvent q || livecal q
end Qw

/-- The formats of a tensor class (Table 6-4). -/
def classFormats (c : Nat) : List Nat :=
  if c = 0 then [2, 3, 4, 5, 6] else if c = 1 then [2, 6] else if c = 2 then [2, 5, 6, 0, 1] else if c = 3 then [6, 0, 1]
  else if c = 4 then [2, 6, 0] else if c = 5 then [2, 5, 6] else [0, 1]

/-- The scale modes of a narrow format in a tensor class (Table 6-4). -/
def classModes (c : Nat) : List Nat := if c ≤ 1 then [0] else if c = 2 then [1, 2] else [1]

/-- The checks of a quantisation word for a class and a row length (R197, R198, R202; Table 6-5). An outlier ratio of 1 to 7 with KV-FALLBACK
set, which Table 6-3 does not list and Table 6-5 names under 0x604, is answered with 0x604 (DESIGN CHOICE, log 97). -/
def checkQword (q cls len : Nat) : Except Fail Unit :=
  let f := Qw.fmt q
  let flo := f ≤ 1
  checks [
    (bits q 15 11 != 0 || f == 7 || Qw.mode q == 3 || (!flo && Qw.groupField q == 3), St.invalidField),
    (!(classFormats cls).contains f, planBad 0x601),
    (if flo then Qw.mode q != 0 || Qw.groupField q != 0
     else !(classModes cls).contains (Qw.mode q) || (Qw.mode q != 0 && Qw.groupField q != 0) ||
       (cls == 1 && Qw.groupField q != 0), planBad 0x602),
    (if Qw.mode q = 2 then !(0x0400 ≤ Qw.scale q && Qw.scale q ≤ 0x7BFF) else Qw.scale q != 0, planBad 0x603),
    ((flo && Qw.nanEvent q) || (Qw.skipZeros q && !isBell f) || (Qw.livecal q && Qw.mode q != 2) ||
       (Qw.kvFallback q && !(cls == 4 && f == 2)) || (Qw.watched q != (Qw.window q != 0)) ||
       (if Qw.kvFallback q then Qw.ratioField q != 0 && Qw.ratioField q < 8 else Qw.ratioField q != 0), planBad 0x604),
    (!flo && Qw.mode q == 1 && len > 65536, planBad 0x605)]

/-! ### The array product word (Table 7-6) -/

namespace Apw
/-- Quad mode. -/
def quad (w : Nat) : Bool := bits w 1 0 == 1
/-- Chain length, 1 to 4. -/
def chain (w : Nat) : Nat := bits w 3 2 + 1
/-- TRANSPOSE. -/
def transpose (w : Nat) : Bool := bit w 4
/-- CHAIN-IN. -/
def chainIn (w : Nat) : Bool := bit w 5
/-- CHAIN-OUT. -/
def chainOut (w : Nat) : Bool := bit w 6
/-- Output: 0 binary16, 1 binary32, 2 tile record. -/
def output (w : Nat) : Nat := bits w 9 8
/-- A reserved bit or an unlisted encoding (R230). -/
def bad (w : Nat) : Bool := bits w 1 0 > 1 || bit w 7 || output w == 3 || bits w 31 10 != 0
end Apw

/-- Lanes of an output tile (07 R214, R216). -/
def lanesOf (w : Nat) : Nat := if Apw.quad w then 16 else 32

/-- The chain depth D of a pass (R215, R218; Table 7-1): K2B holds two weights a cell in a forward pass. -/
def depthOf (w wfmt : Nat) : Nat :=
  (if Apw.quad w then 16 else 32) * (if wfmt = 4 ∧ !Apw.transpose w then 2 else 1) * Apw.chain w

/-- The row limit of a pass (R211, R214, R215). -/
def rowLimit (w : Nat) : Nat :=
  (if Apw.quad w then 4056 - 2 * (Apw.chain w - 1) else 4024 - 4 * (Apw.chain w - 1)) - (if Apw.transpose w then 16 else 0)

/-- Cycles of a slice pass over M rows (R211, R214, R215): with its load cold or hidden, and with the edge quantisation that comes with the
first slice pass of a transposed set. -/
def passCycles (w rows : Nat) (cold edge : Bool) : Nat :=
  rows + (if Apw.quad w then 24 + 2 * (Apw.chain w - 1) + (if cold then 16 else 0)
          else 40 + 4 * (Apw.chain w - 1) + (if cold then 32 else 0)) + (if edge then 16 else 0)

/-! ### Tables -/

/-- What a plan is checked for: RUN PLAN, prefill, decode, embedding, TUNE. -/
inductive PlanKind where
  | run | prefill | decode | embed | tune
deriving DecidableEq, Repr

/-- The bytes of a plan object, the offset of its header (64 in an embedding plan, R259) and the object's size, which bounds the tables. -/
structure PlanSrc where
  data : Mem
  base : Nat
  size : Nat

/-- A field of the plan header. -/
def PlanSrc.hdr (p : PlanSrc) (off n : Nat) : Nat := memLE p.data (p.base + off) n

/-- A field of a table: the offsets of tables are from the start of the object (R233). -/
def PlanSrc.at_ (p : PlanSrc) (off n : Nat) : Nat := memLE p.data off n

/-- A table of n entries at an offset breaks R233. -/
def PlanSrc.tableBad (p : PlanSrc) (off n size : Nat) : Bool := off % 8 != 0 || off + n * size > p.size

/-- Some byte of a reserved field is set. -/
def PlanSrc.res (p : PlanSrc) (off n : Nat) : Bool := p.at_ off n != 0

/-- A range entry (Table 8-2). -/
structure RangeEntry where
  object : Nat
  access : Nat
  off : Nat
  len : Nat

/-- A stage as its entry gives it. -/
structure StageEntry where
  first : Nat
  count : Nat
  flags : Nat
  ranges : List RangeEntry

/-- The stage entry i (Table 8-2). -/
def readStage (p : PlanSrc) (table tasks : Nat) (first : Nat) (i : Nat) : Except Fail StageEntry :=
  let o := table + 32 * i
  let n := p.at_ (o + 12) 4
  let ro := p.at_ (o + 16) 4
  match checks [
    (bits (p.at_ (o + 8) 4) 31 2 != 0 || p.res (o + 20) 12, St.invalidField),
    (p.at_ o 4 != first || first + p.at_ (o + 4) 4 > tasks || n > 65536 || p.tableBad ro n 24, planBad 0x80C)] with
  | .error f => .error f
  | .ok _ =>
    match mapOf (List.range n) fun k =>
      let r := ro + 24 * k
      let w := p.at_ r 8
      match checks [(bits w 63 50 != 0 || bits w 49 48 == 3 || bits w 47 0 == 0, St.invalidField), (p.at_ (r + 16) 8 == 0, planBad 0x80C)] with
      | .error f => .error f
      | .ok _ => .ok { object := bits w 47 0, access := bits w 49 48, off := p.at_ (r + 8) 8, len := p.at_ (r + 16) 8 : RangeEntry } with
    | .error f => .error f
    | .ok rs => .ok { first, count := p.at_ (o + 4) 4, flags := p.at_ (o + 8) 4, ranges := rs }

/-- The stages in order, each starting where the one before ended (R233). -/
def readStages (p : PlanSrc) (table tasks : Nat) : Nat → Nat → Nat → Except Fail (List StageEntry)
  | 0, _, first => if first = tasks then .ok [] else .error (planBad 0x80C)
  | n + 1, i, first => match readStage p table tasks first i with
    | .error f => .error f
    | .ok g => match readStages p table tasks n (i + 1) (first + g.count) with
      | .error f => .error f
      | .ok r => .ok (g :: r)

/-- The tensor descriptor i (Table 8-3), with the checks of its own fields. -/
def readTensor (p : PlanSrc) (table i : Nat) : Except Fail Tensor :=
  let o := table + 48 * i
  let q := p.at_ (o + 32) 8
  let cls := p.at_ (o + 40) 1
  let len := p.at_ (o + 28) 4
  let t : Tensor := { object := p.at_ o 6, codes := p.at_ (o + 8) 8, scales := p.at_ (o + 16) 8, rows := p.at_ (o + 24) 4, len,
                      qword := BitVec.ofNat 64 q, cls }
  match checks [(p.res (o + 6) 2 || p.res (o + 41) 7 || cls > 6, St.invalidField), (t.rows == 0 || len == 0, planBad 0x80C)] with
  | .error f => .error f
  | .ok _ => match checkQword q cls len with
    | .error f => .error f
    | .ok _ =>
      let grp := Qw.fmt q ≥ 2 && Qw.mode q == 0
      match checks [(if grp then t.scales % 64 != 0 else t.scales != 0, planBad 0x80C)] with
      | .error f => .error f
      | .ok _ => .ok t

/-- The quantisation word as a number. -/
def Tensor.q (t : Tensor) : Nat := t.qword.toNat
/-- The format. -/
def Tensor.fmt (t : Tensor) : Nat := Qw.fmt t.q
/-- Group mode. -/
def Tensor.grouped (t : Tensor) : Bool := isNarrow t.fmt && Qw.mode t.q == 0
/-- Bytes of a row (R184, R234). -/
def Tensor.rowBytes (t : Tensor) : Nat := Machine.rowBytes t.fmt t.len
/-- Groups of a row (R186). -/
def Tensor.groups (t : Tensor) : Nat := ceilDiv t.len (Qw.group t.q)
/-- The end of the bytes that the descriptor names in its object (R234). -/
def Tensor.extent (t : Tensor) : Nat :=
  Nat.max (t.codes + t.rows * t.rowBytes) (if t.grouped then t.scales + 2 * t.rows * t.groups else 0)

/-- Operator parameters that Table 8-5 does not list, or reserved ones (R13, R15). -/
def paramsBad (code params : Nat) : Bool :=
  if code = 0x01 then bits params 23 16 > 8 || bits params 63 56 != 0 || bits params 47 40 == 255 || bits params 55 48 == 1
  else if code = 0x03 ∨ code = 0x13 then bits params 63 32 != 0
  else if code = 0x05 ∨ code = 0x12 then bits params 1 0 > 1 || bits params 63 2 != 0
  else if code = 0x07 ∨ code = 0x14 then bits params 63 33 != 0
  else if code = 0x08 then bits params 63 24 != 0
  else if code = 0x0F then bits params 1 0 == 3 || bits params 63 3 != 0
  else if code = 0x04 ∨ code = 0x15 then false
  else params != 0

/-- The operator descriptor i (Table 8-4), with the checks of its own fields. -/
def readOp (p : PlanSrc) (table tensors i : Nat) : Except Fail Operator :=
  let o := table + 32 * i
  let code := p.at_ o 2
  let w := p.at_ (o + 4) 4
  let ix (k : Nat) : Nat := p.at_ (o + 8 + 4 * k) 4
  let lost (x : Nat) : Bool := x != 0xFFFFFFFF && x ≥ tensors
  let arrays := code == 0x01 || code == 0x07 || code == 0x14
  match checks [
    (p.res (o + 2) 2, St.invalidField),
    (code == 0 || code > 0x15 || lost (ix 0) || lost (ix 1) || lost (ix 2) || lost (ix 3), planBad 0x805),
    ((arrays && Apw.bad w) || (!arrays && w != 0) || paramsBad code (p.at_ (o + 24) 8), St.invalidField)] with
  | .error f => .error f
  | .ok _ => .ok { code, apw := BitVec.ofNat 32 w, in0 := ix 0, in1 := ix 1, in2 := ix 2, out := ix 3,
                   params := BitVec.ofNat 64 (p.at_ (o + 24) 8) }

/-! ### Operators (Table 8-5) -/

/-- The tensor at an index. -/
def tensorAt (ts : List Tensor) (i : Nat) : Option Tensor := ts[i]?

/-- A floating tensor. -/
def Tensor.floating (t : Tensor) : Bool := t.fmt ≤ 1

/-- The checks of a MATMUL (R215, R218, R227, R230, R237; the operand formats of Table 7-1). A CHAIN-IN product without an input 2 is no
member of a chain, which `chainBad` refuses. -/
def checkMatmul (o : Operator) (ts : List Tensor) : Except Fail Unit :=
  let w := o.apw.toNat
  match tensorAt ts o.in0, tensorAt ts o.in1, tensorAt ts o.out with
  | some x, some y, some z =>
    let tr := Apw.transpose w
    let red := if tr then y.rows else y.len
    let wide := if tr then y.len else y.rows
    checks [
      (!tr && y.grouped && depthOf w y.fmt % Qw.group y.q != 0, planBad 0x701),
      ((Apw.output w == 2 || Apw.chainIn w || Apw.chainOut w) && x.rows > rowLimit w, planBad 0x702),
      (tr && (!x.floating || !y.grouped), planBad 0x703),
      (Apw.chainOut w && Apw.output w != 2, planBad 0x704),
      (!(y.cls ≤ 1) || !y.grouped || red > 65536 || x.len != red || z.rows != x.rows || z.len != wide ||
        (!tr && !([2, 5, 6].contains x.fmt)) || (Apw.output w == 2 && !(z.fmt == 1 && z.cls == 6)) || (Apw.output w != 2 && z.fmt != Apw.output w) ||
        (o.in2 != 0xFFFFFFFF && !Apw.chainIn w), planBad 0x805)]
  | _, _, _ => .error (planBad 0x805)

/-- The checks of the other operators: true when one breaks Table 8-5 or what R198 says of formats. Where the table gives no format,
a thread engine decodes any (06 R195); it writes no narrow one. Token IDs, targets and route lists are tensors of 4-byte elements, and a
route list's row has two for each expert (R241). The loss has no output of its own: it is the step's (R265, R267; log 36). The saved inputs
of a backward form are its inputs 1 and 2, in the order of the forward form's (log 36). -/
def opBad (kind : PlanKind) (o : Operator) (ts : List Tensor) : Bool :=
  let a := tensorAt ts o.in0
  let b := tensorAt ts o.in1
  let c := tensorAt ts o.in2
  let z := tensorAt ts o.out
  let flo (t : Option Tensor) : Bool := t.any (·.floating)
  let is (t : Option Tensor) (f : Nat) : Bool := t.any (·.fmt == f)
  let same (t u : Option Tensor) : Bool := t.map (fun x => (x.rows, x.len)) == u.map fun x => (x.rows, x.len)
  let len (t : Option Tensor) : Nat := (t.map (·.len)).getD 0
  let rows (t : Option Tensor) : Nat := (t.map (·.rows)).getD 0
  let count (t : Option Tensor) : Nat := rows t * len t
  let p := o.params.toNat
  if o.code = 0x02 then !(is a 1 && b.isSome && is z 0 && len z == len b && count a == (z.map (·.rows)).getD 0)
  else if o.code = 0x03 then !(flo a && is b 0 && flo z && len a ≤ 65536 && same a z && len b == len a)
  else if o.code = 0x04 then !(is a 0 && flo z && same a z && len a % 2 == 0 && len a ≤ 256)
  else if o.code = 0x05 then !(flo a && flo z && same a z && (o.in1 == 0xFFFFFFFF || (flo b && same a b)))
  else if o.code = 0x06 then !(a.isSome && b.isSome && flo z && same a b && same a z)
  else if o.code = 0x07 then !(flo a && is z 0 && same a z && 32 ≤ len a && len a ≤ 256 && len a % 32 == 0)
  else if o.code = 0x08 then
    !(is a 1 && is z 1 && rows z == rows a && len z == 2 * bits p 7 0 && 1 ≤ bits p 7 0 && bits p 7 0 ≤ 16 && 1 ≤ bits p 23 8 && bits p 23 8 ≤ 1024 &&
      bits p 7 0 ≤ bits p 23 8 && len a == bits p 23 8)
  else if o.code = 0x09 then
    !(a.isSome && is b 1 && is z 0 && rows b == rows z && len b % 2 == 0 && rows a == rows z * (len b / 2) && len a == len z &&
      (o.in2 == 0xFFFFFFFF || same c z))
  else if o.code = 0x0A then !(flo a && is z 1 && same a z && len a ≤ 1048576)
  else if o.code = 0x0B then !(flo a && z.any (fun t => isNarrow t.fmt) && same a z)
  else if o.code = 0x0C then !(kind == .decode && is a 1 && is z 1 && count z == rows a)
  else if o.code = 0x0D then !(a.isSome && b.isSome && is z 1)
  else if o.code = 0x0E then !(is a 1 && b.isSome && z.isSome)
  else if o.code = 0x0F then !(a.isSome && flo z && len a == len z && z.any (·.rows == 1))
  else if o.code = 0x10 then !(kind == .tune && flo a && is b 1 && count b == rows a && is z 1 && same a z)
  else if o.code = 0x11 then !(kind == .tune && [a, b, c, z].all fun t => t.all (·.fmt == 1))
  else if o.code = 0x12 then !(is a 1 && is z 1 && same a z && flo b && same a b && (o.in2 == 0xFFFFFFFF || (flo c && same a c)))
  else if o.code = 0x13 then !(is a 1 && is z 1 && same a z && flo b && same a b && is c 0 && len c == len a && len a ≤ 65536)
  else if o.code = 0x14 then !(is a 1 && is z 1 && same a z && 32 ≤ len a && len a ≤ 256 && len a % 32 == 0 && b.all (·.floating) && c.all (·.floating))
  else !(is a 1 && is z 1 && same a z && len a % 2 == 0 && len a ≤ 256)

/-- Check an operator. -/
def checkOp (kind : PlanKind) (ts : List Tensor) (o : Operator) : Except Fail Unit :=
  if o.code = 0x01 then checkMatmul o ts
  else if (o.code = 0x07 ∨ o.code = 0x14) ∧ (Apw.chainIn o.apw.toNat ∨ Apw.chainOut o.apw.toNat) then .error (planBad 0x704)
  else if opBad kind o ts then .error (planBad 0x805) else .ok ()

/-- The chain position and the member count of a MATMUL (Table 8-5). -/
def Operator.pos (o : Operator) : Nat := bits o.params.toNat 47 40
/-- Chain members. -/
def Operator.members (o : Operator) : Nat := bits o.params.toNat 55 48

/-- The task that holds operator i. -/
def taskOf (tasks : List TaskSpec) (i : Nat) : Nat := (tasks.findIdx? fun t => t.firstOp ≤ i && i < t.firstOp + t.ops).getD 0

/-- A chained MATMUL is in its place in one chain (R227). -/
def chainBad (tasks : List TaskSpec) (ops : List (Operator × Nat)) (o : Operator) (i : Nat) : Bool :=
  let w := o.apw.toNat
  if o.code ≠ 0x01 ∨ !(Apw.chainIn w || Apw.chainOut w) then false
  else
    let n := o.members
    let p := o.pos
    let link (q : Operator × Nat) (r : Operator × Nat) : Bool :=
      -- q precedes r in the chain
      q.1.code == 0x01 && r.1.code == 0x01 && q.1.members == n && r.1.members == n && q.1.pos + 1 == r.1.pos && r.1.in2 == q.1.out &&
      Apw.chainOut q.1.apw.toNat && Apw.chainIn r.1.apw.toNat && taskOf tasks q.2 < taskOf tasks r.2
    n < 2 || p ≥ n || Apw.chainIn w != (p > 0) || Apw.chainOut w != (p < n - 1) ||
    (p > 0 && (ops.filter fun q => link q (o, i)).length != 1) || (p < n - 1 && (ops.filter fun r => link (o, i) r).length != 1)

/-! ### Objects and extents (R234) -/

/-- Bytes of the tile records of an output (R237). -/
def tileBytes (w : Nat) (z : Tensor) : Nat := ceilDiv z.len (lanesOf w) * 16 + 4 * z.rows * z.len

/-- The end of a tensor's bytes, with tile records where an operator writes them (R234, R237). -/
def extentWith (ops : List Operator) (i : Nat) (t : Tensor) : Nat :=
  maxN (t.extent :: (ops.filter fun o => o.code == 0x01 && Apw.output o.apw.toNat == 2 && o.out == i).map fun o =>
    t.codes + tileBytes o.apw.toNat t)

/-- The operators that name a tensor. -/
def usersOf (ops : List Operator) (i : Nat) : List Nat :=
  (ops.zipIdx.filter fun o => o.1.in0 == i || o.1.in1 == i || o.1.in2 == i || o.1.out == i).map (·.2)

/-- The object of a tensor is there, may be used, and holds the tensor's bytes. -/
def checkTensorObject (part : Nat) (tasks : List TaskSpec) (ops : List Operator) (s : State) (t : Tensor × Nat) : Except Fail Unit :=
  let out := ops.any (·.out == t.2)
  let stop := extentWith ops t.2 t.1
  if t.1.cls = 4 then .ok ()
  else if t.1.object = 0 then
    failIf ((usersOf ops t.2).any fun i => (tasks[taskOf tasks i]?).any fun k => stop > k.t0) (planBad 0x80C)
  else match (if out then writeFail t.1.object part s else inputFail t.1.object part s) with
    | some f => .error f
    | none => failIf ((s.live? t.1.object).any fun o => stop > o.size) (planBad 0x80C)

/-- The 2 MiB pages of a byte range. -/
def pagesOf (object off len : Nat) : List (Nat × Nat) :=
  if len = 0 then [] else ((List.range ((off + len - 1) / pageBytes + 1)).drop (off / pageBytes)).map fun p => (object, p)

/-- The worst case in µs of the longest non-preemptible operation of a task: its array passes (Table 3-4, R85). -/
def npOf (ops : List Operator) (ts : List Tensor) : Nat :=
  maxN (ops.map fun o => if o.code = 0x01 ∨ o.code = 0x07 ∨ o.code = 0x14 then
    ceilDiv (passCycles o.apw.toNat (Nat.min (rowLimit o.apw.toNat) (((tensorAt ts o.in0).map (·.rows)).getD 1)) true (Apw.transpose o.apw.toNat)) 1500 else 0)

/-- A task entry (Table 8-2). -/
def readTask (p : PlanSrc) (table opn : Nat) (stage : Nat) (dyn : Bool) (g : StageEntry) (last : Bool) (i : Nat) : Except Fail TaskSpec :=
  let o := table + 16 * i
  let fo := p.at_ o 4
  let n := p.at_ (o + 4) 2
  let worst := p.at_ (o + 8) 2
  let t0 := p.at_ (o + 12) 4
  match checks [
    (bits (p.at_ (o + 6) 2) 15 1 != 0 || p.res (o + 10) 2, St.invalidField),
    (n == 0 || fo + n > opn || worst == 0 || worst > 480 || t0 > t0Bytes, planBad 0x80C)] with
  | .error f => .error f
  | .ok _ => .ok { worst, t0, releasing := bit (p.at_ (o + 6) 2) 0, stage, firstOp := fo, ops := n,
                   layerEnd := last && bit g.flags 0,
                   pages := if dyn then [] else g.ranges.flatMap fun r => pagesOf r.object r.off r.len }

/-- The ranges that the stages of each layer read (05 R164): a layer ends with a stage flagged LAYER-END. -/
def layersOf : List (Nat × Nat × Nat) → List StageEntry → List (List (Nat × Nat × Nat))
  | acc, [] => if acc.isEmpty then [] else [acc]
  | acc, g :: r =>
    let now := acc ++ (g.ranges.filter (·.access != 1)).map fun x => (x.object, x.off, x.len)
    if bit g.flags 0 then now :: layersOf [] r else layersOf now r

/-- A plan as its object holds it, with every check that needs no object (R197, R230, R233, R236, R237). -/
def readPlan (kind : PlanKind) (object : Nat) (p : PlanSrc) : Except Fail (Plan × List StageEntry) :=
  let ns := p.hdr 6 2
  let nt := p.hdr 8 4
  let no := p.hdr 12 4
  let nx := p.hdr 16 4
  match checks [
    (p.base + 64 > p.size || p.hdr 0 4 != 0x4E414C50 || p.hdr 4 2 != 1 || ns == 0 || ns > 4096 || nt == 0 || nt > 1048576 ||
      no == 0 || no > 4194304 || nx == 0 || nx > 65536, planBad 0x80C),
    (p.hdr 48 16 != 0, St.invalidField),
    (p.tableBad (p.hdr 32 4) ns 32 || p.tableBad (p.hdr 36 4) nt 16 || p.tableBad (p.hdr 40 4) no 32 ||
      p.tableBad (p.hdr 44 4) nx 48, planBad 0x80C)] with
  | .error f => .error f
  | .ok _ =>
    match readStages p (p.hdr 32 4) nt ns 0 0 with
    | .error f => .error f
    | .ok gs =>
      match mapOf gs.zipIdx fun g =>
        mapOf (List.range g.1.count) fun k =>
          readTask p (p.hdr 36 4) no g.2 (bit g.1.flags 1) g.1 (k + 1 == g.1.count) (g.1.first + k) with
      | .error f => .error f
      | .ok tss => match mapOf (List.range nx) (readTensor p (p.hdr 44 4)) with
        | .error f => .error f
        | .ok ts => match mapOf (List.range no) (readOp p (p.hdr 40 4) nx) with
          | .error f => .error f
          | .ok ops =>
            let tasks := tss.flatten.map fun t => { t with np := npOf ((ops.drop t.firstOp).take t.ops) ts }
            match eachOf ops (checkOp kind ts) with
            | .error f => .error f
            | .ok _ =>
              if ops.zipIdx.any fun o => chainBad tasks ops.zipIdx o.1 o.2 then .error (planBad 0x704)
              else
                let ranges := gs.flatMap (·.ranges)
                let touch := (ops.filter (·.code != 0)).filterMap fun o => (tensorAt ts o.out).map (·.object)
                .ok ({ object, minClusters := p.hdr 20 4, minT1 := p.hdr 24 8, tasks, ops, tensors := ts,
                       dyn := (gs.zipIdx.filter fun g => bit g.1.flags 1).map fun g =>
                         (g.2, g.1.ranges.map fun r => pagesOf r.object r.off r.len),
                       layers := layersOf [] gs,
                       objs := nubN ((ts.map (·.object) ++ ranges.map (·.object)).filter (· != 0)),
                       writes := nubN ((touch ++ (ranges.filter (·.access != 0)).map (·.object)).filter (· != 0)) }, gs)

/-! ### Vocabularies (R247) -/

/-- A vocabulary as its object holds it: N, merges and the offsets of the three areas. -/
structure Vocab where
  data : Mem
  size : Nat

namespace Vocab
/-- Tokens. -/
def n (v : Vocab) : Nat := memLE v.data 4 4
/-- Merges. -/
def merges (v : Vocab) : Nat := memLE v.data 8 4
/-- Token table offset. -/
def tokens (v : Vocab) : Nat := memLE v.data 16 8
/-- Merge table offset. -/
def mergeTable (v : Vocab) : Nat := memLE v.data 24 8
/-- String area offset. -/
def strings (v : Vocab) : Nat := memLE v.data 32 8
/-- Kind of a token: 1 is special. -/
def kind (v : Vocab) (i : Nat) : Nat := memLE v.data (v.tokens + 8 * i + 6) 1
/-- Length of a token's string. -/
def len (v : Vocab) (i : Nat) : Nat := memLE v.data (v.tokens + 8 * i + 4) 2
/-- A token's string. -/
def str (v : Vocab) (i : Nat) : List Byte := memRead v.data (v.strings + memLE v.data (v.tokens + 8 * i) 4) (v.len i)
/-- The token of one byte: the lowest normal token that is this byte. -/
def byteToken (v : Vocab) (b : Byte) : Option Nat := (List.range v.n).find? fun i => v.kind i == 0 && v.str i == [b]
/-- The vocabulary breaks R247 or Table 8-7. -/
def bad (v : Vocab) : Bool :=
  memLE v.data 0 4 != 0x424F4356 || v.n < 256 || v.n > 1048576 || v.merges > 4194304 || v.tokens + 8 * v.n > v.size ||
  v.mergeTable + 12 * v.merges > v.size || v.strings > v.size ||
  (List.range v.n).any (fun i => v.len i == 0 || v.len i > 255 ||
    v.strings + memLE v.data (v.tokens + 8 * i) 4 + v.len i > v.size) ||
  (List.range 256).any fun b => (v.byteToken (BitVec.ofNat 8 b)).isNone
/-- A reserved field is set, or a kind is not one that Table 8-7 lists (00 R13, R15). -/
def reserved (v : Vocab) : Bool :=
  memLE v.data 12 4 != 0 || !allZero (memRead v.data 40 24) ||
  (List.range v.n).any fun i => v.kind i > 1 || memLE v.data (v.tokens + 8 * i + 7) 1 != 0
/-- The rank and result of merging two tokens: the first entry of the merge table that names them and gives a normal token, for no special
token is ever produced (R248; DEDUCED, log 28). -/
def mergeOf (v : Vocab) (a b : Nat) : Option (Nat × Nat) :=
  ((List.range v.merges).find? fun i => memLE v.data (v.mergeTable + 12 * i) 4 == a && memLE v.data (v.mergeTable + 12 * i + 4) 4 == b &&
      memLE v.data (v.mergeTable + 12 * i + 8) 4 < v.n && v.kind (memLE v.data (v.mergeTable + 12 * i + 8) 4) == 0).map
    fun i => (i, memLE v.data (v.mergeTable + 12 * i + 8) 4)
end Vocab

/-- The vocabulary in an object. -/
def State.vocab? (s : State) (id : Nat) : Option Vocab := (s.obj? id).map fun o => { data := s.contents o, size := o.size }

/-- The checks of a vocabulary object (R247). -/
def checkVocab (id part : Nat) (s : State) : Except Fail Unit :=
  match inputFail id part s with
  | some f => .error f
  | none => match s.vocab? id with
    | none => .error (St.objectNotFound id)
    | some v =>
      if v.size ≥ 64 ∧ v.tokens + 8 * v.n ≤ v.size ∧ v.reserved then .error St.invalidField
      else if v.size < 64 ∨ v.bad then .error (planBad 0x806) else .ok ()

/-- TOKENISE and DETOKENISE name a vocabulary in order (R236, R247). -/
def checkPlanVocabs (part : Nat) (p : Plan) (s : State) : Except Fail Unit :=
  eachOf (p.ops.filter fun o => o.code == 0x0D || o.code == 0x0E) fun o => match p.tensors[o.in1]? with
    | none => .ok ()
    | some y => checkVocab y.object part s

/-! ### Loading -/

/-- The objects of a plan: tensors and ranges (R234, R159). -/
def checkObjects (part : Nat) (p : Plan) (gs : List StageEntry) (s : State) : Except Fail Unit :=
  match eachOf (gs.flatMap (·.ranges)) fun r =>
    (match (if r.access = 0 then inputFail r.object part s else writeFail r.object part s) with
     | some f => .error f
     | none => .ok ()) with
  | .error f => .error f
  | .ok _ => eachOf p.tensors.zipIdx (checkTensorObject part p.tasks p.ops s)

/-- The plan's minimums exceed the sizes record of the dome (R128, R34). -/
def tooSmall (p : Plan) (dome : Nat) (s : State) : Bool :=
  p.minClusters > (s.clusters dome).length || (match s.quota dome 1 with
    | some q => p.minT1 > q
    | none => p.minT1 > s.obj.t1Alloc)

/-- Read and check the plan in an object for a command on a dome (R128, R236). -/
def loadPlan (kind : PlanKind) (object base dome : Nat) (s : State) : Except Fail Plan :=
  match inputFail object (s.part dome) s with
  | some f => .error f
  | none => match s.live? object with
    | none => .error (St.objectNotFound object)
    | some o => match readPlan kind object { data := s.contents o, base, size := o.size } with
      | .error f => .error f
      | .ok r => match (checkObjects (s.part dome) r.1 r.2 s).bind fun _ => checkPlanVocabs (s.part dome) r.1 s with
        | .error f => .error f
        | .ok _ => if tooSmall r.1 dome s then .error St.unitTooSmall else .ok r.1

/-- The chain of a plan's tasks: one after another (R75). -/
def planChain (p : Plan) : Chain := { tasks := p.tasks }

/-- A command with a plan becomes outstanding. The arguments lie from byte 0 of the plan's scratch (log 28). -/
def admitPlan (c : Cmd) (p : Plan) (e : Entry) (s : State) : State :=
  enrol { c with plan := some p, objs := nubN (c.objs ++ p.objs), writes := nubN (c.writes ++ p.writes), args := e.input,
                 scratch := memOf e.input, chains := [planChain p] } s

/-- The fill of layer 0 begins when a plan with a STREAM object is admitted, or when the first task's pages are resident (05 R165; its
moment is the last boundary, log 4). -/
def beginFirstFill (src : Src) (s : State) : State :=
  match s.cmd? src with
  | none => s
  | some c =>
    if s.streams c && !(s.clusters c.dome).isEmpty then
      modChain { src, chain := 0 } (fun h =>
        { h with fillStart := if (s.missing h.task.pages).isEmpty then some (s.now 0) else none, filling0 := s.clusters c.dome }) s
    else s

/-- The shape of RUN PLAN. -/
def shapeRunPlan : Shape := ⟨0x85, 0, 0#32, 0#32, 0#32, true, true⟩

/-- RUN_PLAN (04 Table 4-3, R128; 08 R233 to R237). -/
def execRunPlan (e : Entry) (s : State) : Ans :=
  runMilris shapeRunPlan e (fun s =>
    match loadPlan .run (Fe.obj1 e) 0 (Fe.dome e) s with
    | .error f => .error f
    | .ok p => .ok (beginFirstFill e.src (admitPlan (cmdOf e 0x85 [Fe.obj1 e]) p e s))) s

end Sys2Proof.Machine
end

