-- ==== Sys2Proof/Machine/Text.lean ====
section
/-! DEFINITION. Text and tokens (08 R247, R248). -/

namespace Sys2Proof.Machine

open Sys2Proof

/-- The pieces of a text (R247), longer ones still whole. -/
def pieces : List Byte → List Byte → List (List Byte)
  | cur, [] => if cur.isEmpty then [] else [cur]
  | cur, b :: r =>
    let emit (l : List (List Byte)) : List (List Byte) := if cur.isEmpty then l else cur :: l
    if b = 0x0A then emit ([b] :: pieces [] r)
    else if b == 0x20 && !r.isEmpty && r.headD 0 != 0x20 then emit (pieces [b] r)
    else pieces (cur ++ [b]) r

/-- A piece in parts of 1,024 bytes; `fuel` bounds the parts. -/
def cutPiece : Nat → List Byte → List (List Byte)
  | 0, p => [p]
  | k + 1, p => if p.length ≤ 1024 then [p] else p.take 1024 :: cutPiece k (p.drop 1024)

/-- The adjacent pair with the lowest merge rank, leftmost on a tie: its rank, its position and the result. -/
def bestPair (v : Vocab) : Nat → List Nat → Option (Nat × Nat × Nat)
  | i, a :: b :: r =>
    let rest := bestPair v (i + 1) (b :: r)
    match v.mergeOf a b, rest with
    | none, x => x
    | some m, none => some (m.1, i, m.2)
    | some m, some x => if m.1 ≤ x.1 then some (m.1, i, m.2) else some x
  | _, _ => none

/-- Merge until no pair is left; `fuel` bounds the merges. -/
def mergeAll (v : Vocab) : Nat → List Nat → List Nat
  | 0, l => l
  | k + 1, l => match bestPair v 0 l with
    | none => l
    | some m => mergeAll v k (l.take m.2.1 ++ [m.2.2] ++ l.drop (m.2.1 + 2))

/-- TOKENISE (R247). -/
def tokenise (v : Vocab) (text : List Byte) : List Nat :=
  ((pieces [] text).flatMap fun p => cutPiece p.length p).flatMap fun p =>
    mergeAll v p.length (p.map fun b => (v.byteToken b).getD 0)

/-- DETOKENISE (R248): a special token writes nothing. -/
def detokenise (v : Vocab) (ids : List Nat) : List Byte := ids.flatMap fun i => if v.kind i = 0 then v.str i else []

end Sys2Proof.Machine
end

