-- ==== Sys2Proof/Machine/Sequences.lean ====
section
/-! DEFINITION. Sequences and their KV blocks (08 R243 to R246, R253; 06 R199, R200), and which position of which sequence a row of a tensor
stands for (log 34). -/

namespace Sys2Proof.Machine

open Sys2Proof

/-! ### Models (R253) -/

/-- The model header (Table 8-9). -/
structure Model where
  data : Mem
  size : Nat

/-- The shape of a KV block: layers, KV heads, head dimension and quantisation word, from the model header (Table 8-9). -/
structure KvShape where
  layers : Nat
  heads : Nat
  d : Nat
  q : Nat

namespace KvShape
/-- Bytes of a primary row. -/
def row (k : KvShape) : Nat := rowBytes (Qw.fmt k.q) k.d
/-- Bytes of a K8U row in a fallback slot. -/
def slot (k : KvShape) : Nat := rowBytes 6 k.d
/-- Offset of the row scales in a section. -/
def scales (k : KvShape) : Nat := 256 * k.row
/-- Offset of the fallback map. -/
def map (k : KvShape) : Nat := k.scales + (if isNarrow (Qw.fmt k.q) then 512 else 0)
/-- Offset of the fallback slots. -/
def slots (k : KvShape) : Nat := k.map + 64
/-- Bytes of a section, a multiple of 64. -/
def section_ (k : KvShape) : Nat := ceilDiv (k.map + (if Qw.kvFallback k.q then 64 + 32 * k.slot else 0)) 64 * 64
/-- Bytes of a block (R244). -/
def block (k : KvShape) : Nat := 64 + 2 * k.layers * k.heads * k.section_
end KvShape

namespace Model
/-- Query heads. -/
def queryHeads (m : Model) : Nat := memLE m.data 6 2
/-- Model width. -/
def width (m : Model) : Nat := memLE m.data 12 4
/-- Maximum context. -/
def maxCtx (m : Model) : Nat := memLE m.data 20 4
/-- Vocabulary object. -/
def vocab (m : Model) : Nat := memLE m.data 24 6
/-- End token. -/
def endToken (m : Model) : Nat := memLE m.data 32 4
/-- Prefill plan object. -/
def prefill (m : Model) : Nat := memLE m.data 48 6
/-- Decode plan object. -/
def decode (m : Model) : Nat := memLE m.data 56 6
/-- The shape of its KV blocks. -/
def shape (m : Model) : KvShape :=
  { layers := memLE m.data 4 2, heads := memLE m.data 8 2, d := memLE m.data 10 2, q := memLE m.data 40 8 }
/-- The header breaks Table 8-9. -/
def bad (m : Model) : Bool :=
  let k := m.shape
  m.size < 128 || memLE m.data 0 4 != 0x4C444F4D || k.layers == 0 || k.layers > 1024 || m.queryHeads == 0 || m.queryHeads > 256 || k.heads == 0 ||
  m.queryHeads % k.heads != 0 || m.width > 65536 || m.maxCtx < 2 || m.maxCtx > 131072 || memLE m.data 36 4 != k.block
/-- A reserved field is set (00 R13). -/
def reserved (m : Model) : Bool :=
  memLE m.data 30 2 != 0 || memLE m.data 54 2 != 0 || memLE m.data 62 2 != 0 || !allZero (memRead m.data 64 64)
end Model

/-- The model in an object. -/
def State.model (s : State) (id : Nat) : Model := match s.obj? id with
  | some o => { data := s.contents o, size := o.size }
  | none => { data := [], size := 0 }

/-! ### Sequences and the blocks of a pool (R243, R246) -/

/-- The sequences that use a pool. -/
def State.poolSeqs (s : State) (pool : Nat) : List Seq := s.inf.seqs.filter fun q => q.pool == pool && q.admitted

/-- Update a sequence. -/
def modSeq (src : Src) (f : Seq → Seq) (s : State) : State := s.modInf fun x => { x with seqs := updIf (·.src == src) f x.seqs }

/-- The sequence of a command. -/
def State.seq? (s : State) (src : Src) : Option Seq := s.inf.seqs.find? (·.src == src)

/-- The position that a sequence's next decode step processes: that of its last token so far, the last of its prompt at first (log 38). -/
def Seq.nextPos (q : Seq) : Nat := Nat.max q.prompt.length 1 - 1 + q.tokens.length

/-- The blocks that a sequence must hold now (R246): those of its prompt, and those up to its next position. -/
def Seq.needs (q : Seq) : Nat := if q.prefilled then q.nextPos / 256 + 1 else ceilDiv q.prompt.length 256

/-- The shape of a sequence's blocks. -/
def State.shapeOf (s : State) (q : Seq) : KvShape := (s.model q.model).shape

/-- The byte ranges of a pool that sequences hold: start and length. -/
def State.blocksHeld (s : State) (pool : Nat) : List (Nat × Nat) :=
  (s.poolSeqs pool).flatMap fun q => q.blocks.map fun b => (b * (s.shapeOf q).block, (s.shapeOf q).block)

/-- n free blocks of a pool, each the lowest, as block numbers in a block size (R246; the choice of the lowest is log 34). -/
def State.findBlocks (s : State) (pool size : Nat) : Nat → List (Nat × Nat) → Option (List Nat)
  | 0, _ => some []
  | n + 1, held =>
    let free (b : Nat) : Bool := held.all fun r => r.1 + r.2 ≤ b * size || (b + 1) * size ≤ r.1
    match (List.range ((((s.obj? pool).map (·.size)).getD 0) / Nat.max 1 size)).find? free with
    | none => none
    | some b => (s.findBlocks pool size n ((b * size, size) :: held)).map (b :: ·)

/-- The blocks that a sequence lacks, when its pool has them. -/
def State.lacking (s : State) (q : Seq) : Option (List Nat) :=
  s.findBlocks q.pool (s.shapeOf q).block (q.needs - q.blocks.length) (s.blocksHeld q.pool)

/-- A block of a pool that a sequence takes has its header, with every row in its primary place and every fallback slot free (R244, R245;
log 36). -/
def startBlock (k : KvShape) (pool block first : Nat) (s : State) : State :=
  let base := block * k.block
  let hdr := toLE 4 first ++ toLE 2 0 ++ toLE 2 k.layers ++ toLE 2 k.heads ++ toLE 2 k.d ++
    toLE 1 (Qw.fmt k.q) ++ toLE 1 (b2n (Qw.kvFallback k.q)) ++ List.replicate 50 0
  let s1 := writeObj pool base hdr s
  if Qw.kvFallback k.q then
    (List.range (2 * k.layers * k.heads)).foldl (fun s i =>
      writeObj pool (base + 64 + i * k.section_ + k.map) (List.replicate 32 0 ++ List.replicate 32 0xFF) s) s1
  else s1

/-- A sequence takes the blocks that it needs, or pauses (R246). A sequence without the blocks of its prompt waits with its
prefill. -/
def takeBlocks (src : Src) (s : State) : State :=
  match s.seq? src with
  | none => s
  | some q =>
    if q.needs ≤ q.blocks.length then s
    else match s.lacking q with
      | some bs =>
        let s1 := bs.zipIdx.foldl (fun s b => startBlock (s.shapeOf q) q.pool b.1 (256 * (q.blocks.length + b.2)) s) s
        modCmd src (fun c => { c with waiting := false }) (modSeq src (fun q => { q with blocks := q.blocks ++ bs, paused := false }) s1)
      | none =>
        if q.paused then s
        else
          let s1 := modSeq src (fun q => { q with paused := true, pausedAt := s.tick.toNat }) s
          let s2 := if q.prefilled then s1 else modCmd src (fun c => { c with waiting := true }) s1
          ctrPart .genKvPoolPauses q.dome 1 s2

/-! ### Rows of KV blocks (R244, R245; 06 R199, R200) -/

/-- The place of a KV row: pool, block, layer, KV head, whether it is a value row, and the row in its block. -/
structure KvAt where
  pool : Nat
  block : Nat
  layer : Nat
  head : Nat
  value : Bool
  row : Nat
deriving DecidableEq, Repr

/-- The offset of a row's section in the pool (R244). -/
def KvShape.at_ (k : KvShape) (a : KvAt) : Nat :=
  a.block * k.block + 64 + (2 * (a.layer * k.heads + a.head) + b2n a.value) * k.section_

/-- The place of a position of a sequence, when the sequence holds its block. -/
def Seq.kvAt (q : Seq) (layer head : Nat) (value : Bool) (pos : Nat) : Option KvAt :=
  (q.blocks[pos / 256]?).map fun b => { pool := q.pool, block := b, layer, head, value, row := pos % 256 }

/-- The fallback slot that holds a row (R245). -/
def State.slotWith (s : State) (k : KvShape) (a : KvAt) : Option Nat :=
  let m := s.objBytes a.pool (k.at_ a + k.map) 64
  if Qw.kvFallback k.q && bit (le m (a.row / 8) 1) (a.row % 8) then ((m.drop 32).findIdx? (· == BitVec.ofNat 8 a.row)) else none

/-- The slot for a row that is to be written in K8U: its own, or the first free one (R245). -/
def State.slotFor (s : State) (k : KvShape) (a : KvAt) : Option Nat :=
  if !Qw.kvFallback k.q then none
  else (s.slotWith k a).orElse fun _ => (s.objBytes a.pool (k.at_ a + k.map + 32) 32).findIdx? (· == 0xFF)

/-- Record whether a row is in a fallback slot, and which (R244). -/
def markRow (k : KvShape) (a : KvAt) (slot : Option Nat) (s : State) : State :=
  let o := k.at_ a + k.map
  let v := le (s.objBytes a.pool (o + a.row / 8) 1) 0 1
  let mask := 2 ^ (a.row % 8)
  let free := match s.slotWith k a with
    | some n => writeObj a.pool (o + 32 + n) [0xFF] s
    | none => s
  let s1 := writeObj a.pool (o + a.row / 8) (toLE 1 (v - v / mask % 2 * mask + (if slot.isSome then mask else 0))) free
  match slot with
  | some n => writeObj a.pool (o + 32 + n) (toLE 1 a.row) s1
  | none => s1

/-- Write a KV row, or its bytes from an offset on (R244, R245): its codes, in the primary rows or, with SKIP there, in a fallback slot; its
scale when its format has one; and the positions that the block holds. -/
def putKv (k : KvShape) (a : KvAt) (slot : Option Nat) (off : Nat) (codes : List Byte) (scale : Option Nat) (s : State) : State :=
  let o := k.at_ a
  let s1 := if Qw.kvFallback k.q then markRow k a slot s else s
  let s2 := match slot with
    | none => writeObj a.pool (o + a.row * k.row + off) codes s1
    | some n => writeObj a.pool (o + k.slots + n * k.slot) codes
        (writeObj a.pool (o + a.row * k.row) (packRow (Qw.fmt k.q) (List.replicate k.d (padCode (Qw.fmt k.q)))) s1)
  let s3 := match scale with
    | some sc => writeObj a.pool (o + k.scales + 2 * a.row) (toLE 2 sc) s2
    | none => s2
  let now := ofLE (s3.objBytes a.pool (a.block * k.block + 4) 2)
  writeObj a.pool (a.block * k.block + 4) (toLE 2 (Nat.max now (a.row + 1))) s3

/-- A KV row as the thread engines and the arrays take it: its format, its codes and its scale (R240, R244). -/
def State.kvRow (s : State) (k : KvShape) (a : KvAt) : Nat × List Byte × Nat :=
  let o := k.at_ a
  let sc := ofLE (s.objBytes a.pool (o + k.scales + 2 * a.row) 2)
  match s.slotWith k a with
  | some n => (6, s.objBytes a.pool (o + k.slots + n * k.slot) k.slot, sc)
  | none => (Qw.fmt k.q, s.objBytes a.pool (o + a.row * k.row) k.row, sc)

/-! ### What a row stands for (log 34) -/

/-- The token IDs that one pass of a plan takes: those of its first GATHER; 0 when it has none. -/
def Plan.capacity (p : Plan) : Nat := match p.ops.find? (·.code == 0x02) with
  | none => 0
  | some o => match p.tensors[o.in0]? with
    | some x => x.rows * x.len
    | none => 0

/-- The passes that a plan makes over some tokens: at least one. -/
def Plan.passes (p : Plan) (n : Nat) : Nat := if p.capacity = 0 then 1 else Nat.max 1 (ceilDiv n p.capacity)

/-- The pass of its plan that a chain is in. -/
def Chain.pass (h : Chain) (c : Cmd) : Nat := h.done / Nat.max 1 ((c.plan.map (·.tasks.length)).getD 1)

/-- The examples of a step, counted from 0: they wrap to the first after the last (R264). -/
def TuneRun.stepExamples (r : TuneRun) (step : Nat) : List (Nat × List Nat) :=
  (List.range r.batch).filterMap fun j => r.examples[(step * r.batch + j) % Nat.max 1 r.examples.length]?

/-- The tokens of a step's examples, in order. -/
def TuneRun.stepTokens (r : TuneRun) (step : Nat) : List Nat := (r.stepExamples step).flatMap (·.2)

/-- The passes of the plan before the step at hand. -/
def TuneRun.passBase (r : TuneRun) (p : Plan) : Nat := sumN ((List.range r.step).map fun j => p.passes (r.stepTokens j).length)

/-- The pass over the tokens of a command's prompt, batch, text or step that a chain is in, from 0. -/
def State.passOf (s : State) (c : Cmd) (h : Chain) : Nat :=
  if s.inf.embeds.any (·.src == c.src) then 0
  else match s.inf.tunes.find? (·.src == c.src), c.plan with
    | some u, some p => h.pass c - u.passBase p
    | _, _ => h.pass c

/-- The position of token n of some examples in its example, and whether it is a target position (R264). -/
def tokenAt : List (Nat × List Nat) → Nat → Option (Nat × Bool)
  | [], _ => none
  | (targets, ids) :: r, n => if n < ids.length then some (n, n + targets ≥ ids.length) else tokenAt r (n - ids.length)

/-- What a row stands for: the token slot in its command's pass, the head within it, its sequence and its position. -/
structure RowAt where
  slot : Nat
  head : Nat
  heads : Nat
  seq : Option Seq
  pos : Nat

/-- Row r of a tensor of some rows: a pass takes as many token slots as its first GATHER has IDs, and a slot has an equal part of the rows. -/
def State.rowAt (s : State) (c : Cmd) (h : Chain) (rows r : Nat) : RowAt :=
  let cap := (c.plan.map Plan.capacity).getD 0
  let n := if cap = 0 ∨ rows % cap ≠ 0 then Nat.max 1 rows else cap
  let per := Nat.max 1 (rows / n)
  let slot := s.passOf c h * n + r / per
  let at_ (q : Option Seq) (pos : Nat) : RowAt := { slot, head := r % per, heads := per, seq := q, pos }
  if c.src.decodes then match (c.batch[slot]?).bind s.seq? with
    | some q => at_ (some q) q.nextPos
    | none => at_ none 0
  else match s.seq? c.src with
    | some q => at_ (if slot < q.prompt.length then some q else none) slot
    | none => match s.inf.tunes.find? (·.src == c.src) with
      | some u => at_ none (((tokenAt (u.stepExamples u.step) slot).map (·.1)).getD slot)
      | none => at_ none slot

/-- Two tensors have bytes in common. -/
def Tensor.meets (x y : Tensor) : Bool :=
  x.cls != 4 && y.cls != 4 && x.object == y.object && x.codes < y.codes + y.rows * y.rowBytes && y.codes < x.codes + x.rows * x.rowBytes

/-- The MATMUL that the rows of a tensor come from, among the first n operators of a plan: the last operator that wrote them, or the one
that its own input 0 comes from. -/
def Plan.origin (p : Plan) : Nat → Nat → Option Operator
  | 0, _ => none
  | n + 1, i => match p.ops[n]? with
    | none => p.origin n i
    | some o =>
      let same := o.out == i || (match p.tensors[o.out]?, p.tensors[i]? with
        | some z, some x => z.meets x
        | _, _ => false)
      if !same then p.origin n i else if o.code = 0x01 then some o else p.origin n o.in0

/-- Layer and projection of a MATMUL (Table 8-5). -/
def Operator.layer (o : Operator) : Nat := bits o.params.toNat 15 0
/-- Projection. -/
def Operator.projection (o : Operator) : Nat := bits o.params.toNat 23 16

/-- Where row r of a KV tensor that an operator writes is stored: in the blocks of the row's sequence, for keys and values that a MATMUL's
projection tells; and the shape of those blocks. none: nothing says where (log 34). -/
def State.kvPlace (s : State) (c : Cmd) (h : Chain) (p : Plan) (op : Nat) (o : Operator) (z : Tensor) (r : Nat) : Option (KvShape × KvAt) :=
  let a := s.rowAt c h z.rows r
  match a.seq, (if o.code = 0x01 then some o else p.origin op o.in0) with
  | some q, some m =>
    let k := s.shapeOf q
    let proj := m.projection
    if (proj = 1 ∨ proj = 2) ∧ m.layer < k.layers ∧ a.head < k.heads ∧ a.heads = k.heads ∧ z.len = k.d ∧ z.fmt = Qw.fmt k.q then
      (q.kvAt m.layer a.head (proj == 2) a.pos).map fun x => (k, x)
    else none
  | _, _ => none

end Sys2Proof.Machine
end

