-- ==== Sys2Proof/Machine/Adapters.lean ====
section
/-! DEFINITION. Adapters: the header, the targets and the factors, as stored and as TUNE quantises its masters (08 R249 to R252, R265). -/

namespace Sys2Proof.Machine

open Sys2Proof

/-- The adapter header and its target entries (Table 8-8). -/
structure Adapter where
  data : Mem
  size : Nat

/-- A target of an adapter: layer, projection, format, expert, K, N and the offsets of A's and B's codes and scales. -/
structure Target where
  layer : Nat
  proj : Nat
  fmt : Nat
  expert : Nat
  k : Nat
  n : Nat
  aCodes : Nat
  aScales : Nat
  bCodes : Nat
  bScales : Nat

namespace Adapter
/-- Rank r. -/
def rank (a : Adapter) : Nat := memLE a.data 4 2
/-- Target entries. -/
def count (a : Adapter) : Nat := memLE a.data 6 2
/-- Base model object. -/
def base (a : Adapter) : Nat := memLE a.data 8 6
/-- α, binary16. -/
def alpha (a : Adapter) : Nat := memLE a.data 16 2
/-- Version. -/
def version (a : Adapter) : Nat := memLE a.data 20 4
/-- Training section offset. -/
def training (a : Adapter) : Nat := memLE a.data 24 8
/-- Target i. -/
def target (a : Adapter) (i : Nat) : Target :=
  let o := 64 + 48 * i
  { layer := memLE a.data o 2, proj := memLE a.data (o + 2) 1, fmt := memLE a.data (o + 3) 1, expert := memLE a.data (o + 4) 2,
    k := memLE a.data (o + 8) 4, n := memLE a.data (o + 12) 4, aCodes := memLE a.data (o + 16) 8, aScales := memLE a.data (o + 24) 8,
    bCodes := memLE a.data (o + 32) 8, bScales := memLE a.data (o + 40) 8 }
/-- The targets. -/
def targets (a : Adapter) : List Target := (List.range a.count).map a.target
/-- The header or an entry breaks Table 8-8. -/
def bad (a : Adapter) : Bool :=
  a.size < 64 || memLE a.data 0 4 != 0x5041444C || a.rank == 0 || a.rank > 256 || a.count == 0 || 64 + 48 * a.count > a.size
/-- A reserved field is set, or a projection or format is not one that Table 8-8 lists (00 R13, R15). -/
def reserved (a : Adapter) : Bool :=
  memLE a.data 14 2 != 0 || memLE a.data 18 2 != 0 || !allZero (memRead a.data 32 32) ||
  (List.range a.count).any (fun i => memLE a.data (64 + 48 * i + 6) 2 != 0) ||
  a.targets.any fun t => t.proj > 8 || (t.fmt != 2 && t.fmt != 6)
/-- Elements of a target's two factors: r × (K + N). -/
def elems (a : Adapter) (t : Target) : Nat := a.rank * (t.k + t.n)
end Adapter

/-- The adapter in an object. -/
def State.adapter (s : State) (id : Nat) : Adapter := match s.obj? id with
  | some o => { data := s.contents o, size := o.size }
  | none => { data := [], size := 0 }

/-- A stored factor's rows (R249): group mode, G = 32. -/
def storedFactor (m : Mem) (fmt codes scales rows len : Nat) : List (List Cell) :=
  (List.range rows).map fun r =>
    (rowLevels fmt len (memRead m (codes + r * rowBytes fmt len) (rowBytes fmt len))).zipIdx.map fun l =>
      (l.1, memLE m (scales + 2 * (r * ceilDiv len 32 + l.2 / 32)) 2)

/-- The group scales of a row of masters, each derived as R193 derives a row's (R265). -/
def groupScales (fmt len : Nat) (row : List Nat) : List Nat :=
  (List.range (ceilDiv len 32)).map fun g => dynScale fmt ((row.drop (32 * g)).take 32)

/-- A factor's rows as quantised from binary32 masters (R265). -/
def masterFactor (fmt rows len : Nat) (xs : List Nat) : List (List Cell) :=
  (List.range rows).map fun r =>
    let row := (xs.drop (r * len)).take len
    let sc := groupScales fmt len row
    row.zipIdx.map fun x => ((quantElem fmt x.1 (sc.getD (x.2 / 32) 0)).level, sc.getD (x.2 / 32) 0)

/-- The elements of all factors. -/
def Adapter.total (a : Adapter) : Nat := sumN (a.targets.map a.elems)

/-- The factors of a target that a command's MATMUL takes with W·x (R251, R252, R265): α ÷ r, the format, A's rows and B's. -/
structure AdapterPath where
  scale : Nat
  fmt : Nat
  a : List (List Cell)
  b : List (List Cell)

/-- α ÷ r in binary32. -/
def Adapter.factor (a : Adapter) : Nat := div32 (widen a.alpha) (ofNat32 a.rank)

/-- The contents of an adapter at a version: the current object, or the version kept for running sequences (R252). -/
def State.adapterAt (s : State) (id version : Nat) : Adapter :=
  match s.inf.versions.find? fun v => v.1 == id && v.2.1 == version with
  | some v => { data := v.2.2, size := (s.adapter id).size }
  | none => s.adapter id

/-- The target of a MATMUL's layer, projection and expert, with its number. -/
def Adapter.match_ (a : Adapter) (params k n : Nat) : Option (Target × Nat) :=
  a.targets.zipIdx.find? fun t => t.1.layer == bits params 15 0 && t.1.proj == bits params 23 16 && t.1.expert == bits params 39 24 &&
    t.1.k == k && t.1.n == n

/-- The adapter that a row's products take: an adapter object with the version that the row's sequence is bound to, or with none the masters
of a TUNE on it (R251, R252, R265). -/
abbrev AdapterUse := Nat × Option Nat

/-- The adapter of row r of some rows of a command. -/
def State.adapterUse (s : State) (c : Cmd) (h : Chain) (rows r : Nat) : Option AdapterUse :=
  match s.inf.tunes.find? (·.src == c.src) with
  | some u => some (u.adapter, none)
  | none =>
    match (if c.src.decodes then (s.rowAt c h rows r).seq else s.seq? c.src) with
    | some q => if q.adapter = 0 then none else some (q.adapter, some q.version)
    | none => none

/-- The offset of a target's elements among the masters of its adapter (R266). -/
def Adapter.masterAt (a : Adapter) (i : Nat) : Nat := sumN ((a.targets.take i).map a.elems)

/-- The factors that an adapter gives a MATMUL of reduction k and width n: those stored, or the masters of a command's TUNE in K8U. -/
def State.adapterPath (s : State) (src : Src) (u : AdapterUse) (o : Operator) (k n : Nat) : Option AdapterPath :=
  match u.2 with
  | some v =>
    let a := s.adapterAt u.1 v
    (a.match_ o.params.toNat k n).map fun t =>
      { scale := a.factor, fmt := t.1.fmt, a := storedFactor a.data t.1.fmt t.1.aCodes t.1.aScales a.rank k
        b := storedFactor a.data t.1.fmt t.1.bCodes t.1.bScales n a.rank }
  | none => match s.inf.tunes.find? (·.src == src) with
    | none => none
    | some r =>
      let a := s.adapter r.adapter
      (a.match_ o.params.toNat k n).map fun t =>
        let w := (r.w.drop (a.masterAt t.2)).map (·.toNat)
        { scale := a.factor, fmt := 6, a := masterFactor 6 a.rank k w, b := masterFactor 6 n a.rank (w.drop (a.rank * k)) }

end Sys2Proof.Machine
end

