-- ==== Sys2Proof/Machine/Elementary.lean ====
section
/-! DEFINITION. The functions that the thread engines compute to within 2 units in the last place, and their sums (08 R238, R239; 07 R229;
11 R348). Each function has an exact reference in fixed point, in units of 2⁻⁶⁰⁰, rounded to binary32; how many units in the last place
a result lies off it is free (log 27). -/

namespace Sys2Proof.Machine

open Sys2Proof

/-! ### Fixed point -/

/-- One. -/
def fxOne : Int := 2 ^ 600
/-- A finite binary32 value. -/
def fxOf (x : Nat) : Int := int32 x * 2 ^ 451
/-- A product. -/
def fxMul (a b : Int) : Int := a * b / fxOne
/-- A quotient. -/
def fxDiv (a b : Int) : Int := a * fxOne / b
/-- The nearest binary32 value. -/
def fxOut (v : Int) : Nat := rn32 v 1 (-600)

/-- The terms y^i ÷ i! of the exponential series from term n down. -/
def expSum (y : Int) : Nat → Int → Int
  | 0, acc => acc
  | n + 1, acc => expSum y n (fxOne + fxMul y acc / (n + 1 : Nat))

/-- A value squared n times. -/
def fxSquare : Nat → Int → Int
  | 0, v => v
  | n + 1, v => fxSquare n (fxMul v v)

/-- exp of a value of magnitude at most 128: the series for its 4,096th part, squared 12 times. -/
def fxExp (y : Int) : Int := fxSquare 12 (expSum (y / 4096) 60 fxOne)

/-- arctan (1 ÷ k): k^−(2n + 1) ÷ (2n + 1) with alternating signs, from term n on. -/
def fxAtan (k : Nat) : Nat → Nat → Int → Int
  | 0, _, _ => 0
  | fuel + 1, n, p => (if n % 2 = 0 then p / (2 * n + 1 : Nat) else -(p / (2 * n + 1 : Nat))) + fxAtan k fuel (n + 1) (p / (k * k : Nat))

/-- π. -/
def fxPi : Int := 16 * fxAtan 5 140 0 (fxOne / 5) - 4 * fxAtan 239 50 0 (fxOne / 239)

/-- The series of sine (first term y at i = 1) and of cosine (1 at i = 0), with q = y². -/
def trigSum (q : Int) : Nat → Nat → Int → Int
  | 0, _, _ => 0
  | fuel + 1, i, term => term + trigSum q fuel (i + 2) (-(fxMul term q / ((i + 1) * (i + 2) : Nat)))

/-- An angle less its whole turns. -/
def fxTurn (y : Int) : Int := y % (2 * fxPi)

/-- The series of erf for a value of magnitude below 4: y^(2n + 1) ÷ (n! × (2n + 1)) with alternating signs. -/
def erfSum (q : Int) : Nat → Nat → Int → Int
  | 0, _, _ => 0
  | fuel + 1, n, term => term / (2 * n + 1 : Nat) + erfSum q fuel (n + 1) (-(fxMul term q / (n + 1 : Nat)))

/-- √π. -/
def fxRootPi : Int := (isqrt (fxPi * fxOne).toNat 700 0 (2 ^ 602) : Nat)

/-! ### The functions (R238) -/

/-- A binary32 value some units in the last place off a reference, at most 2 (R238). -/
def ulpsOff (function x ref : Nat) : Nat :=
  let m := f32.mag ref + Config.ulps function x % 5 - 2
  f32.signed (f32.neg ref) (Nat.min m (f32.inf - 1))

/-- exp. -/
def exp32 (x : Nat) : Nat :=
  if f32.nan x then nan32
  else if x = 0xFF800000 then 0
  else if lt32 0x42B17217 x then f32.inf
  else if lt32 x 0xC2D20000 then ulpsOff 0 x 0
  else ulpsOff 0 x (fxOut (fxExp (fxOf x)))

/-- Sigmoid, 1 ÷ (1 + exp (−x)). -/
def sigmoid32 (x : Nat) : Nat :=
  if f32.nan x then nan32
  else if x = 0xFF800000 then 0
  else if x = f32.inf then 0x3F800000
  else if lt32 0x42D20000 (f32.mag x) then ulpsOff 1 x (if f32.neg x then 0 else 0x3F800000)
  else
    let e := fxExp (-(fxOf (f32.mag x)))
    ulpsOff 1 x (fxOut (fxDiv (if f32.neg x then e else fxOne) (fxOne + e)))

/-- erf. -/
def erf32 (x : Nat) : Nat :=
  if f32.nan x then nan32
  else if f32.isInf x then f32.signed (f32.neg x) 0x3F800000
  else if lt32 0x40800000 (f32.mag x) then ulpsOff 2 x (f32.signed (f32.neg x) 0x3F800000)
  else
    let y := fxOf x
    ulpsOff 2 x (fxOut (fxDiv (2 * erfSum (fxMul y y) 160 0 y) fxRootPi))

/-- Sine; NaN for ±∞. -/
def sin32 (x : Nat) : Nat :=
  if !f32.fin x then nan32
  else
    let y := fxTurn (fxOf x)
    ulpsOff 3 x (fxOut (trigSum (fxMul y y) 90 1 y))

/-- Cosine; NaN for ±∞. -/
def cos32 (x : Nat) : Nat :=
  if !f32.fin x then nan32
  else
    let y := fxTurn (fxOf x)
    ulpsOff 4 x (fxOut (trigSum (fxMul y y) 90 0 fxOne))

/-! ### Sums -/

/-- The sum of some values by additions of two at a time, in an order that is free (07 R229; log 27). -/
def sumAny (add : Nat → Nat → Nat) : Nat → List Nat → Nat
  | _, [] => 0
  | _, [x] => x
  | 0, x :: _ => x
  | n + 1, l =>
    let p := Config.sumPick l
    let i := p.1 % l.length
    let r := l.eraseIdx i
    let j := p.2 % r.length
    sumAny add n (add (l.getD i 0) (r.getD j 0) :: r.eraseIdx j)

/-- The sum of binary32 terms by the thread engines (R238). -/
def sum32 (l : List Nat) : Nat := sumAny add32 l.length l

/-- The sum of binary64 terms by a filter engine (11 R348). -/
def sum64 (l : List Nat) : Nat := sumAny add64 l.length l

end Sys2Proof.Machine
end

