-- ==== Sys2Proof/Machine/Training.lean ====
section
/-! DEFINITION. The arithmetic of TUNE: the loss and its gradients, the backward forms of the thread engines' operators, the gradients of
factors, and AdamW (08 R237 to R239, R264 to R266). Log 36 says which gradient each backward form gives. -/

namespace Sys2Proof.Machine

open Sys2Proof

/-- The TUNE run of a command. -/
def State.tune? (s : State) (src : Src) : Option TuneRun := s.inf.tunes.find? (·.src == src)

/-- Update a TUNE run. -/
def modTune (src : Src) (f : TuneRun → TuneRun) (s : State) : State := s.modInf fun x => { x with tunes := updIf (·.src == src) f x.tunes }

/-! ### Rows of the thread engines (R239) -/

/-- The largest of binary32 values that are not NaN, −∞ for none. -/
def max32 (xs : List Nat) : Nat := xs.foldl (fun m x => if lt32 m x then x else m) 0xFF800000

/-- SOFTMAX (R239): the row, and whether it was all −∞. -/
def softmax (xs : List Nat) : List Nat × Bool :=
  if xs.any f32.nan then (xs.map fun _ => nan32, false)
  else if xs.all (· == 0xFF800000) then (xs.map fun _ => 0, true)
  else
    let m := max32 xs
    let es := xs.map fun x => if x = 0xFF800000 then 0 else exp32 (sub32 x m)
    let t := sum32 es
    (es.map fun e => div32 e t, false)

/-- The mean square of a row and ε: the ρ² of RMSNORM (R239). -/
def meanSquare (eps : Nat) (xs : List Nat) : Nat := add32 (div32 (sum32 (xs.map fun x => mul32 x x)) (ofNat32 xs.length)) eps

/-- RMSNORM (R239): x × g ÷ √(Σx² ÷ n + ε). -/
def rmsnorm (eps : Nat) (xs gs : List Nat) : List Nat :=
  let d := sqrt32 (meanSquare eps xs)
  (xs.zip gs).map fun p => div32 (mul32 p.1 p.2) d

/-- 1 + erf (x ÷ √2). -/
def onePlusErf (x : Nat) : Nat := add32 0x3F800000 (erf32 (div32 x 0x3FB504F3))

/-- SiLU or GELU (R239). -/
def activate (gelu : Bool) (x : Nat) : Nat :=
  if gelu then div32 (mul32 x (onePlusErf x)) 0x40000000 else mul32 x (sigmoid32 x)

/-- ROTARY (R239) of a row at a position, by the angle or by its negative. -/
def rotary (back : Bool) (theta scale pos d : Nat) : Nat → List Nat → List Nat
  | i, a :: b :: r =>
    let ang := mul32 (mul32 (ofNat32 pos) scale) (Config.pow32 theta (neg32 (div32 (ofNat32 (2 * i)) (ofNat32 d))))
    let c := cos32 ang
    let n := if back then neg32 (sin32 ang) else sin32 ang
    sub32 (mul32 a c) (mul32 b n) :: add32 (mul32 a n) (mul32 b c) :: rotary back theta scale pos d (i + 1) r
  | _, l => l

/-! ### Backward forms -/

/-- The derivative of SiLU or GELU. -/
def activateSlope (gelu : Bool) (x : Nat) : Nat :=
  if gelu then
    -- (1 + erf (x ÷ √2)) ÷ 2 + x × exp (−x² ÷ 2) ÷ √(2π)
    add32 (div32 (onePlusErf x) 0x40000000) (mul32 x (div32 (exp32 (neg32 (div32 (mul32 x x) 0x40000000))) 0x40206C99))
  else
    let g := sigmoid32 x
    mul32 g (add32 0x3F800000 (mul32 x (sub32 0x3F800000 g)))

/-- The gradient of RMSNORM for its input: g × dy ÷ ρ − x × Σ (g × dy × x) ÷ (n × ρ³). -/
def rmsnormBack (eps : Nat) (dys xs gs : List Nat) : List Nat :=
  let p2 := meanSquare eps xs
  let p := sqrt32 p2
  let gd := (gs.zip dys).map fun q => mul32 q.1 q.2
  let k := div32 (sum32 ((gd.zip xs).map fun q => mul32 q.1 q.2)) (mul32 (ofNat32 xs.length) (mul32 p2 p))
  (gd.zip xs).map fun q => sub32 (div32 q.1 p) (mul32 q.2 k)

/-! ### Loss (R264, R265) -/

/-- The target positions of a step. -/
def TuneRun.targets (r : TuneRun) : Nat := sumN ((r.stepExamples r.step).map (·.1))

/-- The cross-entropy of a row of logits with a target: log Σ exp (z − max) + max − z of the target. -/
def crossEntropy (zs : List Nat) (target : Nat) : Nat :=
  let m := max32 zs
  sub32 (add32 (Config.log32 (sum32 (zs.map fun z => exp32 (sub32 z m)))) m) (zs.getD target 0)

/-- The gradient of the mean loss for a row of logits: (softmax − one-hot) ÷ target positions. -/
def lossGradient (zs : List Nat) (target count : Nat) : List Nat :=
  (softmax zs).1.zipIdx.map fun p => div32 (if p.2 = target then sub32 p.1 0x3F800000 else p.1) (ofNat32 count)

/-! ### Factor gradients (R265) -/

/-- The outer product of two rows times a factor, row-major. -/
def outer (k : Nat) (us vs : List Nat) : List DWord := us.flatMap fun u => vs.map fun v => BitVec.ofNat 32 (mul32 k (mul32 u v))

/-- One row's terms of a target's gradients: ∂A from Bᵀ·g and x, ∂B from g and A·x, at the target's place among the masters. -/
def gradientTerms (a : Adapter) (i : Nat) (t : Target) (g bg x ax : List Nat) : List (Nat × List DWord) :=
  [(a.masterAt i, outer a.factor bg x), (a.masterAt i + a.rank * t.k, outer a.factor g ax)]

/-- The gradient of master i: the sum of its terms; 0 without any. -/
def TuneRun.gradient (r : TuneRun) (i : Nat) : Nat :=
  sum32 (r.grads.filterMap fun e => if e.1 ≤ i ∧ i < e.1 + e.2.length then some (e.2.getD (i - e.1) 0).toNat else none)

/-! ### ADAPTER STEP (R266) -/

/-- One element of ADAPTER STEP (R266): the new master, m and v. -/
def adamw (r : TuneRun) (t q w m v : Nat) : Nat × Nat × Nat :=
  let one := 0x3F800000
  let m1 := add32 (mul32 r.beta1.toNat m) (mul32 (sub32 one r.beta1.toNat) q)
  let v1 := add32 (mul32 r.beta2.toNat v) (mul32 (mul32 (sub32 one r.beta2.toNat) q) q)
  let mh := div32 m1 (sub32 one (Config.pow32 r.beta1.toNat (ofNat32 t)))
  let vh := div32 v1 (sub32 one (Config.pow32 r.beta2.toNat (ofNat32 t)))
  let step := add32 (div32 mh (add32 (sqrt32 vh) r.eps.toNat)) (mul32 r.lambda.toNat w)
  (sub32 w (mul32 r.eta.toNat step), m1, v1)

/-- The norm of the gradients over all factors. -/
def normGrads (g : List Nat) : Nat := sqrt32 (sum32 (g.map fun q => mul32 q q))

/-- The gradients after clipping (R266). -/
def clipped (clip norm : Nat) (g : List Nat) : List Nat :=
  if lt32 0 clip && lt32 clip norm then g.map fun q => div32 (mul32 q clip) norm else g

/-- The gradients of a step, master by master. -/
def TuneRun.gradients (r : TuneRun) : List Nat := (List.range r.w.length).map r.gradient

/-- The run after ADAPTER STEP on the gradients of its step (R266). -/
def TuneRun.stepped (r : TuneRun) : TuneRun :=
  let g := r.gradients
  let n := ((clipped r.clip.toNat (normGrads g) g).zip (r.w.zip (r.m.zip r.v))).map fun x =>
    adamw r (r.t + 1) x.1 x.2.1.toNat x.2.2.1.toNat x.2.2.2.toNat
  { r with t := r.t + 1, w := n.map fun x => BitVec.ofNat 32 x.1,
           m := n.map fun x => BitVec.ofNat 32 x.2.1, v := n.map fun x => BitVec.ofNat 32 x.2.2 }

end Sys2Proof.Machine
end

