-- ==== Sys2Proof/Machine/Operators.lean ====
section
/-! DEFINITION. Tensors in memory, the operators that the thread engines compute (08 R237 to R242, R247, R248; 06 R186, R187, R195), and how a
task goes from operator to operator. The matrix products, attention, the quantiser and the selection unit have commands of their own. -/

namespace Sys2Proof.Machine

open Sys2Proof

/-- Bytes that a tensor's descriptor names: in its object, or in the command's scratch. -/
def State.tensorBytes (s : State) (c : Cmd) (x : Tensor) (off n : Nat) : List Byte :=
  if x.object = 0 then memRead c.scratch off n else s.objBytes x.object off n

/-- Row r of a tensor, packed. -/
def State.rowOf (s : State) (c : Cmd) (x : Tensor) (r : Nat) : List Byte := s.tensorBytes c x (x.codes + r * x.rowBytes) x.rowBytes

/-- The format and scale that the quantiser gave a row of a row-dynamic tensor (06 R186). -/
def State.rowScale (s : State) (c : Cmd) (x : Tensor) (r : Nat) : Nat × Nat :=
  let hit := if x.object = 0 then
      (c.rowScales.find? fun e => e.1 == x.codes && e.2.1 == r).map fun e => (e.2.2.1, e.2.2.2.toNat)
    else (s.qnt.rowScales.find? fun e => e.1 == x.object && e.2.1 == x.codes && e.2.2.1 == r).map fun e => (e.2.2.2.1, e.2.2.2.2.toNat)
  hit.getD (x.fmt, 0)

/-- Record the format and scale of a row. Table 8-3 gives no place for row scales: they stand beside the object's bytes, and a row that the
quantiser has not written has the scale +0 (DESIGN CHOICE, log 35). -/
def setRowScale (src : Src) (x : Tensor) (r f sc : Nat) (s : State) : State :=
  let v := BitVec.ofNat 16 sc
  if x.object = 0 then
    let other (e : Nat × Nat × Nat × BitVec 16) : Bool := !(e.1 == x.codes && e.2.1 == r)
    modCmd src (fun c => { c with rowScales := (x.codes, r, f, v) :: c.rowScales.filter other }) s
  else
    let other (e : Nat × Nat × Nat × Nat × BitVec 16) : Bool := !(e.1 == x.object && e.2.1 == x.codes && e.2.2.1 == r)
    s.modQnt fun q => { q with rowScales := (x.object, x.codes, r, f, v) :: q.rowScales.filter other }

/-- The stored scale of group g of row r (06 R186). -/
def State.groupScale (s : State) (c : Cmd) (x : Tensor) (r g : Nat) : Nat :=
  ofLE (s.tensorBytes c x (x.scales + 2 * (r * x.groups + g)) 2)

/-- The scale that governs element j of row r, given the static scale in force (06 R180, R194). -/
def State.scaleAt (s : State) (c : Cmd) (x : Tensor) (static : Nat) (r j : Nat) : Nat :=
  if x.grouped then s.groupScale c x r (j / Qw.group x.q)
  else if Qw.mode x.q = 1 then (s.rowScale c x r).2 else static

/-- The static scale of a tensor for a task (14 R406, R410): the one in force at the task's dispatch, or the word's. -/
def State.staticScale (s : State) (t : TaskRef) (c : Cmd) (i : Nat) (x : Tensor) : Nat :=
  match s.qnt.slots.find? fun w => w.dome == c.dome && w.plan == (c.plan.map (·.object)).getD 0 && w.tensor == i with
  | none => Qw.scale x.q
  | some w => (((s.flight? t).bind fun f => lookN w.slot f.2.2.scales).getD (BitVec.ofNat 16 (Qw.scale x.q))).toNat

/-- Row r of a tensor as binary32 values, and whether a scale was irregular (06 R187, R195). -/
def State.rowVals (s : State) (t : TaskRef) (c : Cmd) (i : Nat) (x : Tensor) (r : Nat) : List Nat × Bool :=
  let row := s.rowOf c x r
  if x.floating then (floatRow x.fmt x.len row, false)
  else
    let st := s.staticScale t c i x
    let f := if Qw.mode x.q = 1 then (s.rowScale c x r).1 else x.fmt
    let sc (j : Nat) : Nat := s.scaleAt c x st r j
    ((List.range x.len).map fun j => decode32 (level f (codeAt f row j)) (sc j),
     (List.range (if x.grouped then x.groups else 1)).any fun g => !scaleRegular (sc (g * Qw.group x.q)))

/-! ### Pages (05 R156, R160) -/

/-- The pages of a byte range of an object that a task may not touch: not resident and not declared (R156). -/
def State.undeclared (s : State) (h : Chain) (id off n : Nat) : Bool :=
  (s.obj? id).any fun o => o.flag 5 && (pagesOf id off n).any fun p => !o.resident.any (·.1 == p.2) && !h.task.pages.contains p

/-- An undeclared access (R156). -/
def undeclaredFail (id : Nat) : Fail := { planBad 0x501 with object := id }

/-- Resident pages are used: they are the most recently used (R160). -/
def touch (id off n : Nat) (s : State) : State :=
  if (s.obj? id).any (·.flag 5) then
    (modOne id (fun o => { o with resident := o.resident.map fun p => if (pagesOf id off n).contains (id, p.1) then (p.1, s.obj.uses) else p }) s).modObj
      fun o => { o with uses := o.uses + 1 }
  else s

/-! ### The operators -/

/-- What an operator works with: its task, its command, chain and plan, and its number there. -/
structure OpCtx where
  t : TaskRef
  c : Cmd
  h : Chain
  plan : Plan
  op : Nat
  o : Operator

/-- The tensor at an index. -/
def OpCtx.tensor (k : OpCtx) (i : Nat) : Option Tensor := k.plan.tensors[i]?

/-- The command as it stands now. -/
def OpCtx.now (k : OpCtx) (s : State) : OpCtx := { k with c := (s.cmd? k.c.src).getD k.c }

/-- Write bytes of row r of an operator's output, from an offset of the row on. The rows of a KV-cache tensor lie in the blocks of the row's
sequence (R234, R244); those that nothing places are not stored (log 34). -/
def putPart (k : OpCtx) (z : Tensor) (r off : Nat) (bs : List Byte) (s : State) : State :=
  if z.cls = 4 then match s.kvPlace k.c k.h k.plan k.op k.o z r with
    | some (y, a) => putKv y a none off bs none s
    | none => s
  else
    let at_ := z.codes + r * z.rowBytes + off
    if z.object = 0 then modCmd k.t.src (fun c => { c with scratch := memPut c.scratch at_ bs }) s
    else noteWrite k.t.src z.object (at_ + bs.length) (writeObj z.object at_ bs s)

/-- Write bytes of an operator's output from row 0 on. -/
def putFlat (k : OpCtx) (z : Tensor) (off : Nat) (bs : List Byte) (s : State) : State := putPart k z 0 off bs s

/-- Write a row of binary32 values in an output tensor's floating format, counting saturations (06 R195). -/
def putVals (k : OpCtx) (z : Tensor) (r : Nat) (xs : List Nat) (s : State) : State :=
  let w := writeRow z.fmt xs
  ctrPart .quantDecodeSaturations k.c.dome w.2 (putPart k z r 0 w.1 s)

/-- A row's values with the irregular scales counted (06 R187). -/
def getVals (k : OpCtx) (i : Nat) (x : Tensor) (r : Nat) (s : State) : List Nat × State :=
  let v := s.rowVals k.t k.c i x r
  (v.1, if v.2 then ctrPart .quantIrregularScalesUsed k.c.dome 1 s else s)

/-- Rows of a tensor with the irregular scales counted. -/
def getRows (k : OpCtx) (i : Nat) (x : Tensor) (rs : List Nat) (s : State) : List (List Nat) × State :=
  rs.foldl (fun a r => let v := getVals k i x r a.2; (a.1 ++ [v.1], v.2)) ([], s)

/-- Row r of an optional input. -/
def getOpt (k : OpCtx) (i : Nat) (r : Nat) (s : State) : Option (List Nat) × State :=
  match k.tensor i with
  | none => (none, s)
  | some x => let v := getVals k i x r s; (some v.1, v.2)

/-- Do something for each row. -/
def overRows (n : Nat) (f : Nat → State → State) (s : State) : State := (List.range n).foldl (fun s r => f r s) s

/-- The element-wise product of two rows. -/
def mulRows (xs ys : List Nat) : List Nat := (xs.zip ys).map fun q => mul32 q.1 q.2

/-- ROUTE (R241): the selected experts of a row of logits in descending order, each with its weight; whether a logit was NaN. -/
def route (e : Nat) (xs : List Nat) : List (Nat × Nat) × Bool × Sel Nat :=
  let sel := if e = 1 then argSel xs else select false e (ranked true (rowEntries xs))
  let vals := sel.entries.map (·.2.2)
  ((sel.entries.map (·.2.1)).zip (softmax vals).1, xs.any f32.nan, sel)

/-- The bytes of a route list's row (R241). -/
def routeBytes (l : List (Nat × Nat)) : List Byte := l.flatMap fun p => toLE 2 p.1 ++ toLE 2 0 ++ toLE 4 p.2

/-- POOL (Table 8-5, R259). -/
def poolRows (mode : Nat) (normalise : Bool) (rows : List (List Nat)) : List Nat :=
  let v := if mode = 1 then rows.getLastD [] else if mode = 2 then rows.headD []
    else
      let n := (rows.headD []).length
      (List.range n).map fun j => div32 (sum32 (rows.map fun r => r.getD j 0)) (ofNat32 rows.length)
  if normalise then
    let len := sqrt32 (sum32 (v.map fun x => mul32 x x))
    if f32.mag len = 0 then v else v.map fun x => div32 x len
  else v

/-- A row whose value the rules do not determine is free (log 34). -/
def freeRow (k : OpCtx) (z : Tensor) (r : Nat) (s : State) : State :=
  let d := draws z.len s
  putPart k z r 0 (padTo (d.1.flatMap fun v => toLE (if z.fmt = 0 then 2 else 4) v) z.rowBytes) d.2

/-- A 4-byte element of a tensor. -/
def State.word (s : State) (c : Cmd) (x : Tensor) (i : Nat) : Nat := ofLE (s.tensorBytes c x (x.codes + 4 * i) 4)

/-- The 4-byte elements of a tensor. -/
def State.words (s : State) (c : Cmd) (x : Tensor) : List Nat := (List.range (x.rows * x.len)).map (s.word c x)

/-- Row r of XENT (R264, R265): the loss of a target position and the gradient of its logits; 0 for the other positions. A target that is no
logit's number fails as a token ID does (log 36). -/
def xentRow (k : OpCtx) (x z : Tensor) (targets : Tensor) (r : Nat) (s : State) : State :=
  match s.tune? k.t.src with
  | none => s
  | some u =>
    let a := s.rowAt k.c k.h x.rows r
    let v := getVals k k.o.in0 x r s
    if (tokenAt (u.stepExamples u.step) a.slot).any (·.2) then
      let target := s.word k.c targets r
      putVals k z r (lossGradient v.1 target u.targets)
        (modTune k.t.src (fun u => { u with terms := u.terms ++ [BitVec.ofNat 32 (crossEntropy v.1 target)] }) v.2)
    else putVals k z r (v.1.map fun _ => 0) v.2

/-- ADAPTER STEP (R266): in the last pass of a step it moves the masters; the passes before it only gather gradients. -/
def adapterStep (k : OpCtx) (s : State) : State :=
  match s.tune? k.t.src with
  | none => s
  | some u =>
    if s.passOf k.c k.h + 1 ≥ k.plan.passes (u.stepTokens u.step).length then modTune k.t.src TuneRun.stepped s else s

/-- Run one operator of the thread engines (R237 to R242) that has no command of its own. -/
def runOp (k0 : OpCtx) (s : State) : Except Fail State :=
  let k := k0.now s
  let o := k.o
  match k.tensor o.in0, k.tensor o.out with
  | some x, some z =>
    let y := k.tensor o.in1
    let p := o.params.toNat
    -- each row from input 0 and the same row of input 1
    let rows (f : Nat → List Nat → Option (List Nat) → List Nat) : Except Fail State := .ok (overRows x.rows (fun r s =>
      let v := getVals k o.in0 x r s
      let w := getOpt k o.in1 r v.2
      putVals k z r (f r v.1 w.1) w.2) s)
    if o.code = 0x02 then
      match y with
      | none => .ok s
      | some y =>
        let ids := s.words k.c x
        if ids.any (· ≥ y.rows) then .error (fieldBad 0x801)
        else .ok (ids.zipIdx.foldl (fun s i => if i.2 < z.rows then let v := getVals k o.in1 y i.1 s; putVals k z i.2 v.1 v.2 else s) s)
    else if o.code = 0x03 then
      let g := getOpt k o.in1 0 s
      .ok (overRows x.rows (fun r s => let v := getVals k o.in0 x r s; putVals k z r (rmsnorm (bits p 31 0) v.1 (g.1.getD [])) v.2) g.2)
    else if o.code = 0x04 ∨ o.code = 0x15 then
      rows fun r v _ => rotary (o.code == 0x15) (bits p 31 0) (bits p 63 32) (s.rowAt k.c k.h x.rows r).pos x.len 0 v
    else if o.code = 0x05 then
      rows fun _ v w => match w with
        | none => v.map (activate (bit p 0))
        | some w => mulRows (v.map (activate (bit p 0))) w
    else if o.code = 0x06 then rows fun _ v w => (v.zip (w.getD [])).map fun q => add32 q.1 q.2
    else if o.code = 0x09 then
      -- row r of the output sums the e expert rows of its route list, times their weights (log 35)
      match y with
      | none => .ok s
      | some y =>
        let e := x.rows / Nat.max 1 z.rows
        .ok (overRows z.rows (fun r s =>
          let w := (List.range e).map fun j => s.word k.c y (2 * (r * e + j) + 1)
          let vs := getRows k o.in0 x ((List.range e).map (r * e + ·)) s
          let sh := getOpt k o.in2 r vs.2
          putVals k z r ((List.range z.len).map fun j =>
            sum32 (((w.zip vs.1).map fun q => mul32 q.1 (q.2.getD j 0)) ++ (sh.1.map fun l => l.getD j 0).toList)) sh.2) s)
    else if o.code = 0x0A then
      .ok (overRows x.rows (fun r s =>
        let v := getVals k o.in0 x r s
        let m := softmax v.1
        putVals k z r m.1 (if m.2 then ctrPart .genEmptySoftmaxRows k.c.dome 1 v.2 else v.2)) s)
    else if o.code = 0x0D then
      match y.bind fun y => s.vocab? y.object with
      | none => .ok s
      | some v =>
        let text := s.tensorBytes k.c x x.codes (x.rows * x.rowBytes)
        .ok (putFlat k z 0 (((tokenise v text).take (z.rows * z.rowBytes / 4)).flatMap (toLE 4)) s)
    else if o.code = 0x0E then
      match y.bind fun y => s.vocab? y.object with
      | none => .ok s
      | some v =>
        let ids := s.words k.c x
        if ids.any (· ≥ v.n) then .error (fieldBad 0x801) else .ok (putFlat k z 0 ((detokenise v ids).take (z.rows * z.rowBytes)) s)
    else if o.code = 0x0F then
      let vs := getRows k o.in0 x (List.range x.rows) s
      .ok (putVals k z 0 (poolRows (bits p 1 0) (bit p 2) vs.1) vs.2)
    else if o.code = 0x10 then
      match y with
      | none => .ok s
      | some y =>
        if (s.words k.c y).any (· ≥ x.len) then .error (fieldBad 0x801) else .ok (overRows x.rows (xentRow k x z y) s)
    else if o.code = 0x11 then .ok (adapterStep k s)
    else if o.code = 0x12 then
      .ok (overRows x.rows (fun r s =>
        let dy := getVals k o.in0 x r s
        let g := getOpt k o.in1 r dy.2
        let u := getOpt k o.in2 r g.2
        let slope := (g.1.getD []).map (activateSlope (bit p 0))
        putVals k z r (mulRows (match u.1 with | some l => mulRows dy.1 l | none => dy.1) slope) u.2) s)
    else if o.code = 0x13 then
      let g := getOpt k o.in2 0 s
      .ok (overRows x.rows (fun r s =>
        let dy := getVals k o.in0 x r s
        let v := getOpt k o.in1 r dy.2
        putVals k z r (rmsnormBack (bits p 31 0) dy.1 (v.1.getD []) (g.1.getD [])) v.2) g.2)
    else .ok s
  | _, _ => .ok (if o.code = 0x11 then adapterStep k s else s)

/-! ### From operator to operator -/

/-- The byte ranges of objects that an operator touches (05 R156): the rows, the group scales and the tile records of its tensors; of a
GATHER's table, the rows that its IDs name. -/
def State.opRanges (s : State) (c : Cmd) (p : Plan) (o : Operator) : List (Nat × Nat × Nat) :=
  let w := o.apw.toNat
  ([(0, o.in0), (1, o.in1), (2, o.in2), (3, o.out)].filterMap fun i => (p.tensors[i.2]?).map fun x => (i.1, x)).flatMap fun e =>
    let x := e.2
    if x.object = 0 ∨ x.cls = 4 then []
    else
      let ids := if o.code = 0x02 ∧ e.1 = 1 then (p.tensors[o.in0]?).map fun t => nubN ((s.words c t).filter (· < x.rows)) else none
      let span (at_ size : Nat) : List (Nat × Nat × Nat) := match ids with
        | some l => l.map fun r => (x.object, at_ + r * size, size)
        | none => [(x.object, at_, x.rows * size)]
      if o.code = 0x01 ∧ ((e.1 = 3 ∧ Apw.output w = 2) ∨ e.1 = 2) then [(x.object, x.codes, tileBytes w x)]
      else span x.codes x.rowBytes ++ (if x.grouped then span x.scales (2 * x.groups) else [])

/-- The operators that have a command for each of their passes or rows: MATMUL, ATTEND and its backward form, ROUTE, QUANT and SAMPLE. -/
def Operator.stepped (o : Operator) : Bool := [0x01, 0x07, 0x08, 0x0B, 0x0C, 0x14].contains o.code

/-- The operators that work on the arrays. -/
def Operator.onArrays (o : Operator) : Bool := o.code == 0x01 || o.code == 0x07 || o.code == 0x14

/-- The operator that a task in flight has come to, with what it works with. -/
def State.opAt (s : State) (t : TaskRef) : Option (OpCtx × Run) :=
  match s.flight? t with
  | none => none
  | some (c, h, r) => match c.plan with
    | none => none
    | some p =>
      let i := h.task.firstOp + r.ops
      if r.ops ≥ h.task.ops then none else (p.ops[i]?).map fun o => ({ t, c, h, plan := p, op := i, o }, r)

/-- A task goes on to its next operator. -/
def nextOp (t : TaskRef) (s : State) : State :=
  modChain t (fun h => { h with run := h.run.map fun r => { r with ops := r.ops + 1, rows := [] } }) s

/-- Run the operators of a task from the one that it has come to up to, not including, operator number `stop` of the plan, or to one that has
commands of its own. -/
def runTo (t : TaskRef) (stop : Nat) : Nat → State → Except Fail State
  | 0, s => .ok s
  | fuel + 1, s => match s.opAt t with
    | none => .ok s
    | some (k, _) =>
      if k.op ≥ stop || k.o.stepped then .ok s
      else match (s.opRanges k.c k.plan k.o).find? fun g => s.undeclared k.h g.1 g.2.1 g.2.2 with
        | some g => .error (undeclaredFail g.1)
        | none => match runOp k ((s.opRanges k.c k.plan k.o).foldl (fun s g => touch g.1 g.2.1 g.2.2 s) s) with
          | .error f => .error f
          | .ok s2 => runTo t stop fuel (nextOp t s2)

/-- Bring a task to operator `stop`, as far as the operators before it have no commands of their own to wait for. A failure fails the task. -/
def advance (t : TaskRef) (stop : Nat) (s : State) : State :=
  match runTo t stop (((s.chain? t).map fun h => h.task.ops).getD 0) s with
  | .ok u => u
  | .error f => failTask t f s

/-- A task that has come to an operator on the arrays asks for them (07 R212). -/
def claim (t : TaskRef) (s : State) : State :=
  match s.opAt t with
  | none => s
  | some (k, r) =>
    let w := k.o.apw.toNat
    if !k.o.onArrays || r.wait != .none || s.arr.grants.any (fun g => g.task == t) || s.arr.waiting.any (fun a => a.task == t) then s
    else askArrays { task := t, op := k.op, cluster := r.cluster, quad := Apw.quad w, count := Apw.chain w } s

/-- An operator with commands of its own is done: its arrays are free, and the next operator may claim some. -/
def opDone (t : TaskRef) (s : State) : State := claim t (nextOp t (freeGrants (fun g => g.task == t) s))

/-- A row of the operator that a task has come to is done, and with the last one the operator. -/
def rowDone (t : TaskRef) (row rows : Nat) (s : State) : State :=
  let s1 := modChain t (fun h => { h with run := h.run.map fun r => { r with rows := row :: r.rows } }) s
  match s1.opAt t with
  | none => s1
  | some (_, r) => if r.rows.length ≥ rows then opDone t s1 else s1

/-- A command for one operator of a task in flight: the operator is one of some codes, the task comes to it and does not wait, and its
pages are resident or declared (05 R156). -/
def onOperator (t : TaskRef) (op : Nat) (codes : List Nat) (f : OpCtx → Run → Tensor → Tensor → State → State) (s : State) : State :=
  match (s.flight? t).bind fun g => g.1.plan.bind fun p => (p.ops[op]?).map fun o => (g, o) with
  | none => s
  | some ((_, h, r0), o) =>
    if !codes.contains o.code || r0.wait != .none || op < h.task.firstOp + r0.ops || op ≥ h.task.firstOp + h.task.ops then s
    else
      let s1 := advance t op s
      match s1.opAt t with
      | none => s1
      | some (k, r) => match k.tensor k.o.in0, k.tensor k.o.out with
        | some x, some z =>
          if k.op ≠ op then s1
          else match (s1.opRanges k.c k.plan k.o).find? fun g => s1.undeclared k.h g.1 g.2.1 g.2.2 with
            | some g => failTask t (undeclaredFail g.1) s1
            | none => f k r x z ((s1.opRanges k.c k.plan k.o).foldl (fun s g => touch g.1 g.2.1 g.2.2 s) s1)
        | _, _ => s1

/-- A command for one row of an operator: a row that the operator has, and that has not been done. -/
def onRow (t : TaskRef) (op row : Nat) (codes : List Nat) (f : OpCtx → Run → Tensor → Tensor → State → State) (s : State) : State :=
  onOperator t op codes (fun k r x z s =>
    if row ≥ x.rows || r.rows.contains row then s else rowDone t row x.rows (f k r x z s)) s

end Sys2Proof.Machine
end

