-- ==== Sys2Proof/Machine/Quant.lean ====
section
/-! DEFINITION. The quantiser: rows, watch slots, watch windows (06 R189 to R206), KV rows with their fallback (06 R199, 08 R244,
R245), and the recalibration of static scales (14 R406 to R412). -/

namespace Sys2Proof.Machine

open Sys2Proof

/-! ### Watch slots (R203, R204) -/

/-- Update a watch slot. -/
def modSlot (n : Nat) (f : Watch → Watch) (s : State) : State := s.modQnt fun q => { q with slots := updIf (·.slot == n) f q.slots }

/-- The watch slot of a dome's tensor. -/
def State.watch? (s : State) (dome plan tensor : Nat) : Option Watch :=
  s.qnt.slots.find? fun w => w.dome == dome && w.plan == plan && w.tensor == tensor

/-- The lowest-numbered free watch slot (R203). -/
def State.freeWatch (s : State) : Option Nat := (List.range 4096).find? fun n => !s.qnt.slots.any (·.slot == n)

/-- A task quantises a watched tensor: its slot is there, is taken, or is refused (R203). -/
def takeWatch (t : TaskRef) (c : Cmd) (r : Run) (i : Nat) (x : Tensor) (s : State) : Option Nat × State :=
  let plan := (c.plan.map (·.object)).getD 0
  if !Qw.watched x.q ∨ r.unwatched.contains i then (none, s)
  else match s.watch? c.dome plan i with
    | some w => (some w.slot, s)
    | none => match s.freeWatch with
      | some n => (some n, s.modQnt fun q => { q with slots := q.slots ++ [{ slot := n, dome := c.dome, plan, tensor := i, qword := x.qword,
                                                                              effective := BitVec.ofNat 16 (Qw.scale x.q) }] })
      | none =>
        let s1 := modChain t (fun h => { h with run := h.run.map fun r => { r with unwatched := r.unwatched ++ [i] } }) s
        if s.qnt.refused.contains (c.dome, plan, i) then (none, s1)
        else (none, ctrPart .quantWatchSlotShortages c.dome 1 (s1.modQnt fun q => { q with refused := q.refused ++ [(c.dome, plan, i)] }))

/-- The histogram bucket of a row (14 R407). -/
def bucketOf (xs : List Nat) : Nat :=
  let a := rowMax xs
  let u := f16.up (f32.mant a) 1 (f32.exp a)
  if a = 0 then 0 else if u > 0x7BFF then 123 else bits u 14 8

/-- A row's counts go to its slot (R204): the slot counters, the window counts and the histogram of a LIVECAL tensor. -/
def countRow (n : Nat) (q : Nat) (xs : List Nat) (es : List QElem) (s : State) : State :=
  let clips := (es.filter (·.clip)).length
  let nans := (es.filter (·.nan)).length
  let infs := (es.filter (·.inf)).length
  let s1 := ctrAdd .quantInfiniteElements n infs (ctrAdd .quantNanElements n nans (ctrAdd .quantElementsClipped n clips
    (ctrAdd .quantElementsQuantised n es.length s)))
  let b := bucketOf xs
  modSlot n (fun w =>
    { w with wElems := w.wElems + es.length, wClip := w.wClip + clips, wNan := w.wNan + nans,
             hist := if Qw.livecal q then updAt b (fun v => sat 0xFFFFFFFF (v + 1)) w.hist else w.hist }) s1

/-! ### A row -/

/-- The elements of a row as the quantiser writes them, with their codes packed (R189 to R193). -/
def quantRow (f : Nat) (skipZeros : Bool) (xs : List Nat) (sc : Nat → Nat) : List QElem × List Byte :=
  let es := xs.zipIdx.map fun p => quantElem f p.1 (sc p.2)
  (es, packRow f (es.map fun e => if e.nan then padCode f else codeOf f skipZeros e.level))

/-- Whether a row of a KV-cache tensor with KV-FALLBACK goes to a fallback slot of its section (06 R199; 08 R245): the slot, and whether a
fallback was refused. -/
def State.fallback (s : State) (z : Tensor) (y : KvShape) (a : KvAt) (xs : List Nat) : Option Nat × Bool :=
  if Qw.kvFallback z.q && outlier (Qw.ratio z.q) xs then (s.slotFor y a, (s.slotFor y a).isNone) else (none, false)

/-- The quantiser writes one row of a KV-cache tensor in its place (08 R244, R245); the row's elements as it wrote them. A row that nothing
places is quantised and not stored (log 34). -/
def quantiseKv (k : OpCtx) (z : Tensor) (row : Nat) (xs : List Nat) (s : State) : List QElem × State :=
  let write (f : Nat) : List QElem × List Byte × Nat :=
    let sc := dynScale f xs
    let e := quantRow f (Qw.skipZeros z.q) xs fun _ => sc
    (e.1, e.2, sc)
  match s.kvPlace k.c k.h k.plan k.op k.o z row with
  | none => ((write z.fmt).1, s)
  | some (y, a) =>
    let fb := s.fallback z y a xs
    let e := write (if fb.1.isSome then 6 else z.fmt)
    let s1 := putKv y a fb.1 0 e.2.1 (some e.2.2) s
    (e.1, if fb.1.isSome then ctrPart .quantKvFallbackRows k.c.dome 1 s1
      else if fb.2 then ctrPart .genFallbackRefused k.c.dome 1 s1 else s1)

/-- The quantiser writes one row of a QUANT operator that its task has come to. -/
def quantise (k : OpCtx) (r : Run) (x z : Tensor) (row : Nat) (s : State) : State :=
  let w := takeWatch k.t k.c r k.o.out z s
  let s1 := w.2
  let xs := (s1.rowVals k.t k.c k.o.in0 x row).1
  let count (es : List QElem) (s : State) : State := match w.1 with
    | some n => countRow n z.q xs es s
    | none => s
  if z.cls = 4 then let e := quantiseKv k z row xs s1; count e.1 e.2
  else
    let f := z.fmt
    let st := if Qw.mode z.q = 1 then dynScale f xs else s1.staticScale k.t k.c k.o.out z
    let sc (j : Nat) : Nat := if z.grouped then s1.groupScale k.c z row (j / Qw.group z.q) else st
    let e := quantRow f (Qw.skipZeros z.q) xs sc
    let s2 := putPart k z row 0 e.2 s1
    count e.1 (if Qw.mode z.q = 1 then setRowScale k.t.src z row f st s2 else s2)

/-- QUANTISE_ROW (06 R189 to R193, R199 to R204; 08 R245; 14 R407, R410). The row belongs to a QUANT operator that the task in flight has come
to. -/
def execQuantiseRow (t : TaskRef) (op row : Nat) (s : State) : Ans := .next (onRow t op row [0x0B] (fun k r x z s => quantise k r x z row s) s)

/-! ### Recalibration (14 R408 to R410) -/

/-- A positive finite binary16 value in units of 2⁻²⁴. -/
def val16 (x : Nat) : Nat := f16.mant x * 2 ^ (f16.exp x + 24).toNat

/-- The percentile bucket (R409 step 1). -/
def percentile (hist : List Nat) (coverage : Nat) : Nat :=
  let n := sumN hist
  ((List.range 128).find? fun b => sumN (hist.take (b + 1)) * 65536 ≥ coverage * n).getD 127

/-- s_p (R409 step 2). -/
def candidateOf (f b : Nat) : Nat :=
  let edge := if b ≥ 123 then 0x7BFF else (b + 1) * 256
  let u := f16.up (f16.mant edge * 16) (topDynamic f) (f16.exp edge)
  if u > 0x7BFF then 0x7BFF else Nat.max u 0x0400

/-- The new scale within the step limit, and whether it was held there (R409 step 3). -/
def heldScale (sp eff step : Nat) : Nat × Bool :=
  if val16 sp * 2 ^ step < val16 eff then (eff - step * 0x400, true)
  else if val16 sp > val16 eff * 2 ^ step then (eff + step * 0x400, true)
  else (sp, false)

/-- Derive a slot's candidate and make it pending when it differs enough (R409). -/
def derive (w : Watch) (s : State) : State :=
  let sp := candidateOf (Qw.fmt w.qword.toNat) (percentile w.hist s.eff.coverage)
  let n := heldScale sp w.effective.toNat s.eff.step
  let a := val16 n.1
  let b := val16 w.effective.toNat
  let far := (Nat.max a b - Nat.min a b) * 16 > b
  let s1 := ctrPart .calibScaleCandidatesDerived w.dome 1 (modSlot w.slot (fun w =>
    { w with atStep := n.2, pending := if far then some (BitVec.ofNat 16 n.1) else none }) s)
  if n.2 then ctrPart .calibScalesHeldAtTheStepLimit w.dome 1 s1 else s1

/-- Automatic derivation is on for a dome (R405): SCALES, the LIVECAL grant and the partition's freeze bit. -/
def State.livecalOn (s : State) (d : Nat) : Bool :=
  s.eff.scales && s.granted 8 && !(s.slotOf d).any fun p => s.eff.freeze.toNat.testBit p

/-- The histogram at a window's end (R408). -/
def evalHistogram (w : Watch) (clip : Bool) (s : State) : State :=
  let n := sumN w.hist
  if !Qw.livecal w.qword.toNat || !s.livecalOn w.dome || n < s.eff.minRows || w.pending.isSome then s
  else
    let sp := candidateOf (Qw.fmt w.qword.toNat) (percentile w.hist s.eff.coverage)
    let s1 := if clip || 2 * val16 sp ≤ val16 w.effective.toNat then derive w s else s
    modSlot w.slot (fun w => { w with hist := List.replicate 128 0 }) s1

/-- The detail word of clip-rate and NaN-input (Table 15-4). -/
def slotDetail (w : Watch) : DWord := BitVec.ofNat 32 (w.dome + 65536 * w.slot)

/-- WATCH_WINDOW_END (06 R205; 14 R408, R409): at a boundary whose tick count is a multiple of the window, once. -/
def execWatchWindowEnd (slot : Nat) (s : State) : Ans :=
  .next (match s.qnt.slots.find? (·.slot == slot) with
    | none => s
    | some w =>
      let q := w.qword.toNat
      if Qw.window q = 0 ∨ s.tick.toNat % Qw.window q ≠ 0 ∨ w.evaluated = some s.tick.toNat then s
      else
        let clip := Qw.clip q * w.wElems < 65536 * w.wClip
        let nan := w.wNan > 0
        let s1 := ctrSet .quantClipAndNANFlagsLastWindow slot (b2n clip + 2 * b2n nan) s
        let s2 := if clip ∧ Qw.clip q ≠ 0 then raisePart w.dome 7 (slotDetail w) s1 else s1
        let s3 := if nan ∧ Qw.nanEvent q then raisePart w.dome 8 (slotDetail w) s2 else s2
        modSlot slot (fun w => { w with wElems := 0, wClip := 0, wNan := 0, evaluated := some s.tick.toNat }) (evalHistogram w clip s3))

/-- RECALIBRATE_SCALES (14 R412; 04 Table 4-6) for a dome and its subtree; no command addresses the root (02 R30; log 37). -/
def execRecalibrateScales (a : Admin) (s : State) : Ans :=
  if bits a.cdw10.toNat 7 0 ≠ 5 then .next s
  else runAdmin 0xC5 a.src false (fun s =>
    orFail (serviceGate a 5 false s) fun _ =>
    let d := a.cdw11.toNat
    if d = 0 ∨ d > 0xFFF ∨ !s.granted 8 then .error St.invalidField
    else if (s.dome? d).isNone then .error St.domeDissolved
    else
      let mine := s.qnt.slots.filter fun w =>
        s.under w.dome d && Qw.livecal w.qword.toNat && w.pending.isNone && sumN w.hist > 0
      let s1 := mine.foldl (fun s w => derive w s) s
      let set (s : State) : Nat := (s.qnt.slots.filter (·.pending.isSome)).length
      .ok (ok a.src (set s1 - set s) 0 s1)) s

end Sys2Proof.Machine
end

