-- ==== Sys2Proof/Machine/Calibration.lean ====
section
/-! DEFINITION. Thermal trims, the Buttress bank's measurement, the size of the write cache, and log page 0xC3 (14 R418 to R424; 16
R462 to R464). -/

namespace Sys2Proof.Machine

open Sys2Proof

/-- A power or thermal emergency is active (16 R454). -/
def State.emergency (s : State) : Bool := s.pwr.causes != 0 || s.pwr.thermalEmerg

/-- One full tick has passed since the last emergency ended (14 R420; 17 R484). -/
def State.calmTick (s : State) : Bool :=
  !s.emergency && s.pwr.calmSince.any fun t => t == 0 || s.tick.toNat ≥ t + 1

/-! ### The write cache's size (16 R462, R463) -/

/-- The size in MiB for a usable energy in mJ (R462). -/
def cacheFor (e : Nat) : Nat :=
  if e ≥ 22000 then 4096 else if e ≥ 15000 then 64 * (64 * (e - 15000) / 7000) else 0

/-- The usable energy of the bank in mJ (16 R462, R464): as measured, and until the first measurement after a start no more than the
bank's voltage gives. -/
def State.bankEnergy (s : State) : Nat :=
  if s.cal.bankTick ≠ 0 then s.cal.energy
  else Nat.min s.cal.energy (s.cal.capUF * (s.cal.bankUV * s.cal.bankUV - 121000000000000) / 2000000000000000)

/-- The voltage of the bank as 12 V comes: a free value up to 27.0 V (16 R464; log 9). -/
def bankAtPowerUp (s : State) : State :=
  let d := draw s
  d.2.modCal fun c => { c with bankUV := d.1.toNat % 27000001 }

/-- A size takes effect (R463). -/
def setCache (mib : Nat) (s : State) : State :=
  pumpWrites (raise 0x00D (BitVec.ofNat 32 mib) (ctrAdd .powerWriteCacheResizes 0 1
    (s.modFls fun f => { f with cacheMiB := mib, cacheTarget := none })))

/-- The cache is to take a size: a larger one at once, a smaller one when the dirty data fits (R463). -/
def resizeCache (mib : Nat) (s : State) : State :=
  if mib = s.fls.cacheMiB then pumpWrites (s.modFls fun f => { f with cacheTarget := none })
  else if mib > s.fls.cacheMiB then setCache mib s
  else s.modFls fun f => { f with cacheTarget := some mib }

/-- A tick of the charge after a power-up (R464): the voltage rises to a free value, to 27.0 V within 3 s, and the cache takes the size
that the energy gives. -/
def bankRamp (s : State) : State :=
  if s.cal.bankUV ≥ 27000000 then s
  else
    let d := draw s
    let v := if s.tick.toNat ≥ 6000 then 27000000 else Nat.max s.cal.bankUV (d.1.toNat % 27000001)
    let s1 := d.2.modCal fun c => { c with bankUV := v }
    resizeCache (cacheFor s1.bankEnergy) s1

/-- WRITE_CACHE_RESIZED (R463; 14 R421): the dirty data fits the smaller size; a bank measurement that waited for it draws. -/
def execWriteCacheResized (s : State) : Ans :=
  .next (match s.fls.cacheTarget with
    | none => s
    | some mib =>
      if s.cacheUsed > mib * 256 then s
      else (setCache mib s).modCal fun c => { c with bankPhase := if c.bankPhase = .shrinking then .drawing else c.bankPhase })

/-! ### The Buttress bank (14 R420 to R423) -/

/-- The energy in mJ that a bank of C µF is predicted to hold at the end of the draw (R421, step 1). -/
def drawEnd (c : Nat) : Nat :=
  let v := 27000000 - 200000000000 / c
  c * (v * v - 121000000000000) / 2000000000000000

/-- An automatic measurement is due: the first once CSTS.RDY has been set, then every 604,800 s by the tick count (R420). -/
def State.bankDue (s : State) : Bool :=
  s.life.fwSet && (s.cal.bankTick == 0 || s.tick.toNat ≥ s.cal.bankTick + 1209600000)

/-- TEST_BUTTRESS_BANK (R420; 04 R131, R132): it completes when the measurement ends. -/
def execTestButtressBank (a : Admin) (s0 : State) : Ans :=
  if bits a.cdw10.toNat 7 0 ≠ 7 then .next s0
  else runAdmin 0xC5 a.src false (fun s =>
    orFail (serviceGate a 7 false s) fun _ =>
    if a.cdw11 ≠ 0 then .error St.invalidField
    else if s.emergency then .error St.serviceRefused
    else .ok (s.modCal fun c => { c with bankSrc := c.bankSrc ++ [(a.src, false)] })) s0

/-- BANK_MEASUREMENT_START (R420, R421): the charger stops, and the cache is first sized for the energy at the end of the draw. A due
measurement that meets an emergency waits for it to clear. -/
def execBankMeasurementStart (s : State) : Ans :=
  .next (
    if s.cal.bankPhase ≠ .idle ∨ (s.cal.bankSrc.isEmpty ∧ !s.bankDue) then s
    else if !s.calmTick then
      (if s.bankDue then s.modCal fun c => { c with bankResult := 2 } else s)
    else
      let e := drawEnd s.cal.capUF
      let s1 := if e < 22000 then resizeCache (cacheFor e) s else s
      s1.modCal fun c =>
        { c with bankPhase := if s1.fls.cacheTarget.isSome then .shrinking else .drawing,
                 bankSrc := c.bankSrc.map fun x => (x.1, true) })

/-- BANK_DRAW_END (R421, step 2 and 3): capacitance, series resistance and usable energy from the voltages. -/
def execBankDrawEnd (stepMicroV deltaMicroV : Nat) (s : State) : Ans :=
  .next (
    if s.cal.bankPhase ≠ .drawing ∨ deltaMicroV = 0 then s
    else
      let c := 200000000000 / deltaMicroV
      s.modCal fun x => { x with bankPhase := .recharging, bankNew := some (c, 304 * c / 1000, stepMicroV / 2) })

/-- The senders of SERVICE 0x07 whose measurement has ended get the usable energy (R423). -/
def bankAnswer (s : State) : State :=
  (s.cal.bankSrc.filter (·.2)).foldl (fun s x => ok x.1 s.cal.energy 0 s)
    (s.modCal fun c => { c with bankSrc := c.bankSrc.filter fun x => !x.2 })

/-- BANK_RECHARGED (R421 step 4, R423): the measurement completes and the cache takes its new size. After a draw that the supply
stopped, the last result stands (R422). -/
def execBankRecharged (s : State) : Ans :=
  .next (
    if s.cal.bankPhase ≠ .recharging then s
    else
      let s1 := match s.cal.bankNew with
        | none => s.modCal fun c => { c with bankPhase := .idle }
        | some (c, e, r) =>
          ctrAdd .calibBankMeasurements 0 1 (raise 0x00E (BitVec.ofNat 32 e) (s.modCal fun x =>
            { x with bankPhase := .idle, bankNew := none, capUF := c, energy := e, esr := r, bankTick := s.tick.toNat,
                     bankResult := if e < 15000 then 4 else if e < 22000 then 3 else 1 }))
      resizeCache (cacheFor s1.cal.energy) (bankAnswer s1))

/-- The supply falls to its warning during the draw (R422): the measurement stops and the last result stands, with result code 5; what
SERVICE 0x07 answers is that result (log 55). -/
def bankSag (s : State) : State :=
  if s.cal.bankPhase ≠ .drawing then s
  else bankAnswer (ctrAdd .calibBankMeasurementsStoppedBySupplySag 0 1 (s.modCal fun c =>
    { c with bankPhase := .recharging, bankNew := none, bankResult := 5 }))

/-! ### Thermal trims (R418, R419) -/

/-- The live trim of a sensor. -/
def State.trim (s : State) (i : Nat) : Int := (s.cal.trims[i]?).getD 0

/-- The trimmed readings of raw ones, eighths of a degree (R418). -/
def State.trimmed (s : State) (raw : List Int) : List Int := raw.zipIdx.map fun x => x.1 + Config.factoryTrim x.2 + s.trim x.2

/-- The largest of some readings. -/
def hottest (l : List Int) : Int := l.foldl (fun a b => if b > a then b else a) (l.headD 0)

/-- The step of a sensor: towards sensor 0 when it differs by more than 0.5 °C (R418). -/
def trimStep (r0 r : Int) : Int := if r - r0 > 4 then -1 else if r0 - r > 4 then 1 else 0

/-- THERMAL_TRIM_STEP (R418): the steps take effect at the next tick boundary; a sensor held at a bound raises thermal-trim-limit
once. -/
def execThermalTrimStep (raw : List Int) (s : State) : Ans :=
  .next (
    let now := s.trimmed raw
    if raw.length ≠ 40 then s
    else
      let s1 := s.modCal fun c => { c with readings := now }
      if !s.eff.thermal || s.pwr.lowPowerUs < 10000000 || s.emergency || hottest now ≥ 760 then s1
      else
        let want := now.zipIdx.map fun x => if x.2 = 0 then 0 else s.trim x.2 + trimStep (now.headD 0) x.1
        let held := (want.zipIdx.filter fun x => x.1 > 16 || x.1 < -16).map (·.2)
        let next := want.map fun v => if v > 16 then 16 else if v < -16 then -16 else v
        (held.filter fun i => !s.cal.trimRaised.contains i).foldl (fun s i => raise 0x00F (BitVec.ofNat 32 i) s)
          (s1.modCal fun c => { c with trimsNext := some next, trimRaised := nubN (c.trimRaised ++ held) }))

/-! ### Log page 0xC3 (R424) -/

/-- The place of a scale entry: by dome, plan object and tensor index. -/
def scaleKey (w : Watch) : Nat := (w.dome * 2 ^ 48 + w.plan) * 2 ^ 32 + w.tensor

/-- Insert a watch slot in its place. -/
def insScale (w : Watch) : List Watch → List Watch
  | [] => [w]
  | x :: r => if scaleKey w ≤ scaleKey x then w :: x :: r else x :: insScale w r

/-- The watch slots in the order of their scale entries. -/
def State.scaleOrder (s : State) : List Watch := s.qnt.slots.foldr insScale []

/-- A scale entry (Table 14-5). -/
def scaleEntry (s : State) (w : Watch) : List Byte :=
  let frozen := (s.slotOf w.dome).any fun p => s.eff.freeze.toNat.testBit p
  toLE 2 w.dome ++
  toLE 2 (b2n (Qw.livecal w.qword.toNat) + 2 * b2n frozen + 4 * b2n w.pending.isSome + 8 * b2n w.atStep) ++
  toLE 4 w.tensor ++ toLE 8 w.plan ++ toLE 2 (Qw.scale w.qword.toNat) ++ toLE 2 w.effective.toNat ++
  toLE 2 ((w.pending.map (·.toNat)).getD 0) ++ toLE 2 (sat 0xFFFF w.applied) ++ toLE 8 w.appliedTick

/-- A read-level entry (Table 14-6). -/
def levelEntry (s : State) (g : Nat) : List Byte :=
  let x := s.rdGroup g
  let die := s.die (dieOfGroup g)
  x.offsets.map (fun o => BitVec.ofNat 8 (ofSigned 8 o)) ++
  toLE 1 (b2n x.atLimit + 2 * b2n die.retired + 4 * b2n x.pending.isSome)

/-- A thermal entry (Table 14-7). -/
def thermalEntry (s : State) (i : Nat) : List Byte :=
  toLE 1 (ofSigned 8 (Config.factoryTrim i)) ++ toLE 1 (ofSigned 8 (s.trim i)) ++ toLE 2 (ofSigned 16 ((s.cal.readings[i]?).getD 0))

/-- The bank section (Table 14-8). -/
def bankSection (s : State) : List Byte :=
  toLE 4 s.cal.energy ++ toLE 4 s.cal.capUF ++ toLE 4 s.cal.esr ++ toLE 4 s.fls.cacheMiB ++ toLE 8 s.cal.bankTick ++
  toLE 1 s.cal.bankResult ++ List.replicate 7 0

/-- The page as a snapshot takes it (Tables 14-4 to 14-8). -/
def calPage (s : State) : List Byte :=
  let scales := s.scaleOrder
  let a := 64 + 32 * scales.length
  let b := a + 16 * 88064
  toLE 2 1 ++ toLE 2 scales.length ++ toLE 4 88064 ++ toLE 2 40 ++
  toLE 2 (b2n s.eff.scales + 2 * b2n s.eff.readLevels + 4 * b2n s.eff.thermal) ++ toLE 4 (b + 160 + 32) ++ toLE 8 s.tick.toNat ++
  toLE 4 64 ++ toLE 4 a ++ toLE 4 b ++ toLE 4 (b + 160) ++ List.replicate 24 0 ++
  scales.flatMap (scaleEntry s) ++ (List.range 88064).flatMap (levelEntry s) ++ (List.range 40).flatMap (thermalEntry s) ++
  bankSection s

end Sys2Proof.Machine
end

