-- ==== Sys2Proof/Machine/Passes.lean ====
section
/-! DEFINITION. Passes in time: their cycles, hidden loads, residue checks, and what they add to the counters (07 R187, R211, R212, R214,
R215, R221, R231, R232). -/

namespace Sys2Proof.Machine

open Sys2Proof

/-! ### Cycles -/

/-- The chain passes of a command on the arrays, in running order: the array product word, the rows, the slice passes of a set (R181, R210),
and what the pass came to. -/
structure ArrayRun where
  w : Nat
  rows : Nat
  slices : Nat
  run : PassRun

/-- Passes as array runs. -/
def runsOf (w rows slices : Nat) (l : List PassRun) : List ArrayRun := l.map fun p => { w, rows, slices, run := p }

/-- How the slice passes of a command went: cycles, slice passes, the length of the last one, the residue mismatches recovered, the runs with
an irregular scale, and whether a repeat mismatched again. `misses` gives, for each slice pass to come, how often it mismatches. -/
structure Timing where
  cycles : Nat := 0
  passes : Nat := 0
  last : Nat := 0
  misses : List Nat := []
  repeated : Nat := 0
  odd : Nat := 0
  fenced : Bool := false

/-- One slice pass (R211, R231): its load is hidden behind a pass of at least 32 cycles; a re-run keeps the weights it holds (R221); a mismatch
repeats it once with a cold load. -/
def slicePass (r : ArrayRun) (edge reload : Bool) (t : Timing) : Timing :=
  if t.fenced then t
  else
    let len := passCycles r.w r.rows (reload && t.last < 32) edge
    let again := passCycles r.w r.rows true edge
    match t.misses with
    | 0 :: rest => { t with cycles := t.cycles + len, passes := t.passes + 1, last := len, misses := rest }
    | [] => { t with cycles := t.cycles + len, passes := t.passes + 1, last := len }
    | n :: rest =>
      { t with cycles := t.cycles + len + again, passes := t.passes + 2, last := again, misses := rest, repeated := t.repeated + 1,
               odd := t.odd + b2n r.run.odd, fenced := n ≥ 2 }

/-- The slice passes of one run of a chain pass: a set counts as one run (R187). -/
def sliceSet (r : ArrayRun) (reload : Bool) (t : Timing) : Timing :=
  if t.fenced then t
  else (List.range r.slices).foldl (fun t i => slicePass r (Apw.transpose r.w && i == 0) reload t) { t with odd := t.odd + b2n r.run.odd }

/-- A chain pass with its overflow re-runs. -/
def chainRun (t : Timing) (r : ArrayRun) : Timing := (List.range r.run.reruns).foldl (fun t _ => sliceSet r false t) (sliceSet r true t)

/-- Some chain passes one after another. -/
def timing (runs : List ArrayRun) (misses : List Nat) (last : Nat) : Timing := runs.foldl chainRun { misses, last }

/-! ### Counters (R232) -/

/-- The length of the pass that a grant's arrays ran last for its task; 0 when some array ran none (R211, R212). -/
def State.lastPass (s : State) (g : Grant) : Nat :=
  (g.units.map fun a => ((s.arr.last.find? fun l => l.1 == g.cluster && l.2.1 == a && l.2.2.1 == g.task).map (·.2.2.2)).getD 0).foldl Nat.min 0xFFFFFFFF

/-- Cycles of a grant's passes count for its arrays: for the array of quads only those in which no other quad of it ran (R232; log 85). -/
def busy (g : Grant) (cycles : Nat) (s : State) : State :=
  if g.quad then
    let a := g.on.headD 0
    let now := s.clockOf g.cluster a
    let ran := g.ran + cycles
    ctrAdd .arrayCyclesWithAPassRunningPerArray (4 * g.cluster + a) (ran - now) (s.modArr fun x =>
      { x with grants := updIf (· == g) (fun g => { g with ran }) x.grants,
               clocks := (g.cluster, a, Nat.max now ran) :: x.clocks.filter fun c => !(c.1 == g.cluster && c.2.1 == a) })
  else g.on.foldl (fun s a => ctrAdd .arrayCyclesWithAPassRunningPerArray (4 * g.cluster + a) cycles s) s

/-- The passes of a command count (R232, R187, R231), and hide the loads of those that follow (R211). -/
def countPasses (g : Grant) (dome : Nat) (t : Timing) (s : State) : State :=
  let s1 := busy g t.cycles (ctrAdd .arrayTilePasses g.cluster t.passes s)
  let s2 := (List.range t.repeated).foldl (fun s _ => reportCor 2 g.cluster 0x06 (ctrAdd .arrayResidueMismatches g.cluster 1 s)) s1
  ctrPart .quantIrregularScalesUsed dome t.odd (s2.modArr fun x =>
    { x with last := g.units.map (fun a => (g.cluster, a, g.task, t.last)) ++ x.last.filter fun l => !(l.1 == g.cluster && g.units.contains l.2.1) })

/-- The overflow re-runs and the accumulator saturations of some runs count (R221, R222). -/
def countOverflows (dome : Nat) (runs : List ArrayRun) (s : State) : State :=
  ctrPart .arrayAccumulatorSaturations dome (runs.filter (·.run.saturated)).length
    (ctrPart .arrayOverflowReRuns dome (sumN (runs.map (·.run.reruns))) s)

/-- The entry of a cluster's arrays in the device error log (Tables 13-6, 13-7). -/
def residueEntry (cl link : Nat) : DevEntry :=
  { first := 0, last := 0, seq := 0, merged := 1, kind := 2, index := cl, cls := 0x07, uncorrectable := true, flags := 4, linked := link }

/-- The chain passes of a command run on the arrays of a grant, for a dome (R211, R231, R232): their results are committed, unless a repeated
pass mismatches again, which fences the cluster and fails the task. -/
def runPasses (g : Grant) (dome : Nat) (runs : List ArrayRun) (misses : List Nat) (commit : State → State) (s : State) : State :=
  let t := timing runs misses (s.lastPass g)
  let s1 := countPasses g dome t s
  if t.fenced then
    let s2 := faultFence g.cluster s1
    reportUnc (residueEntry g.cluster (if (s2.cmd? g.task.src).isNone then (s2.cmpLog g.task.src.fn).seq.toNat else 0)) s2
  else commit (countOverflows dome runs s1)

end Sys2Proof.Machine
end

