-- ==== Sys2Proof/Machine/Arrays.lean ====
section
/-! DEFINITION. The products of plans on the matrix arrays: the tiles of a MATMUL with the adapter path, the gradients of factors, and
attention (07 R209 to R231; 08 R240, R251, R265). -/

namespace Sys2Proof.Machine

open Sys2Proof

/-! ### Products -/

/-- A MATMUL as its passes see it. -/
structure Product where
  at_ : OpCtx
  x : Tensor
  y : Tensor
  z : Tensor

namespace Product
/-- The array product word. -/
def w (p : Product) : Nat := p.at_.o.apw.toNat
/-- It reads the stored weights along the other axis. -/
def transposed (p : Product) : Bool := Apw.transpose p.w
/-- The reduction K. -/
def k (p : Product) : Nat := if p.transposed then p.y.rows else p.y.len
/-- The width in lanes. -/
def n (p : Product) : Nat := if p.transposed then p.y.len else p.y.rows
/-- The chain depth D (R215, R218). -/
def d (p : Product) : Nat := depthOf p.w p.y.fmt
/-- Chain passes of a tile. -/
def slabs (p : Product) : Nat := ceilDiv p.k p.d
/-- Rows of a row block (R216). -/
def rows (p : Product) (rb : Nat) : Nat := Nat.min (rowLimit p.w) (p.x.rows - rb * rowLimit p.w)
/-- The rows of a row block, by their number in the product. -/
def rowsOf (p : Product) (rb : Nat) : List Nat := (List.range (p.rows rb)).map (rb * rowLimit p.w + ·)
/-- Row blocks (R216). -/
def rowBlocks (p : Product) : Nat := ceilDiv p.x.rows (rowLimit p.w)
/-- Lane blocks. -/
def laneBlocks (p : Product) : Nat := ceilDiv p.n (lanesOf p.w)
/-- Valid lanes of a lane block. -/
def lanes (p : Product) (lb : Nat) : Nat := Nat.min (lanesOf p.w) (p.n - lb * lanesOf p.w)
/-- Slice passes of one chain pass (R210, R215). -/
def slices (p : Product) : Nat := if p.transposed ∨ p.x.fmt = 6 ∨ p.y.fmt = 6 then 4 else 1
/-- The offset of a lane block's record in a tile-record tensor (R237). -/
def recordAt (p : Product) (u : Tensor) (lb : Nat) : Nat := u.codes + lb * (16 + 4 * lanesOf p.w * u.rows)
end Product

/-- A product with the command as it stands now. -/
def Product.now (p : Product) (s : State) : Product := { p with at_ := p.at_.now s }

/-- Elements of a stored weight row as array cells: levels with their group scales (06 R186). -/
def State.weightCells (s : State) (p : Product) (n : Nat) (is : List Nat) : List Cell :=
  let row := s.rowOf p.at_.c p.y n
  is.map fun i => (level p.y.fmt (codeAt p.y.fmt row i), s.groupScale p.at_.c p.y n (i / Qw.group p.y.q))

/-- An operand row of a forward product: levels and scale (06 R180). -/
def State.operandRow (s : State) (p : Product) (m : Nat) : OpRow :=
  let f := if Qw.mode p.x.q = 1 then (s.rowScale p.at_.c p.x m).1 else p.x.fmt
  (rowLevels f p.x.len (s.rowOf p.at_.c p.x m), s.scaleAt p.at_.c p.x (s.staticScale p.at_.t p.at_.c p.at_.o.in0 p.x) m 0)

/-- The binary32 values of an operand row of a transposed product. -/
def State.operandVals (s : State) (p : Product) (m : Nat) : List Nat := floatRow p.x.fmt p.x.len (s.rowOf p.at_.c p.x m)

/-- The slab of chain pass j of a tile (R215 to R217). -/
def State.slabOf (s : State) (p : Product) (rb lb j : Nat) : Slab :=
  let is := slab p.d j (List.range p.k)
  let ls := (List.range (p.lanes lb)).map (lb * lanesOf p.w + ·)
  if p.transposed then
    let rows := is.map fun n => s.weightCells p n ls
    edgeSlab ((List.range ls.length).map fun l => rows.map fun r => r.getD l (0, 0)) ((p.rowsOf rb).map fun m => slab p.d j (s.operandVals p m))
  else
    let ws := ls.map fun n => s.weightCells p n is
    { ws, xs := (p.rowsOf rb).map fun m => let x := s.operandRow p m; (slab p.d j x.1, x.2), odd := oddCells ws }

/-! ### Tiles (R219, R224, R225) -/

/-- A tile of a task. -/
def State.tile? (s : State) (t : TaskRef) (op rb lb : Nat) : Option Tile :=
  s.arr.tiles.find? fun x => x.task == t && x.op == op && x.rowBlock == rb && x.laneBlock == lb

/-- Put a tile. -/
def putTile (x : Tile) (s : State) : State :=
  s.modArr fun a =>
    { a with tiles := x :: a.tiles.filter fun y => !(y.task == x.task && y.op == x.op && y.rowBlock == x.rowBlock && y.laneBlock == x.laneBlock) }

/-- The accumulator of a tile. -/
def Tile.acc (x : Tile) : Acc := { exponent := x.exponent, mant := x.mant, saturated := x.saturated }

/-- A tile after some chain passes. -/
def Tile.after (x : Tile) (a : Acc) (l : List PassRun) : Tile :=
  { x with exponent := a.exponent, mant := a.mant, saturated := a.saturated, passes := sat 0xFFFFFFFF (x.passes + l.length),
           reruns := sat 0xFFFF (x.reruns + sumN (l.map (·.reruns))) }

/-- The tile that a product's first pass of a lane block starts from: new, or the record received (R219, R225, R227). -/
def startTile (s : State) (p : Product) (rb lb : Nat) (received : Option Tensor) : Option Tile :=
  let size := p.lanes lb * p.rows rb
  let new : Tile := { task := p.at_.t, op := p.at_.op, rowBlock := rb, laneBlock := lb, mant := List.replicate size 0 }
  match received with
  | none => some new
  | some u =>
    let b := s.tensorBytes p.at_.c u (p.recordAt u lb) (16 + 4 * size)
    if recordBad (p.lanes lb) (p.rows rb) b then none
    else some { new with exponent := if bit (le b 1 1) 0 then none else some (le b 0 1), saturated := bit (le b 1 1) 1,
                         reruns := le b 8 2, passes := le b 12 4,
                         mant := (List.range size).map fun i => toSigned 32 (le b (16 + 4 * i) 4) }

/-- Write a complete output tile (R224, R237), counting the output saturations. -/
def writeTile (p : Product) (x : Tile) (s : State) : State :=
  let lanes := p.lanes x.laneBlock
  let rows := p.rows x.rowBlock
  if Apw.output p.w = 2 then putFlat p.at_ p.z (p.recordAt p.z x.laneBlock - p.z.codes) (tileRecord lanes rows x) s
  else
    let f := if Apw.output p.w = 0 then f16 else f32
    let size := if Apw.output p.w = 0 then 2 else 4
    let os := x.acc.out f
    let s1 := (p.rowsOf x.rowBlock).zipIdx.foldl (fun s r =>
      putPart p.at_ p.z r.1 (x.laneBlock * lanesOf p.w * size) (((os.drop (r.2 * lanes)).take lanes).flatMap fun o => toLE size o.1) s) s
    ctrPart .arrayOutputSaturations p.at_.c.dome (os.filter (·.2)).length s1

/-- The tiles of a product's row block are all written. -/
def State.blockDone (s : State) (p : Product) (rb : Nat) : Bool :=
  (List.range p.laneBlocks).all fun lb => (s.tile? p.at_.t p.at_.op rb lb).any (·.written)

/-- No tile of a product's row block is written yet. -/
def State.blockFresh (s : State) (p : Product) (rb : Nat) : Bool :=
  (List.range p.laneBlocks).all fun lb => !(s.tile? p.at_.t p.at_.op rb lb).any (·.written)

/-! ### The adapter path (08 R251) -/

/-- The adapters of a row block whose targets match a product, each with the rows in the block that take it. -/
def State.pathsOf (s : State) (p : Product) (rb : Nat) : List (AdapterPath × List Nat) :=
  let use (m : Nat) : Option AdapterUse := s.adapterUse p.at_.c p.at_.h p.x.rows m
  (((p.rowsOf rb).filterMap use).eraseDups).filterMap fun u =>
    (s.adapterPath p.at_.t.src u p.at_.o p.k p.n).map fun a =>
      (a, ((p.rowsOf rb).zipIdx.filter fun m => use m.1 == some u).map (·.2))

/-- Slice passes of a product of a factor with the operand of W (R181). -/
def Product.slicesA (p : Product) (u : AdapterPath) : Nat := if p.x.fmt = 6 ∨ u.fmt = 6 then 4 else 1

/-- A·x in binary32 for some rows of a row block (R251 step 1): by row, and its passes. -/
def State.adapterA (s : State) (p : Product) (rb : Nat) (u : AdapterPath) (rows : List Nat) : List (List Nat) × List ArrayRun :=
  let n := lanesOf p.w
  let xs := rows.map fun r => s.operandRow p (rb * rowLimit p.w + r)
  let blocks := (List.range (ceilDiv u.a.length n)).map fun b =>
    let ws := (u.a.drop (b * n)).take n
    let o := tileOut f32 ws.length rows.length (forwardSlabs (depthOf p.w u.fmt) p.k ws xs)
    (ws.length, o.1.map (·.1), o.2)
  ((List.range rows.length).map fun r => blocks.flatMap fun b => (b.2.1.drop (r * b.1)).take b.1,
   runsOf p.w rows.length (p.slicesA u) (blocks.flatMap (·.2.2)))

/-- B·h for the rows that take an adapter, from W·x's tile (R251 steps 2 and 3): the accumulator, and its passes. -/
def adapterB (p : Product) (lb total : Nat) (u : AdapterPath) (rows : List Nat) (hs : List (List Nat)) (a : Acc) : Acc × List PassRun :=
  let xs := (List.range total).map fun r => match rows.idxOf? r with
    | some i => rowK8U ((hs.getD i []).map fun h => mul32 h u.scale)
    | none => (List.replicate u.a.length 0, 0)
  tilePasses (forwardSlabs (depthOf p.w u.fmt) u.a.length ((u.b.drop (lb * lanesOf p.w)).take (p.lanes lb)) xs) a

/-- A tile whose reduction is complete takes its adapters' contributions (R251): the tile and the passes. A·x is made once for a row block,
with the first of its tiles to be complete. -/
def State.adapted (s : State) (p : Product) (x : Tile) : Tile × List ArrayRun :=
  (s.pathsOf p x.rowBlock).foldl (fun (r : Tile × List ArrayRun) u =>
    let a := s.adapterA p x.rowBlock u.1 u.2
    let b := adapterB p x.laneBlock (p.rows x.rowBlock) u.1 u.2 a.1 r.1.acc
    (r.1.after b.1 b.2,
     r.2 ++ (if s.blockFresh p x.rowBlock then a.2 else []) ++ runsOf p.w u.2.length 4 b.2)) (x, [])

/-! ### TUNE (08 R265) -/

/-- The target of a TUNE's adapter that a product's weights match, with its number. -/
def State.tuned (s : State) (p : Product) : Option (TuneRun × Adapter × Target × Nat) :=
  (s.tune? p.at_.t.src).bind fun u =>
    ((s.adapter u.adapter).match_ p.at_.o.params.toNat p.y.len p.y.rows).map fun t => (u, s.adapter u.adapter, t.1, t.2)

/-- The number of a product's row in its step. -/
def State.stepRow (s : State) (p : Product) (m : Nat) : Nat := s.passOf p.at_.c p.at_.h * p.x.rows + m

/-- Bᵀ·g for a row block, a transposed pass over B's rows in K8U (R265): by row, and its passes. -/
def State.adapterBack (s : State) (p : Product) (rb : Nat) (u : AdapterPath) : List (List Nat) × List ArrayRun :=
  let n := lanesOf p.w
  let gs := (p.rowsOf rb).map fun m => s.operandVals p m
  let blocks := (List.range (ceilDiv u.a.length n)).map fun b =>
    let ls := (List.range u.a.length).drop (b * n) |>.take n
    let o := tileOut f32 ls.length gs.length (edgeSlabs p.d p.k (ls.map fun l => u.b.map fun row => row.getD l (0, 0)) gs)
    (ls.length, o.1.map (·.1), o.2)
  ((List.range gs.length).map fun r => blocks.flatMap fun b => (b.2.1.drop (r * b.1)).take b.1,
   runsOf p.w gs.length 4 (blocks.flatMap (·.2.2)))

/-- With the first complete tile of a row block, a target's product in a TUNE notes its input rows with A·x, and its transposed product makes
the gradients of the factors (R265). -/
def tuneBlock (p : Product) (rb : Nat) (s : State) : List ArrayRun × (State → State) :=
  let words (l : List Nat) : List DWord := l.map (BitVec.ofNat 32)
  match s.tuned p with
  | none => ([], id)
  | some (u, a, t, i) =>
    if !s.blockFresh p rb then ([], id)
    else match s.adapterPath p.at_.t.src (u.adapter, none) p.at_.o p.y.len p.y.rows with
      | none => ([], id)
      | some path =>
        if p.transposed then
          let b := s.adapterBack p rb path
          (b.2, modTune p.at_.t.src fun u =>
            { u with grads := u.grads ++ ((p.rowsOf rb).zip b.1).flatMap fun m =>
                match u.inputs.find? fun e => e.1 == i && e.2.1 == s.stepRow p m.1 with
                | none => []
                | some e => gradientTerms a i t (s.operandVals p m.1) m.2 (e.2.2.1.map (·.toNat)) (e.2.2.2.map (·.toNat)) })
        else
          let hs := (s.adapterA p rb path (List.range (p.rows rb))).1
          let new := ((p.rowsOf rb).zip hs).map fun m =>
            (i, s.stepRow p m.1, words (s.rowVals p.at_.t p.at_.c p.at_.o.in0 p.x m.1).1, words m.2)
          ([], modTune p.at_.t.src fun u =>
            { u with inputs := new ++ u.inputs.filter fun e => !(new.any fun f => f.1 == e.1 && f.2.1 == e.2.1) })

/-! ### A pass -/

/-- A chain pass of a tile ends: it accumulates, and when the reduction is complete, the adapters add to the tile, which is written. With the
last tile the product is done, and its arrays are free. A residue mismatch repeats a slice pass (R231). -/
def tilePass (p : Product) (g : Grant) (x : Tile) (misses : List Nat) (s : State) : State :=
  let pass := tilePasses [s.slabOf p x.rowBlock x.laneBlock x.slabs] x.acc
  let main : Tile := { x.after pass.1 pass.2 with slabs := x.slabs + 1 }
  let done := main.slabs ≥ p.slabs
  let fin := if done ∧ !p.transposed then s.adapted p main else (main, [])
  let tune := if done then tuneBlock p x.rowBlock s else ([], id)
  runPasses g p.at_.c.dome (runsOf p.w (p.rows x.rowBlock) p.slices pass.2 ++ fin.2 ++ tune.1) misses (fun s =>
    let y := { fin.1 with written := done }
    let s1 := tune.2 (putTile y (if done then writeTile p y s else s))
    if done ∧ x.rowBlock + 1 = p.rowBlocks ∧ s1.blockDone p x.rowBlock then opDone p.at_.t s1 else s1) s

/-- TILE_PASS_END of a MATMUL: a product's row blocks follow one another (R216). -/
def matmulPass (k : OpCtx) (g : Grant) (x z : Tensor) (rb lb : Nat) (misses : List Nat) (s : State) : State :=
  match k.tensor k.o.in1 with
  | none => s
  | some y =>
    let p : Product := { at_ := k, x, y, z }
    if rb ≥ p.rowBlocks ∨ lb ≥ p.laneBlocks ∨ (rb > 0 ∧ !s.blockDone p (rb - 1)) then s
    else match (s.tile? k.t k.op rb lb).orElse fun _ => startTile s p rb lb (if Apw.chainIn p.w then k.tensor k.o.in2 else none) with
      | none => failTask k.t (planBad 0x705) s
      | some tile => if tile.written then s else tilePass p g tile misses s

/-! ### Attention (08 R240) -/

/-- What a query row attends to: its sequence's keys and values up to its own position, row by row, each as its format, codes and scale. -/
structure Attend where
  d : Nat
  fmt : Nat
  keys : List (Nat × List Byte × Nat)
  vals : List (Nat × List Byte × Nat)

/-- The keys and values of a query row (R240): those of its sequence, in the layer of the projection that its queries come from, and of the KV
head of its query head. none: nothing says which they are (log 34). -/
def State.attendTo (s : State) (k : OpCtx) (x : Tensor) (row : Nat) : Option Attend :=
  let a := s.rowAt k.c k.h x.rows row
  match a.seq, k.plan.origin k.op k.o.in0 with
  | some q, some m =>
    let y := s.shapeOf q
    if y.d ≠ x.len ∨ m.layer ≥ y.layers ∨ y.heads = 0 then none
    else
      let head := a.head * y.heads / Nat.max 1 a.heads
      let rows (value : Bool) : List (Nat × List Byte × Nat) :=
        (List.range (a.pos + 1)).filterMap fun p => (q.kvAt m.layer head value p).map (s.kvRow y)
      some { d := y.d, fmt := Qw.fmt y.q, keys := rows false, vals := rows true }
  | _, _ => none

/-- The score scale of ATTEND: 0 stands for 1 ÷ √d (R240). -/
def scoreScale (params d : Nat) : Nat :=
  if bits params 31 0 = 0 then div32 0x3F800000 (sqrt32 (ofNat32 d)) else bits params 31 0

/-- Elements of a list in parts of n. -/
def parts {α : Type} (n : Nat) (l : List α) : List (List α) := (List.range (ceilDiv l.length n)).map fun j => slab n j l

/-- Attention of one query over keys and values in narrow formats (R240): the output lanes in binary16, each with whether it was held, and the
passes. Each lane block of keys is a tile of one row; the values are a transposed product. -/
def attendNarrow (w qf scale : Nat) (v : Attend) (xs : List Nat) : List (Nat × Bool) × List ArrayRun :=
  let qs := dynScale qf xs
  let q : OpRow := (xs.map fun x => (quantElem qf x qs).level, qs)
  let n := lanesOf w
  let fw := if Apw.transpose w then w - 16 else w
  let scored := (parts n v.keys).map fun b =>
    let o := tileOut f32 b.length 1 (forwardSlabs (depthOf fw v.fmt) v.d (b.map fun r => spanRow r.2.2 (rowLevels r.1 v.d r.2.1)) [q])
    (o.1.map fun z => mul32 z.1 scale, runsOf fw 1 (if qf = 6 ∨ b.any (·.1 == 6) then 4 else 1) o.2)
  let probs := (softmax (scored.flatMap (·.1))).1
  let cells := v.vals.map fun r => spanRow r.2.2 (rowLevels r.1 v.d r.2.1)
  let tw := fw + 16
  let outs := (parts n (List.range v.d)).map fun ls =>
    let o := tileOut f16 ls.length 1 (edgeSlabs (depthOf tw v.fmt) cells.length (ls.map fun l => cells.map fun r => r.getD l (0, 0)) [probs])
    (o.1, runsOf tw 1 4 o.2)
  (outs.flatMap (·.1), scored.flatMap (·.2) ++ outs.flatMap (·.2))

/-- Attention of one query over keys and values in binary16, which the thread engines compute (log 34). -/
def attendFloat (qf scale : Nat) (v : Attend) (xs : List Nat) : List Nat :=
  let qs := dynScale qf xs
  let q := xs.map fun x => decode32 (quantElem qf x qs).level qs
  let row (r : Nat × List Byte × Nat) : List Nat := floatRow 0 v.d r.2.1
  let probs := (softmax (v.keys.map fun r => mul32 (sum32 (mulRows q (row r))) scale)).1
  let vals := v.vals.map row
  (List.range v.d).map fun j => sum32 ((probs.zip vals).map fun p => mul32 p.1 (p.2.getD j 0))

/-- TILE_PASS_END of ATTEND: one query row, with all its passes (log 34). -/
def attendPass (k : OpCtx) (g : Grant) (x z : Tensor) (row : Nat) (misses : List Nat) (s : State) : State :=
  let p := k.o.params.toNat
  let qf := if bit p 32 then 6 else 2
  match (if k.o.code = 0x07 then s.attendTo k x row else none) with
  | none => rowDone k.t row x.rows (freeRow k z row s)
  | some v =>
    let xs := getVals k k.o.in0 x row s
    if v.fmt = 0 then rowDone k.t row x.rows (putVals k z row (attendFloat qf (scoreScale p v.d) v xs.1) xs.2)
    else
      let o := attendNarrow k.o.apw.toNat qf (scoreScale p v.d) v xs.1
      runPasses g k.c.dome o.2 misses (fun s =>
        rowDone k.t row x.rows (ctrPart .arrayOutputSaturations k.c.dome (o.1.filter (·.2)).length
          (putPart k z row 0 (o.1.flatMap fun e => toLE 2 e.1) s))) xs.2

/-- TILE_PASS_END (07 R211 to R225, R231; 08 R240, R251): a pass of a MATMUL, or a row of ATTEND or of its backward form, that the task in
flight has come to. A product asks for its arrays when it starts; while they are busy, its task waits (R212). -/
def tilePassEnd (t : TaskRef) (op rowBlock laneBlock : Nat) (misses : List Nat) (s : State) : State :=
  onOperator t op [0x01, 0x07, 0x14] (fun k r x z s =>
    let s1 := claim t s
    match s1.arr.grants.find? (·.task == t) with
    | none => s1
    | some g =>
      if k.o.code = 0x01 then matmulPass k g x z rowBlock laneBlock misses s1
      else if rowBlock ≥ x.rows ∨ laneBlock ≠ 0 ∨ r.rows.contains rowBlock then s1
      else attendPass k g x z rowBlock misses s1) s

end Sys2Proof.Machine
end

