-- ==== Sys2Proof/Machine/Filter.lean ====
section
/-! DEFINITION. Predicate programs, their check and their evaluation (11 R333 to R338), and aggregates with their payloads and the
merge of two of them (11 R347 to R350). -/

namespace Sys2Proof.Machine

open Sys2Proof

/-! ### Programs (R333 to R337) -/

/-- Terms. -/
def Prg.terms (p : List Byte) : Nat := le p 0 1
/-- Nodes. -/
def Prg.nodes (p : List Byte) : Nat := le p 1 1
/-- Bitmap bytes. -/
def Prg.bitmap (p : List Byte) : Nat := le p 2 2
/-- The offset of the node table. -/
def Prg.nodeAt (p : List Byte) : Nat := 8 + 24 * Prg.terms p
/-- The offset of the bitmap area. -/
def Prg.bitsAt (p : List Byte) : Nat := Prg.nodeAt p + 8 * Prg.nodes p

/-- A term (Table 11-3). -/
structure Term where
  off : Nat
  ty : Nat
  width : Nat
  op : Nat
  a : Nat
  b : Nat

/-- Term i. -/
def Prg.term (p : List Byte) (i : Nat) : Term :=
  let o := 8 + 24 * i
  { off := le p o 1, ty := le p (o + 1) 1, width := le p (o + 2) 1, op := le p (o + 3) 1, a := le p (o + 8) 8, b := le p (o + 16) 8 }

/-- The order of two field values of a type: unsigned, signed, or binary32. -/
def keyOf (ty width v : Nat) : Int := if ty = 0 then v else if ty = 1 then toSigned (8 * width) v else key32 v

/-- A term breaks R334 or R336 (detail 0x0B04). -/
def termBad (p : List Byte) (i : Nat) : Bool :=
  let t := Prg.term p i
  let fits (v : Nat) : Bool := v / 2 ^ (8 * t.width) == 0
  let set := t.op == 6 || t.op == 7
  le p (8 + 24 * i + 4) 4 != 0 || t.ty > 2 || !([1, 2, 4, 8].contains t.width) || (t.ty == 2 && t.width != 4) ||
  t.off + t.width > 64 || t.op > 7 || (t.op ≥ 4 && t.ty != 0) ||
  (!set && (!fits t.a || !fits t.b || (t.ty == 2 && (f32.nan t.a || f32.nan t.b)) ||
    ((t.op == 2 || t.op == 3) && keyOf t.ty t.width t.a > keyOf t.ty t.width t.b)))

/-- A bitmap outside the area (R335, detail 0x0B06). -/
def bitmapBad (p : List Byte) (i : Nat) : Bool :=
  let t := Prg.term p i
  (t.op == 6 || t.op == 7) && (t.a % 8 != 0 || t.b == 0 || t.b > 32768 || t.a + ceilDiv t.b 8 > Prg.bitmap p)

/-- The operator of node i. -/
def Prg.nodeOp (p : List Byte) (i : Nat) : Nat := le p (Prg.nodeAt p + 8 * i) 1
/-- The child count of node i. -/
def Prg.count (p : List Byte) (i : Nat) : Nat := le p (Prg.nodeAt p + 8 * i + 1) 1
/-- The child bytes of node i that it uses. -/
def Prg.kids (p : List Byte) (i : Nat) : List Nat := (List.range (Nat.min 6 (Prg.count p i))).map fun k => le p (Prg.nodeAt p + 8 * i + 2 + k) 1

/-- The tree breaks R337 (detail 0x0B05). -/
def treeBad (p : List Byte) : Bool :=
  let nt := Prg.terms p
  let nn := Prg.nodes p
  let root := le p 4 1
  let kids := (List.range nn).flatMap (Prg.kids p)
  (nn == 0 && (root != 0 || nt != 1)) || (nn != 0 && !(root ≥ 128 && root - 128 < nn)) ||
  (List.range nn).any (fun i =>
    let c := Prg.count p i
    Prg.nodeOp p i > 2 || (if Prg.nodeOp p i = 2 then c != 1 else c < 2 || c > 6) ||
    (List.range (6 - Nat.min 6 c)).any (fun k => le p (Prg.nodeAt p + 8 * i + 2 + c + k) 1 != 0xFF) ||
    (Prg.kids p i).any fun k => if k ≥ 128 then k - 128 ≤ i || k - 128 ≥ nn else k ≥ nt) ||
  -- every term and every node but the root is the child of exactly one node
  (nn != 0 && ((List.range nt).any (fun t => (kids.filter (· == t)).length != 1) ||
    (List.range nn).any fun n => (kids.filter (· == 128 + n)).length != (if 128 + n = root then 0 else 1)))

/-- The check of a program of a given length (R338, Table 11-13). -/
def checkProgram (p : List Byte) (length : Nat) : Except Fail Unit :=
  checks [
    (length < 8 || p.length < 8 || Prg.terms p == 0 || Prg.terms p > 64 || Prg.nodes p > 63 || Prg.bitmap p % 8 != 0 || Prg.bitmap p > 4096 ||
      le p 5 3 != 0 || Prg.bitsAt p + Prg.bitmap p != length, fieldBad 0xB03),
    ((List.range (Prg.terms p)).any (termBad p), fieldBad 0xB04),
    (treeBad p, fieldBad 0xB05),
    ((List.range (Prg.terms p)).any (bitmapBad p), fieldBad 0xB06)]

/-- Bit v of the bitmap of a term, v below its length (R335). -/
def inSet (p : List Byte) (t : Term) (v : Nat) : Bool := v < t.b && bit (le p (Prg.bitsAt p + t.a + v / 8) 1) (v % 8)

/-- A term on an attribute word (R334 to R336). -/
def evalTerm (p : List Byte) (w : List Byte) (i : Nat) : Bool :=
  let t := Prg.term p i
  let v := le w t.off t.width
  let k := keyOf t.ty t.width
  let isNaN := t.ty == 2 && f32.nan v
  let eq := !isNaN && k v == k t.a
  let range := !isNaN && k t.a ≤ k v && k v ≤ k t.b
  match t.op with
  | 0 => eq
  | 1 => !eq
  | 2 => range
  | 3 => !range
  | 4 => v &&& t.a != 0
  | 5 => v &&& t.a == t.a
  | 6 => inSet p t v
  | _ => !inSet p t v

/-- The value of a term or a node; a node names only nodes above its own, so `fuel` of one for each node suffices (R337). -/
def evalChild (p w : List Byte) : Nat → Nat → Bool
  | 0, c => if c ≥ 128 then false else evalTerm p w c
  | fuel + 1, c =>
    if c < 128 then evalTerm p w c
    else
      let vs := (Prg.kids p (c - 128)).map (evalChild p w fuel)
      match Prg.nodeOp p (c - 128) with
      | 0 => vs.all id
      | 1 => vs.any id
      | _ => !vs.any id

/-- A record's attribute word matches: no program matches every record (R337, R338). -/
def matchesProgram (p w : List Byte) : Bool := p.isEmpty || evalChild p w (Prg.nodes p + 1) (le p 4 1)

/-! ### Aggregates (R347 to R349) -/

/-- One value into a slot: the kind, the type, the width and the field's value (R348). A binary32 zero is +0. -/
def aggregate (kind ty width v : Nat) (a : AggSlot) : AggSlot :=
  if ty = 2 ∧ f32.nan v then { a with nans := a.nans + 1 }
  else
    let wide : BitVec 128 := if ty = 2 then BitVec.ofNat 128 (if f32.mag v = 0 then 0 else v)
      else if ty = 1 then BitVec.ofInt 128 (toSigned (8 * width) v) else BitVec.ofNat 128 v
    let key (x : BitVec 128) : Int := if ty = 2 then key32 (x.toNat % 2 ^ 32) else if ty = 1 then x.toInt else x.toNat
    let value := if kind = 1 then (if ty = 2 then a.value else a.value + wide)
      else if a.count = 0 then wide
      else if kind = 2 then (if key wide < key a.value then wide else a.value)
      else (if key wide > key a.value then wide else a.value)
    { a with value, count := a.count + 1, terms := if kind = 1 ∧ ty = 2 then a.terms ++ [to64 v] else a.terms }

/-- A slot as an engine hands it on: a SUM of F is the sum of its terms, in the engine's order (R348; log 83). -/
def AggSlot.closed (a : AggSlot) : AggSlot :=
  if a.terms.isEmpty then a else { a with value := BitVec.ofNat 128 (sum64 a.terms % 2 ^ 64), terms := [] }

/-- COUNT counts the matched records (R348). -/
def aggCount (a : AggSlot) : AggSlot := { a with value := a.value + 1, count := a.count + 1 }

/-- Two slots of the same aggregate merged (R350). -/
def mergeSlot (kind ty : Nat) (a b : AggSlot) : AggSlot :=
  let key (x : BitVec 128) : Int := if ty = 2 then key32 (x.toNat % 2 ^ 32) else if ty = 1 then x.toInt else x.toNat
  let value := if kind = 0 then a.value + b.value
    else if kind = 1 then
      (if ty = 2 then BitVec.ofNat 128 (add64 (a.value.toNat % 2 ^ 64) (b.value.toNat % 2 ^ 64)) else a.value + b.value)
    else if a.count = 0 then b.value
    else if b.count = 0 then a.value
    else if kind = 2 then (if key b.value < key a.value then b.value else a.value)
    else (if key b.value > key a.value then b.value else a.value)
  { value, count := a.count + b.count, nans := a.nans + b.nans }

/-- A slot's 32 bytes (Table 11-9). -/
def slotBytes (a : AggSlot) : List Byte := toLE 16 a.value.toNat ++ toLE 8 a.count ++ toLE 8 a.nans

/-- A slot from its bytes. -/
def slotOfBytes (b : List Byte) : AggSlot := { value := BitVec.ofNat 128 (le b 0 16), count := le b 16 8, nans := le b 24 8 }

/-- An aggregate entry (Table 11-7) as kind, type, width and record offset. -/
def aggEntry (b : List Byte) : Nat × Nat × Nat × Nat := (le b 0 1, le b 1 1, le b 2 1, le b 4 2)

/-- An aggregate entry breaks Table 11-7 (detail 0x0B08). -/
def aggBad (recBytes : Nat) (b : List Byte) : Bool :=
  let e := aggEntry b
  le b 3 1 != 0 || le b 6 2 != 0 || e.1 > 3 ||
  (if e.1 = 0 then e.2.1 != 0 || e.2.2.1 != 0 || e.2.2.2 != 0
   else e.2.1 > 2 || !([1, 2, 4, 8].contains e.2.2.1) || (e.2.1 == 2 && e.2.2.1 != 4) || e.2.2.2 + e.2.2.1 > recBytes)

/-- Two aggregate payloads merged field by field (R350); the kinds and types of the aggregates come from the layout that both share,
which the payload does not hold, so each slot is merged by the kind and type that MERGE is given (log 44). -/
def mergePayload (aggs : List (Nat × Nat)) (a b : List Byte) : List Byte :=
  let groups := le a 6 2
  let n := le a 4 2
  let size := 16 + 32 * n
  let header := slice a 0 12 ++ toLE 4 (sat 0xFFFFFFFF (le a 12 4 + le b 12 4)) ++ toLE 8 (le a 16 8 + le b 16 8) ++
    toLE 8 (le a 24 8 + le b 24 8) ++ toLE 8 (le a 32 8 + le b 32 8) ++ List.replicate 24 0
  header ++ (List.range groups).flatMap fun g =>
    let o := 64 + g * size
    toLE 8 (le a o 8 + le b o 8) ++ List.replicate 8 0 ++ (List.range n).flatMap fun i =>
      let k := aggs.getD i (0, 0)
      slotBytes (mergeSlot k.1 k.2 (slotOfBytes (slice a (o + 16 + 32 * i) 32)) (slotOfBytes (slice b (o + 16 + 32 * i) 32)))

/-- Two payloads may be merged (R350): magic, aggregates, groups and layout check are equal. -/
def sameLayout (a b : List Byte) : Bool := slice a 0 12 == slice b 0 12 && le a 0 4 == 0x53474741

end Sys2Proof.Machine
end

