-- ==== Sys2Proof/Machine/Index.lean ====
section
/-! DEFINITION. Search indexes: the header and the regions, records and navigation codes, levels and entry points, distances, the node
cache, and the batches of INSERT, DELETE and COMPACT (10 R288 to R302, R315 to R322). -/

namespace Sys2Proof.Machine

open Sys2Proof

/-! ### The header (Table 10-1) -/

namespace Ix
/-- Dimensions. -/
def dims (m : Mem) : Nat := memLE m 6 2
/-- Vector format. -/
def fmt (m : Mem) : Nat := memLE m 8 1
/-- Record units. -/
def units (m : Mem) : Nat := memLE m 9 1
/-- Record bytes. -/
def recordBytes (m : Mem) : Nat := 4096 * units m
/-- Neighbour list capacity. -/
def degree (m : Mem) : Nat := memLE m 10 2
/-- Navigation dimensions. -/
def nav (m : Mem) : Nat := memLE m 12 2
/-- Upper layers. -/
def layers (m : Mem) : Nat := memLE m 14 1
/-- Upper degree. -/
def upperDegree (m : Mem) : Nat := memLE m 15 1
/-- Capacity in slots. -/
def capacity (m : Mem) : Nat := memLE m 16 4
/-- Nodes in use. -/
def nodes (m : Mem) : Nat := memLE m 20 4
/-- Tombstones. -/
def tombs (m : Mem) : Nat := memLE m 24 4
/-- Shard tag. -/
def shard (m : Mem) : Nat := memLE m 28 2
/-- Pruning α, binary16. -/
def alpha (m : Mem) : Nat := memLE m 32 2
/-- Build beam. -/
def beam (m : Mem) : Nat := memLE m 30 2
/-- Build distance. -/
def buildDistance (m : Mem) : Nat := memLE m 34 1
/-- Promotion level. -/
def promotion (m : Mem) : Nat := memLE m 36 4
/-- Node cache bytes. -/
def cacheBytes (m : Mem) : Nat := memLE m 40 8
/-- Entry points held, in order; an index without nodes holds none, whatever its field reads as (R288, R296; log 42). -/
def entries (m : Mem) : List Nat :=
  if nodes m = 0 then [] else ((List.range 8).map fun i => memLE m (48 + 4 * i) 4).filter (· ≠ 0xFFFFFFFF)
/-- Compact cursor. -/
def cursor (m : Mem) : Nat := memLE m 80 4
/-- ID map offset. -/
def idMap (m : Mem) : Nat := memLE m 88 8
/-- Navigation offset. -/
def navAt (m : Mem) : Nat := memLE m 96 8
/-- Upper layer offset. -/
def upperAt (m : Mem) : Nat := memLE m 104 8
/-- Record offset. -/
def recordAt (m : Mem) : Nat := memLE m 112 8
/-- Bytes of a navigation code (R293). -/
def navBytes (m : Mem) : Nat := ceilDiv (16 + nav m / 4) 16 * 16
/-- Bytes of the vector's codes in a record. -/
def vecBytes (m : Mem) : Nat := rowBytes (fmt m) (dims m)
/-- The offset of the vector's codes in a record (Table 10-3). -/
def vecAt (m : Mem) : Nat := ceilDiv (96 + 4 * degree m) 64 * 64
/-- Entries that the upper-layer region holds (Table 10-2). -/
def upperRoom (m : Mem) : Nat := ceilDiv (capacity m) 8
/-- The regions: offset and length (Table 10-2). -/
def regions (m : Mem) : List (Nat × Nat) :=
  [(idMap m, 32 * capacity m), (navAt m, capacity m * navBytes m), (recordAt m, capacity m * recordBytes m)] ++
  (if layers m = 0 then [] else [(upperAt m, upperRoom m * (16 + 4 * upperDegree m))])
end Ix

/-- The index header or the region layout breaks R289 or R290 (detail 0x0A01). -/
def indexBad (m : Mem) (size : Nat) : Bool :=
  let rs := Ix.regions m
  let apart (a b : Nat × Nat) : Bool := a.1 + a.2 ≤ b.1 || b.1 + b.2 ≤ a.1
  memLE m 0 4 != 0x58444E49 || memLE m 4 2 != 1 || Ix.dims m == 0 || Ix.dims m > 4096 || !([2, 5, 6].contains (Ix.fmt m)) ||
  !([1, 2, 4].contains (Ix.units m)) || Ix.degree m < 8 || Ix.degree m > 256 || Ix.nav m % 32 != 0 || Ix.nav m < 32 ||
  Ix.nav m > 32 * ceilDiv (Ix.dims m) 32 || Ix.layers m > 7 ||
  (if Ix.layers m = 0 then Ix.upperDegree m != 0 || Ix.upperAt m != 0 else Ix.upperDegree m < 8 || Ix.upperDegree m > 64) ||
  Ix.capacity m == 0 || Ix.capacity m > 0xFFFFFFFE || Ix.beam m < 16 || Ix.beam m > 1024 ||
  Ix.alpha m < 0x3C00 || Ix.alpha m > 0x4000 || Ix.buildDistance m == 0 || Ix.buildDistance m > 2 || memLE m 35 1 != 0 ||
  !allZero (memRead m 256 3840) || Ix.promotion m > 1000000 || Ix.cacheBytes m % 2097152 != 0 || !allZero (memRead m 120 136) ||
  rs.any (fun r => r.1 % 2097152 != 0 || r.1 < 4096 || r.1 + r.2 > size) ||
  rs.zipIdx.any (fun r => rs.zipIdx.any fun q => q.2 != r.2 && !apart r.1 q.1) ||
  Ix.vecAt m + Ix.vecBytes m > Ix.recordBytes m

/-- The object of an index command: in the partition, or SHARED for a search; placed T1 and BACKED (R288); its header in order. -/
def indexFail (id part : Nat) (writes : Bool) (s : State) : Option Fail :=
  ((if writes then writeFail id part s else inputFail id part s)).orElse fun _ =>
    match s.live? id with
    | none => some (St.objectNotFound id)
    | some o => firstFail [(!(o.flag 1 && o.flag 5), fieldBad 0xA02), (indexBad o.data o.size, fieldBad 0xA01)]

/-- The memory of an index. -/
def State.ix (s : State) (id : Nat) : Mem := ((s.obj? id).map (·.data)).getD []

/-- The pages that a command declares of an index: header, ID map, navigation and upper layers (R291). -/
def indexPages (id : Nat) (m : Mem) : List (Nat × Nat) :=
  nubPairs (pagesOf id 0 4096 ++ pagesOf id (Ix.idMap m) (32 * Ix.capacity m) ++ pagesOf id (Ix.navAt m) (Ix.capacity m * Ix.navBytes m) ++
    (if Ix.layers m = 0 then [] else pagesOf id (Ix.upperAt m) (Ix.upperRoom m * (16 + 4 * Ix.upperDegree m))))
where
  /-- Pages without repeats. -/
  nubPairs (l : List (Nat × Nat)) : List (Nat × Nat) := l.foldl (fun acc p => if acc.contains p then acc else acc ++ [p]) []

/-! ### Slots (R292 to R294) -/

/-- The navigation code of a slot. -/
def navCode (m : Mem) (slot : Nat) : List Byte := memRead m (Ix.navAt m + slot * Ix.navBytes m) (Ix.navBytes m)
/-- The slot is LIVE or TOMBSTONED (R294). -/
def slotUsed (m : Mem) (slot : Nat) : Bool :=
  let f := memLE m (Ix.navAt m + slot * Ix.navBytes m + 5) 1
  bit f 0 || bit f 1
/-- The slot is TOMBSTONED. -/
def slotTomb (m : Mem) (slot : Nat) : Bool := bit (memLE m (Ix.navAt m + slot * Ix.navBytes m + 5) 1) 0
/-- The slot is LIVE and not tombstoned. -/
def slotLive (m : Mem) (slot : Nat) : Bool := slotUsed m slot && !slotTomb m slot
/-- The node of a slot. -/
def nodeId (m : Mem) (slot : Nat) : Nat := memLE m (Ix.navAt m + slot * Ix.navBytes m) 5
/-- The slot of a node, live or tombstoned: what the ID map gives. -/
def slotOf (m : Mem) (id : Nat) : Option Nat := (List.range (Ix.capacity m)).find? fun s => slotUsed m s && nodeId m s == id
/-- The lowest FREE slot (R317). -/
def freeSlot (m : Mem) : Option Nat := (List.range (Ix.capacity m)).find? fun s => !slotUsed m s
/-- The record of a slot. -/
def recordOf (m : Mem) (slot : Nat) : List Byte := memRead m (Ix.recordAt m + slot * Ix.recordBytes m) (Ix.recordBytes m)
/-- The neighbours in a record. -/
def neighbours (r : List Byte) : List Nat := (List.range (le r 10 2)).map fun i => le r (96 + 4 * i) 4

/-- A node's level (R295). -/
def levelOf (layers id : Nat) : Nat :=
  let c := (crc32c (toLE 5 id)).toNat
  Nat.min layers (((List.range 8).find? fun i => bits c (4 * i + 3) (4 * i) != 0).getD 8)

/-! ### Distances (R297 to R299) -/

/-- A distance of Table 10-5 from a dot product and the two squared norms, binary32. -/
def distanceOf (kind dot qn vn : Nat) : Nat :=
  if kind = 0 then neg32 dot
  else if kind = 1 then
    (if f32.mag qn = 0 ∨ f32.mag vn = 0 then 0x3F800000 else sub32 0x3F800000 (div32 dot (sqrt32 (mul32 qn vn))))
  else
    let d := sub32 (add32 qn vn) (mul32 0x40000000 dot)
    if f32.neg d then 0 else d

/-- A row quantised with a row-dynamic scale: the scale and the levels (R298). -/
def quantVec (f : Nat) (xs : List Nat) : Nat × List Int :=
  let sc := dynScale f xs
  (sc, xs.map fun x => (quantElem f x sc).level)

/-- The squared norm of decoded levels, binary32. -/
def normOf (sc : Nat) (ls : List Int) : Nat := sum32 ((ls.map fun l => decode32 l sc).map fun x => mul32 x x)

/-- The array product word of a distance tile: whole arrays, a chain of four (R299). -/
def tileWord : Nat := 12

/-- The dots of a query row with candidate rows, in tiles of up to 32 on a chain of four arrays (R299; 07 R220 to R224): in binary32, with the
passes. A candidate row is a weight row that one scale spans; K8U rows take slice sets. -/
def distanceTiles (f : Nat) (q : Nat × List Int) (cands : List (Nat × List Int)) : List Nat × List ArrayRun :=
  let tiles := (parts 32 cands).map fun cs =>
    let o := tileOut f32 cs.length 1 (forwardSlabs (depthOf tileWord f) q.2.length (cs.map fun c => spanRow c.1 c.2) [(q.2, q.1)])
    (o.1.map (·.1), runsOf tileWord 1 (if f = 6 then 4 else 1) o.2)
  (tiles.flatMap (·.1), tiles.flatMap (·.2))

/-- The navigation code of a slot as a row: its scale and levels. -/
def navRow (m : Mem) (slot : Nat) : Nat × List Int :=
  let c := navCode m slot
  (le c 8 2, rowLevels 4 (Ix.nav m) (c.drop 16))

/-- Navigation distances of slots from a query, with the passes (R297, R299). -/
def navDistances (m : Mem) (kind : Nat) (q : Nat × List Int) (qn : Nat) (slots : List Nat) : List Nat × List ArrayRun :=
  let t := distanceTiles 4 q (slots.map (navRow m))
  ((slots.zip t.1).map fun p => distanceOf kind p.2 qn (le (navCode m p.1) 12 4), t.2)

/-- The vector of a record as a row: its scale and levels (Table 10-3). -/
def vecRow (m : Mem) (r : List Byte) : Nat × List Int :=
  (le r 12 2, rowLevels (Ix.fmt m) (Ix.dims m) (slice r (Ix.vecAt m) (Ix.vecBytes m)))

/-- The distance of a record's vector from a query, with the passes (R297, R299). -/
def fullDistance (m : Mem) (kind : Nat) (q : Nat × List Int) (qn : Nat) (r : List Byte) : Nat × List ArrayRun :=
  let t := distanceTiles (Ix.fmt m) q [vecRow m r]
  (distanceOf kind (t.1.headD 0) qn (le r 16 4), t.2)

/-! ### The node cache (R300, R301) -/

/-- The index as it runs. -/
def State.ixRt? (s : State) (id : Nat) : Option IndexRt := s.idx.indexes.find? (·.object == id)

/-- Update the running record of an index. -/
def modIxRt (id : Nat) (f : IndexRt → IndexRt) (s : State) : State :=
  s.modIdx fun x => { x with indexes := updIf (·.object == id) f x.indexes }

/-- The largest multiple of 2 MiB, at most n of them, that T1 allows on the path of a dome, with clean pages freed (R160): the multiple,
and the state that has the room. -/
def cacheFit (s : State) (dome : Nat) : Nat → Nat × State
  | 0 => (0, s)
  | n + 1 => match fit dome 1 ((n + 1) * 2097152) s with
    | .ok t => (n + 1, t)
    | .error _ => cacheFit s dome n

/-- The first command that names an index after it is placed allocates its node cache (R300). -/
def useIndex (id : Nat) (s : State) : State :=
  match s.ixRt? id, s.obj? id with
  | none, some o =>
    let want := Ix.cacheBytes o.data / 2097152
    let got := cacheFit s o.dome want
    let s1 := got.2.modIdx fun x => { x with indexes := x.indexes ++ [{ object := id, part := o.part, cacheBytes := got.1 * 2097152 }] }
    ctrPart .searchNodeCacheShortfallMiB o.dome (2 * (want - got.1)) (charge (.nodeCache id) 1 o.dome (got.1 * 2097152) s1)
  | _, _ => s

/-- The slots that the compact pass of an index will reclaim (R322). -/
def State.passTombs (s : State) (id : Nat) : List Nat := ((s.idx.passes.find? (·.1 == id)).map (·.2)).getD []

/-- Set them; none between passes. -/
def setPass (id : Nat) (l : List Nat) (s : State) : State :=
  s.modIdx fun x => { x with passes := x.passes.filter (·.1 ≠ id) ++ (if l.isEmpty then [] else [(id, l)]) }

/-- A record is in the node cache. -/
def State.cached (s : State) (id slot : Nat) : Bool := (s.ixRt? id).any (·.cache.contains slot)

/-- A record is read from the cache: it is the most recently read. -/
def cacheHit (id slot : Nat) (s : State) : State := modIxRt id (fun x => { x with cache := delN slot x.cache ++ [slot] }) s

/-- A record read from flash is promoted when its block's read count has reached the promotion level (R301). -/
def promote (id slot block dome : Nat) (s : State) : State :=
  let m := s.ix id
  let level := if Ix.promotion m = 0 then s.eff.refresh / 4 else Ix.promotion m
  match s.ixRt? id with
  | none => s
  | some x =>
    let room := x.cacheBytes / Nat.max 1 (Ix.recordBytes m)
    if (s.block block).reads < level ∨ room = 0 ∨ x.cache.contains slot then s
    else if x.cache.length < room then ctrPart .searchNodeCachePromotions dome 1 (modIxRt id (fun x => { x with cache := x.cache ++ [slot] }) s)
    else ctrPart .searchNodeCacheEvictions dome 1 (ctrPart .searchNodeCachePromotions dome 1
      (modIxRt id (fun x => { x with cache := x.cache.drop 1 ++ [slot] }) s))

/-! ### Upper layers and entry points (R295, R296, R307) -/

/-- The upper-layer list of a slot. -/
def State.upperList (s : State) (id layer slot : Nat) : List Nat :=
  ((s.idx.upper.find? fun u => u.1 == id && u.2.1 == layer && u.2.2.1 == slot).map (·.2.2.2)).getD []

/-- Put an upper-layer list. -/
def putUpper (id layer slot : Nat) (l : List Nat) (s : State) : State :=
  let other (u : Nat × Nat × Nat × List Nat) : Bool := !(u.1 == id && u.2.1 == layer && u.2.2.1 == slot)
  s.modIdx fun x => { x with upper := x.upper.filter other ++ [(id, layer, slot, l)] }

/-- The level at which a slot is present. -/
def State.present (s : State) (id slot : Nat) : Nat := maxN ((s.idx.upper.filter fun u => u.1 == id && u.2.2.1 == slot).map (·.2.1))

/-- One layer of a descent (R307): move to the nearest neighbour while it is nearer; `fuel` bounds the moves. The answer is the slot,
its distance, the navigation distances computed, and their passes. -/
def descendLayer (s : State) (id kind : Nat) (q : Nat × List Int) (qn layer : Nat) : Nat → Nat × Nat → Nat × Nat × Nat × List ArrayRun
  | 0, here => (here.1, here.2, 0, [])
  | fuel + 1, here =>
    let m := s.ix id
    let ns := (s.upperList id layer here.1).filter (slotUsed m)
    let t := navDistances m kind q qn ns
    let best := (ns.zip t.1).foldl (fun (b : Nat × Nat) n => if lt32 n.2 b.2 then n else b) here
    if best.1 = here.1 then (here.1, here.2, ns.length, t.2)
    else
      let r := descendLayer s id kind q qn layer fuel best
      (r.1, r.2.1, r.2.2.1 + ns.length, t.2 ++ r.2.2.2)

/-- A walk's descent from an entry point to layer 1 (R307): the slot, its distance, the navigation distances computed, and their passes. -/
def descend (s : State) (id kind : Nat) (q : Nat × List Int) (qn entry : Nat) : Nat × Nat × Nat × List ArrayRun :=
  let d0 := navDistances (s.ix id) kind q qn [entry]
  ((List.range (s.present id entry)).reverse).foldl (fun (a : Nat × Nat × Nat × List ArrayRun) i =>
    let r := descendLayer s id kind q qn (i + 1) (Ix.capacity (s.ix id)) (a.1, a.2.1)
    (r.1, r.2.1, a.2.2.1 + r.2.2.1, a.2.2.2 ++ r.2.2.2)) (entry, d0.1.headD 0, 1, d0.2)

/-- The slots that a descent meets in one layer (R307, R317): those that it stands on and the neighbours that it scores. -/
def metLayer (s : State) (id kind : Nat) (q : Nat × List Int) (qn layer : Nat) : Nat → Nat × Nat → List Nat
  | 0, here => [here.1]
  | fuel + 1, here =>
    let m := s.ix id
    let ns := (s.upperList id layer here.1).filter (slotUsed m)
    let best := (ns.zip (navDistances m kind q qn ns).1).foldl (fun (b : Nat × Nat) n => if lt32 n.2 b.2 then n else b) here
    here.1 :: ns ++ if best.1 = here.1 then [] else metLayer s id kind q qn layer fuel best

/-- The candidates of a descent at each layer (R317; log 43). -/
def descentMet (s : State) (id kind : Nat) (q : Nat × List Int) (qn entry : Nat) : List (Nat × List Nat) :=
  let n := Ix.capacity (s.ix id)
  (((List.range (s.present id entry)).reverse).foldl (fun (a : List (Nat × List Nat) × Nat × Nat) i =>
    let r := descendLayer s id kind q qn (i + 1) n a.2
    ((i + 1, nubN (metLayer s id kind q qn (i + 1) n a.2)) :: a.1, r.1, r.2.1))
    ([], entry, (navDistances (s.ix id) kind q qn [entry]).1.headD 0)).1

/-! ### Batches (R315 to R322) -/

/-- Write bytes of an index. -/
def putIx (id off : Nat) (bs : List Byte) (s : State) : State := writeObj id off bs s

/-- Add to a field of the header that the module writes. -/
def bumpIx (id off : Nat) (n : Int) (s : State) : State :=
  putIx id off (toLE 4 (((memLE (s.ix id) off 4 : Nat) + n) % 2 ^ 32).toNat) s

/-- The first n_nav elements of a vector. -/
def navPart (m : Mem) (xs : List Nat) : List Nat := (xs ++ List.replicate (Ix.nav m) 0).take (Ix.nav m)

/-- The distance between two nodes in the index's build distance (R317): of their vectors in layer 0, else a navigation distance, for which the
first node's navigation part is quantised as a query's is (R298; log 42). -/
def nodeDistance (m : Mem) (layer a b : Nat) : Nat :=
  let v := vecRow m (recordOf m a)
  if layer = 0 then (fullDistance m (Ix.buildDistance m) v (le (recordOf m a) 16 4) (recordOf m b)).1
  else
    let q := quantVec 2 (navPart m (v.2.map fun l => decode32 l v.1))
    (navDistances m (Ix.buildDistance m) q (normOf q.1 q.2) [b]).1.headD 0

/-- The choice of R317 for the list of a node: the live candidates in ascending distance, kept while no kept one shadows them; equal distances
go by slot (log 42). -/
def prune (m : Mem) (layer centre degree : Nat) (cs : List Nat) : List Nat :=
  let a := widen (Ix.alpha m)
  let sorted := rankSort (((nubN cs).filter fun c => c != centre && slotLive m c).map fun c =>
    let d := nodeDistance m layer centre c
    (rankKey false d, c, d))
  (sorted.foldl (fun (l : List Nat) c =>
    if l.length < degree ∧ l.all fun p => lt32 c.2.2 (mul32 a (nodeDistance m layer p c.2.1)) then l ++ [c.2.1] else l) [])

/-- What the build walk of a new node found in a layer. -/
def candsOf (links : List Relink) (node layer : Nat) : List Nat :=
  ((links.find? fun l => l.node == node && l.layer == layer).map (·.cands)).getD []

/-- Write a neighbour list into a record (Table 10-3). -/
def putList (id slot : Nat) (l : List Nat) (s : State) : State :=
  let m := s.ix id
  let base := Ix.recordAt m + slot * Ix.recordBytes m
  putIx id (base + 96) ((l.flatMap (toLE 4)) ++ List.replicate (4 * (Ix.degree m - l.length)) 0xFF) (putIx id (base + 10) (toLE 2 l.length) s)

/-- Slot x joins the list of a neighbour; a full list is chosen again from itself and x (R317). -/
def joinList (id x : Nat) (s : State) (n : Nat) : State :=
  let m := s.ix id
  let l := neighbours (recordOf m n)
  if l.contains x then s
  else putList id n (if l.length < Ix.degree m then l ++ [x] else prune m 0 n (Ix.degree m) (l ++ [x])) s

/-- The same in an upper layer. -/
def joinUpper (id layer x : Nat) (s : State) (n : Nat) : State :=
  let m := s.ix id
  let l := s.upperList id layer n
  if l.contains x then s
  else putUpper id layer n (if l.length < Ix.upperDegree m then l ++ [x] else prune m layer n (Ix.upperDegree m) (l ++ [x])) s

/-- Entry points after a node of a level is inserted (R296; log 42). -/
def enterPoint (id slot level : Nat) (s : State) : State :=
  let m := s.ix id
  let es := Ix.entries m
  let put (l : List Nat) (s : State) : State := putIx id 48 ((List.range 8).flatMap fun i => toLE 4 (l.getD i 0xFFFFFFFF)) s
  if es.contains slot then s
  else if Ix.layers m = 0 then (if es.length < 8 then put (es ++ [slot]) s else s)
  else if level = 0 then s
  else match es with
    | [] => put [slot] s
    | e :: r =>
      if level > s.present id e then put ((slot :: e :: r).take 8) s
      else if es.length < 8 then put (es ++ [slot]) s else s

/-- The layers of an inserted node (R295, R317), for the layers that its level gives and the region has room for. -/
def placeUpper (id slot nid : Nat) (links : List Relink) (s : State) : State :=
  let m := s.ix id
  let level := levelOf (Ix.layers m) nid
  let held := (s.idx.upper.filter (·.1 == id)).length
  if level = 0 then enterPoint id slot 0 s
  else if held + level > Ix.upperRoom m then
    ctrPart .searchUpperOverflows (((s.obj? id).map (·.dome)).getD 0) 1 (enterPoint id slot 0 s)
  else
    let s1 := (List.range level).foldl (fun s i =>
      let layer := i + 1
      let l := prune (s.ix id) layer slot (Ix.upperDegree m) ((candsOf links nid layer).filter fun k => s.present id k ≥ layer)
      l.foldl (joinUpper id layer slot) (putUpper id layer slot l s)) s
    enterPoint id slot level s1

/-- The bytes of a node's navigation entry. -/
def navEntry (m : Mem) (n : NodeIn) (vals : List Nat) : List Byte :=
  let nv := quantVec 4 (navPart m vals)
  padTo (toLE 8 (n.id + 2 ^ 41) ++ toLE 2 nv.1 ++ toLE 2 0 ++ toLE 4 (normOf nv.1 nv.2) ++ packRow 4 (nv.2.map (codeOf 4 true))) (Ix.navBytes m)

/-- A node's record, list apart, and its navigation entry, written into its slot. -/
def writeNode (id slot : Nat) (n : NodeIn) (s : State) : State :=
  let m := s.ix id
  let vals := (rowLevels (Ix.fmt m) (Ix.dims m) n.codes).map fun l => decode32 l n.scale.toNat
  let norm := sum32 (vals.map fun x => mul32 x x)
  let base := Ix.recordAt m + slot * Ix.recordBytes m
  let head := toLE 8 n.id ++ toLE 2 0
  let mid := toLE 2 n.scale.toNat ++ toLE 2 0 ++ toLE 4 norm ++ List.replicate 12 0 ++ padTo n.attr 64
  let s1 := putIx id base head s
  let s2 := putIx id (base + 12) mid s1
  let s3 := putIx id (base + Ix.vecAt m) (padTo n.codes (Ix.vecBytes m)) s2
  putIx id (Ix.navAt m + slot * Ix.navBytes m) (navEntry m n vals) s3

/-- A node's list of neighbours, and the lists it joins. -/
def linkNode (id slot nid : Nat) (links : List Relink) (s : State) : State :=
  let m := s.ix id
  let list := prune m 0 slot (Ix.degree m) (candsOf links nid 0)
  list.foldl (joinList id slot) (putList id slot list s)

/-- The entry points of an index whose first node is inserted: none yet (R296). -/
def firstEntry (id : Nat) (s : State) : State := if Ix.nodes (s.ix id) = 0 then putIx id 48 (List.replicate 32 0xFF) s else s

/-- One node of an INSERT batch (R317, R319): the state and whether it replaced a node. -/
def insertNode (id : Nat) (links : List Relink) (n : NodeIn) (s : State) : State × Bool :=
  let m := s.ix id
  let old := slotOf m n.id
  match old.orElse fun _ => freeSlot m with
  | none => (s, false)
  | some slot =>
    let s1 := linkNode id slot n.id links (writeNode id slot n (firstEntry id s))
    let s2 := if old.any (slotTomb m) then bumpIx id 24 (-1) s1 else s1
    let s3 := setPass id (delN slot (s2.passTombs id)) s2
    if old.isSome then (s3, true) else (placeUpper id slot n.id links (bumpIx id 20 1 s3), false)

/-- One ID of a DELETE batch (R320): the state and whether it was tombstoned. -/
def deleteNode (id nid : Nat) (s : State) : State × Bool :=
  let m := s.ix id
  match slotOf m nid with
  | none => (s, false)
  | some slot =>
    if slotTomb m slot then (s, false)
    else
      let base := Ix.recordAt m + slot * Ix.recordBytes m
      let nav := Ix.navAt m + slot * Ix.navBytes m
      let s1 := putIx id (base + 8) (toLE 2 1) s
      let s2 := putIx id nav (toLE 8 (nid + 2 ^ 40 + 2 ^ 41)) s1
      (setPass id (delN slot (s2.passTombs id)) (bumpIx id 24 1 s2), true)

/-- A list is to be rewritten: its node is live and it holds a tombstoned slot (R321). -/
def listStale (m : Mem) (slot : Nat) : Bool := slotLive m slot && (neighbours (recordOf m slot)).any (slotTomb m)

/-- Rewrite the list of a slot from its live neighbours and those of its tombstones (R321). -/
def rewriteList (id slot : Nat) (s : State) : State :=
  let m := s.ix id
  let l := neighbours (recordOf m slot)
  let from_ := nubN ((l.filter (slotLive m)) ++ (l.filter (slotTomb m)).flatMap fun t => (neighbours (recordOf m t)).filter (slotLive m))
  putList id slot (prune m 0 slot (Ix.degree m) from_) s

/-- A tombstoned slot is reclaimed (R322). -/
def reclaim (id slot : Nat) (s : State) : State :=
  let m := s.ix id
  let s1 := putIx id (Ix.recordAt m + slot * Ix.recordBytes m) (List.replicate (Ix.recordBytes m) 0) s
  let s2 := putIx id (Ix.navAt m + slot * Ix.navBytes m) (List.replicate (Ix.navBytes m) 0) s1
  let s3 := s2.modIdx fun x =>
    { x with upper := (x.upper.filter fun u => !(u.1 == id && u.2.2.1 == slot)).map fun u =>
               if u.1 = id then (u.1, u.2.1, u.2.2.1, delN slot u.2.2.2) else u }
  let s4 := bumpIx id 24 (-1) (bumpIx id 20 (-1) s3)
  let es := Ix.entries m
  if !es.contains slot then s4
  else
    let best := (List.range (Ix.capacity m)).foldl (fun (b : Option (Nat × Nat)) x =>
      if !slotLive (s4.ix id) x ∨ es.contains x then b
      else match b with
        | none => some (s4.present id x, x)
        | some y => if s4.present id x > y.1 then some (s4.present id x, x) else b) none
    let new := match best with | some b => es.map fun e => if e = slot then b.2 else e | none => delN slot es
    putIx id 48 ((List.range 8).flatMap fun i => toLE 4 (new.getD i 0xFFFFFFFF)) s4

/-- The tombstoned slots of an index. -/
def tombSlots (m : Mem) : List Nat := (List.range (Ix.capacity m)).filter (slotTomb m)

/-- COMPACT examines slots from the cursor until 64 lists have been rewritten or its limit is reached (R321, R322): the state, the
slots still to examine, the lists rewritten and the tombstones reclaimed; `fuel` bounds the slots. -/
def compactBatch (id : Nat) : Nat → Nat → Nat → Nat → State → State × Nat × Nat × Nat
  | 0, left, lists, freed, s => (s, left, lists, freed)
  | fuel + 1, left, lists, freed, s =>
    if left = 0 ∨ lists ≥ 64 then (s, left, lists, freed)
    else
      let m := s.ix id
      let slot := Ix.cursor m % Nat.max 1 (Ix.capacity m)
      let s0 := if slot = 0 then setPass id (tombSlots m) s else s
      let stale := listStale m slot
      let s1 := if stale then rewriteList id slot s0 else s0
      let wrap := slot + 1 ≥ Ix.capacity m
      let s2 := putIx id 80 (toLE 4 (if wrap then 0 else slot + 1)) s1
      let gone := if wrap then s2.passTombs id else []
      let s3 := gone.foldl (fun s x => reclaim id x s) s2
      let s4 := if wrap then setPass id [] s3 else s3
      compactBatch id fuel (left - 1) (lists + b2n stale) (freed + gone.length) s4

/-- A commit is durable: its records and map reach flash through the protected write cache (R318). -/
def syncStore (id : Nat) (s : State) : State :=
  match s.obj? id with
  | none => s
  | some o => backExtents id o.dirty ((modOne id (fun o => { o with dirty := [] }) s).modObj fun x =>
      { x with store := updIf (·.id == id) (fun d => { d with data := o.data }) x.store })

/-- A batch applied to an index, with what its build walks found: the job after it, and the state (R317 to R321). -/
def applyBatch (j : IndexJob) (s : State) : IndexJob × State :=
  match j.op with
  | .insert ns =>
    let r := (ns.take 64).foldl (fun (a : State × Nat × Nat) n =>
      let x := insertNode j.index j.links n a.1
      (x.1, a.2.1 + b2n (!x.2), a.2.2 + b2n x.2)) (s, 0, 0)
    ({ j with op := .insert (ns.drop 64), links := [], built := 0, done0 := j.done0 + r.2.1, done1 := j.done1 + r.2.2 }, r.1)
  | .delete ids =>
    let r := (ids.take 256).foldl (fun (a : State × Nat × Nat) i =>
      let x := deleteNode j.index i a.1
      (x.1, a.2.1 + b2n x.2, a.2.2 + b2n (!x.2))) (s, 0, 0)
    ({ j with op := .delete (ids.drop 256), done0 := j.done0 + r.2.1, done1 := j.done1 + r.2.2 }, r.1)
  | .compact left =>
    let r := compactBatch j.index left left 0 0 s
    ({ j with op := .compact r.2.1, done0 := j.done0 + r.2.2.1, done1 := j.done1 + r.2.2.2 }, r.1)

/-- The node of the batch whose build walk comes next (R317). -/
def IndexJob.nextNode (j : IndexJob) : Option NodeIn := match j.op with
  | .insert ns => (ns.take 64)[j.built]?
  | _ => none

/-- Nothing is left of a job. -/
def IndexJob.over (j : IndexJob) : Bool := match j.op with
  | .insert ns => ns.isEmpty
  | .delete ids => ids.isEmpty
  | .compact left => left == 0

end Sys2Proof.Machine
end

