-- ==== Sys2Proof/Machine/Search.lean ====
section
/-! DEFINITION. SEARCH, its walks and its results (10 R303 to R314), and INSERT, DELETE and COMPACT as commands with their commits
(10 R315 to R322). Log 39 to 43 give what the spec leaves to the module here. -/

namespace Sys2Proof.Machine

open Sys2Proof

/-! ### A walk (R304 to R312) -/

/-- Update a walk. -/
def modWalk (src : Src) (i : Nat) (f : Walk → Walk) (s : State) : State :=
  s.modIdx fun x => { x with walks := updIf (fun w => w.src == src && w.walk == i) f x.walks }

/-- The walk of a command. -/
def State.walk? (s : State) (src : Src) (i : Nat) : Option Walk := s.idx.walks.find? fun w => w.src == src && w.walk == i

/-- The search of a command. -/
def State.search? (s : State) (src : Src) : Option SearchRun := s.idx.searches.find? (·.src == src)

/-- A slot looks visited: the three bits of its hashes are set by slots entered (R312; log 41). -/
def seenIn (visited : List Nat) (slot : Nat) : Bool :=
  (List.range 3).all fun i => visited.any fun v => (List.range 3).any fun j =>
    Config.visitHash j v % 131072 == Config.visitHash i slot % 131072

/-- Put an entry in the candidate queue, ordered by distance and then slot; the worst leaves a full queue (R308). -/
def enqueue (e : QEntry) (q : List QEntry) : List QEntry :=
  let before (a : QEntry) : Bool :=
    rankKey false a.dist.toNat > rankKey false e.dist.toNat || (rankKey false a.dist.toNat == rankKey false e.dist.toNat && a.slot < e.slot)
  ((q.filter before) ++ [e] ++ q.filter fun a => !before a).take 1024

/-- Entries whose reads a save has cancelled (R306): requested, and neither expanded nor in flight. -/
def Walk.owed (w : Walk) : List QEntry := (w.pushed ++ w.queue).filter fun e => !e.expanded && !e.inFlight && w.visited.contains e.slot

/-- A widened walk requests nothing new once its results reach k or its budget is spent (R308). -/
def Walk.closing (w : Walk) (k : Nat) : Bool := w.widened && (w.budget == 0 || w.results.length ≥ k)

/-- The entry that a walk of k results expands next (R306, R308). -/
def Walk.next (w : Walk) (k : Nat) : Option QEntry :=
  w.owed.head?.orElse fun _ => if w.closing k then none else (w.queue.take w.window).find? fun e => !e.expanded && !e.inFlight

/-- Reads in flight. -/
def Walk.flying (w : Walk) : Nat := ((w.pushed ++ w.queue).filter (·.inFlight)).length

/-- An entry joins the queue of a walk; one in flight that leaves it is kept until its record arrives. -/
def Walk.queueEntry (e : QEntry) (w : Walk) : Walk :=
  let q := enqueue e w.queue
  { w with queue := q, pushed := w.pushed ++ w.queue.filter fun x => x.inFlight && !q.any (·.slot == x.slot) }

/-- Request records until the read depth is reached or the window holds no candidate (R308); `fuel` is the read depth. -/
def issue (r : SearchRun) (i dome : Nat) : Nat → State → State
  | 0, s => s
  | fuel + 1, s =>
    match s.walk? r.src i with
    | none => s
    | some w =>
      if w.stop.isSome ∨ w.flying ≥ r.depth then s
      else match w.next r.k with
        | none => s
        | some e =>
          let wide := w.window > r.beam
          let hit := s.cached r.index e.slot
          let seen := delN e.slot w.visited ++ [e.slot]
          let sat := seen.length > 16384
          let fly := updIf (fun x : QEntry => x.slot == e.slot) fun x => { x with inFlight := true, hit }
          let s1 := modWalk r.src i (fun w =>
            { w with queue := fly w.queue, pushed := fly w.pushed,
                     visited := seen, visits := w.visits + 1, flashReads := w.flashReads + b2n (!hit),
                     saturated := w.saturated || sat,
                     budget := if wide then w.budget - 1 else w.budget, widening := w.widening + b2n wide }) s
          let s2 := ctrPart .searchNodeVisits dome 1 (if sat && !w.saturated then ctrPart .searchVisitedFilterSaturations dome 1 s1 else s1)
          let s3 := if hit then ctrPart .searchNodeCacheHits dome 1 (cacheHit r.index e.slot s2) else ctrPart .searchRecordsReadFromFlash dome 1 s2
          issue r i dome fuel s3

/-- Where a walk stands after its events (R308): it stops, it widens, or it goes on. -/
def judge (r : SearchRun) (w : Walk) : Walk :=
  let landed := w.flying = 0 && w.owed.isEmpty
  let idle := landed && !(w.queue.take w.window).any fun e => !e.expanded
  if w.stop.isSome then w
  else if w.widened && landed && w.results.length ≥ r.k then { w with stop := some 0 }
  else if w.widened && landed && w.budget = 0 then { w with stop := some 1 }
  else if !idle then w
  else if w.results.length ≥ r.k then { w with stop := some 0 }
  else if !w.queue.any fun e => !e.expanded then { w with stop := some 2, exhausted := true }
  else if w.budget < 1 then { w with stop := some 1 }
  else { w with window := 1024, widened := true }

/-- A walk that has stopped stands last: the walks of a search come to stand in the order in which they stopped, the order in which their lists
arrive (09 R285; log 40). -/
def stopLast (src : Src) (i : Nat) (s : State) : State :=
  let this (w : Walk) : Bool := w.src == src && w.walk == i
  s.modIdx fun x => { x with walks := x.walks.filter (fun w => !this w) ++ x.walks.filter this }

/-- A walk goes on: its state is judged, and it requests records. -/
def goOn (r : SearchRun) (i dome : Nat) (s : State) : State :=
  let s1 := issue r i dome r.depth (modWalk r.src i (judge r) s)
  match s.walk? r.src i, s1.walk? r.src i with
  | some a, some b =>
    let s2 := if b.widened && !a.widened then ctrPart .searchWidenedWalks dome 1 s1 else s1
    let s3 := modWalk r.src i (judge r) s2
    if a.stop.isNone && (s3.walk? r.src i).any (·.stop.isSome) then stopLast r.src i s3 else s3
  | _, _ => s1

/-! ### The arrays of a walk (R299; 07 R212) -/

/-- The four arrays that a walk's task has for its distance tiles. -/
def State.walkArrays (s : State) (t : TaskRef) : Option Grant := s.arr.grants.find? (·.task == t)

/-- A walk's task asks for its arrays, unless it has them or waits for them: while they are busy it waits (07 R212; log 39). -/
def askWalk (t : TaskRef) (cluster : Nat) (s : State) : State :=
  if (s.walkArrays t).isSome || s.arr.waiting.any (·.task == t) then s
  else askArrays { task := t, op := 0, cluster, quad := false, count := 4 } s

/-- Distance tiles of a walk run on its arrays, which are free after them; the walk then goes on. -/
def walkTiles (t : TaskRef) (cluster dome : Nat) (runs : List ArrayRun) (misses : List Nat) (commit : State → State) (s : State) : State :=
  if runs.isEmpty then commit s
  else
    let s1 := askWalk t cluster s
    match s1.walkArrays t with
    | none => s1
    | some g => runPasses g dome runs misses (fun u => commit (freeGrants (·.task == t) u)) s1

/-- The way of a walk among those of its query; a build walk has one (R304, R317). -/
def SearchRun.way (r : SearchRun) (chain : Nat) : Nat := if r.node.isSome then 0 else chain % Nat.max 1 r.ways

/-- A walk begins at its entry point, below its descent (R304, R307; log 39). -/
def newWalk (r : SearchRun) (t : TaskRef) (cluster dome : Nat) (s : State) : State :=
  let q := if r.node.isSome then 0 else t.chain / Nat.max 1 r.ways
  match (Ix.entries (s.ix r.index))[r.way t.chain]? with
  | none => s
  | some e =>
    let d := descend s r.index r.distance (r.navQ.getD q (0, [])) ((r.navNorms.getD q 0).toNat) e
    walkTiles t cluster dome d.2.2.2 [] (fun s =>
      goOn r t.chain dome (ctrPart .searchNavigationDistances dome d.2.2.1 (s.modIdx fun x =>
        { x with walks := x.walks ++ [{ src := r.src, walk := t.chain, query := q, window := r.beam, budget := r.budget * 64, navs := d.2.2.1,
                                        queue := [{ slot := d.1, dist := BitVec.ofNat 32 d.2.1 }] }] }))) s

/-- Update an index job. -/
def modJob (src : Src) (f : IndexJob → IndexJob) (s : State) : State := s.modIdx fun x => { x with jobs := updIf (·.src == src) f x.jobs }

/-- The build walk of a node (R317): the index's build beam and build distance, no filter, the default hop limits, one way, and as many
results as its beam (log 43). The vector is in the index's format already. -/
def buildRun (j : IndexJob) (n : NodeIn) (m : Mem) : SearchRun :=
  let full := (n.scale.toNat, rowLevels (Ix.fmt m) (Ix.dims m) n.codes)
  let nav := quantVec 2 (navPart m (full.2.map fun l => decode32 l full.1))
  { src := j.src, index := j.index, distance := Ix.buildDistance m, approx := false, shardTag := false, k := Ix.beam m, beam := Ix.beam m,
    queries := 1, budget := 0, ways := 1, tombHops := 2, filtHops := 4, depth := 32 / Nat.max 1 (Ix.units m), program := [], full := [full],
    norms := [BitVec.ofNat 32 (normOf full.1 full.2)], navNorms := [BitVec.ofNat 32 (normOf nav.1 nav.2)], navQ := [nav], node := some n.id }

/-- The build walk of the next node of a job's batch is due, unless one is under way; an index without nodes has nothing to walk (R317). -/
def beginBuild (src : Src) (s : State) : State :=
  match s.search? src, s.idx.jobs.find? (·.src == src) with
  | none, some j =>
    if !s.jobTurn j || (Ix.entries (s.ix j.index)).isEmpty then s
    else match j.nextNode with
      | some n => s.modIdx fun x => { x with searches := x.searches ++ [buildRun j n (s.ix j.index)] }
      | none => s
  | _, _ => s

/-- A walk task runs on a cluster: its walk begins, or requests again what a save cancelled (R305, R306). -/
def kickWalk (t : TaskRef) (s0 : State) : State :=
  let s := beginBuild t.src s0
  match s.search? t.src, s.flight? t with
  | some r, some (c, _, run) =>
    if (s.walk? t.src t.chain).isSome then goOn r t.chain c.dome s else newWalk r t run.cluster c.dome s
  | _, _ => s

/-- A build walk that has stopped leaves what it found with its job: the slots whose records it read, and those that its descent met in each
layer. The walk of the batch's next node follows (R317). -/
def endBuild (t : TaskRef) (s : State) : State :=
  match s.search? t.src, s.walk? t.src t.chain with
  | some r, some w =>
    (match r.node, w.stop with
     | some n, some _ =>
       let met := descentMet s r.index r.distance (r.navQ.headD (0, [])) ((r.navNorms.headD 0).toNat) ((Ix.entries (s.ix r.index)).headD 0)
       kickWalk t (modJob t.src (fun j => { j with built := j.built + 1, links := j.links ++ [{ node := n, layer := 0, cands := w.read }] ++
           (met.map fun l => { node := n, layer := l.1, cands := l.2 }) })
         (s.modIdx fun x => { x with searches := x.searches.filter (·.src ≠ t.src), walks := x.walks.filter (·.src ≠ t.src) }))
     | _, _ => s)
  | _, _ => s

/-- The walks that have waited for the arrays of their descents, and have them now, begin (R307; 07 R212). -/
def resumeWalks (s : State) : State :=
  (s.arr.grants.filter fun g => g.op == 0 && (s.search? g.task.src).isSome && (s.walk? g.task.src g.task.chain).isNone).foldl
    (fun s g => kickWalk g.task s) s

/-! ### Expansions (R308 to R311) -/

/-- Duplicates that a selection of a list removed count (R274, R285). -/
def countDups (dome n : Nat) (s : State) : State := ctrPart .selDuplicatesRemoved dome n s

/-- Offer a result to a walk (R308, R310): the selection unit of its cluster cuts a full buffer of 2 × k to the best k, duplicates removed
(R274). -/
def offer (src : Src) (i k cluster dome : Nat) (e : ListEntry) (s : State) : State :=
  match s.walk? src i with
  | none => s
  | some w =>
    let n := w.results ++ [e]
    if n.length < 2 * k then modWalk src i (fun w => { w with results := n }) s
    else
      let cut := mergeLists k n
      countDups dome cut.2 (countSel cluster dome k cut.1 (modWalk src i (fun w => { w with results := cut.1.entries.map (·.2.2) }) s))

/-- What the arrival of a record that can be used comes to: the result to offer, the transit depth, whether its neighbours are not followed, and
else the neighbours to enqueue with their navigation distances; and the passes that it takes. -/
structure Expansion where
  tomb : Bool
  result : Option ListEntry
  depth : Nat
  cut : Bool
  near : List (Nat × Nat)
  runs : List ArrayRun

/-- The expansion of a slot for a walk (R297, R308, R309). The neighbours that are neither free, visited nor queued are scored together, before
the first of them is enqueued (log 39). -/
def State.expansion (s : State) (r : SearchRun) (w : Walk) (e : QEntry) : Expansion :=
  let m := s.ix r.index
  let b := recordOf m e.slot
  let tomb := bit (le b 8 1) 0
  let filt := !tomb && !matchesProgram r.program (slice b 32 64)
  let depth := if tomb ∨ filt then e.depth + 1 else 0
  let cut := (tomb && depth > r.tombHops) || (filt && depth > r.filtHops)
  let d := fullDistance m r.distance (r.full.getD w.query (0, [])) (r.norms.getD w.query 0).toNat b
  let ns := if cut then [] else
    (nubN (neighbours b)).filter fun n => slotUsed m n && !w.queue.any (·.slot == n) && !seenIn w.visited n
  let v := navDistances m r.distance (r.navQ.getD w.query (0, [])) (r.navNorms.getD w.query 0).toNat ns
  { tomb, depth, cut, near := ns.zip v.1, runs := (if tomb ∨ filt then [] else d.2) ++ v.2
    result := if tomb ∨ filt then none
      else some { id := le b 0 5, shard := if r.shardTag then Ix.shard m else 0, dist := BitVec.ofNat 32 d.1 } }

/-- An expansion takes effect (R308 to R310). -/
def expand (r : SearchRun) (i cluster dome : Nat) (x : Expansion) (s : State) : State :=
  let s1 := match x.result with
    | none => s
    | some e => offer r.src i r.k cluster dome e s
  if x.cut then
    ctrPart (if x.tomb then .searchTombstoneCuts else .searchFilterCuts) dome 1 (modWalk r.src i (fun w => { w with transitCut := true }) s1)
  else ctrPart .searchNavigationDistances dome x.near.length (modWalk r.src i (fun w =>
    x.near.foldl (fun w n => Walk.queueEntry { slot := n.1, dist := BitVec.ofNat 32 n.2, depth := x.depth } w)
      { w with navs := w.navs + x.near.length }) s1)

/-- The record of a slot has been read from a block of flash (R25, R301): the block's reads count, the engine of the group evaluates the program
of a filtered search (11 R340), and the record may enter the cache. -/
def recordRead (index slot block dome : Nat) (filtered : Bool) (r : ReadEnd) (s : State) : State :=
  let m := s.ix index
  let t := countEngine (chanGroup (dieOf block)) (b2n filtered) <| countClass (dieOf block) 0 (Ix.recordBytes m) (readBlock block r (readEnd r (countRead block (Ix.units m) s)))
  if readFailed r then t else promote index slot block dome t

/-- An entry's record has landed: it is expanded, and no longer in flight. -/
def Walk.landed (slot : Nat) (failed free : Bool) (w : Walk) : Walk :=
  { w with read := if failed || free then w.read else w.read ++ [slot], queue := updIf (·.slot == slot) (fun x => { x with expanded := true, inFlight := false }) w.queue,
           pushed := w.pushed.filter (·.slot ≠ slot), readError := w.readError || failed }

/-- WALK_RECORD_ARRIVAL (R308 to R312, R301): a record in flight arrives, from the node cache, or from a block of flash with a read that ends in
some way. Its distances are computed on the arrays of the walk's cluster; while these are busy, the record waits (07 R212). Nothing is expanded 360 µs
after the dispatch of the walk's task: what arrives then is left to the next task (R305). With its last record a build walk ends, and the next
node's begins (R317). -/
def execWalkRecordArrival (src : Src) (walk slot block us : Nat) (r : ReadEnd) (misses : List Nat) (s : State) : Ans :=
  .next (endBuild { src, chain := walk } (match s.search? src, s.flight? { src, chain := walk }, s.walk? src walk with
    | some q, some (c, _, run), some w =>
      match (w.queue ++ w.pushed).find? fun e => e.slot == slot && e.inFlight with
      | none => s
      | some e =>
        if s.ranFor run us ≥ 360 then s
        else
        let failed := !e.hit && readFailed r
        let free := !slotUsed (s.ix q.index) slot
        let x := s.expansion q w e
        let land (s : State) : State := modWalk src walk (Walk.landed slot failed free)
          (if e.hit then s else recordRead q.index slot block c.dome (!q.program.isEmpty) r s)
        if failed then goOn q walk c.dome (land s)
        else if free then goOn q walk c.dome (ctrPart .searchFreeSlotsMet c.dome 1 (land s))
        else walkTiles { src, chain := walk } run.cluster c.dome x.runs misses
          (fun s => goOn q walk c.dome (expand q walk run.cluster c.dome x (land s))) s
    | _, _, _ => s))

/-- The walks of the domes of a switch lose their reads in flight on a cluster (R306). -/
def cancelReads (domes : List Nat) (cluster : Nat) (s : State) : State :=
  let gone (w : Walk) : Bool := (s.cmd? w.src).any fun c => domes.contains c.dome && (c.chains[w.walk]?).any (·.at_ == some cluster)
  let drop (l : List QEntry) : List QEntry := l.map fun e => { e with inFlight := false }
  s.modIdx fun x => { x with walks := updIf gone (fun w => { w with queue := drop w.queue, pushed := drop w.pushed }) x.walks }

/-! ### Results (R313, R314) -/

/-- A result block: the header of Table 10-7 and k entries. -/
def resultBlock (k status visits reads navs widening stop flags walks : Nat) (es : List ListEntry) : List Byte :=
  let cap (v : Nat) : List Byte := toLE 4 (sat 0xFFFFFFFF v)
  padTo (toLE 8 status ++ cap visits ++ cap reads ++ cap navs ++ cap widening ++ toLE 1 stop ++ toLE 1 flags ++
    toLE 2 (sat 0xFFFF walks) ++ toLE 4 0 ++ es.flatMap entryBytes) (32 + 16 * k)

/-- What one query answers (R313). -/
structure QueryAnswer where
  block : List Byte
  exhausted : Bool
  tie : Bool
  count : Nat
  duplicates : Nat
  /-- the selections made for it, each with the cluster whose unit made it -/
  cuts : List (Sel ListEntry × Nat)

/-- The results of a query from its walks, in the order in which they stopped (R285, R286, R310, R314). Each walk's cut is made on the cluster
of its chain, duplicates removed (R274), and the merge on that of the last walk (log 40). -/
def answer (r : SearchRun) (at_ : Walk → Nat) (ws : List Walk) : QueryAnswer :=
  let lists := ws.map fun w => dedup [] w.results
  let own := lists.map fun l => select r.approx r.k (listRanked l)
  let gone := sumN (ws.map (·.results.length)) - sumN (lists.map (·.length))
  let all := mergeLists r.k (own.flatMap fun x => x.entries.map (·.2.2))
  let cuts := own.zip (ws.map at_)
  let fin : Sel ListEntry × Nat × List (Sel ListEntry × Nat) := match own with
    | [x] => (x, gone, cuts)
    | _ => (mergedStatus all.1 own, gone + all.2, cuts ++ [(all.1, (ws.getLast?.map at_).getD 0)])
  let count := fin.1.entries.length
  let ex := (ws.isEmpty || ws.any (·.exhausted)) && count < r.k
  let flags := b2n ex + 2 * b2n (ws.any (·.widened)) + 4 * b2n (ws.any (·.saturated)) + 8 * b2n (ws.any (·.transitCut)) +
    16 * b2n (ws.any (·.readError))
  let stop := if ws.isEmpty then 2 else maxN (ws.map fun w => w.stop.getD 0)
  { block := resultBlock r.k (selStatus count fin.1.tie fin.1.approx fin.1.population) (sumN (ws.map (·.visits)))
      (sumN (ws.map (·.flashReads))) (sumN (ws.map (·.navs))) (sumN (ws.map (·.widening))) stop flags ws.length (fin.1.entries.map (·.2.2)),
    exhausted := ex, tie := fin.1.tie, count, duplicates := fin.2.1, cuts := if ws.isEmpty then [] else fin.2.2 }

/-- Bytes that stand now where a command's output goes, from an offset of it on. -/
def State.outSpace (s : State) (c : Cmd) (off n : Nat) : List Byte :=
  if c.outObj then s.objBytes c.outAddr off n else (List.range n).map fun i => hostGet s.obj.t2 (s.outKey c + off + i)

/-- Result blocks as an output: after its last entry a block keeps the earlier contents of the output (09 R280, R313). -/
def keepTails (c : Cmd) (k : Nat) (blocks : List (List Byte)) (s : State) : List Byte :=
  let size := 32 + 16 * k
  blocks.zipIdx.flatMap fun b =>
    let n := 32 + 16 * (le b.1 0 2 % 2 ^ 13)
    b.1.take n ++ s.outSpace c (b.2 * size + n) (size - n)

/-- A search whose walks have all stopped: its output, its dwords and its counters (R313; 04 Table 4-3). -/
def finishSearch (src : Src) (s : State) : State :=
  match s.search? src, s.cmd? src with
  | some r, some c =>
    let at_ (w : Walk) : Nat := ((c.chains[w.walk]?).bind (·.at_)).getD 0
    let ans := (List.range r.queries).map fun q => answer r at_ (s.idx.walks.filter fun w => w.src == src && w.query == q)
    let s1 := modCmd src (fun c => { c with out := keepTails c r.k (ans.map (·.block)) s, dw0 := r.queries,
                                            dw1 := b2n (ans.any (·.exhausted)) + 2 * b2n (ans.any (·.tie)) }) s
    let count (s : State) (a : QueryAnswer) : State :=
      countDups c.dome a.duplicates (countShort c.dome r.k a.count
        (a.cuts.foldl (fun s x => countCut c.dome x.1 (ctrAdd .selSelectionPasses x.2 x.1.passes s)) s))
    ctrPart .searchQueriesAnswered c.dome r.queries
      (ctrPart .searchExhaustedQueries c.dome (ans.filter (·.exhausted)).length
        (ctrPart .searchBudgetSpentQueries c.dome (ans.filter fun a => le a.block 24 1 == 1).length (ans.foldl count s1)))
  | _, _ => s

/-- The last task of a walk's chain is one that ends with the walk stopped. -/
def State.walkOver (s : State) (t : TaskRef) : Bool := (s.walk? t.src t.chain).any (·.stop.isSome)

/-! ### SEARCH -/

/-- The shape of SEARCH. -/
def shapeSearch : Shape := ⟨0x8A, 3, 0x001F0000#32, 0x07FF07FF#32, 0xFFFFFFFF#32, true, true⟩

/-- The fields of a SEARCH entry. -/
def Sf.kind (e : Entry) : Nat := bits e.dw13.toNat 17 16
/-- APPROX. -/
def Sf.approx (e : Entry) : Bool := bit e.dw13.toNat 18
/-- SHARD-TAG. -/
def Sf.shard (e : Entry) : Bool := bit e.dw13.toNat 19
/-- FILTER. -/
def Sf.filter (e : Entry) : Bool := bit e.dw13.toNat 20
/-- k. -/
def Sf.k (e : Entry) : Nat := bits e.dw14.toNat 10 0
/-- beam. -/
def Sf.beam (e : Entry) : Nat := bits e.dw14.toNat 26 16
/-- Queries. -/
def Sf.queries (e : Entry) : Nat := bits e.dw15.toNat 15 0
/-- Widening budget in steps of 64 visits. -/
def Sf.budget (e : Entry) : Nat := bits e.dw15.toNat 31 16

/-- Bytes of one query (R303). -/
def queryBytes (m : Mem) (fmt : Nat) : Nat := ceilDiv (Ix.dims m * (if fmt = 0 then 2 else 4)) 8 * 8

/-- The input header and lengths of a SEARCH (R303, Table 10-6), and its program. -/
def checkSearchInput (m : Mem) (e : Entry) : Except Fail Unit :=
  let b := e.input
  let n := le b 8 4
  match checks [
    (le b 5 3 != 0 || !allZero (slice b 12 52) || e.inLen.toNat < 64 || le b 0 1 > 1 || le b 1 1 > 8 || (le b 2 1 > 7 && le b 2 1 != 0xFF) || (le b 3 1 > 15 && le b 3 1 != 0xFF) ||
      le b 4 1 == 0 || le b 4 1 > 32 / Nat.max 1 (Ix.units m) || n % 8 != 0 ||
      e.inLen.toNat != 64 + n + Sf.queries e * queryBytes m (le b 0 1), fieldBad 0xA03),
    ((n == 0) == Sf.filter e, fieldBad 0xA04)] with
  | .error f => .error f
  | .ok _ => if n = 0 then .ok () else checkProgram (slice b 64 n) n

/-- The T0 footprint of a walk (R304). -/
def walkT0 (m : Mem) (depth k program : Nat) : Nat :=
  ceilDiv (32768 + depth * Ix.recordBytes m + 32 * k + program + Ix.vecBytes m + rowBytes 2 (Ix.nav m)) 4096 * 4096

/-- A walk task (R305). -/
def walkTask (id : Nat) (m : Mem) (t0 : Nat) : TaskSpec := { worst := 400, t0, pages := indexPages id m }

/-- A task of INSERT, DELETE or COMPACT: a build walk's, whose index commit takes up to 200 µs (03 Table 3-4, R85; log 43). -/
def jobTask (id : Nat) (m : Mem) : TaskSpec := { walkTask id m (walkT0 m (32 / Nat.max 1 (Ix.units m)) (Ix.beam m) 0) with np := 200 }

/-- A query of the input as binary32 values. -/
def queryOf (m : Mem) (fmt : Nat) (b : List Byte) : List Nat := floatRow fmt (Ix.dims m) b

/-- What a SEARCH runs with, once it has been checked (R298, R303, R304). -/
def searchRun (e : Entry) (m : Mem) : SearchRun :=
  let b := e.input
  let n := le b 8 4
  let qs := (List.range (Sf.queries e)).map fun i => queryOf m (le b 0 1) (slice b (64 + n + i * queryBytes m (le b 0 1)) (queryBytes m (le b 0 1)))
  let full := qs.map (quantVec (Ix.fmt m))
  let nav := qs.map fun q => quantVec 2 (navPart m q)
  { src := e.src, index := Fe.obj1 e, distance := Sf.kind e, approx := Sf.approx e, shardTag := Sf.shard e, k := Sf.k e, beam := Sf.beam e,
    queries := Sf.queries e, budget := Sf.budget e, ways := Nat.min (if le b 1 1 = 0 then 1 else le b 1 1) (Ix.entries m).length,
    tombHops := if le b 2 1 = 0xFF then 2 else le b 2 1, filtHops := if le b 3 1 = 0xFF then 4 else le b 3 1, depth := le b 4 1,
    program := slice b 64 n, full, norms := full.map fun q => BitVec.ofNat 32 (normOf q.1 q.2),
    navNorms := nav.map fun q => BitVec.ofNat 32 (normOf q.1 q.2), navQ := nav }

/-- A field of a SEARCH entry is out of its range (Table 4-3). -/
def searchBad (e : Entry) : Bool :=
  Sf.kind e == 3 || Sf.k e == 0 || Sf.k e > 1024 || Sf.beam e < Sf.k e || Sf.beam e > 1024 || Sf.queries e == 0 || Sf.queries e > 4096

/-- A checked SEARCH becomes outstanding with one chain for each walk (R304); on an index with no nodes it ends at once. -/
def admitSearch (e : Entry) (s : State) : State :=
  let m := s.ix (Fe.obj1 e)
  let r := searchRun e m
  let walks := if Ix.nodes m = 0 then 0 else r.queries * r.ways
  let task := walkTask r.index m (walkT0 m r.depth r.k r.program.length)
  let c := cmdOf e 0x8A [Fe.obj1 e]
  let s1 := useIndex r.index ((enrol { c with chains := List.replicate walks { tasks := [task], dynamic := true } } s).modIdx fun x =>
    { x with searches := x.searches ++ [r] })
  if walks = 0 then settle e.src (finishSearch e.src s1) else s1

/-- SEARCH (04 Table 4-3, R127; 10 R303 to R314). -/
def execSearch (e : Entry) (s : State) : Ans :=
  runMilris shapeSearch e (fun s =>
    if searchBad e then .error St.invalidField
    else orFail (indexFail (Fe.obj1 e) (s.part (Fe.dome e)) false s) fun _ =>
      match checkSearchInput (s.ix (Fe.obj1 e)) e with
      | .error f => .error f
      | .ok _ => .ok (admitSearch e s)) s

/-! ### INSERT, DELETE and COMPACT (R315 to R322) -/

/-- A job begins; it waits while an earlier one is on its index (R315). -/
def addJob (j : IndexJob) (s : State) : State :=
  let s1 := s.modIdx fun x => { x with jobs := x.jobs ++ [j] }
  if s1.jobTurn j then s1 else modCmd j.src (fun c => { c with waiting := true }) s1

/-- The bytes of an INSERT entry (R316). -/
def nodeBytes (m : Mem) : Nat := 80 + ceilDiv (Ix.vecBytes m) 8 * 8

/-- An INSERT entry. -/
def nodeOf (m : Mem) (b : List Byte) : NodeIn :=
  { id := le b 0 5, scale := BitVec.ofNat 16 (le b 8 2), attr := slice b 16 64, codes := slice b 80 (Ix.vecBytes m) }

/-- The shapes of INSERT, DELETE and COMPACT. -/
def shapeInsert : Shape := ⟨0x91, 3, 0#32, 0xFFFF#32, 0#32, true, false⟩
/-- The shape of DELETE. -/
def shapeDelete : Shape := ⟨0x92, 3, 0#32, 0xFFFF#32, 0#32, true, false⟩
/-- The shape of COMPACT. -/
def shapeCompact : Shape := ⟨0x93, 3, 0#32, 0xFFFFFFFF#32, 0#32, false, false⟩

/-- A command on an index becomes outstanding with its job and a chain of build-walk tasks. -/
def admitJob (e : Entry) (opcode : Nat) (op : IndexOp) (s : State) : State :=
  let id := Fe.obj1 e
  let m := s.ix id
  let c := cmdOf e opcode [id]
  let chain : Chain := { tasks := [jobTask id m], dynamic := true }
  addJob { src := e.src, index := id, op } (useIndex id (enrol { c with chains := [chain], writes := [id] } s))

/-- INSERT (10 R316, R318; 04 R130). -/
def execInsert (e : Entry) (s : State) : Ans :=
  runMilris shapeInsert e (fun s =>
    let n := bits e.dw14.toNat 15 0
    if n = 0 then .error St.invalidField
    else if s.readOnly then .error St.writeProtected
    else orFail (indexFail (Fe.obj1 e) (s.part (Fe.dome e)) true s) fun _ =>
      let m := s.ix (Fe.obj1 e)
      let entry (i : Nat) : List Byte := slice e.input (i * nodeBytes m) (nodeBytes m)
      if e.inLen.toNat ≠ n * nodeBytes m ∨ (List.range n).any (fun i => le (entry i) 5 3 != 0 || le (entry i) 10 6 != 0) then .error St.invalidField
      else if Ix.nodes m + n > Ix.capacity m then .error (fieldBad 0xA06)
      else .ok (admitJob e 0x91 (.insert ((List.range n).map fun i => nodeOf m (entry i))) s)) s

/-- DELETE (10 R320; 04 R130). -/
def execDelete (e : Entry) (s : State) : Ans :=
  runMilris shapeDelete e (fun s =>
    let n := bits e.dw14.toNat 15 0
    if n = 0 ∨ e.inLen.toNat ≠ 8 * n ∨ (List.range n).any (fun i => le e.input (8 * i + 5) 3 != 0) then .error St.invalidField
    else if s.readOnly then .error St.writeProtected
    else orFail (indexFail (Fe.obj1 e) (s.part (Fe.dome e)) true s) fun _ =>
      .ok (admitJob e 0x92 (.delete ((List.range n).map fun i => le e.input (8 * i) 5)) s)) s

/-- COMPACT (10 R321; 04 R130). A list limit of 0 examines capacity slots. -/
def execCompact (e : Entry) (s : State) : Ans :=
  runMilris shapeCompact e (fun s =>
    if s.readOnly then .error St.writeProtected
    else orFail (indexFail (Fe.obj1 e) (s.part (Fe.dome e)) true s) fun _ =>
      let n := e.dw14.toNat
      .ok (admitJob e 0x93 (.compact (if n = 0 then Ix.capacity (s.ix (Fe.obj1 e)) else n)) s)) s

/-- A job has made its last commit: INSERT, DELETE and COMPACT have done their work (Table 4-3), and so has the insertion of an EMBED or of a
triggered run (08 R261, R262). The chain of the job ends with its task. -/
def endJob (j : IndexJob) (s : State) : State :=
  let s1 := wakeJobs (s.modIdx fun x => { x with jobs := x.jobs.filter (·.src ≠ j.src) })
  match s1.cmd? j.src with
  | none => s1
  | some _ =>
    let s2 := match s1.armBy j.src with
      | some a => ctrPart .genIngestRecordsEmbedded a.dome (j.done0 + j.done1) s1
      | none => s1
    settle j.src (modCmd j.src (fun c =>
      { c with dw0 := if c.opcode = 0x89 then c.dw0 else j.done0, dw1 := if c.opcode = 0x89 then c.dw1 else j.done1,
               chains := c.chains.map fun h => if h.dynamic then { h with finished := true } else h }) s2)

/-- The build walks of a job's batch have all ended (R317). -/
def State.batchReady (s : State) (j : IndexJob) : Bool := j.nextNode.isNone || (Ix.entries (s.ix j.index)).isEmpty

/-- The task of a command that is in flight. -/
def Cmd.flying (c : Cmd) : TaskRef := { src := c.src, chain := ((c.chains.zipIdx.find? (·.1.run.isSome)).map (·.2)).getD 0 }

/-- INDEX_COMMIT (10 R317 to R322): the next batch of the job whose turn it is becomes visible, and durable, at one instant,
in a task of the job, once its build walks have ended. -/
def execIndexCommit (src : Src) (s : State) : Ans :=
  .next (match s.idx.jobs.find? (·.src == src) with
    | none => s
    | some j =>
      if !s.jobTurn j ∨ !(s.cmd? src).any (fun c => c.inFlight && c.failed.isNone) ∨ !s.batchReady j then s
      else if s.readOnly then
        (match s.cmd? src with
         | some _ => wakeJobs (failWhole src St.writeProtected (s.modIdx fun x => { x with jobs := x.jobs.filter (·.src ≠ src) }))
         | none => s)
      else
        let r := applyBatch j s
        let dome := ((s.obj? j.index).map (·.dome)).getD 0
        let s1 := ctrPart .searchIndexCommits dome 1 (syncStore j.index (bumpIx j.index 84 1 (modJob src (fun _ => r.1) r.2)))
        if r.1.over then endJob r.1 s1
        else match s1.cmd? src with
          | some c => kickWalk c.flying s1
          | none => s1)

end Sys2Proof.Machine
end

