-- ==== Sys2Proof/Machine/Schedule.lean ====
section
/-! DEFINITION. The scheduler core: slices, switches, placement, dispatch, semaphores and lending (03 R72 to R91; 16 R446, R452). -/

namespace Sys2Proof.Machine

open Sys2Proof

/-! ### Power seen by the scheduler (16 R443, R446, R451, R452) -/

/-- The state of a power domain. -/
def State.domain (s : State) (n : Nat) : Domain := (s.pwr.domains[n]?).getD { state := .off }

/-- Update a power domain. -/
def modDomain (n : Nat) (f : Domain → Domain) (s : State) : State := s.modPwr fun p => { p with domains := updAt n f p.domains }

/-- The applied throttle level: what the last tick boundary took from the power and the thermal level (16 R451). -/
def State.applied (s : State) : Nat := s.pwr.level

/-- A band receives no new dispatch in this tick (16 R452). -/
def State.throttled (s : State) (band : Nat) : Bool := (s.tick.toNat + band) % 16 < s.applied

/-- A core swap has stopped dispatch to a band (17 R481). -/
def State.swapping (s : State) (band : Nat) : Bool :=
  match s.fw.activation with
  | some (_, .band b (some _), _, _) => b == band
  | _ => false

/-! ### Slices (R72 to R74) -/

/-- The slice pointer of a partition. -/
def State.ptr? (s : State) (part : Nat) : Option SlicePtr := s.sch.ptrs.find? (·.part == part)

/-- Update a slice pointer. -/
def modPtr (part : Nat) (f : SlicePtr → SlicePtr) (s : State) : State := s.modSch fun k => { k with ptrs := updIf (·.part == part) f k.ptrs }

/-- The slice table of a partition. -/
def State.table? (s : State) (part : Nat) : Option SliceTable := s.str.slices.find? (·.part == part)

/-- The domes of a partition's tree. -/
def State.tree (s : State) (part : Nat) : List Nat := (s.str.domes.filter fun d => s.under d.id part).map (·.id)

/-- The domes eligible in entry i of a partition's table (R53). -/
def State.inEntry (s : State) (part i : Nat) : List Nat :=
  match (s.table? part).bind (·.entries[i]?) with
  | none => []
  | some e => (s.tree part).filter fun d => e.domes.any fun a => s.under d a

/-- The entry that follows the one in force. -/
def State.nextEntry (s : State) (p : SlicePtr) : Nat :=
  let n := ((s.table? p.part).map (·.entries.length)).getD 1
  if p.entry + 1 ≥ n then 0 else p.entry + 1

/-- The outgoing domes of the coming slice boundary (R74). -/
def State.outgoing (s : State) (p : SlicePtr) : List Nat :=
  (s.inEntry p.part p.entry).filter fun d => !(s.inEntry p.part (s.nextEntry p)).contains d

/-- The incoming domes of the coming slice boundary (R74). -/
def State.incoming (s : State) (p : SlicePtr) : List Nat :=
  (s.inEntry p.part (s.nextEntry p)).filter fun d => !(s.inEntry p.part p.entry).contains d

/-- µs from a moment of this tick to the partition's coming slice boundary. -/
def SlicePtr.timeLeft (p : SlicePtr) (us : Nat) : Nat := p.left * 500 - us

/-! ### Live T0 and the switch lead (R78 to R80) -/

/-- The clusters of several domes, each once. -/
def State.clustersOf (s : State) (ds : List Nat) : List Nat := nubN (ds.flatMap s.clusters)

/-- The live T0 of several domes by cluster. -/
def State.liveBytes (s : State) (ds : List Nat) : List Nat := (s.clustersOf ds).map fun c => sumN (ds.map fun d => s.liveT0 d c)

/-- The saved live T0 of several domes by cluster. -/
def State.savedBytes (s : State) (ds : List Nat) : List Nat :=
  (nubN ((s.sch.saved.filter fun v => ds.contains v.1).map (·.2.1))).map fun c =>
    sumN ((s.sch.saved.filter fun v => ds.contains v.1 && v.2.1 == c).map (·.2.2))

/-- The switch lead of the coming boundary (R80), with the slice debt (R86); 0 where no dome goes out (R74). -/
def State.leadOf (s : State) (p : SlicePtr) : Nat :=
  let o := s.outgoing p
  if o.isEmpty then 0 else boundOf (s.liveBytes o) + boundOf (s.savedBytes (s.incoming p)) + p.debt

/-- A shared semaphore is held by a plan of one of the domes (R88). -/
def State.holding (s : State) (ds : List Nat) (m : Sem) : Bool :=
  m.dome.isNone && m.held.any fun h => (s.cmd? h.1).any fun c => ds.contains c.dome

/-- Some shared semaphore is held in an outgoing dome. -/
def State.windowNeeded (s : State) (p : SlicePtr) : Bool := s.sch.sems.any (s.holding (s.outgoing p))

/-! ### Readiness and placement (R75 to R77, R81, R85) -/

/-- Dispatch into a dome's subtree has stopped for a waiting structure change (02 R59). -/
def State.changeStops (s : State) (d : Nat) : Bool :=
  match s.str.change with
  | some c => c.stopped.isSome && (match c.kind.target with | some t => s.under d t | none => true)
  | none => false

/-- Dispatch to a cluster has stopped for a waiting fence (02 R61). -/
def State.fenceStops (s : State) (c : Nat) : Bool := s.str.fences.any fun r => !r.unfence && r.cluster == c && r.stopped.isSome

/-- A cluster's late save or restore stands in the way of an incoming dome (R86); after an overrun switch any cluster's does (R82). -/
def State.switchBlocks (s : State) (d c : Nat) : Bool :=
  (s.ptr? (s.part d)).any fun p => p.late.any fun w =>
    w.incoming.contains d && (w.overrun || w.saving.contains c || w.restoring.contains c)

/-- The semaphore by which a suspended command is being lent time, with its waiter's dome, its cluster and the time of its start
(R89). -/
def State.lendingOf (s : State) (src : Src) : Option (Sem × Nat × Nat × Nat) :=
  s.sch.sems.findSome? fun m => match m.lending with
    | some l => if l.1 = src then some (m, l.2) else none
    | none => none

/-- A task is ready (R75, 05 R155): its predecessors have ended, its declared pages are resident, and nothing of its command
stops it. -/
def State.ready (s : State) (c : Cmd) (h : Chain) : Bool :=
  h.run.isNone && !h.finished && h.done < h.tasks.length && c.failed.isNone && !c.deleting && !c.dropped && !c.waiting &&
  (s.missing h.task.pages).isEmpty

/-- The dispatch cutoff of a partition for a task of a dome (R81, R82, R85, R88): true when the task may start now. -/
def State.cutoff (s : State) (d us : Nat) (c : Cmd) (k : TaskSpec) : Bool :=
  match s.ptr? (s.part d) with
  | none => true
  | some p =>
    let left := p.timeLeft us
    let sw := !(s.outgoing p).isEmpty
    let np := k.np = 0 || k.np + (if sw then p.lead else 0) ≤ left
    if !((s.outgoing p).contains d) then np
    else match p.phase with
      | .saving => false
      | .window => np && k.releasing && s.sch.sems.any (fun m => m.dome.isNone && m.held.any (·.1 == c.src)) &&
          (if p.overrun then s.now us + k.worst ≤ p.windowAt + 100 else k.worst + p.lead ≤ left)
      | .idle => np && k.worst + p.lead ≤ left

/-- A cluster can take a task of a dome (R76): a free context and the declared T0 bytes. -/
def State.hasRoom (s : State) (d c t0 : Nat) : Bool :=
  (s.running c).length < 32 && s.t0Held d c + s.t0Tasks c + t0 ≤ t0Bytes && !s.str.fenced.contains c && !s.fenceStops c &&
  !s.swapping (c / 32) && !s.switchBlocks d c

/-- The first cluster in membership order that can take a task (R76); throttled bands have no free context (16 R452). -/
def State.place (s : State) (d t0 : Nat) : Option Nat :=
  (s.clusters d).find? fun c => s.hasRoom d c t0 && !s.throttled (c / 32)

/-- The fill of the layer at hand has not ended on a cluster (05 R164): its tasks are not ready there. -/
def Chain.fills (h : Chain) (cl : Nat) : Bool := h.filling0.contains cl

/-- Step 4 of the shedding holds the tasks of a LOW PRIORITY dome back in this tick (R95). -/
def State.shedLow (s : State) (d : Nat) : Bool := s.sch.shed.getLsbD 3 && (s.dome? d).any (·.lowPri)

/-- Where a task would be dispatched now: its cluster and, when lent, the waiter's dome. none when it may not be. -/
def State.target (s : State) (us : Nat) (c : Cmd) (h : Chain) : Option (Nat × Option Nat) :=
  if !s.ready c h then none
  else match (if s.eligible c.dome then none else s.lendingOf c.src) with
    | some (_, wd, cl, start) =>
      if s.eligible wd && s.now us ≥ start + boundOf [h.live] && s.cutoff wd us c h.task && s.hasRoom wd cl h.task.t0 &&
         (s.clusters wd).contains cl && !s.shedLow c.dome && !s.throttled (cl / 32) && !h.fills cl then some (cl, some wd) else none
    | none =>
      if !s.eligible c.dome || c.suspended || s.changeStops c.dome || (s.dome? c.dome).any (·.empty) ||
         s.shedLow c.dome || !s.cutoff c.dome us c h.task then none
      else match s.place c.dome h.task.t0 with
        | none => none
        | some cl =>
          if h.fills cl then none else some (cl, none)

/-- The dome whose turn a chain's task takes: the waiter's when lent. -/
def State.turnDome (s : State) (c : Cmd) : Nat :=
  if s.eligible c.dome then c.dome else match s.lendingOf c.src with
    | some (_, wd, _, _) => wd
    | none => c.dome

/-- The first placeable task of a dome, in fetch order and plan order (R75). -/
def State.firstOf (s : State) (us d : Nat) : Option (TaskRef × Nat × Option Nat) :=
  s.sch.cmds.findSome? fun c =>
    if s.turnDome c ≠ d then none
    else c.chains.zipIdx.findSome? fun h => (s.target us c h.1).map fun x => ({ src := c.src, chain := h.2 }, x)

/-- The domes with a placeable task that are not skipped (R77). -/
def State.candidates (s : State) (us : Nat) : List Nat :=
  (s.str.domes.map (·.id)).filter fun d => !s.sch.skipped.contains d && (s.firstOf us d).isSome

/-- The least value of a list above a bound, or the least (R77: in turns, in ascending dome ID). -/
def nextTurn (l : List Nat) (after : Nat) : Option Nat :=
  match minN (l.filter (· > after)) with
  | some d => some d
  | none => minN l

/-- The dome whose turn it is (R77). -/
def State.turn (s : State) (us : Nat) : Option Nat :=
  nextTurn (s.candidates us) ((s.sch.lastServed).getD s.sch.firstServed)

/-- The domes with a ready task of which none can be placed: they are skipped (R77). -/
def State.unplaceable (s : State) (us : Nat) : List Nat :=
  (s.str.domes.map (·.id)).filter fun d => s.eligible d && (s.firstOf us d).isNone &&
    s.sch.cmds.any fun c => s.turnDome c == d && c.chains.any fun h => s.ready c h

/-- Take from the dispatch budget of the tick (R94). -/
def spend (n : Nat) (s : State) : State := s.modSch fun k => { k with budget := k.budget - n }

/-- The slice of a partition counts as stretched, once (R96). -/
def stretch (part : Nat) (s : State) : State :=
  match s.ptr? part with
  | some p => if p.stretched then s else ctrPart .schedStretchedSlices part 1 (modPtr part (fun p => { p with stretched := true }) s)
  | none => s

/-- The fill of the next layer starts with the first task of a layer that is not the last (05 R164, R165). -/
def startFill (t : TaskRef) (c : Cmd) (h : Chain) (s : State) : State :=
  if s.streams c && h.layerStarts && h.layerFollows then modChain t (fun h => { h with filling := s.clusters c.dome }) s else s

/-- The effective scales of a dome's watch slots (14 R410). -/
def State.scalesOf (s : State) (d : Nat) : List (Nat × BitVec 16) := (s.qnt.slots.filter (·.dome == d)).map fun w => (w.slot, w.effective)

/-- The next task of a chain is the first of a stage: a plan's, or one of a walk, a collector or a job, which has no stages (R66). -/
def Chain.stageStarts (h : Chain) : Bool := h.done == 0 || h.dynamic || !((h.tasks[h.done - 1]?).any (·.stage == h.task.stage))

/-- The sizes record that a chain's next task is supplied with (R34): its dome's, as it stood when the task's stage began (R66). -/
def State.sizesFor (s : State) (c : Cmd) (h : Chain) : Sizes := if h.stageStarts then s.sizesOf c.dome else h.sizes

/-- The task starts on a cluster, supplied with that cluster's number and its dome's sizes record (R34). -/
def startTask (t : TaskRef) (cl : Nat) (lent : Option Nat) (us : Nat) (s : State) : State :=
  match s.cmd? t.src, s.chain? t with
  | some c, some h =>
    let d := s.turnDome c
    let z := s.sizesFor c h
    let s1 := modChain t (fun h =>
      { h with run := some { cluster := cl, start := s.now us, lent, scales := s.scalesOf c.dome, sizes := z }, sizes := z }) s
    let s2 := startFill t c h s1
    let s3 := taskPacket (if lent.isSome then 4 else 0) t.src c.opcode c.dome cl 0 0 0 s2
    s3.modSch fun k =>
      { k with firstServed := if k.lastServed.isNone then d else k.firstServed, lastServed := some d,
               skipped := nubN (k.skipped ++ s.unplaceable us), budget := k.budget - 30 }
  | _, _ => s

/-- The task would have a place but for throttling (16 R452). -/
def State.onlyThrottled (s : State) (c : Cmd) (h : Chain) : Bool :=
  s.ready c h && s.eligible c.dome && (s.place c.dome h.task.t0).isNone && (s.clusters c.dome).any fun x => s.hasRoom c.dome x h.task.t0

/-- Step 4 of the shedding holds a ready task back (R95, R96). -/
def State.heldLow (s : State) (c : Cmd) (h : Chain) : Bool :=
  s.shedLow c.dome && s.eligible c.dome && s.ready c h

/-- TASK_DISPATCH (R75 to R77, R81, R85, R94, R96, R100; 16 R446, R452): the task is dispatched when it is the next in turn and its
cluster's band is ON. -/
def execTaskDispatch (t : TaskRef) (us : Nat) (s : State) : Ans :=
  .next (match s.cmd? t.src, s.chain? t with
    | some c, some h =>
      if s.hb.quiesced || s.life.phase != .up || s.sch.step != 0 then s
      else if s.heldLow c h then stretch (s.part c.dome) s
      else if s.onlyThrottled c h then ctrPart .powerDispatchesRefusedByThrottling c.dome 1 s
      else match s.turn us with
        | none => s
        | some d => match s.firstOf us d with
          | none => s
          | some (u, cl, lent) =>
            if u ≠ t || (s.domain (cl / 32)).state != .on then s
            else if s.sch.budget < 30 then stretch (s.part c.dome) (s.modSch fun k => { k with carried := true })
            else kickWalk t (claim t (startTask t cl lent us s))
    | _, _ => s)

/-! ### Switches (R78 to R83, R86, R88) -/

/-- The coming switch of a partition: it has an outgoing dome (R74). -/
def State.switching (s : State) (part : Nat) : Option SlicePtr :=
  (s.ptr? part).filter fun p => !(s.outgoing p).isEmpty

/-- The yield requests of a release window, one for each shared semaphore that an outgoing dome holds (R88). -/
def yieldRequests (outs : List Nat) (s : State) : State :=
  (s.sch.sems.filter (s.holding outs)).foldl (fun s m =>
    semPacket 1 m.id (((m.held.findSome? fun h => (s.cmd? h.1).filter fun c => outs.contains c.dome).map (·.dome)).getD 0) 0xFFFF 0 s) s

/-- RELEASE_WINDOW_OPEN (R88): 100 µs before the save of a switch in whose outgoing domes a shared semaphore is held. A window that opens
later, since a semaphore was first acquired meanwhile or the lead has grown, is the shorter for it: the save keeps its time (log 87). -/
def execReleaseWindowOpen (part us : Nat) (s : State) : Ans :=
  .next (match s.switching part with
    | none => s
    | some p =>
      if p.phase == .idle && s.windowNeeded p && p.lead < p.timeLeft us && p.timeLeft us ≤ p.lead + 100 then
        switchPacket 0 part ((s.outgoing p).headD 0) ((s.incoming p).headD 0) 0xFFFF 0
          (yieldRequests (s.outgoing p) (modPtr part (fun p => { p with phase := .window, windowAt := s.now us }) s))
      else s)

/-- The holders of a semaphore in some domes. -/
def State.holdersIn (s : State) (outs : List Nat) (m : Sem) : List Src :=
  (m.held.map (·.1)).filter fun x => (s.cmd? x).any fun c => outs.contains c.dome

/-- The plans of outgoing domes that still hold a shared semaphore are suspended with it (R88). -/
def suspendHolders (outs : List Nat) (s : State) : State :=
  s.sch.sems.zipIdx.foldl (fun t m =>
    if !s.holding outs m.1 then t
    else match s.holdersIn outs m.1 with
      | [] => t
      | h :: rest =>
        let d := ((s.cmd? h).map (·.dome)).getD 0
        let t1 := (h :: rest).foldl (fun t x => modCmd x (fun c => { c with suspended := true }) t) t
        semPacket 2 m.1.id d 0xFFFF 0 <| ctrPart .schedSemaphoresHeldBySuspended d 1
          (raisePart d 1 (BitVec.ofNat 32 m.1.id) (modSem m.2 (fun m => { m with suspended := m.suspended.or (some h) }) t1))) s

/-- A task of some domes is in flight on a cluster. -/
def State.busyWith (s : State) (ds : List Nat) (c : Nat) : Bool := (s.running c).any fun x => ds.contains x.1.dome

/-- The live T0 of some domes on a cluster. -/
def State.liveOn (s : State) (ds : List Nat) (c : Nat) : List (Nat × Nat × Nat) := ds.map fun d => (d, c, s.liveT0 d c)

/-- The save of a switch starts on every cluster of its outgoing domes on which no task of them is in flight (R80, R86): it copies the live
T0 present there now. -/
def startSave (part us : Nat) (s : State) : State :=
  match s.switching part with
  | none => s
  | some p =>
    let o := s.outgoing p
    let i := s.incoming p
    let back := nubN ((s.sch.saved.filter fun v => i.contains v.1).map (·.2.1))
    let s1 := suspendHolders o s
    let now := ((s.clustersOf o).filter fun c => !s.busyWith o c).flatMap fun c => s1.liveOn o c
    modPtr part (fun p => { p with phase := .saving, saveAt := s.now us, outgoing := o, incoming := i, saving := s.clustersOf o,
                                   restoring := back, captured := now, debt := 0 })
      (switchPacket 1 part (o.headD 0) (i.headD 0) 0xFFFF 0 s1)

/-- A switch's save starts on a cluster that its last outgoing task has left (R86). -/
def Switch.startOn (s : State) (c : Nat) (w : Switch) : Switch :=
  if w.saving.contains c && !(w.captured.any fun v => v.2.1 == c) && !s.busyWith w.outgoing c then { w with captured := w.captured ++ s.liveOn w.outgoing c }
  else w

/-- The switch of the coming slice boundary as one of the switches under way. -/
def SlicePtr.current (p : SlicePtr) : Switch :=
  { outgoing := p.outgoing, incoming := p.incoming, saving := p.saving, restoring := p.restoring, captured := p.captured,
    saveAt := p.saveAt, boundary := 0, overrun := p.overrun }

/-- Update the current switch (none) or a late one. -/
def SlicePtr.setSwitch (i : Option Nat) (w : Switch) (p : SlicePtr) : SlicePtr :=
  match i with
  | none => { p with saving := w.saving, restoring := w.restoring, captured := w.captured }
  | some k => { p with late := updAt k (fun _ => w) p.late }

/-- The saves that wait for a cluster's last outgoing task start when it has ended (R86). -/
def startSavesOn (c : Nat) (s : State) : State :=
  s.modSch fun k => { k with ptrs := k.ptrs.map fun p =>
    let q := { p with late := p.late.map (Switch.startOn s c) }
    if p.phase = .saving then q.setSwitch none (Switch.startOn s c p.current) else q }

/-- SAVE_START (R80, R82, R88): the time left equals the lead computed at the last tick boundary, or is below it; the release window of
an overrun switch has lasted 100 µs. A semaphore acquired with no time left for a window has its yield request at the save (log 87). -/
def execSaveStart (part us : Nat) (s : State) : Ans :=
  .next (match s.switching part with
    | none => s
    | some p => match p.phase with
      | .idle => if p.timeLeft us ≤ p.lead then startSave part us (if s.windowNeeded p then yieldRequests (s.outgoing p) s else s) else s
      | .window => if (if p.overrun then p.windowAt + 100 ≤ s.now us else p.timeLeft us ≤ p.lead) then startSave part us s else s
      | .saving => s)

/-- A late switch is done: every save and restore of it has ended. -/
def Switch.done (w : Switch) : Bool := w.saving.isEmpty && w.restoring.isEmpty

/-- A save or a restore has ended (17 R481). A late switch that is done gives its debt (R86). An overrun switch, whose restores may end after the slice boundary by R82 itself, adds
none and counts none: the spec does not say (DESIGN CHOICE, log 88); its incoming domes wait for the next boundary. -/
def switchDone (part us : Nat) (s0 : State) : State :=
  let s := s0.modSch fun k => { k with switchEnd := some (s0.now us) }
  match s.ptr? part with
  | none => s
  | some p =>
    (p.late.filter fun w => w.done && !w.overrun).foldl (fun t w =>
      let late := s.now us - w.boundary
      let t1 := modPtr part (fun p => { p with debt := p.debt + late, late := p.late.erase w }) t
      if late = 0 then t1
      else switchPacket 5 part (w.outgoing.headD 0) (w.incoming.headD 0) 0xFFFF (late * 1500)
        (ctrPart .schedDebtedSwitches part 1 (ctrPart .schedSliceDebtUs part late t1))) s

/-- The switch whose step on a cluster is the next: the oldest with one to come there (R86). -/
def SlicePtr.switchOn (p : SlicePtr) (c : Nat) : Option (Option Nat × Switch) :=
  let has (w : Switch) : Bool := w.saving.contains c || w.restoring.contains c
  match p.late.zipIdx.find? fun w => has w.1 with
  | some w => some (some w.2, w.1)
  | none => if p.phase == .saving && has p.current then some (none, p.current) else none

/-- The live T0 that a switch's save takes from a cluster (R80). -/
def State.savedBy (s : State) (w : Switch) (c : Nat) : List (Nat × Nat × Nat) :=
  (if w.captured.any (fun v => v.2.1 == c) then w.captured.filter (fun v => v.2.1 == c) else s.liveOn w.outgoing c).filter (·.2.2 ≠ 0)

/-- SAVE_END (R79, R80, R86): the live T0 of the outgoing domes on a cluster, as it stood when the save started there, is in the save area,
once no task of them runs there. -/
def execSaveEnd (part cluster us : Nat) (s : State) : Ans :=
  .next (match s.ptr? part with
    | none => s
    | some p => match p.switchOn cluster with
      | none => s
      | some (i, w) =>
        if !w.saving.contains cluster || (s.domain (cluster / 32)).state != .on || s.busyWith w.outgoing cluster then s
        else
          switchDone part us <| switchPacket 2 part (w.outgoing.headD 0) (w.incoming.headD 0) cluster ((s.now us - w.saveAt) * 1500) <|
            (modPtr part (fun p => p.setSwitch i { w with saving := delN cluster w.saving })
            ((cancelReads w.outgoing cluster s).modSch fun k =>
              { k with saved := (k.saved.filter fun v => !(w.outgoing.contains v.1 && v.2.1 == cluster)) ++ s.savedBy w cluster })))

/-- RESTORE_END (R79, R86): the saved live T0 of the incoming domes is back on a cluster whose save has ended; they dispatch there. -/
def execRestoreEnd (part cluster us : Nat) (s : State) : Ans :=
  .next (match s.ptr? part with
    | none => s
    | some p => match p.switchOn cluster with
      | none => s
      | some (i, w) =>
        if w.saving.contains cluster || (s.domain (cluster / 32)).state != .on then s
        else freedOn [cluster] <| switchDone part us <|
          switchPacket 3 part (w.outgoing.headD 0) (w.incoming.headD 0) cluster ((s.now us - w.saveAt) * 1500) <|
          (modPtr part (fun p => p.setSwitch i { w with restoring := delN cluster w.restoring })
          (s.modSch fun k => { k with saved := k.saved.filter fun v => !(w.incoming.contains v.1 && v.2.1 == cluster) })))

/-! ### Semaphores (R50, R87, R89) -/

/-- A task waits, from now on unless it waits so already. -/
def setWait (t : TaskRef) (w : Wait) (s : State) : State :=
  modChain t (fun h => { h with run := h.run.map fun r =>
    if r.wait = w then r else { r with wait := w, waitOld := false, waitSince := s.now 0 } }) s

/-- The semaphore that a task of a dome means by an ID, made when it is a private one that no task has used yet (R50; log 21). -/
def ensureSem (dome id : Nat) (s : State) : State :=
  match s.semIndex dome id with
  | some _ => s
  | none => s.modSch fun k => { k with sems := k.sems ++ [{ id, dome := some dome, count := Config.privateCount id,
                                                            maximum := Config.privateMaximum id, domes := [] }] }

/-- A shared semaphore's list does not name a dome (R50). -/
def Sem.denies (m : Sem) (dome : Nat) : Bool := m.dome.isNone && !m.domes.contains dome

/-- SEMAPHORE_ACQUIRE (R50, R87). -/
def execSemaphoreAcquire (t : TaskRef) (sem : Nat) (s0 : State) : Ans :=
  .next (match s0.flight? t with
    | none => s0
    | some (c, _, r) =>
      if r.wait ≠ .none then s0
      else
        let s := spend 15 (ensureSem c.dome sem s0)
        match s.semIndex c.dome sem with
        | none => s
        | some i => match s.sch.sems[i]? with
          | none => s
          | some m =>
            if m.denies c.dome then failTask t St.accessDenied s
            else if m.count > 0 then modSem i (fun m => { m with count := m.count - 1, held := addHeld t.src 1 m.held }) s
            else
              let s1 := setWait t (.semaphore sem) (modSem i (fun m => { m with waiters := m.waiters ++ [t] }) s)
              if m.dome.isNone then semPacket 0 sem c.dome r.cluster 0 s1 else s1)

/-- SEMAPHORE_RELEASE (R50, R87): a unit that the plan holds leaves it, also where a new list no longer names its dome (02 R49); otherwise it
is a plain counting release. -/
def execSemaphoreRelease (t : TaskRef) (sem : Nat) (s0 : State) : Ans :=
  .next (match s0.flight? t with
    | none => s0
    | some (c, _, r) =>
      if r.wait ≠ .none then s0
      else
        let s := spend 15 (ensureSem c.dome sem s0)
        match s.semIndex c.dome sem with
        | none => s
        | some i => match s.sch.sems[i]? with
          | none => s
          | some m =>
            if m.denies c.dome && !m.held.any (·.1 == t.src) then failTask t St.accessDenied s
            else if m.waiters.isEmpty && m.count + 1 > m.maximum then failTask t St.accessDenied s
            else giveUnit i (remark (modSem i (fun m =>
              { m with held := if m.held.any (·.1 == t.src) then addHeld t.src (-1) m.held else m.held }) s)))

/-- The first waiter of a semaphore that is of another dome than a command's. -/
def State.otherWaiter (s : State) (m : Sem) (dome : Nat) : Option Nat :=
  (m.waiters.filterMap fun w => (s.cmd? w.src).map (·.dome)).find? (· != dome)

/-- The next task of a command that may run: its first chain that has one. -/
def Cmd.nextTask (c : Cmd) : Option TaskSpec := (c.chains.find? fun h => !h.finished && h.run.isNone).bind fun h => h.tasks[h.done]?

/-- LENDING_START (R89, R90; 16 R452): the holder of a semaphore held-by-suspended gets time on a cluster of the waiter's dome, and its live
T0 leaves the save area. A lending that has paused resumes as a new one: it raises the event again, and R76 picks its cluster anew, which
the spec leaves open (DESIGN CHOICE, log 89). -/
def execLendingStart (sem us : Nat) (s : State) : Ans :=
  .next (if s.hb.quiesced then s else
    match s.sch.sems.findIdx? fun m => m.id == sem && m.dome.isNone with
    | none => s
    | some i => match s.sch.sems[i]? with
      | none => s
      | some m => match m.suspended.bind s.cmd? with
        | none => s
        | some c => match s.otherWaiter m c.dome with
          | none => s
          | some wd =>
            if m.lending.isSome || s.eligible c.dome || !s.eligible wd then s
            else match c.nextTask.bind fun k => s.place wd k.t0 with
              | none => s
              | some cl =>
                if (s.domain (cl / 32)).state != .on then s
                else semPacket 3 sem wd cl 0 <| raisePart wd 2 (BitVec.ofNat 32 sem)
                  (moveSaved c true (modSem i (fun m => { m with lending := some (c.src, wd, cl, s.now us) }) s)))

/-- The commands of domes that have become eligible are no longer suspended (R88, R90). -/
def resumeEligible (s : State) : State :=
  let back := (s.sch.cmds.filter fun c => c.suspended && s.eligible c.dome && !c.inFlight).map (·.src)
  remark (back.foldl (fun t src => modCmd src (fun c => { c with suspended := false }) t) s)

/-- At a task boundary of a lent command the lending ends when it has released the semaphore, when the waiter's slice has ended, when
its own dome has become eligible, when the cluster has left the waiter's dome (02 R66), or in quiesce (R89, R90, R100); when its own dome is
eligible the command then goes on there. -/
def lendingCheck (src : Src) (at_ : Nat) (s : State) : State :=
  resumeEligible <| s.sch.sems.zipIdx.foldl (fun t m => match m.1.lending with
    | none => t
    | some l =>
      if l.1 = src ∧ (s.hb.quiesced ∨ !m.1.held.any (·.1 == src) ∨ !s.eligible l.2.1 ∨ ((s.cmd? src).any fun c => s.eligible c.dome) ∨ !(s.clusters l.2.1).contains l.2.2.1) then
        endLending m.2 at_ t
      else t) s

/-! ### Layer fills (05 R164 to R166) -/

/-- The dome of a plan is being switched out, is out, or is being restored on a cluster (05 R167): the fill under way there is
cancelled, and begins anew when its T0 is back. -/
def State.fillCancelled (s : State) (d cl : Nat) : Bool :=
  !s.eligible d || (s.ptr? (s.part d)).any fun p =>
    (p.phase == .saving && p.outgoing.contains d) || p.late.any fun w => w.incoming.contains d && (w.saving.contains cl || w.restoring.contains cl)

/-- LAYER_FILL_END (05 R164, R165, R167): a fill ends on a cluster, that of the layer at hand before that of the next; the end of the
whole layer-0 fill gives the first-fill stall. -/
def execLayerFillEnd (t : TaskRef) (cluster us : Nat) (s : State) : Ans :=
  .next (match s.cmd? t.src, s.chain? t with
    | some c, some h =>
      if s.fillCancelled c.dome cluster || h.fillWaits then s
      else if h.filling0.contains cluster then
        let rest := delN cluster h.filling0
        let s1 := modChain t (fun h => { h with filling0 := rest, fillStart := if rest.isEmpty then none else h.fillStart }) s
        match h.fillStart with
        | some b => if rest.isEmpty then ctrPart .tierFirstFillStallUs c.dome (s.now us - b) s1 else s1
        | none => s1
      else modChain t (fun h => { h with filling := delN cluster h.filling }) s
    | _, _ => s)

end Sys2Proof.Machine
end

