-- ==== Sys2Proof/Machine/Power.lean ====
section
/-! DEFINITION. Power: the caps, throttling, the emergencies, isolation, the power-fail flush, and the power domains (16 R443 to R464). -/

namespace Sys2Proof.Machine

open Sys2Proof

/-! ### Caps (R449) -/

/-- The cap of the NVMe power state, W. -/
def psCap (ps : Nat) : Nat := if ps = 0 then 600 else if ps = 1 then 450 else 300

/-- A supply warning is active (Table 16-3, causes 0 and 1). -/
def State.warned (s : State) : Bool := s.pwr.causes.getLsbD 0 || s.pwr.causes.getLsbD 1

/-- The effective cap in W (R449). -/
def State.cap (s : State) : Nat :=
  Nat.min (Nat.min s.pwr.sense (psCap s.pwr.ps)) (if s.warned then 300 else 600)

/-- 12 V runs the module: neither isolated nor without it (R448, R456, R458). -/
def State.powered (s : State) : Bool :=
  match s.life.phase with
  | .held | .starting | .up | .failed => true
  | _ => false

/-- POWER_SAMPLE (R450, R451, R454; 14 R418): the inputs and the module power of one 10 µs sample. While the module is isolated or has
shut down for its temperature, the monitors see the inputs alone (R458). -/
def execPowerSample (edgeMv auxMv powerW us : Nat) (s : State) : Ans :=
  .next (
    if s.life.phase = .isolated ∨ s.life.phase = .thermalDown then s.modPwr fun p => { p with edgeMv, auxMv }
    else if !s.powered then s
    else s.modPwr fun p =>
      let high := if powerW * 100 > p.sense * 115 then p.over115 + 10 else 0
      { p with
        edgeMv, auxMv, over115 := high, force15 := p.force15 || high ≥ 100,
        lowPowerUs := if powerW < 40 then p.lowPowerUs + 10 else 0,
        edgeLow := if edgeMv < 11300 then (s.now us) / 500 else p.edgeLow,
        auxLow := if auxMv < 11300 then (s.now us) / 500 else p.auxLow })

/-! ### Emergencies (R454, R455; 17 R484) -/

/-- An activation that a controller reset began keeps CSTS.RDY clear while it runs (17 R482). -/
def State.rdyWaits (s : State) : Bool :=
  (match s.fw.activation with | some (_, _, false, none) => true | _ => false) && !((s.fn? 0).any (·.rdy))

/-- CSTS.RDY is set for each function whose CC.EN is 1 once start-up has ended (17 R475, R482); the FW fields then hold their values (00 R18). -/
def initRdy (s : State) : State :=
  if s.life.phase != .up || s.rdyWaits then s
  else (s.modFns fun fs => fs.map fun f => if f.enabled && f.cc.getLsbD 0 then { f with rdy := true } else f).modLife fun l =>
    { l with fwSet := l.fwSet || s.fns.any fun f => f.enabled && f.cc.getLsbD 0 }

/-- An emergency begins while an activation runs: it is held, and the band whose dispatch was stopped receives dispatches again (17
R482, R484). -/
def holdActivation (s : State) : State :=
  match s.fw.activation with
  | some (slot, core, false, src) =>
    initRdy (raise 0x017 0 (s.modFw fun f =>
      { f with activation := some (slot, (match core with | .band b _ => .band b none | c => c), true, src) }))
  | _ => s

/-- A band runs the image of a slot: each of its clusters has swapped (17 R481, R483). -/
def bandTakes (b slot : Nat) (s : State) : State :=
  (List.range 32).foldl (fun s i => raise 0x016 (BitVec.ofNat 32 (32 * b + i)) s)
    (modDomain b (fun d => { d with newImage := false }) (s.modFw fun f => { f with bands := updAt b (fun _ => slot) f.bands }))

/-- A cause of the power emergency begins (R454). -/
def beginCause (n : Nat) (s : State) : State :=
  let causes := s.pwr.causes ||| BitVec.ofNat 4 (2 ^ n)
  let s1 := s.modPwr fun p => { p with causes, calmSince := none }
  if s.pwr.causes = 0 then
    holdActivation (lineUp 0x00B (causes.setWidth 32) (ctrAdd .powerPowerEmergencies 0 1 s1))
  else s1

/-- Nothing is left of the emergencies: the calm begins with a boundary (17 R484). -/
def calm (at_ : Nat) (s : State) : State :=
  if s.emergency then s else s.modPwr fun p => { p with calmSince := some at_ }

/-- A cause of the power emergency ends (R454). -/
def endCause (n : Nat) (s : State) : State :=
  let causes := s.pwr.causes &&& ~~~(BitVec.ofNat 4 (2 ^ n))
  let s1 := s.modPwr fun p => { p with causes }
  calm s.tick.toNat (if causes = 0 then lineDown 0x00B s1 else s1)

/-- SUPPLY_WARNING_BEGIN (R449, R454, R455; 14 R422): input 0 is the edge connector, 1 the 12V-2x6. -/
def execSupplyWarningBegin (input mv : Nat) (s : State) : Ans :=
  .next (
    if !s.powered || input > 1 || mv > 11000 then s
    else
      let s1 := s.modPwr fun p =>
        if input = 0 then { p with edgeMv := mv, edgeLow := s.tick.toNat } else { p with auxMv := mv, auxLow := s.tick.toNat }
      if s.pwr.causes.getLsbD input then s1
      else
        let s2 := ctrAdd .powerSupplyWarnings 0 1 (beginCause input s1)
        bankSag (lineUp 0x008 (BitVec.ofNat 32 mv) s2))

/-- SUPPLY_WARNING_END (R454): at a tick boundary that ends a full tick with the input at or above 11.3 V. -/
def execSupplyWarningEnd (input : Nat) (s : State) : Ans :=
  .next (
    let low := if input = 0 then s.pwr.edgeLow else s.pwr.auxLow
    let mv := if input = 0 then s.pwr.edgeMv else s.pwr.auxMv
    if input > 1 || !s.pwr.causes.getLsbD input || mv < 11300 || s.tick.toNat < low + 2 then s
    else
      let s1 := endCause input s
      if s1.warned then s1 else lineDown 0x008 s1)

/-- The thermal-throttle line follows the thermal level (R453). -/
def throttleLine (temp : Int) (s : State) : State :=
  if s.pwr.thermalLevel = 0 then lineDown 0x00A s else lineUp 0x00A (BitVec.ofNat 32 (ofSigned 32 temp)) s

/-- THERMAL_LEVEL_STEP (R451, R455): once each second, on the highest trimmed reading. -/
def execThermalLevelStep (temp : Int) (s : State) : Ans :=
  .next (
    if !s.powered then s
    else throttleLine temp (s.modPwr fun p =>
      { p with temp, thermalLevel :=
                 if p.thermalEmerg then 15 else if temp ≥ 760 then sat 15 (p.thermalLevel + 1)
                 else if temp < 736 then p.thermalLevel - 1 else p.thermalLevel }))

/-- THERMAL_EMERGENCY_BEGIN (R454, R455). -/
def execThermalEmergencyBegin (temp : Int) (s : State) : Ans :=
  .next (
    if !s.powered || temp < 840 || s.pwr.thermalEmerg then s
    else
      let d := BitVec.ofNat 32 (ofSigned 32 temp)
      holdActivation (throttleLine temp (lineUp 0x00C d (ctrAdd .powerThermalEmergencies 0 1 (s.modPwr fun p =>
        { p with temp, thermalEmerg := true, thermalLevel := 15, calmSince := none })))))

/-- THERMAL_EMERGENCY_END (R454): that the reading has stayed below 100 °C for a full second is what the command says. -/
def execThermalEmergencyEnd (s : State) : Ans :=
  .next (
    if !s.pwr.thermalEmerg || s.pwr.temp ≥ 800 then s
    else calm (s.tick.toNat + 1) (lineDown 0x00C (s.modPwr fun p => { p with thermalEmerg := false })))

/-! ### Isolation, shutdown and the flush (R456 to R461) -/

/-- Every outstanding command as item 2 of the flush records it: sender, opcode and dome (Table 16-4). -/
def State.outstanding (s : State) : List (Src × Nat × Nat) := s.q.begun

/-- Command processing ends: tasks in flight are abandoned and outstanding commands never complete (R458, R460; 20 R531). -/
def abandon (s : State) : State :=
  let s1 := s.modLife fun l => { l with flushCmds := s.outstanding, flushTick := s.tick.toNat }
  let s2 := (s1.modSch fun k => { k with cmds := [], sems := [], saved := [] }).modQ fun q =>
    { q with fetched := [], begun := [], aerHeld := [], sqs := q.sqs.map fun x => { x with deleting := none } }
  let s3 := (s2.modXfer fun _ => []).modArr fun a => { a with tiles := [], grants := [], waiting := [], clocks := [] }
  let s4 := (s3.modInf fun _ => {}).modIdx fun x => { x with walks := [], searches := [], jobs := [] }
  let s5 := (s4.modMrg fun m => { m with merges := [], armed := [] }).modScn fun x => { x with scans := [] }
  let s6 := (s5.modFls fun f => { f with reads := [], writes := [] }).modHb fun h => { h with parked := [], held := [] }
  (s6.modFw fun f => { f with commit := none, activation := none }).modCal fun c => { c with bankSrc := [], recal := [] }

/-- While domain 49 is OFF the module keeps no packet, sequence number or mirror ring (21 R540). -/
def Lan.dark (l : Lan) : Lan := { enabled := l.enabled, mask := l.mask, pending := l.pending, lpres := l.lpres }

/-- Domains go OFF. -/
def domainsOff (ns : List Nat) (s : State) : State :=
  let s1 := ns.foldl (fun s n => modDomain n (fun d => { d with state := .off, idle := 0 }) s) s
  if ns.contains 49 then s1.modLan Lan.dark else s1

/-- The link goes down: configuration space and every function are out of the host's reach. -/
def linkDown (s : State) : State :=
  (s.modLife fun l => { l with cfgReady := false, l1 := false }).modFns fun fs => fs.map fun f => { f with rdy := false }

/-- SUPPLY_ISOLATION (R457, R458): an input at or below 10.4 V isolates the module and the flush runs from the bank. A flush from the
12 V inputs goes on from the bank (20 R531). -/
def execSupplyIsolation (mv : Nat) (s : State) : Ans :=
  .next (
    if mv > 10400 || !(s.powered || s.life.phase == .thermalDown) then s
    else
      let s1 := ctrAdd .powerIsolations 0 1 (raise 0x009 (BitVec.ofNat 32 mv) (beginCause 2 s))
      let s2 := if s.life.flushing.isSome then s1 else abandon s1
      linkDown (domainsOff (List.range 25 ++ [41, 42, 48, 49]) (s2.modLife fun l =>
        { l with phase := .isolated, flushing := some .isolation, flushCut := none })))

/-- THERMAL_SHUTDOWN (R456): the flush runs from the 12 V inputs. -/
def execThermalShutdown (s : State) : Ans :=
  .next (
    if !s.powered || s.pwr.temp < 880 || s.life.flushing.isSome then s
    else (abandon s).modLife fun l => { l with phase := .thermalDown, flushing := some .thermal, flushCut := none, coolWait := true })

/-- FLUSH_STOPPED (R461): the bank is empty before the flush record. How many of the items are complete by then is a free value
(log 3). -/
def execFlushStopped (s : State) : Ans :=
  .next (
    if s.life.flushing ≠ some .isolation then s
    else
      let d := draw s
      ctrAdd .powerIncompleteFlushes 0 1 (d.2.modLife fun l =>
        { l with flushing := none, flushCut := some (d.1.toNat % 6) }))

/-! ### Domains (R443 to R447) -/

/-- Enabled clusters of a band that are in neither the free pool nor fenced (Table 16-1). -/
def State.bandHeld (s : State) (b : Nat) : Bool := s.owned.any fun c => c / 32 == b && !s.str.fenced.contains c

/-- A cluster of the band has a task in flight. -/
def State.bandBusy (s : State) (b : Nat) : Bool := (List.range 32).any fun i => !(s.running (32 * b + i)).isEmpty

/-- The Lantern domain may be ON (Table 16-1; 18 R505; 21 R540). -/
def State.lanternOn (s : State) : Bool := s.granted 9 && s.lan.enabled && !s.sec.obsOff && s.lan.lpres

/-- What a domain needs to return to ON (Table 16-1). The Lantern domain comes ON with its attachment or its enabling (21 R538, R540). -/
def State.mayWake (s : State) (n : Nat) : Bool :=
  if n < 25 then s.bandHeld n
  else if 33 ≤ n ∧ n ≤ 40 then !s.itg.retired.contains (n - 33)
  else if n = 41 then true
  else if n = 42 then s.life.width > 8
  else if n = 49 then false
  else n < 50

/-- DOMAIN_WAKE (R443, R445, R446): the domain is ON; a wake from RETAIN or OFF is counted, and a band takes the image that the
activation has given the bands (17 R481). -/
def execDomainWake (domain : Nat) (s : State) : Ans :=
  .next (
    let d := s.domain domain
    if domain > 49 || d.state == .on || !s.powered || !s.mayWake domain then s
    else
      let s1 := modDomain domain (fun d => { d with state := .on, idle := 0 }) s
      let s2 := if d.state == .gated then s1 else ctrAdd .powerWakesFromRETAINOrOFF domain 1 s1
      let s3 := if domain = 41 ∨ domain = 42 then s2.modLife fun l => { l with l1 := false } else s2
      if domain < 25 ∧ d.newImage then bandTakes domain ((s.fw.activation.map (·.1)).getD s.fw.vane) s3 else s3)

/-- BAND_RETAIN (R443, R445): GATED for 8 full ticks, and through ON, which is no wake. -/
def execBandRetain (band : Nat) (s : State) : Ans :=
  .next (
    let d := s.domain band
    if band > 24 || d.state != .gated || d.idle < 8 then s
    else modDomain band (fun d => { d with state := .retain, idle := 0 }) s)

/-- A NAND operation is queued on a channel group, or under way. -/
def State.nandBusy (s : State) (g : Nat) : Bool :=
  s.fls.dies.any fun d => chanGroup d.id == g && (d.busy.isSome || !d.queued.isEmpty)

/-- FLASH_GROUP_GATE (R443): idle for 100 µs. -/
def execFlashGroupGate (group : Nat) (s : State) : Ans :=
  .next (
    if group > 7 || s.nandBusy group || (s.domain (25 + group)).state != .on then s
    else modDomain (25 + group) (fun d => { d with state := .gated, idle := 0 }) s)

/-- DRAM_SELF_REFRESH (R443): a full tick with no request. -/
def execDramSelfRefresh (group : Nat) (s : State) : Ans :=
  .next (
    if group > 7 || (s.domain (33 + group)).state != .on then s
    else modDomain (33 + group) (fun d => { d with state := .retain, idle := 0 }) s)

/-- FABRIC_QUADRANT_GATE (R443): no flit for 1 µs. -/
def execFabricQuadrantGate (quadrant : Nat) (s : State) : Ans :=
  .next (
    if quadrant > 3 || (s.domain (43 + quadrant)).state != .on then s
    else modDomain (43 + quadrant) (fun d => { d with state := .gated, idle := 0 }) s)

/-- ASPM_L1_ENTRY (R443): the PHY halves that are ON go to RETAIN. -/
def execAspmL1Entry (s : State) : Ans :=
  .next (
    if !s.powered || !s.life.cfgReady || s.life.l1 then s
    else
      let rest (n : Nat) (s : State) : State := modDomain n (fun d => if d.state == .on then { d with state := .retain, idle := 0 } else d) s
      rest 42 (rest 41 (s.modLife fun l => { l with l1 := true })))

/-- L0P_WIDTH_CHANGE (R443): half 1 is in RETAIN while L0p runs the link at x8 or narrower, and ON again at x16. -/
def execL0pWidthChange (width : Nat) (s : State) : Ans :=
  .next (
    if ! [1, 2, 4, 8, 16].contains width || !s.powered || !s.life.cfgReady || width == s.life.width then s
    else
      let s1 := s.modLife fun l => { l with width }
      let d := s.domain 42
      if width ≤ 8 then modDomain 42 (fun d => if d.state == .on then { d with state := .retain, idle := 0 } else d) s1
      else if d.state == .retain && !s.life.l1 then
        ctrAdd .powerWakesFromRETAINOrOFF 42 1 (modDomain 42 (fun d => { d with state := .on, idle := 0 }) s1)
      else s1)

end Sys2Proof.Machine
end

