-- ==== Sys2Proof/Machine/Lantern.lean ====
section
/-! DEFINITION. The Lantern port: LANTERN CONTROL, the attachment of a capture device and the sending of packets (18 R505; 19 R519;
21 R537 to R547). -/

namespace Sys2Proof.Machine

open Sys2Proof

/-- The trace sources that Table 21-1 lists. -/
def lanSources : QWord := 0x1FFF00FF#64

/-- How many bits of a mask are set. -/
def maskCount (m : QWord) : Nat := ((List.range 64).filter fun i => m.getLsbD i).length

/-- A MARK packet (Table 21-3): 0 start, 1 stop, 2 mask changed. -/
def markPacket (kind : Nat) (s : State) : State :=
  putPacket 0x02 0 (toLE 1 kind ++ [0, 0, 0] ++ toLE 8 s.lan.mask.toNat ++ toLE 4 s.eff.period) s

/-- Domain 49 comes ON, and formation begins with a MARK start packet (R538, R540; Table 21-5). -/
def lanternStart (s : State) : State :=
  let s1 := (modDomain 49 (fun d => { d with state := .on, idle := 0 }) s).modLan fun l => { l.dark with active := true }
  ctrAdd .lanternMarkStarts 0 1 (ctrAdd .powerWakesFromRETAINOrOFF 49 1 (markPacket 0 s1))

/-- Domain 49 comes ON when its conditions hold (R538; 19 R519). -/
def lanternTry (s : State) : State :=
  if s.lanternOn && s.powered && (s.domain 49).state == .off then lanternStart s else s

/-- Formation stops: a MARK stop packet follows the packets already formed (R540). -/
def lanternStop (s : State) : State :=
  if s.lan.active then (markPacket 1 s).modLan fun l => { l with active := false } else s

/-- The lanes go idle at once and domain 49 OFF; packets not yet sent are lost (R540; 18 R505). -/
def lanternDark (s : State) : State := domainsOff [49] s

/-- LANTERN CONTROL (04 R131; 18 R505): its gate, the reserved bits of the entry, and the action, which waits for the next tick
boundary. -/
def lanternControl (a : Admin) (action : Nat) (mask : QWord) (s : State) : Except Fail State :=
  orFail (vendorGate a.src 9 s) fun _ =>
    if s.sec.obsOff then .error St.lanternUnavailable
    else if bits a.cdw10.toNat 31 2 ≠ 0 || a.cdw13 != 0 || a.cdw14 != 0 || a.cdw15 != 0 then .error St.invalidField
    else
      let now := ((s.lan.pending.filter (·.1 == 2)).getLast?.map (·.2)).getD s.lan.mask
      let m := if action = 2 then mask else now
      .ok (ok a.src (maskCount m) 0 (s.modLan fun l => { l with pending := l.pending ++ [(action, m)] }))

/-- LANTERN_DISABLE (R539). -/
def execLanternDisable (a : Admin) (s : State) : Ans :=
  if bits a.cdw10.toNat 1 0 ≠ 0 then .next s
  else runAdmin 0xC6 a.src false (fun s => if a.cdw11 ≠ 0 ∨ a.cdw12 ≠ 0 then
    orFail (vendorGate a.src 9 s) fun _ => .error (if s.sec.obsOff then St.lanternUnavailable else St.invalidField)
    else lanternControl a 0 0 s) s

/-- LANTERN_ENABLE (R539). -/
def execLanternEnable (a : Admin) (s : State) : Ans :=
  if bits a.cdw10.toNat 1 0 ≠ 1 then .next s
  else runAdmin 0xC6 a.src false (fun s => if a.cdw11 ≠ 0 ∨ a.cdw12 ≠ 0 then
    orFail (vendorGate a.src 9 s) fun _ => .error (if s.sec.obsOff then St.lanternUnavailable else St.invalidField)
    else lanternControl a 1 0 s) s

/-- LANTERN_SET_SOURCES (R539): a mask with an unlisted source changes nothing; bit 0 is always set. An unlisted action is refused
here. -/
def execLanternSetSources (a : Admin) (s : State) : Ans :=
  if bits a.cdw10.toNat 1 0 < 2 then .next s
  else runAdmin 0xC6 a.src false (fun s =>
    let m : QWord := a.cdw12 ++ a.cdw11
    orFail (vendorGate a.src 9 s) fun _ =>
      if s.sec.obsOff then .error St.lanternUnavailable
      else if bits a.cdw10.toNat 1 0 = 3 ∨ m &&& ~~~lanSources ≠ 0 then .error St.invalidField
      else lanternControl a 2 (m ||| 1) s) s

/-- What waits takes effect at a tick boundary, in order (R539, R540). -/
def lanternPending (s : State) : State :=
  s.lan.pending.foldl (fun s p =>
    if p.1 = 0 then lanternStop (s.modLan fun l => { l with enabled := false })
    else if p.1 = 1 then lanternTry (s.modLan fun l => { l with enabled := true })
    else
      let s1 := s.modLan fun l => { l with mask := p.2 }
      if s.lan.active && p.2 != s.lan.mask then markPacket 2 s1 else s1)
    (s.modLan fun l => { l with pending := [] })

/-- LANTERN_ATTACH (19 R519; R538): LPRES has been high for 10 ms. -/
def execLanternAttach (s : State) : Ans := .next (lanternTry (s.modLan fun l => { l with lpres := true }))

/-- LANTERN_DETACH (R540; 19 R519): LPRES has been low for 10 µs. -/
def execLanternDetach (s : State) : Ans := .next (lanternDark (s.modLan fun l => { l with lpres := false }))

/-- After a disable, domain 49 goes OFF once every packet is sent (R540), and comes ON again if it has been enabled since. -/
def lanternDrained (s : State) : State :=
  if s.lan.active || !s.lan.fifo.isEmpty then s else lanternTry (lanternDark s)

/-- LANTERN_PACKET_SEND (R537, R538): a lane sends its next packet; packet n goes on lane n mod 2. -/
def execLanternPacketSend (lane : Nat) (s : State) : Ans :=
  .next (
    if lane > 1 || (s.domain 49).state != .on then s
    else match s.lan.fifo.find? fun p => p.seq % 2 == lane with
      | none => s
      | some p =>
        let s1 := (s.modLan fun l => { l with fifo := l.fifo.erase p, sentNow := l.sentNow + 1 }).modOut fun o =>
          { o with lantern := o.lantern ++ [(lane, p)] }
        lanternDrained (ctrAdd .lanternPacketsSent lane 1 s1))

end Sys2Proof.Machine
end

