-- ==== Sys2Proof/Machine/Attach.lean ====
section
/-! DEFINITION. The driver's attachment: negotiation, heartbeat, quiesce and reattachment (03 R97 to R107; 04 R135, R137; 22 R561). -/

namespace Sys2Proof.Machine

open Sys2Proof

/-- The next epoch (R97): after 0xFFFF_FFFF comes 1. -/
def nextEpoch (e : DWord) : DWord := if e = 0xFFFFFFFF#32 then 1 else e + 1

/-- The reserved dwords 12 to 15 of a command that uses CDW10 and CDW11 only. -/
def tailSet (a : Admin) : Bool := a.cdw12 != 0 || a.cdw13 != 0 || a.cdw14 != 0 || a.cdw15 != 0

/-- The features that the firmware supports: bits 0 to 11 (Table 4-7). -/
def supported : QWord := 0xFFF#64

/-- NEGOTIATE (04 R117, R135; 03 R97, R98, R102; 22 R561). Packets are formed only while LANTERN is granted (18 R505). -/
def execNegotiate (a : Admin) (us : Nat) (s : State) : Ans :=
  runAdmin 0xC3 a.src true (fun s =>
    let offered : QWord := a.cdw11 ++ a.cdw10
    let grant := offered &&& supported
    if a.src.fn ≠ 0 then .error St.invalidOpcode
    else if a.cdw13 ≠ 0 ∨ a.cdw14 ≠ 0 ∨ a.cdw15 ≠ 0 ∨ !offered.getLsbD 0 then .error St.invalidField
    else
      let s1 := s.modHb fun h =>
        { h with neg := grant, epoch := if h.quiesced then h.epoch else nextEpoch h.epoch,
                 lastBeat := if h.armed then h.lastBeat else s.now us, armed := true }
      .ok (ok a.src (grant.toNat % 2 ^ 32) (grant.toNat / 2 ^ 32) (if s1.lanternOn then lanternTry s1 else lanternStop s1))) s

/-- The lendings under way stop when no task of them is in flight (R100). -/
def stopLending (at_ : Nat) (s : State) : State :=
  s.sch.sems.zipIdx.foldl (fun t m => match m.1.lending with
    | some l => if (s.cmd? l.1).any (·.inFlight) then t else endLending m.2 at_ t
    | none => t) s

/-- Quiesce starts, with the driver-silence event (R99, R100). -/
def quiesceNow (s : State) : State :=
  let s1 := s.modHb fun h => { h with quiesced := true, qEpoch := h.epoch, qStart := s.now 0, heldOut := false }
  stopLending (s.now 0) (raise 0x010 s.hb.epoch (ctrAdd .schedQuiesceEntries 0 1 s1))

/-- Delete every I/O queue (R105, R106); a deletion that still waited for its queue's commands completes (04 R139). -/
def deleteIoQueues (s : State) : State :=
  (s.q.sqs.filterMap (·.deleting)).foldl (fun t by_ => ok by_ 0 0 t) (s.modQ fun q =>
    { q with sqs := q.sqs.filter (·.id == 0), cqs := q.cqs.filter (·.id == 0), fetched := q.fetched.filter (·.2 == 0),
             begun := q.begun.filter (·.1.sq == 0) })

/-- The parked answers, the held completions and the held writes to T2 are dropped, and so are the suspended commands, with their
semaphores (R105, R106; log 33). A command with a task in flight is not suspended: it goes when that task has ended (R69). -/
def dropWork (s : State) : State :=
  let s1 := s.hb.parked.foldl (fun t p => uncharge (.parked p.src) t) s
  let s2 := s1.modHb fun h => { h with parked := [], held := h.held.filter (·.src.sq == 0), dma := [], peer := [] }
  (s2.sch.cmds.map (·.src)).foldl (fun t src => discardCmd src t) s2

/-- The hold limit has passed (R106; 22 R562): the answers, the suspended commands and the I/O queues go, and the VOLATILE domes with them. -/
def holdNow (s : State) : State :=
  let s1 := deleteIoQueues (dropWork s)
  let vol := (s1.str.domes.filter (·.volatile_)).map (·.id)
  (vol.foldl (fun t d => if (t.dome? d).isSome then dissolveNow d t else t) s1).modHb fun h => { h with heldOut := true }

/-- Quiesce ends with a heartbeat (22 R561). -/
def endQuiesce (us : Nat) (s : State) : State :=
  s.modHb fun h => { h with quiesced := false, qEpoch := 0, heldOut := false, lastBeat := s.now us }

/-- The writes to T2 that quiesce held are made, in order (R100, R104; log 33). -/
def releaseDma (s : State) : State :=
  ((s.modObj fun o => { o with t2 := putPieces s.hb.dma o.t2 }).modMrg fun m => { m with sent := m.sent ++ s.hb.peer }).modHb fun h =>
    { h with dma := [], peer := [] }

/-- The held completions are posted on their queues, in order (R104). -/
def postHeld (s : State) : State :=
  s.hb.held.foldl (fun t c => post c t) (s.modHb fun h => { h with held := [] })

/-- The answers that wait for the driver: those parked, and those kept in place on the clusters (R101; log 33). -/
def State.answers (s : State) : Nat := s.hb.parked.length + (s.sch.cmds.filter (·.kept)).length

/-- The commands whose answers stayed in place complete, and so do the queue deletions that waited for them (R101; 04 R139). -/
def settleKept (s : State) : State :=
  let s1 := ((s.sch.cmds.filter (·.kept)).map (·.src)).foldl (fun t src => settle src t) s
  (s1.q.sqs.map fun q => (q.fn, q.id)).foldl (fun t q => deleteCheck q.1 q.2 t) s1

/-- The checks of REATTACH (R103; 04 R117, R131). -/
def reattachGate (a : Admin) (s : State) : Option Fail :=
  firstFail [
    (a.src.fn != 0 || (!bit a.cdw11.toNat 0 && !s.granted 11), St.invalidOpcode),
    (bits a.cdw11.toNat 31 1 != 0 || tailSet a, St.invalidField),
    (!s.hb.quiesced, St.sequenceError),
    (a.cdw10 != s.hb.qEpoch, St.epochMismatch)]

/-- REATTACH_ADOPT (R104): parked outputs, held completions, then fetch and dispatch go on. -/
def execReattachAdopt (a : Admin) (us : Nat) (s : State) : Ans :=
  if bit a.cdw11.toNat 0 then .next s
  else runAdmin 0xC4 a.src true (fun s =>
    orFail (reattachGate a s) fun _ =>
    let n := s.answers
    let s1 := s.hb.parked.foldl (fun t p => uncharge (.parked p.src) (deliver p.outObj p.addr p.out t)) (releaseDma s)
    let s2 := endQuiesce us (s1.modHb fun h => { h with parked := [], epoch := nextEpoch h.epoch })
    .ok (ok a.src (nextEpoch s.hb.epoch).toNat n (settleKept (postHeld s2)))) s

/-- REATTACH_DISCARD (R105). -/
def execReattachDiscard (a : Admin) (us : Nat) (s : State) : Ans :=
  if !bit a.cdw11.toNat 0 then .next s
  else runAdmin 0xC4 a.src true (fun s =>
    orFail (reattachGate a s) fun _ =>
    let n := s.answers
    let s1 := endQuiesce us ((deleteIoQueues (dropWork s)).modHb fun h => { h with epoch := nextEpoch h.epoch })
    .ok (ok a.src (nextEpoch s.hb.epoch).toNat n s1)) s

/-- A heartbeat write (R98; 22 R561). -/
def heartbeat (v : DWord) (us : Nat) (s : State) : State :=
  if s.hb.quiesced || !s.hb.armed || v != s.hb.epoch then s else s.modHb fun h => { h with lastBeat := s.now us }

/-- QUEUE_RESUME (04 R117, R137). One that names the admin queue, or a queue that does not exist, is answered with Invalid Field in Command,
which R137 leaves open (DESIGN CHOICE, log 90). The entries that FLUSH completes are those that the command's data shows (log 32). -/
def execQueueResume (a : Admin) (s : State) : Ans :=
  runAdmin 0xC2 a.src false (fun s =>
    let id := bits a.cdw10.toNat 15 0
    if !s.granted 0 then .error St.invalidOpcode
    else if bits a.cdw10.toNat 31 17 ≠ 0 ∨ a.cdw11 ≠ 0 ∨ tailSet a ∨ id = 0 then .error St.invalidField
    else match s.sq? a.src.fn id with
      | none => .error St.invalidField
      | some q =>
        if !q.frozen then .error St.sequenceError
        else
          let n := if bit a.cdw10.toNat 16 then (q.tail + q.size - q.head) % q.size else 0
          let flushed := (List.range n).foldl (fun t i =>
            let src : Src := { fn := q.fn, sq := id, cid := le a.input (64 * i + 2) 2 }
            post { src, sct := 7, sc := 0x96 } (queuePacket 4 src (le a.input (64 * i) 1) 7 0x96 0xFFFF t)) s
          .ok (ok a.src n 0 (queuePacket 3 { a.src with sq := id } 0 0 0 0xFFFF <| modSq q.fn id (fun q => { q with frozen := false, head := if n = 0 then q.head else q.tail }) flushed))) s

end Sys2Proof.Machine
end

