-- ==== Sys2Proof/Machine/Belfry.lean ====
section
/-! DEFINITION. The host instance of the Belfry: the event block's writes, the delivery of groups, and the MSI-X messages held
(15 R426 to R442). -/

namespace Sys2Proof.Machine

open Sys2Proof

/-! ### Accesses (00 R16) -/

/-- The dwords that an access covers, with their values: a naturally aligned dword or qword; another access covers none (R16). -/
def RegWriteDwords (w : RegWrite) : List (Nat × DWord) :=
  if w.size = 4 ∧ w.offset % 4 = 0 then [(w.offset, w.value.setWidth 32)]
  else if w.size = 8 ∧ w.offset % 8 = 0 then
    [(w.offset, w.value.setWidth 32), (w.offset + 4, BitVec.ofNat 32 (w.value.toNat / 2 ^ 32))]
  else []

/-! ### Groups (R430 to R436) -/

/-- An event group. -/
def State.evGroup (s : State) (g : Nat) : EvGroup := (s.evt.groups[g]?).getD { vector := 0, vfVector := 0 }

/-- The function on which a group delivers (R435). -/
def State.receiverFn (s : State) (g : Nat) : Nat :=
  if (s.evGroup g).receiver = 0 then 0 else (s.boundFn (s.evGroup g).receiver).getD 0

/-- A function sees a group: the physical function every one, a virtual function those whose receiver is its partition (R436). -/
def State.seesGroup (s : State) (f g : Nat) : Bool :=
  f == 0 || (match s.boundTo f with | some p => (s.evGroup g).receiver == p | none => false)

/-- A function sees a source. -/
def State.seesSource (s : State) (f src : Nat) : Bool := eventExists src && s.seesGroup f (s.group src)

/-- A source of the group is pending and unmasked (R431). -/
def State.groupPending (s : State) (g : Nat) : Bool :=
  s.evt.pend.any fun src => s.evt.unmasked.contains src && s.group src == g

/-- The vector of a group's message (Table 15-2). -/
def State.groupVector (s : State) (g : Nat) : Nat :=
  if s.receiverFn g = 0 then (s.evGroup g).vector else (s.evGroup g).vfVector

/-- GROUP_DELIVERY (R431, R432, R440): the event tests the conditions again; a group with NEW and no source left only clears NEW. -/
def execGroupDelivery (group us : Nat) (s : State) : Ans :=
  .next (
    let g := s.evGroup group
    if group > 31 || !g.new || !g.enable || g.holding.isSome || (s.pwr.domains[47]?).all (·.state != .on) then s
    else if !s.groupPending group then s.modEvt (updGroup group fun g => { g with new := false })
    else
      sendMsix (s.receiverFn group) (s.groupVector group) (eventPacket 2 group 0 (s.modEvt (updGroup group fun g =>
        { g with new := false, deliveries := g.deliveries + 1,
                 holding := if g.holdoff = 0 then none else some (s.now us + g.holdoff) }))))

/-- HOLDOFF_END (R432): a hold-off that has run its time ends. -/
def execHoldoffEnd (group us : Nat) (s : State) : Ans :=
  .next (match (s.evGroup group).holding with
    | none => s
    | some t => if t ≤ s.now us then s.modEvt (updGroup group fun g => { g with holding := none }) else s)

/-- EVENT_SOURCE_RISE (R427): a rising edge; a level line that is high already has none. -/
def execEventSourceRise (source : Nat) (detail : DWord) (s : State) : Ans :=
  .next (if eventLevel source then lineUp source detail s else raise source detail s)

/-! ### The event block's writes (R428, R432, R433, R436, R441) -/

/-- The sources whose bits are set in a dword of a bit array. -/
def sourcesOf (base off : Nat) (v : DWord) : List Nat :=
  ((List.range 32).filter fun i => v.getLsbD i).map fun i => (off - base) / 4 * 32 + i

/-- Clear pending bits (R428). The edge counter of a source stays. -/
def clearPending (f : Nat) (srcs : List Nat) (s : State) : State :=
  s.modEvt fun e => { e with pend := e.pend.filter fun n => !(srcs.contains n && s.seesSource f n) }

/-- Write one dword of EVMASK: a 1 masks the source (R433); a source that is pending as it is unmasked sets NEW (R430). -/
def writeMask (f off : Nat) (v : DWord) (s : State) : State :=
  (List.range 32).foldl (fun s i =>
    let n := (off - 0x2200) / 4 * 32 + i
    if !(f == 0 || s.seesSource f n) then s
    else if v.getLsbD i then s.modEvt fun e => { e with unmasked := delN n e.unmasked }
    else if s.evt.unmasked.contains n then s
    else
      let s1 := s.modEvt fun e => { e with unmasked := insN n e.unmasked }
      if s.evt.pend.contains n then setNew n s1 else s1) s

/-- Write GRPCTL of a group: the hold-off of the next one to start, and ENABLE (R432, Table 15-2). -/
def writeGrpctl (g : Nat) (v : DWord) (s : State) : State :=
  s.modEvt (updGroup g fun x => { x with holdoff := bits v.toNat 9 0, enable := bit v.toNat 16 })

/-- Write GRPVEC of a group (Table 15-2; 00 R15): a virtual function has vectors 0 to 63. -/
def writeGrpvec (f g : Nat) (v : DWord) (s : State) : State :=
  let n := bits v.toNat 10 0
  if f = 0 then s.modEvt (updGroup g fun x => { x with vector := n })
  else if n > 63 then s else s.modEvt (updGroup g fun x => { x with vfVector := n })

/-- Write one dword of the event block (Table 15-1); other offsets ignore it. EDGESEL is each function's own (log 100). -/
def writeEvent (f : Nat) (d : Nat × DWord) (s : State) : State :=
  let off := d.1
  if 0x2000 ≤ off ∧ off < 0x2200 then clearPending f (sourcesOf 0x2000 off d.2) s
  else if 0x2200 ≤ off ∧ off < 0x2400 then writeMask f off d.2 s
  else if 0x2600 ≤ off ∧ off < 0x2700 then
    let g := (off - 0x2600) / 8
    if !s.seesGroup f g then s else if off % 8 = 0 then writeGrpctl g d.2 s else writeGrpvec f g d.2 s
  else if off = 0x2700 then s.modEvt fun e => { e with edgeSel := putN f (bits d.2.toNat 11 0) e.edgeSel }
  else s

/-- A BAR2 access starts in a range, from a function whose Memory Space Enable is set (22 R556, R568). -/
def State.bar2 (s : State) (w : RegWrite) (lo hi : Nat) : Bool :=
  w.bar == 2 && lo ≤ w.offset && w.offset < hi && (s.fn? w.fn).any fun f => f.enabled && f.memSpace

/-- Every dword of an access to the event block. -/
def writeEvents (w : RegWrite) (s : State) : State := (RegWriteDwords w).foldl (fun s d => writeEvent w.fn d s) s

/-- EVPEND_WRITE (R428). -/
def execEvpendWrite (w : RegWrite) (s : State) : Ans := .next (if s.bar2 w 0x2000 0x2200 then writeEvents w s else s)

/-- EVMASK_WRITE (R433): the 24 cycles are timing (log 100). -/
def execEvmaskWrite (w : RegWrite) (s : State) : Ans := .next (if s.bar2 w 0x2200 0x2400 then writeEvents w s else s)

/-- GRPCTL_WRITE (R432): a qword access writes GRPVEC as well. -/
def execGrpctlWrite (w : RegWrite) (s : State) : Ans :=
  .next (if s.bar2 w 0x2600 0x2700 && w.offset % 8 == 0 then writeEvents w s else s)

/-- The source that a function's EDGESEL selects, where the function sees it. -/
def State.selected (s : State) (f : Nat) : Option Nat :=
  let n := (lookN f s.evt.edgeSel).getD 0
  if s.seesSource f n then some n else none

/-- EDGECNT_READ (R427, Table 15-3; 00 R16, R17): a dword read of EDGECNT, or a qword read of EDGESEL and EDGECNT, returns the count of
the selected source and clears it; a narrower read returns 0. -/
def execEdgecntRead (fn size : Nat) (s : State) : Ans :=
  .next (
    if !((s.fn? fn).any fun f => f.enabled && f.memSpace) then s
    else match (if size = 4 ∨ size = 8 then s.selected fn else none) with
      | none => s.modEvt fun e => { e with edgeRead := 0 }
      | some n => s.modEvt fun e =>
          { e with edgeRead := (lookN n e.edges).getD 0, edges := e.edges.filter (·.1 ≠ n) })

/-! ### Held MSI-X messages (R434) -/

/-- Send the held messages of a function whose vectors are unmasked, when MSI-X is enabled and the function is in D0. -/
def flushPba (f : Nat) (s : State) : State :=
  match s.fn? f with
  | none => s
  | some x =>
    if !x.msix || x.dstate ≠ 0 then s
    else
      let go := x.pba.filter (x.unmasked.contains ·)
      (modFn f (fun x => { x with pba := x.pba.filter fun v => !go.contains v }) s).modOut fun o =>
        { o with msix := o.msix ++ go.map fun v => (f, v) }

/-- MSIX_VECTOR_UNMASK (R434): the mask of a vector is lifted, and its held message is sent. -/
def execMsixVectorUnmask (fn vector : Nat) (s : State) : Ans :=
  .next (
    if vector > (if fn = 0 then 2047 else 63) then s
    else flushPba fn (modFn fn (fun x => { x with unmasked := insN vector x.unmasked }) s))

end Sys2Proof.Machine
end

