-- ==== Sys2Proof/Machine/Firmware.lean ====
section
/-! DEFINITION. Firmware: the slot records and images of the code flash, download and commit, and live activation (17 R466 to R484). -/

namespace Sys2Proof.Machine

open Sys2Proof

/-! ### Statuses (17 R472, R479 to R481; their numbers: log 14) -/

/-- Invalid Firmware Slot. -/
def invalidSlot : Fail := { sct := 1, sc := 0x06 }
/-- Invalid Firmware Image. -/
def invalidImage : Fail := { sct := 1, sc := 0x07 }
/-- Firmware Activation Requires Conventional Reset. -/
def needsReset : Fail := { sct := 1, sc := 0x0B }
/-- Firmware Activation Prohibited. -/
def prohibited : Fail := { sct := 1, sc := 0x13 }
/-- Overlapping Range. -/
def overlapping : Fail := { sct := 1, sc := 0x14 }

/-! ### Images (R469, R470) -/

/-- The most bytes of an image. -/
def imageMax : Nat := 134152192

/-- A section entry: kind, offset, length, digest, and whether its reserved bytes are 0. -/
structure FwSection where
  kind : Nat
  offset : Nat
  length : Nat
  digest : List Byte
  clean : Bool

/-- The section entry at an index. -/
def fwSectionAt (m : Mem) (i : Nat) : FwSection :=
  let b := 64 + 96 * i
  { kind := memLE m b 2, offset := memLE m (b + 4) 4, length := memLE m (b + 8) 4, digest := memRead m (b + 32) 64,
    clean := allZero (memRead m (b + 2) 2) && allZero (memRead m (b + 12) 20) }

/-- The sections that an image's header counts. -/
def fwSections (m : Mem) : List FwSection := (List.range (memLE m 6 2)).map (fwSectionAt m)

/-- The maximum length of a section kind (Table 17-4); 0 for an unlisted kind. -/
def kindMax (k : Nat) : Nat :=
  match k with
  | 1 => 33554432 | 2 => 8388608 | 3 => 65536 | 4 => 8388608 | 5 => 98304 | 6 => 16777216 | _ => 0

/-- Two sections do not overlap. -/
def apart (a b : FwSection) : Bool := a.offset + a.length ≤ b.offset || b.offset + b.length ≤ a.offset

/-- The header and the section table meet Tables 17-3 and 17-4 (R469). -/
def headerOk (m : Mem) : Bool :=
  let n := memLE m 6 2
  let len := memLE m 8 4
  let ss := fwSections m
  memLE m 0 4 == 0x4D524946 && memLE m 4 2 == 1 && 5 ≤ n && n ≤ 8 && 16384 ≤ len && len ≤ imageMax && len % 4096 == 0 &&
  allZero (memRead m 28 4) && allZero (memRead m 40 24) && allZero (memRead m (64 + 96 * n) (96 * (8 - n))) &&
  allZero (memRead m 2625 7) && 1 ≤ memLE m 2632 2 && memLE m 2632 2 ≤ 1280 && allZero (memRead m 2634 6) &&
  allZero (memRead m (2640 + memLE m 2632 2) (1280 - memLE m 2632 2)) && allZero (memRead m 3920 176) &&
  ss.all (fun x => x.clean && x.offset % 4096 == 0 && 4096 ≤ x.offset && x.length ≤ kindMax x.kind && x.offset + x.length ≤ len && kindMax x.kind != 0) &&
  [1, 2, 3, 4, 5].all (fun k => ss.any (·.kind == k)) &&
  ss.zipIdx.all fun x => ss.zipIdx.all fun y => x.2 ≥ y.2 || apart x.1 y.1

/-- The image digest: the image with bytes 2,632 to 3,919 taken as 0 (R470). -/
def imageDigest (m : Mem) : List Byte := Config.shake256 (memRead (memClear m 2632 1288) 0 (memLE m 8 4))

/-- The key slot, 0 to 3, whose fused digest is the signer key's (18 R487). -/
def signerSlot (m : Mem) : Option Nat := (List.range 4).find? fun k => Config.fusedDigest k == Config.shake256 (memRead m 832 1793)

/-- The digest of the first section of a kind; none where the image has none. -/
def fwDigest (m : Mem) (kind : Nat) : Option (List Byte) := ((fwSections m).find? (·.kind == kind)).map (·.digest)

/-- An image verifies but for its security version (R470). -/
def imageSound (m : Mem) (revoked : BitVec 4) : Bool :=
  headerOk m &&
  (signerSlot m).any (fun k => !revoked.getLsbD k) &&
  Config.falconOk (memRead m 832 1793) (imageDigest m) (memRead m 2640 (memLE m 2632 2)) &&
  (fwSections m).all fun x => Config.shake256 (memRead m x.offset x.length) == x.digest

/-- An image's security version. -/
def imageSecurity (m : Mem) : Nat := memLE m 12 4

/-- An image verifies (R470). -/
def State.verifies (s : State) (m : Mem) : Bool := imageSound m s.sec.revoked && imageSecurity m ≥ s.sec.floor

/-! ### Slots (R466, R468, R473) -/

/-- The contents of a slot. -/
def State.slotAt (s : State) (n : Nat) : Slot := if n = 2 then s.fw.slot2 else s.fw.slot1

/-- Update a slot. -/
def modSlotAt (n : Nat) (f : Slot → Slot) (s : State) : State :=
  s.modFw fun w => if n = 2 then { w with slot2 := f w.slot2 } else { w with slot1 := f w.slot1 }

/-- A slot's record, where it is valid: its sequence is neither 0 nor 0xFFFF_FFFF (R468). -/
def State.record (s : State) (n : Nat) : Option SlotRecord :=
  (s.slotAt n).record.filter fun r => r.sequence != 0 && r.sequence != 0xFFFFFFFF

/-- A slot verifies with a digest equal to its record's (R473). -/
def State.slotOk (s : State) (n : Nat) : Bool :=
  (s.record n).any fun r => s.verifies (s.slotAt n).image && imageDigest (s.slotAt n).image == r.digest

/-- Slots 1 and 2 in the order of R473. -/
def State.slotOrder (s : State) : List Nat :=
  match s.record 1, s.record 2 with
  | none, none => []
  | some _, none => [1]
  | none, some _ => [2]
  | some a, some b =>
    let first := if a.staged = b.staged then a.sequence ≥ b.sequence else !a.staged
    if first then [1, 2] else [2, 1]

/-- The slot that a start would choose (R473). -/
def State.bootSlot (s : State) : Option Nat := s.slotOrder.find? s.slotOk

/-- The higher valid sequence. -/
def State.lastSequence (s : State) : Nat :=
  Nat.max (((s.record 1).map (·.sequence)).getD 0) (((s.record 2).map (·.sequence)).getD 0)

/-- The running slot: log page 0x03 reports it until the Vane has been swapped (R483). -/
def State.running_ (s : State) : Nat := s.fw.vane

/-- The record that a commit writes for an image (R480, Table 17-2). -/
def newRecord (seq : Nat) (staged : Bool) (m : Mem) : SlotRecord :=
  { sequence := seq, length := memLE m 8 4, security := memLE m 12 4, build := memLE m 16 4, revision := memRead m 32 8, staged,
    digest := imageDigest m }

/-- An image may be activated live over the running one (R481). -/
def State.liveOk (s : State) (m : Mem) : Bool :=
  let run := (s.slotAt s.running_).image
  memLE run 16 4 ≥ memLE m 20 4 && memLE run 24 4 == memLE m 24 4

/-! ### Download and commit (R479, R480) -/

/-- FIRMWARE_IMAGE_DOWNLOAD (R479): Dword 10 holds the dwords, 0's based, and Dword 11 the offset in dwords (log 14). -/
def execFirmwareImageDownload (a : Admin) (s : State) : Ans :=
  runAdmin 0x11 a.src false (fun s =>
    let n := (a.cdw10.toNat + 1) * 4
    let off := a.cdw11.toNat * 4
    if n % 4096 ≠ 0 ∨ off % 4096 ≠ 0 ∨ off + n > imageMax then .error St.invalidField
    else if s.fw.pieces.any fun p => off < p.1 + p.2 && p.1 < off + n then .error overlapping
    else .ok (ok a.src 0 0 (s.modFw fun f =>
      { f with pieces := f.pieces ++ [(off, n)], staged := memPut (memClear f.staged off n) off (padTo a.input n) }))) s

/-- The slot that a commit names: 0 lets the module choose the one that is not running (log 14). -/
def State.commitSlot (s : State) (a : Admin) : Nat :=
  let n := bits a.cdw10.toNat 2 0
  if n = 0 then 3 - s.running_ else n

/-- A commit's staging is discarded, whatever its outcome (R479; Code Flash Bank Busy too, log 101). -/
def dropStaging (s : State) : State := s.modFw fun f => { f with pieces := [], staged := [] }

/-- The code flash banks are both in use, or a commit programs (R472, R484). -/
def State.flashBusy (s : State) : Bool := s.fw.commit.isSome || s.fw.activation.isSome

/-- A commit that programs begins (R472, R480): the image is checked and the image area of the slot erased. -/
def commitProgram (a : Admin) (action : Nat) (s0 : State) : Except Fail State :=
  let n := s0.commitSlot a
  let s := dropStaging s0
  let m := s0.fw.staged
  let fail (f : Fail) : Except Fail State := .ok (refuse a.src f s)
  if n > 2 then fail invalidSlot
  else if s0.flashBusy || n = s0.running_ then fail St.bankBusy
  else if !imageSound m s0.sec.revoked then fail invalidImage
  else if imageSecurity m < s0.sec.floor || s0.lastSequence + 1 > 0xFFFFFFFE then fail prohibited
  else .ok (modSlotAt n (fun x => { x with image := [], length := 0 }) (s.modFw fun f =>
    { f with commit := some { src := a.src, slot := n, action, image := m, length := memLE m 8 4 } }))

/-- The commit action of an entry: bits [5:3] of Dword 10 (log 14). -/
def commitAction (a : Admin) : Nat := bits a.cdw10.toNat 5 3

/-- FIRMWARE_COMMIT_PROGRAM (R480): CA 000b. A commit action that Table 17-8 does not list is refused here. -/
def execFirmwareCommitProgram (a : Admin) (s0 : State) : Ans :=
  if [1, 2, 3, 6, 7].contains (commitAction a) then .next s0
  else runAdmin 0x10 a.src false (fun s =>
    if commitAction a ≠ 0 then .ok (refuse a.src St.invalidField (dropStaging s)) else commitProgram a 0 s) s0

/-- FIRMWARE_COMMIT_NEXT_RESET (R480): CA 001b. -/
def execFirmwareCommitNextReset (a : Admin) (s0 : State) : Ans :=
  if commitAction a ≠ 1 then .next s0 else runAdmin 0x10 a.src false (fun s => commitProgram a 1 s) s0

/-- FIRMWARE_COMMIT_LIVE (R480, R481): CA 011b. -/
def execFirmwareCommitLive (a : Admin) (s0 : State) : Ans :=
  if commitAction a ≠ 3 then .next s0 else runAdmin 0x10 a.src false (fun s => commitProgram a 3 s) s0

/-- FIRMWARE_COMMIT_BOOT_PARTITION (R480): CA 110b and 111b. -/
def execFirmwareCommitBootPartition (a : Admin) (s0 : State) : Ans :=
  if commitAction a ≠ 6 ∧ commitAction a ≠ 7 then .next s0
  else runAdmin 0x10 a.src false (fun s => .ok (refuse a.src St.invalidField (dropStaging s))) s0

/-- FIRMWARE_COMMIT_ACTIVATE_EXISTING (R480): CA 010b. The running slot changes nothing; another slot whose image verifies gets a new
record with STAGED clear. -/
def execFirmwareCommitActivateExisting (a : Admin) (s0 : State) : Ans :=
  if commitAction a ≠ 2 then .next s0
  else runAdmin 0x10 a.src false (fun s0 =>
    let s := dropStaging s0
    let n := s.commitSlot a
    let m := (s.slotAt n).image
    let fail (f : Fail) : Except Fail State := .ok (refuse a.src f s)
    if n > 2 then fail invalidSlot
    else if s.flashBusy then fail St.bankBusy
    else if n = s.running_ then .ok (ok a.src 0 0 s)
    else if !imageSound m s.sec.revoked then fail invalidImage
    else if imageSecurity m < s.sec.floor || s.lastSequence + 1 > 0xFFFFFFFE then fail prohibited
    else .ok (ok a.src 0 0 ((modSlotAt n (fun x => { x with record := some (newRecord (s.lastSequence + 1) false m) }) s).modFw fun f =>
      { f with pendingNext := true }))) s0

/-- An activation begins, or is held while an emergency is active (R484). -/
def beginActivation (slot : Nat) (src : Option Src) (s : State) : State :=
  let s1 := s.modFw fun f => { f with activation := some (slot, .band 0 none, s.emergency, src) }
  if s.emergency then raise 0x017 0 s1 else s1

/-- CODE_FLASH_PROGRAM_END (R480, R481): the image is programmed and read back, and the slot record is written. A read-back that does
not match completes with Internal Error, and no record is written (log 14). -/
def execCodeFlashProgramEnd (readBackOk : Bool) (s : State) : Ans :=
  .next (match s.fw.commit with
    | none => s
    | some c =>
      let s1 := s.modFw fun f => { f with commit := none }
      if !readBackOk then refuse c.src { sct := 0, sc := 0x06 } s1
      else
        let s2 := modSlotAt c.slot (fun _ =>
          { record := some (newRecord (s.lastSequence + 1) (c.action == 0) c.image), image := c.image, length := c.length }) s1
        if c.action = 3 then
          (if s2.liveOk c.image then beginActivation c.slot (some c.src) s2 else refuse c.src needsReset s2)
        else ok c.src 0 0 (s2.modFw fun f => { f with pendingNext := f.pendingNext || c.action == 1 }))

/-! ### Live activation (R481 to R484) -/

/-- Put the next core of the activation. -/
def nextCore (c : SwapCore) (s : State) : State :=
  s.modFw fun f => { f with activation := f.activation.map fun a => (a.1, c, a.2.2.1, a.2.2.2) }

/-- At a tick boundary, dispatch stops to the band whose turn it is (R481). -/
def stopBand (s : State) : State :=
  match s.fw.activation with
  | some (_, .band b none, false, _) => nextCore (.band b (some s.tick.toNat)) s
  | _ => s

/-- ACTIVATION_BAND_SWAP (R481): at a boundary after dispatch to the band stopped, with no task in flight on it, its cores take the new
image; dispatch to the next band stops. A band that is not ON takes it at its next wake. -/
def execActivationBandSwap (s : State) : Ans :=
  .next (match s.fw.activation with
    | some (slot, .band b (some t), false, _) =>
      if s.tick.toNat ≤ t || s.bandBusy b then s
      else
        let s1 := if (s.domain b).state == .on then bandTakes b slot s else modDomain b (fun d => { d with newImage := true }) s
        nextCore (if b < 24 then .band (b + 1) (some s.tick.toNat) else .scheduler s.tick.toNat) s1
    | _ => s)

/-- A pointer's partition has no save or restore under way, and its next save does not start within 150 µs (R481). -/
def State.farFromSwitch (s : State) (p : SlicePtr) : Bool :=
  p.saving.isEmpty && p.restoring.isEmpty && p.late.isEmpty && ((s.outgoing p).isEmpty || p.lead + 150 ≤ p.left * 500)

/-- No save or restore of any partition falls within 150 µs of the boundary: none is under way, none has ended in the last 150 µs, and
none starts in the next (R481). -/
def State.noSwitch (s : State) : Bool := s.sch.ptrs.all s.farFromSwitch && s.sch.switchEnd.all (· + 150 ≤ s.now 0)

/-- SCHEDULER_CORE_SWAP (R481): `us` is how long the swap lasts; a switch that it delays has it as slice debt (03 R86). -/
def execSchedulerCoreSwap (us : Nat) (s : State) : Ans :=
  .next (match s.fw.activation with
    | some (slot, .scheduler t, false, _) =>
      if s.tick.toNat ≤ t || us > 150 || !(s.noSwitch || s.tick.toNat ≥ t + 1024) then s
      else
        let s1 := s.modSch fun k => { k with ptrs := k.ptrs.map fun p =>
          if p.saving.isEmpty && p.restoring.isEmpty && p.late.isEmpty then p else { p with debt := p.debt + us } }
        nextCore (.keep s.tick.toNat) (raise 0x016 0x1000 (s1.modFw fun f => { f with scheduler := slot }))
    | _ => s)

/-- KEEP_SWAP (R481): at the next tick boundary. -/
def execKeepSwap (s : State) : Ans :=
  .next (match s.fw.activation with
    | some (slot, .keep t, false, _) =>
      if s.tick.toNat ≤ t then s
      else nextCore (.vane s.tick.toNat) (raise 0x016 0x2000 (s.modFw fun f => { f with keep := slot }))
    | _ => s)

/-- VANE_SWAP (R481, R482): the activation ends; its commit completes, or the controller reset that began it sets CSTS.RDY. -/
def execVaneSwap (s : State) : Ans :=
  .next (match s.fw.activation with
    | some (slot, .vane t, false, src) =>
      if s.tick.toNat ≤ t || s.emergency then s
      else
        let s1 := raise 0x016 0x3000 (s.modFw fun f => { f with vane := slot, booted := slot, activation := none, pendingNext := false })
        match src with
        | some x => ok x 0 0 s1
        | none => initRdy s1
    | _ => s)

/-- ACTIVATION_RESUME (R484): one full tick has passed with no emergency; the activation goes on with the next core. -/
def execActivationResume (s : State) : Ans :=
  .next (match s.fw.activation with
    | some (slot, core, true, src) =>
      if !s.calmTick then s
      else
        let n := s.tick.toNat
        let c := match core with
          | .band b _ => SwapCore.band b (some n)
          | .scheduler t => .scheduler t
          | .keep t => .keep t
          | .vane t => .vane t
        s.modFw fun f => { f with activation := some (slot, c, false, src) }
    | _ => s)

end Sys2Proof.Machine
end

