-- ==== Sys2Proof/Machine/Integrity.lean ====
section
/-! DEFINITION. Memory integrity (13 R384 to R398): the word code, the page code, the strong decode, what an uncorrectable word does to
its reader, scrubbing, and the retirement of a DRAM channel group. -/

namespace Sys2Proof.Machine

open Sys2Proof

/-! ### The word code (R385, R386) -/

/-- The number of bits set among the low n. -/
def popCount : Nat → Nat → Nat
  | 0, _ => 0
  | n + 1, v => v % 2 + popCount n (v / 2)

/-- The candidate columns, in order (R385). -/
def candidates : List Nat :=
  ((List.range 65536).filter fun v => popCount 16 v == 3) ++ ((List.range 65536).filter fun v => popCount 16 v == 5)

/-- The xors of two distinct members of a list. -/
def pairXors : List Nat → List Nat
  | [] => []
  | a :: r => (r.map fun b => a ^^^ b) ++ pairXors r

/-- The 16 xors of three check columns from one check nibble (R385). -/
def checkBad : List Nat :=
  (List.range 4).flatMap fun m => [7, 11, 13, 14].map fun x => x * 2 ^ (4 * m)

/-- One data column after those chosen: what is used, what is bad, the columns so far. -/
def nextColumn (st : List Nat × List Nat × List Nat) (n : Nat) : List Nat × List Nat × List Nat :=
  let e := st.2.2.drop (4 * (n / 4))
  match candidates.find? fun v =>
      !st.1.contains v && !st.2.1.contains v && !((pairXors e).any fun x => st.1.contains (v ^^^ x)) with
  | none => st
  | some v => (v :: st.1, (pairXors e).map (fun x => v ^^^ x) ++ st.2.1, st.2.2 ++ [v])

/-- The 272 columns h(0) to h(271), by R385's procedure. -/
def columns : List Nat :=
  let checks := (List.range 16).map fun j => 2 ^ j
  ((List.range 256).foldl nextColumn (checks, checkBad, [])).2.2 ++ checks

/-- The syndrome of a word: the xor of the columns of its set bits (R386). -/
def syndrome (w : BitVec 256 × BitVec 16) : Nat :=
  columns.zipIdx.foldl (fun a c => if (if c.2 < 256 then w.1.getLsbD c.2 else w.2.getLsbD (c.2 - 256)) then a ^^^ c.1 else a) 0

/-- A word with bit n of its codeword flipped. -/
def flipBit (w : BitVec 256 × BitVec 16) (n : Nat) : BitVec 256 × BitVec 16 :=
  if n < 256 then (w.1 ^^^ BitVec.ofNat 256 (2 ^ n), w.2) else (w.1, w.2 ^^^ BitVec.ofNat 16 (2 ^ (n - 256)))

/-- What the word code finds (R386). -/
inductive WordRead where
  | clean
  | corrected (w : BitVec 256 × BitVec 16)
  | bad (syndrome : Nat)
deriving DecidableEq, Repr

/-- A word as the word code reads it (R386). -/
def readWord (w : BitVec 256 × BitVec 16) : WordRead :=
  let s := syndrome w
  if s = 0 then .clean
  else match columns.findIdx? (· == s) with
    | some n => .corrected (flipBit w n)
    | none => .bad s

/-! ### The page code (R387) -/

/-- The product in GF(2^16) of R387's polynomial; n bits of b are left. -/
def gfMulAux : Nat → Nat → Nat → Nat → Nat
  | 0, _, _, acc => acc
  | n + 1, a, b, acc =>
    gfMulAux n (if a ≥ 32768 then (2 * a) ^^^ 0x1100B else 2 * a) (b / 2) (if b % 2 = 1 then acc ^^^ a else acc)

/-- The product in GF(2^16). -/
def gfMul (a b : Nat) : Nat := gfMulAux 16 a b 0

/-- α to the power n, α = 0x0002. -/
def gfPow : Nat → Nat
  | 0 => 1
  | n + 1 => gfMul 2 (gfPow n)

/-- A polynomial, highest power first, times x + c. -/
def mulLinear (p : List Nat) (c : Nat) : List Nat :=
  (p ++ [0]).zipWith (· ^^^ ·) (0 :: p.map fun a => gfMul a c)

/-- The generator's 16 coefficients below x^16, highest power first (R387). -/
def generator : List Nat := ((List.range 16).foldl (fun p i => mulLinear p (gfPow i)) [1]).drop 1

/-- The 16 symbols of a word, lowest bytes first. -/
def symbolsOf (w : BitVec 256) : List Nat := (List.range 16).map fun j => bits w.toNat (16 * j + 15) (16 * j)

/-- The parity of a frame's data symbols: the remainder by the generator (R387). -/
def parityOf (d : List Nat) : List Nat :=
  d.foldl (fun p x =>
    let f := x ^^^ p.headD 0
    ((p.drop 1) ++ [0]).zipWith (fun a g => a ^^^ gfMul f g) generator) (List.replicate 16 0)

/-- A frame is a codeword of both codes: 129 clean words, the last the parity of the others (R387, R388). -/
def isFrame (f : FrameBits) : Bool :=
  f.length == 129 && f.all (fun w => syndrome w == 0) &&
  parityOf ((f.take 128).flatMap fun w => symbolsOf w.1) == symbolsOf ((f[128]?).getD (0, 0)).1

/-! ### Frames -/

/-- A frame exists (R388). -/
def frameExists : FrameAt → Bool
  | .t0 c f => c < 800 && f < 512
  | .t1 p f => p < 32 && f < 5856773

/-- The source of a frame in the device error log (Table 13-6): kind and index. -/
def frameSource : FrameAt → Nat × Nat
  | .t0 c _ => (0, c)
  | .t1 p _ => (1, p)

/-- The index of a frame's memory in the counters of scope package, cluster (22 R565). -/
def frameIndex : FrameAt → Nat
  | .t0 c _ => 32 + c
  | .t1 p _ => p

/-- The byte address of a word of a frame within its memory (Table 13-5; log 53). -/
def frameAddress (a : FrameAt) (word : Nat) : Nat :=
  (match a with | .t0 _ f => f | .t1 _ f => f) * 4096 + word * 32

/-- Count words that the word code corrected and report each (13 R399, R403). -/
def wordCorrected (a : FrameAt) (w : Nat × Nat) (s : State) : State :=
  let src := frameSource a
  reportAt { first := 0, last := 0, seq := 0, merged := 1, kind := src.1, index := src.2, cls := 0x01, uncorrectable := false,
             address := frameAddress a w.1, syndrome := w.2 }
    (match a with
      | .t0 c _ => ctrAdd .integWordsCorrectedT0 c 1 s
      | .t1 p _ => ctrAdd .integWordsCorrectedT1 p 1 s)

/-- The words of a frame that the word code corrects, and those it cannot: word and syndrome. -/
def frameWords (f : FrameBits) : List (Nat × Nat) × List (Nat × Nat) :=
  f.zipIdx.foldl (fun l x => match readWord x.1 with
    | .clean => l
    | .corrected _ => (l.1 ++ [(x.2, syndrome x.1)], l.2)
    | .bad y => (l.1, l.2 ++ [(x.2, y)])) ([], [])

/-- A frame with its correctable words corrected (R390, step 1). -/
def fixWords (f : FrameBits) : FrameBits := f.map fun w => match readWord w with | .corrected v => v | _ => w

/-- The strong decoder may answer with a frame: a codeword of both codes that differs from the one read in the one uncorrectable word
alone, or in at most 8 symbols (R390, steps 2 and 3). The answer is the symbols corrected and the erasures. -/
def decodeOk (got found : FrameBits) (bad : List Nat) : Option (Nat × Nat) :=
  let fixed := fixWords got
  let diffs := ((fixed.zip found).zipIdx.flatMap fun x =>
    ((symbolsOf x.1.1.1).zip (symbolsOf x.1.2.1)).filterMap fun y => if y.1 = y.2 then none else some x.2)
  if !isFrame found || got.length != 129 then none
  else match bad with
    | [w] => if diffs.all (· == w) then some (0, 16) else if diffs.length ≤ 8 then some (diffs.length, 0) else none
    | _ => if diffs.length ≤ 8 then some (diffs.length, 0) else none

/-- Spare frames that a package has used (R388). -/
def State.sparesUsed (s : State) (p : Nat) : Nat := (s.itg.spares.filter (·.1 == p)).length

/-- Move a T1 frame to a spare frame of its package; with none left it stays and frame-spares-exhausted is raised (R391). The answer
says whether it moved. -/
def moveFrame (a : FrameAt) (s : State) : Bool × State :=
  match a with
  | .t0 _ _ => (false, s)
  | .t1 p f =>
    if s.sparesUsed p < 7685 then (true, s.modItg fun t => { t with spares := t.spares ++ [(p, f)] })
    else (false, raise 0x001 (BitVec.ofNat 32 p) s)

/-! ### What an uncorrectable word does to its reader (R392, R393) -/

/-- A command that owns a save area or a parked answer fails with Uncorrectable Memory Error: its held completion is replaced. -/
def areaLost (src : Src) (s : State) : State :=
  match s.hb.parked.find? (·.src == src) with
  | some p =>
    let s1 := s.modHb fun h =>
      { h with parked := updIf (·.src == src) (fun p => { p with out := [] }) h.parked, held := h.held.filter (·.src ≠ src) }
    -- a block read has no Milris opcode, and writes no compute error log entry (04 R136)
    if p.opcode = 0 then refuse src (St.memoryError []) s1 else failMilris src p.opcode p.dome p.tenant (St.memoryError []) s1
  | none => failWhole src (St.memoryError []) s

/-- The outcome for a reader (Table 13-3), apart from the log entry and the event. -/
def readerOutcome (r : Reader) (s : State) : State :=
  match r with
  | .clusterFetch c => faultFence c s
  | .schedulerFetch => s.modLife fun l => { l with cfs := true }
  | .transfer t cursor =>
    failTask t (St.memoryError cursor) (s.modXfer fun l => updIf (·.task == t) (fun x => { x with halted := true }) l)
  | .blockRead src => s.modFls fun x => { x with reads := updIf (·.src == src) (fun r => { r with failed := true }) x.reads }
  | .task t => failTask t (St.memoryError []) s
  | .cleanPage id page =>
    modOne id (fun o => if o.dirty.contains page then o else { o with resident := o.resident.filter (·.1 ≠ page) }) s
  | .mapTable => s
  | .writeCache nsid u =>
    if !s.fls.dirty.contains (nsid, u) then s
    else
      let key : ExtKey := (nsid, u / 4096)
      let e := (s.extent? key).getD { key, map := .fine [] }
      (putExtent { e with lost := insN (u % 4096) e.lost } s).modFls fun x =>
        { x with dirty := x.dirty.filter (· ≠ (nsid, u)), dataLost := true }
  | .parity g => closeBare (·.id == g) s
  | .saveArea src => areaLost src s
  | .scrubber => s

/-- The dome and function of the command that reads, for the log entry. -/
def readerOwner (r : Reader) (s : State) : Nat × Nat :=
  let of_ (src : Src) : Nat × Nat := (((s.cmd? src).map (·.dome)).getD 0xFFFF, src.fn)
  match r with
  | .transfer t _ => of_ t.src
  | .task t => of_ t.src
  | .saveArea src => of_ src
  | .blockRead src => (0xFFFF, src.fn)
  | _ => (0xFFFF, 0xFFFF)

/-- The reader's outcome, its entry and the memory-uncorrectable event (R392). A clean page's entry is correctable; an instruction
fetch's entry names the core (Tables 13-6, 13-7; log 53). -/
def uncorrectableRead (a : FrameAt) (r : Reader) (flags word syn : Nat) (s : State) : State :=
  let src := frameSource a
  let own := readerOwner r s
  let s1 := readerOutcome r s
  let linked := if own.2 < 64 ∧ (s1.cmpLog own.2).seq ≠ (s.cmpLog own.2).seq then (s1.cmpLog own.2).seq.toNat else 0
  let base : DevEntry :=
    { first := 0, last := 0, seq := 0, merged := 1, kind := src.1, index := src.2, cls := 0x03, uncorrectable := true, flags,
      address := frameAddress a word, syndrome := syn, dome := own.1, fn := own.2, linked }
  match r with
  | .cleanPage _ _ => reportAt { base with cls := 0x05, uncorrectable := false } s1
  | _ =>
    let e := match r with
      | .clusterFetch c => { base with kind := 4, index := 0x100 + c, cls := 0x04, flags := flags ||| 4 }
      | .schedulerFetch => { base with kind := 4, index := 0, cls := 0x04 }
      | _ => base
    let s2 := reportUnc e s1
    raise 0x000 (BitVec.ofNat 32 s2.itg.seq.toNat) s2

/-- A T0 frame with an uncorrectable word counts towards the three of its cluster (R393); the third fault-fences it. -/
def countBadFrame (a : FrameAt) (s : State) : State :=
  match a with
  | .t1 _ _ => s
  | .t0 c f =>
    if s.itg.t0Bad.contains (c, f) then s
    else
      let s1 := s.modItg fun t => { t with t0Bad := t.t0Bad ++ [(c, f)] }
      if (s1.itg.t0Bad.filter (·.1 == c)).length = 3 then faultFence c s1 else s1

/-- The frame is, by this failure, the third of its cluster. -/
def State.fencing (s : State) (a : FrameAt) : Bool :=
  match a with
  | .t1 _ _ => false
  | .t0 c f => !s.itg.t0Bad.contains (c, f) && (s.itg.t0Bad.filter (·.1 == c)).length == 2 && !s.str.fenced.contains c

/-- A strong decode that failed (R391 to R393): the uncorrectable words are poisoned, a T1 frame moves to a spare, and the reader has
its outcome. -/
def decodeFailed (a : FrameAt) (r : Reader) (bad : List (Nat × Nat)) (s : State) : State :=
  let m := moveFrame a (s.modItg fun t =>
    { t with poisoned := t.poisoned ++ ((bad.map fun w => (a, w.1)).filter fun p => !t.poisoned.contains p) })
  let flags := b2n (!bad.isEmpty) + 2 * b2n m.1 + 4 * b2n (m.2.fencing a)
  countBadFrame a (uncorrectableRead a r flags ((bad.head?.map (·.1)).getD 0) ((bad.head?.map (·.2)).getD 0)
    (ctrAdd .integUncorrectableFrames (frameIndex a) 1 m.2))

/-- The package of a frame has stopped responding: every frame of it is uncorrectable (R398). -/
def State.deadFrame (s : State) (a : FrameAt) : Bool :=
  match a with
  | .t1 p _ => s.itg.deadPkgs.contains p
  | .t0 _ _ => false

/-- The words of a frame that are poisoned. -/
def State.poisonOf (s : State) (a : FrameAt) : List Nat := (s.itg.poisoned.filter (·.1 == a)).map (·.2)

/-- Read a frame with an uncorrectable word (R390): the decode succeeds with the frame found, or fails. -/
def strongDecode (a : FrameAt) (got : FrameBits) (found : Option FrameBits) (tagOk : Bool) (r : Reader) (s : State) : State :=
  let w := frameWords got
  let s1 := w.1.foldl (fun s x => wordCorrected a x s) s
  match (if tagOk then found.bind fun f => decodeOk got f (w.2.map (·.1)) else none) with
  | none => decodeFailed a r w.2 s1
  | some d =>
    let src := frameSource a
    ctrAdd .integFramesCorrectedByPageCode (frameIndex a) 1 (reportAt
      { first := 0, last := 0, seq := 0, merged := 1, kind := src.1, index := src.2, cls := 0x02, uncorrectable := false,
        address := frameAddress a ((w.2.head?.map (·.1)).getD 0), syndrome := (w.2.head?.map (·.2)).getD 0, symbols := d.1,
        erasures := d.2 } s1)

/-- STRONG_DECODE_END (R390 to R393, R398): a read met an uncorrectable word, or a tag of another frame. A poisoned word, and a frame
of a package that stopped responding, fail without a decode. A frame with neither, and a frame answer that no decode can give, do not
make the event (log 1, log 53). -/
def execStrongDecodeEnd (d : DecodeFound) (s : State) : Ans :=
  .next (
    if !frameExists d.at_ then s
    else if s.deadFrame d.at_ then uncorrectableRead d.at_ d.reader 0 0 0 (ctrAdd .integUncorrectableFrames (frameIndex d.at_) 1 s)
    else match s.poisonOf d.at_ with
      | w :: _ => if d.reader = .scrubber then s else uncorrectableRead d.at_ d.reader 1 w 0 s
      | [] =>
        if d.received.length ≠ 129 then s
        else
          let bad := (frameWords d.received).2
          if bad.isEmpty && d.tagOk then s
          else if d.tagOk && (d.found.any fun f => (decodeOk d.received f (bad.map (·.1))).isNone) then s
          else strongDecode d.at_ d.received d.found d.tagOk d.reader s)

/-! ### Scrubbing (R394, R395) -/

/-- The scrubber of a frame's memory: its record. -/
def State.scrub (s : State) (a : FrameAt) : Scrub :=
  let u := match a with | .t0 c _ => c | .t1 p _ => 800 + p
  (s.itg.scrubs.find? (·.unit_ == u)).getD { unit_ := u }

/-- Put a scrubber's record. -/
def putScrub (x : Scrub) (s : State) : State :=
  s.modItg fun t => { t with scrubs := x :: t.scrubs.filter (·.unit_ ≠ x.unit_) }

/-- A scrubber runs only while its memory's domain is ON (16 R447; R394). -/
def State.scrubs (s : State) (a : FrameAt) : Bool :=
  match a with
  | .t0 c _ => (s.domain (c / 32)).state == .on
  | .t1 p _ => (s.domain (33 + p / 4)).state == .on && !s.itg.retired.contains (p / 4) && !s.itg.deadPkgs.contains p

/-- The frames of a lap. -/
def lapFrames : FrameAt → Nat
  | .t0 _ _ => 512
  | .t1 _ _ => 5856773

/-- Every scrubber of a tier that reports has completed a lap (R395). -/
def State.lapsDone (s : State) (t0 : Bool) : Bool :=
  let has (u : Nat) : Bool := s.itg.scrubs.any fun x => x.unit_ == u && x.lapDone
  if t0 then (List.range 800).all fun c => s.str.fenced.contains c || has c
  else (List.range 32).all fun p => s.itg.retired.contains (p / 4) || has (800 + p)

/-- The lap ends (R395). How long it took is not a thing that the model's events say: a free value (log 3). -/
def lapEnd (a : FrameAt) (x : Scrub) (s : State) : State :=
  let s1 := putScrub { x with next := 0, before := x.now, now := [], lapDone := true } s
  match a with
  | .t0 c _ =>
    let s2 := ctrAdd .integScrubLapsT0 c 1 s1
    if s2.lapsDone true then let d := draw s2; d.2.modItg fun t => { t with t0Lap := d.1.toNat % 2 ^ 32 } else s2
  | .t1 p _ =>
    let s2 := ctrAdd .integScrubLapsT1 p 1 s1
    if s2.lapsDone false then let d := draw s2; d.2.modItg fun t => { t with t1Lap := d.1.toNat % 2 ^ 32 } else s2

/-- SCRUB_READ (R394): the scrubber reads its next frame, leaving out poisoned words; a word corrected on two successive laps sends the
frame to a spare. -/
def execScrubRead (at_ : FrameAt) (received : FrameBits) (found : Option FrameBits) (s : State) : Ans :=
  .next (
    let x := s.scrub at_
    let frame := match at_ with | .t0 _ f => f | .t1 _ f => f
    if !frameExists at_ || !s.scrubs at_ || frame != x.next || received.length != 129 then s
    else
      let poison := s.poisonOf at_
      let w := frameWords received
      let good := w.1.filter fun p => !poison.contains p.1
      let bad := w.2.filter fun p => !poison.contains p.1
      let again := good.any fun p => x.before.contains (frame, p.1)
      let x1 := { x with next := x.next + 1, now := x.now ++ good.map fun p => (frame, p.1) }
      let s1 := putScrub x1 (
        if bad.isEmpty || !poison.isEmpty then
          let s1 := good.foldl (fun s p => wordCorrected at_ p s) s
          if bad.isEmpty then s1 else decodeFailed at_ .scrubber bad s1
        else if found.any fun f => (decodeOk received f (bad.map (·.1))).isNone then decodeFailed at_ .scrubber bad s
        else strongDecode at_ received found true .scrubber s)
      let s2 := if again then (moveFrame at_ s1).2 else s1
      if x1.next ≥ lapFrames at_ then lapEnd at_ x1 s2 else s2)

/-! ### Retiring a DRAM channel group (R396 to R398) -/

/-- 89.25 GiB, the usable T1 of a DRAM channel group. -/
def groupBytes : Nat := 95831457792

/-- A group is retired, or its retirement is under way. -/
def State.leaving (s : State) (g : Nat) : Bool := s.itg.retired.contains g || s.itg.retiring.any (·.1 == g)

/-- The bytes that T1 charges take. -/
def State.t1Used (s : State) : Nat := sumN ((s.obj.charges.filter (·.tier == 1)).map (·.bytes))

/-- RETIRE_DRAM_CHANNEL_GROUP (R396; 04 R131, R132): the rest follows at the next tick boundary. -/
def execRetireDramChannelGroup (a : Admin) (s0 : State) : Ans :=
  if bits a.cdw10.toNat 7 0 ≠ 3 then .next s0
  else runAdmin 0xC5 a.src false (fun s =>
    orFail (serviceGate a 3 false s) fun _ =>
    if a.cdw11.toNat > 7 then .error St.invalidField
    else if s.itg.retired.contains a.cdw11.toNat || ((List.range 8).filter fun g => !s.itg.retired.contains g).length ≤ 1 then .error St.serviceRefused
    else .ok (s.modItg fun t => { t with retiring := t.retiring ++ [(a.cdw11.toNat, some a.src, false)] })) s0

/-- Free clean resident pages until the bytes in use fit a limit, the page used longest ago first; `fuel` bounds them (R396, R160). -/
def freeDownTo : Nat → Nat → State → State
  | 0, _, s => s
  | n + 1, limit, s =>
    if s.t1Used ≤ limit then s
    else
      let pages := (s.obj.list.filter fun o => o.flag 1 && o.flag 5 && !o.flag 3).flatMap fun o =>
        (o.resident.filter fun p => !o.dirty.contains p.1 && !s.declared.contains (o.id, p.1)).map fun p => (p.2, o.id, p.1)
      match pages.foldl (fun best x => match best with
          | none => some x
          | some (b : Nat × Nat × Nat) => if x.1 < b.1 then some x else some b) none with
      | none => s
      | some v => freeDownTo n limit (dropPage v.2.1 v.2.2 s)

/-- A waiting retirement at a tick boundary (R396): the allocatable T1 falls, or the command is refused and nothing changes. A group
that the module retires of its own accord is not refused (R398). A group that is leaving already takes a second command along, and the
last group in service is judged here again (DEDUCED, log 50). -/
def lowerGroup (r : Nat × Option Src × Bool) (s : State) : State :=
  if r.2.2 || s.itg.retiring.any (fun x => x.1 == r.1 && x.2.2) then s
  else
    let last := (List.range 8).all fun g => g == r.1 || s.itg.retired.contains g || s.itg.retiring.any fun x => x.1 == g && x.2.2
    let limit := s.obj.t1Alloc - groupBytes
    let t := freeDownTo s.residents limit s
    match r.2.1 with
    | some src =>
      if last ∨ t.t1Used > limit then
        refuse src St.serviceRefused (s.modItg fun x => { x with retiring := x.retiring.filter fun y => !(y.1 == r.1 && y.2.1 == r.2.1) })
      else (t.modObj fun o => { o with t1Alloc := limit }).modItg fun x =>
        { x with retiring := updIf (·.1 == r.1) (fun y => (y.1, y.2.1, true)) x.retiring }
    | none => (t.modObj fun o => { o with t1Alloc := limit }).modItg fun x =>
        { x with retiring := updIf (·.1 == r.1) (fun y => (y.1, y.2.1, true)) x.retiring }

/-- A group is retired for good: recorded, its domain OFF, group-retired raised (R397, R398). -/
def groupGone (g : Nat) (s : State) : State :=
  reportCor 6 g 0x0E (raise 0x002 (BitVec.ofNat 32 g)
    (modDomain (33 + g) (fun d => { d with state := .off, idle := 0 })
      (s.modItg fun t => { t with retired := insN g t.retired, retiring := t.retiring.filter (·.1 ≠ g) })))

/-- DRAM_MIGRATION_END (R397): the last frame has moved. Dword 0 holds the MiB migrated: the bytes in use, which the completion of a
group of another share of them draws as a free value (log 54). -/
def execDramMigrationEnd (group : Nat) (s : State) : Ans :=
  .next (match s.itg.retiring.find? fun r => r.1 == group && r.2.2 with
    | none => s
    | some _ =>
      let d := draw s
      let mib := d.1.toNat % 91393
      let s1 := groupGone group (ctrAdd .integMigratedMiB 0 mib d.2)
      (s.itg.retiring.filter fun r => r.1 == group && r.2.2).foldl (fun t r => match r.2.1 with
        | none => t
        | some src => ok src mib 0 t) s1)

/-- PACKAGE_STOPS_RESPONDING (R398): its frames are uncorrectable from now on, and its group retires of the module's own accord. -/
def execPackageStopsResponding (package : Nat) (s : State) : Ans :=
  .next (
    if package > 31 || s.itg.deadPkgs.contains package || s.itg.retired.contains (package / 4) then s
    else
      let s1 := s.modItg fun t => { t with deadPkgs := insN package t.deadPkgs }
      if s.leaving (package / 4) then s1
      else s1.modItg fun t => { t with retiring := t.retiring ++ [(package / 4, none, false)] })

end Sys2Proof.Machine
end

