-- ==== Sys2Proof/Machine/Boot.lean ====
section
/-! DEFINITION. Supplies, resets, start-up and shutdown (16 R448, R456 to R461; 17 R473 to R478; 19 R513, R514; 20 R531). -/

namespace Sys2Proof.Machine

open Sys2Proof

/-! ### What a reset loses (Table 17-7) -/

/-- What every reset that loses the structure clears: structure and bindings, objects with no durable copy, work, streams, watch slots,
sessions and tenant keys, the download's staging, the counters but those of the system area (02 R56; 17 R479; 18 R490, R495; 21 R551). -/
def loseStructure (fenced : List Nat) (s : State) : State :=
  { s with
    str := { fenced }
    obj := { store := s.obj.store, charges := storeCharges s.obj.store, t2 := s.obj.t2, t1Alloc := s.obj.t1Alloc }
    sch := {}
    strm := []
    xfer := []
    qnt := {}
    arr := {}
    inf := {}
    idx := { upper := s.idx.upper, passes := s.idx.passes }
    mrg := {}
    scn := {}
    lan := { lpres := s.lan.lpres }
    q := { s.q with spareThreshold := 10, spareThresholdEff := 10 }
    fw := { s.fw with pieces := [], staged := [] }
    sec := { s.sec with keys := [], spdm := 0, vca := [], transcript := [], measured := [], sessions := [], opened := 0 }
    ctr := s.ctr.filter fun c => c.1 == .powerIsolations || c.1 == .powerIncompleteFlushes
    mirror := [] }

/-- Flash after a reset: operations under way have stopped, units in flight are dirty again, and what runs on resumes (12 R381; 04
R145; 16 R462). -/
def flashAfter (s : State) (f : Fls) : Fls :=
  { f with
    dirty := f.dirty ++ f.inFlight.filter fun u => !f.dirty.contains u
    inFlight := []
    dirtyExt := f.dirtyExt ++ f.wholeFlying.filter fun k => !f.dirtyExt.contains k
    reads := []
    writes := []
    cacheTarget := none
    cacheMiB := cacheFor s.bankEnergy
    dies := f.dies.map fun d => { d with busy := none, queued := [] }
    groups := f.groups.map fun g => { g with programming := [] }
    blocks := f.blocks.map fun b =>
      { b with pendingReads := 0, state := if b.state = .erasing ∨ b.state = .eraseSuspended then .stale else b.state }
    retire := f.retire.map fun r => (r.1, none, r.2.2)
    progress := f.progress.map fun p => if p.running then { p with progress := p.recorded, src := none } else p }

/-- The 12 V supply is lost: an operation under way will resume from the point recorded last, in state 4 (04 R145). -/
def progressCut (s : State) : State :=
  s.modFls fun f => { f with progress := f.progress.map fun p =>
    if p.running then { p with state := 4, progress := p.recorded, interruptions := p.interruptions + 1, src := none } else p }

/-- Fuses burned at a start at which both slots verify (18 R487, R488). -/
def burnFuses (s : State) (x : Sec) : Sec :=
  if s.slotOk 1 && s.slotOk 2 then
    let low := Nat.min ((signerSlot s.fw.slot1.image).getD 0) ((signerSlot s.fw.slot2.image).getD 0)
    let sec := Nat.min (imageSecurity s.fw.slot1.image) (imageSecurity s.fw.slot2.image)
    { x with revoked := x.revoked ||| BitVec.ofNat 4 (2 ^ low - 1), floor := Nat.max x.floor (Nat.min sec 128) }
  else x

/-- A start begins (17 R473, R475, R478): the module as it is when configuration space becomes ready, with what persists. Supply
warnings last as long as their inputs are low, and lines of conditions that last stay high (log 56). -/
def coldStart (s0 : State) : State :=
  let slot := s0.bootSlot.getD 0
  let s := loseStructure [] s0
  let causes : BitVec 4 := (if s.pwr.edgeMv < 11300 then s.pwr.causes &&& 1 else 0) ||| (if s.pwr.auxMv < 11300 then s.pwr.causes &&& 2 else 0)
  let gone := (s.itg.retiring.filter (·.2.2)).foldl (fun l r => insN r.1 l) s.itg.retired
  { s with
    tick := 0
    life := { vaux := s.life.vaux, unsafeShutdowns := s.life.unsafeShutdowns + b2n (!(s.life.normalDone || s.life.abruptDone)),
              cleanBefore := s.life.normalDone, coolWait := s.life.coolWait, flushCut := s.life.flushCut,
              flushCmds := s.life.flushCmds, flushTick := s.life.flushTick }
    fns := [{ id := 0 }]
    q := {}
    hb := {}
    reg := {}
    eff := {}
    obj := { s.obj with t1Alloc := 738600157184 - groupBytes * gone.length }
    fls := flashAfter s s.fls
    itg := { ring := s.itg.ring, seq := s.itg.seq, lost := s.itg.lost, dropped := s.itg.dropped, keys := s.itg.keys, retired := gone }
    cal := { groups := s.cal.checkpoint, checkpoint := s.cal.checkpoint, trims := s.cal.trims, trimRaised := s.cal.trimRaised,
             energy := s.cal.energy, capUF := s.cal.capUF, esr := s.cal.esr, bankUV := s.cal.bankUV }
    evt := { level := (if s.fls.readOnly then [0x005] else []) ++ (if causes = 0 then [] else [0x008, 0x00B]) ++
                      (if s.pwr.thermalEmerg then [0x00C] else []) }
    pwr := { sense := s.pwr.sense, causes, thermalEmerg := s.pwr.thermalEmerg, edgeMv := s.pwr.edgeMv, auxMv := s.pwr.auxMv,
             calmSince := if causes = 0 ∧ !s.pwr.thermalEmerg then some 0 else none, temp := s.pwr.temp }
    fw := { slot1 := s.fw.slot1, slot2 := s.fw.slot2, booted := slot, scheduler := slot, keep := slot, vane := slot,
            bands := List.replicate 25 slot }
    sec := burnFuses s0 { s.sec with ide := [], aliasDigest := (fwDigest (s.slotAt slot).image 1).getD [],
                                     aliasSecver := imageSecurity (s.slotAt slot).image } }

/-! ### Start-up (R473 to R477) -/

/-- A cluster that fails its start-up test stays fenced, with an uncorrectable entry (R474). -/
def failCluster (c : Nat) (s : State) : State :=
  if c > 799 || s.str.fenced.contains c then s
  else reportUnc { first := 0, last := 0, seq := 0, merged := 1, kind := 0, index := c, cls := 0x03, uncorrectable := true, flags := 4 }
    (s.modStr fun x => { x with fenced := insN c x.fenced })

/-- A package that fails its test retires its group, while T1 holds no data (R474; 13 R398). -/
def failPackage (p : Nat) (s : State) : State :=
  if p > 31 || s.itg.retired.contains (p / 4) then s
  else groupGone (p / 4) (s.modObj fun o => { o with t1Alloc := o.t1Alloc - groupBytes })

/-- The findings of the start-up tests. -/
def applyTests (t : BootTest) (s : State) : State :=
  t.failedPackages.foldl (fun s p => failPackage p s) (t.failedClusters.foldl (fun s c => failCluster c s) s)

/-- Start-up cannot complete (R477, Table 17-6). -/
def bootFail (code : BitVec 8) (s : State) : State :=
  s.modLife fun l => { l with phase := .failed, cfs := true, bootst := code }

/-- The compute error log entries of the commands that a flush recorded (16 R460). -/
def powerLossEntries (s : State) : State :=
  s.life.flushCmds.foldl (fun s c =>
    logCmp { tick := s.life.flushTick, sq := c.1.sq, cid := c.1.cid, opcode := c.2.1, sct := 0, sc := 0x05, dome := c.2.2, tenant := 0,
             fn := c.1.fn, seq := 0 } s) s

/-- An extent whose cached units were not saved (16 R461). -/
def loseUnits (k : ExtKey) (s : State) : State :=
  let us := if s.fls.dirtyExt.contains k then List.range 4096
    else (s.fls.dirty.filter fun u => u.1 == k.1 && u.2 / 4096 == k.2).map (·.2 % 4096)
  let e := (s.extent? k).getD { key := k, map := .fine [] }
  let die := ((s.locate k (us.headD 0)).map fun p => dieOf p.1).getD 0
  reportUnc (nandEntry die 0x0C) ((putExtent { e with lost := nubN (e.lost ++ us) } s).modFls fun x =>
    { x with dataLost := true, dirtyExt := x.dirtyExt.erase k, dirty := x.dirty.filter fun u => !(u.1 == k.1 && u.2 / 4096 == k.2) })

/-- What a flush that stopped after n items did not save (16 R461): the error log, the queue state, the map since its last checkpoint,
the dirty units, the open parity. -/
def lostByFlush (n : Nat) (s : State) : State :=
  let s1 := if n < 1 then s.modItg fun t => { t with ring := [], keys := [], seq := 0, lost := 0, dropped := false } else s
  let s2 := if n < 2 then s1.modLife fun l => { l with flushCmds := [] } else s1
  let s3 := if n < 3 then s2.modFls fun f => { f with extents := f.checkpoint } else s2
  let keys := s3.fls.dirty.foldl (fun (l : List ExtKey) u => if l.contains (u.1, u.2 / 4096) then l else l ++ [(u.1, u.2 / 4096)]) s3.fls.dirtyExt
  let s4 := if n < 4 then keys.foldl (fun s k => loseUnits k s) s3 else s3
  if n < 5 then closeBare (fun _ => true) s4 else s4

/-- What start-up restores (R475; 13 R402; 16 R460, R461): first what a stopped flush lost, then the merge keys as entries, then the
entries of the recorded commands. -/
def restore (s : State) : State :=
  let s1 := match s.life.flushCut with
    | none => s
    | some n => lostByFlush n s
  (powerLossEntries (closeWindow (if s.life.cleanBefore then s1 else reinstateParity s1))).modLife fun l => { l with flushCmds := [], flushCut := none, coolWait := false }

/-- STARTUP_COMPLETE (R473 to R477): start-up ends, waits for the die to cool, or cannot complete. -/
def execStartupComplete (t : BootTest) (s0 : State) : Ans :=
  .next (
    if s0.life.phase ≠ .starting then s0
    else
      let s := applyTests t s0
      if s.life.coolWait ∧ t.temp ≥ 760 then s.modLife fun l => { l with bootst := 0x14 }
      else if !t.calRowOk then bootFail 0x10 s
      else if s.fw.booted = 0 then bootFail 0x11 s
      else if s.itg.retired.length ≥ 8 then bootFail 0x12 s
      else if !t.mapOk then bootFail 0x13 s
      else initRdy ((restore s).modLife fun l => { l with phase := .up, bootst := 0x01 }))

/-! ### Supplies and PERST# (R448, R456, R458; 19 R513, R514; 20 R530, R531) -/

/-- PERST_ASSERT (20 R530, R531; R456, R458): command processing ends and the flush items are written from the 12 V inputs. An
assertion shorter than 1 µs is ignored. -/
def execPerstAssert (ns : Nat) (s : State) : Ans :=
  .next (
    if ns < 1000 then s
    else
      let s1 := s.modLife fun l => { l with perst := true }
      match s.life.phase with
      | .starting | .up | .failed =>
        linkDown ((if s.life.flushing.isSome then s1 else abandon s1).modLife fun l =>
          { l with phase := .held, flushing := some .perst, flushCut := none })
      | .thermalDown =>
        linkDown (s1.modLife fun l => { l with phase := .held, flushing := if l.flushing.isSome then some .perst else none })
      | _ => s1)

/-- PERST_DEASSERT (R475, R458; 20 R531): with 12 V present start-up begins, once a flush has ended; an isolated module needs both inputs
at or above 11.3 V. -/
def execPerstDeassert (t : BootTest) (s : State) : Ans :=
  .next (
    if !s.life.perst then s
    else
      let s1 := s.modLife fun l => { l with perst := false }
      match s.life.phase with
      | .held => if s.life.flushing.isSome then s1 else applyTests t (coldStart s1)
      | .isolated =>
        if s.life.flushing.isSome || s.pwr.edgeMv < 11300 || s.pwr.auxMv < 11300 then s1 else applyTests t (coldStart (bankAtPowerUp (progressCut s1)))
      | _ => s1)

/-- CONVENTIONAL_RESET (R478): a hot reset or DL_Down. -/
def execConventionalReset (t : BootTest) (s : State) : Ans :=
  .next (
    if s.powered && s.life.cfgReady then
      applyTests t (coldStart (s.modLife fun l => { l with flushCmds := [], flushing := none }))
    else s)

/-- FLUSH_END (R456, R459; R476; 12 R365; 20 R531): the flush record is written, and the parity of every open group is spilled. -/
def execFlushEnd (s : State) : Ans :=
  .next (match s.life.flushing with
    | none => s
    | some k =>
      let s1 := spillOpen (s.modLife fun l => { l with flushing := none })
      match k with
      | .isolation => domainsOff (List.range 50) s1
      | .thermal => linkDown (domainsOff (List.range 50) (s1.modLife fun l => { l with cfs := true }))
      | .perst => if s.life.perst then s1 else coldStart s1
      | .abrupt => (s1.modLife fun l => { l with abruptDone := true }).modFns fun fs =>
          fs.map fun f => if f.id = 0 then { f with shst := 2 } else f)

/-- The supplies may be changed from outside: no monitor acts first (19 R515). -/
def State.atRest (s : State) : Bool :=
  !s.life.flushing.isSome && (match s.life.phase with
    | .unpowered | .aux | .held | .isolated | .thermalDown => true
    | _ => false)

/-- AUX_POWER_PRESENT (R448): 3.3 Vaux without 12 V. -/
def execAuxPowerPresent (s : State) : Ans :=
  .next (
    if !s.atRest then s
    else modDomain 47 (fun d => { d with state := .retain, idle := 0 }) (domainsOff (List.range 50) (linkDown ((if s.life.v12 then progressCut s else s).modLife fun l =>
      { l with phase := .aux, vaux := true, v12 := false }))))

/-- POWER_REMOVED (14 R419): both supplies are gone: every domain and the always-on state go down. -/
def execPowerRemoved (s : State) : Ans :=
  .next (
    if !s.atRest then s
    else
      let s1 := domainsOff (List.range 50) (linkDown ((if s.life.v12 then progressCut s else s).modLife fun l => { l with phase := .unpowered, vaux := false, v12 := false }))
      let s2 := s1.modCal fun c => { c with trims := List.replicate 40 0, trimsNext := none, trimRaised := [] }
      let s3 := s2.modPwr fun p => { p with causes := 0, thermalEmerg := false }
      ((s3.modEvt fun _ => {}).modMgt fun _ => {}))

/-- The sense limit of Table 19-5, W. -/
def senseLimit (open0 open1 : Bool) : Nat :=
  match open0, open1 with
  | false, false => 600
  | true, false => 450
  | false, true => 300
  | true, true => 150

/-- POWER_UP_12V (19 R513, R514; R449): 12 V is present and the sense pins are read; start-up begins unless PERST# is asserted. -/
def execPowerUp12v (sense0Open sense1Open : Bool) (s : State) : Ans :=
  .next (
    if s.life.phase ≠ .unpowered ∧ s.life.phase ≠ .aux then s
    else
      let s1 := (State.modLife (bankAtPowerUp s) fun l => { l with v12 := true, phase := .held }).modPwr fun p =>
        { p with sense := senseLimit sense0Open sense1Open, edgeMv := 12000, auxMv := 12000, causes := 0, thermalEmerg := false }
      if s.life.perst then s1 else coldStart s1)

/-! ### Controller and function resets (R476, R478, R482; 04 R139; 03 R107) -/

/-- The queues of a function go, with what it has fetched and asked for; its Milris commands stop at their next task boundary (04 R139),
and its NVM commands go without completion. -/
def dropQueues (f : Nat) (s : State) : State :=
  let s1 := s.sch.cmds.foldl (fun s c =>
    if c.src.fn ≠ f then s
    else if c.src.inner then s
    else if c.inFlight || s.stepping c.src then modCmd c.src (fun x => { x with deleting := true }) s
    else dropCmd c.src s) s
  let s2 := s1.modQ fun q =>
    { q with sqs := q.sqs.filter (·.fn ≠ f), cqs := q.cqs.filter (·.fn ≠ f), fetched := q.fetched.filter (·.1 ≠ f),
             begun := q.begun.filter (·.1.fn ≠ f), aerHeld := q.aerHeld.filter (·.fn ≠ f), aerEvents := q.aerEvents.filter (·.1 ≠ f),
             aerMasked := q.aerMasked.filter (·.1 ≠ f) }
  ((dropReads (fun r => r.src.fn == f) s2).modFls fun x => { x with writes := x.writes.filter (·.n.src.fn ≠ f) }).modHb fun h =>
    { h with held := h.held.filter (·.src.fn ≠ f), parked := h.parked.filter (·.src.fn ≠ f) }

/-- The features that a reset of the controller sets back: all but the timestamp (log 7). -/
def resetFeatures (f : Nat) (s : State) : State :=
  modFn f (fun x => { x with feat := { timestamp := x.feat.timestamp, timestampSet := x.feat.timestampSet, timestampTick := x.feat.timestampTick } }) s

/-- The charges of a function's parked answers are given back. -/
def unparkFn (f : Nat) (s : State) : State :=
  (s.hb.parked.filter (·.src.fn == f)).foldl (fun s p => uncharge (.parked p.src) s) s

/-- A controller of one function stops: CC is written, CSTS.RDY and CSTS.SHST clear, its queues go. -/
def stopController (f : Nat) (cc : DWord) (s : State) : State :=
  resetFeatures f (modFn f (fun x => { x with cc, rdy := false, shst := 0 }) (dropQueues f (unparkFn f s)))

/-- FUNCTION_LEVEL_RESET (R478; 15 R437): the function's configuration and controller; that of the physical function takes the virtual
functions with it. -/
def execFunctionLevelReset (fn : Nat) (s : State) : Ans :=
  .next (
    if !s.life.cfgReady || !((s.fn? fn).any (·.enabled)) then s
    else if fn = 0 then
      let ids := s.fns.map (·.id)
      (ids.foldl (fun s f => stopController f 0 s) s).modFns fun _ => [{ id := 0 }]
    else modFn fn (fun x => { id := x.id, enabled := true, queues := x.queues, vectors := x.vectors, online := x.online }) (stopController fn 0 s))

/-- D_STATE_TRANSITION (15 R434, R437): nothing in the event block changes; a function back in D0 sends its held messages. -/
def execDStateTransition (fn d : Nat) (s : State) : Ans :=
  .next (
    if d > 3 || !s.life.cfgReady then s
    else flushPba fn (modFn fn (fun x => { x with dstate := d }) s))

/-- The write of a CC value: a dword at BAR0 offset 0x14 (22 R555), and the value before. Its reserved bits [3:1] and [31:25] stay 0 (00
R12; the places are NVM Express's, log 14). -/
def ccWrite (w : RegWrite) (s : State) : Option (DWord × DWord) :=
  if w.bar = 0 ∧ w.offset = 0x14 ∧ w.size = 4 ∧ s.life.cfgReady then
    match s.fn? w.fn with
    | some f => if f.enabled && f.memSpace then some (f.cc, w.value.setWidth 32 &&& 0x01FFFFF1#32) else none
    | none => none
  else none

/-- CC.SHN. -/
def shn (cc : DWord) : Nat := bits cc.toNat 15 14

/-- The admin queues that AQA, ASQ and ACQ give (22 R555). -/
def adminQueues (f : Func) (s : State) : State :=
  s.modQ fun q =>
    { q with sqs := { id := 0, fn := f.id, size := bits f.aqa.toNat 11 0 + 1, cq := 0, base := f.asq.toNat } :: q.sqs.filter (fun x => !(x.fn == f.id && x.id == 0)),
             cqs := { id := 0, fn := f.id, size := bits f.aqa.toNat 27 16 + 1, ien := true, base := f.acq.toNat } ::
                    q.cqs.filter (fun x => !(x.fn == f.id && x.id == 0)) }

/-- CONTROLLER_ENABLE (R475): CC.EN goes from 0 to 1. -/
def execControllerEnable (w : RegWrite) (s : State) : Ans :=
  .next (match ccWrite w s, s.fn? w.fn with
    | some (old, new), some f =>
      if old.getLsbD 0 || !new.getLsbD 0 || (w.fn != 0 && !f.online) then s
      else
        let s1 := adminQueues f (modFn w.fn (fun x => { x with cc := new }) s)
        initRdy (if w.fn = 0 then s1.modLife fun l => { l with normalDone := false, abruptDone := false } else s1)
    | _, _ => s)

/-- The controller reset after a scheduler-core trap (R478; 13 R392): the Keep reloads the scheduler image; the structure is lost, the
fences stay. -/
def trapReset (s : State) : State := domainsOff [49] ((loseStructure s.str.fenced s).modLife fun l => { l with cfs := false })

/-- A pending activation at a controller reset (R482): the slot that start-up would choose is not the booted one, and its image may be
activated live. -/
def activatePending (s : State) : State :=
  if s.fw.pendingNext && !s.flashBusy then
    match s.bootSlot with
    | some n => if n ≠ s.fw.booted ∧ s.liveOk (s.slotAt n).image then beginActivation n none s else s
    | none => s
  else s

/-- CONTROLLER_RESET (R478, R482; 03 R107; 04 R139): CC.EN goes from 1 to 0. R107 names no function: in quiesce the physical function's reset
acts as the discard, and a virtual function's stops its own controller alone (DESIGN CHOICE, log 98). -/
def execControllerReset (w : RegWrite) (us : Nat) (s : State) : Ans :=
  .next (match ccWrite w s with
    | some (old, new) =>
      if !old.getLsbD 0 || new.getLsbD 0 then s
      else if w.fn ≠ 0 then stopController w.fn new s
      else
        let s1 := if s.life.cfs && s.life.phase == .up then trapReset s else s
        let s2 := if s1.hb.quiesced then
            endQuiesce us ((deleteIoQueues (dropWork s1)).modHb fun h => { h with epoch := nextEpoch h.epoch })
          else s1
        activatePending (stopController 0 new s2)
    | none => s)

/-- A normal shutdown completes (R476): the cache is destaged; the map checkpoint and the read-level offsets are written. -/
def shutdownDone (s : State) : State :=
  if !((s.fn? 0).any fun f => f.shst == 1 && shn f.cc == 1) || s.cacheUsed != 0 then s
  else (modFn 0 (fun f => { f with shst := 2 }) ((s.modFls fun f => { f with checkpoint := f.extents }).modCal fun c =>
    { c with checkpoint := c.groups, checkpointTick := s.tick.toNat })).modLife fun l => { l with normalDone := true }

/-- NORMAL_SHUTDOWN (R476): CC.SHN is 01b. It completes when the write cache has been destaged. -/
def execNormalShutdown (w : RegWrite) (s : State) : Ans :=
  .next (match ccWrite w s with
    | some (old, new) =>
      if shn new ≠ 1 || shn old == 1 || new.getLsbD 0 != old.getLsbD 0 then s
      else
        let s1 := modFn w.fn (fun f => { f with cc := new, shst := if w.fn = 0 then 1 else 2 }) s
        if w.fn = 0 then shutdownDone s1 else s1
    | none => s)

/-- ABRUPT_SHUTDOWN (R476): CC.SHN is 10b. The flush items are written from the 12 V inputs. -/
def execAbruptShutdown (w : RegWrite) (s : State) : Ans :=
  .next (match ccWrite w s with
    | some (old, new) =>
      if shn new ≠ 2 || shn old == 2 || new.getLsbD 0 != old.getLsbD 0 then s
      else
        let s1 := modFn w.fn (fun f => { f with cc := new, shst := if w.fn = 0 then 1 else 2 }) s
        if w.fn = 0 ∧ s.life.flushing.isNone then s1.modLife fun l =>
          { l with flushing := some .abrupt, flushCut := none, flushCmds := s.outstanding, flushTick := s.tick.toNat }
        else s1
    | none => s)

end Sys2Proof.Machine
end

