-- ==== Sys2Proof/Machine/Logs.lean ====
section
/-! DEFINITION. The log pages (04 R140 to R142; 12 R373; 13 R399; 17 R483; 20 R533). The layouts of the standard pages are those of NVM
Express (log 14). -/

namespace Sys2Proof.Machine

open Sys2Proof

/-- Factory spares (12 Table 12-2). -/
def factorySpares : Nat := 696512

/-- Spares remaining as a percentage of the factory spares, rounded down (12 R372, R373). -/
def State.sparePercent (s : State) : Nat := s.fls.spares * 100 / factorySpares

/-- QLC blocks in service: the FREE ones and those with a record in another state but BAD and RETIRED. -/
def State.inService (s : State) : Nat :=
  s.fls.free + (s.fls.blocks.filter fun b => b.state != .free && b.state != .bad && b.state != .retired).length

/-- Percentage Used (12 R373). -/
def State.percentUsed (s : State) : Nat := sat 255 (s.fls.peCycles * 100 / (1500 * Nat.max 1 s.inService))

/-- The composite temperature: the highest trimmed reading, to the nearest kelvin (20 R533). -/
def State.kelvin (s : State) : Nat := ((s.pwr.temp * 100 + 218520 + 400) / 800).toNat

/-- Critical Warning of a function (12 R373; bit 1 is the Temperature Threshold feature's, log 14). -/
def State.critical (s : State) (f : Nat) : Nat :=
  let t := ((s.fn? f).map (·.feat)).getD {}
  b2n (s.sparePercent < s.q.spareThresholdEff) + 2 * b2n (s.kelvin ≥ t.tempOver || s.kelvin ≤ t.tempUnder) + 4 * b2n s.fls.dataLost +
    8 * b2n s.fls.readOnly

/-- n free 16-byte fields (log 58). -/
def freeFields : Nat → State → List Byte × State
  | 0, s => ([], s)
  | n + 1, s =>
    let d := draw s
    let r := freeFields n d.2
    (toLE 16 d.1.toNat ++ r.1, r.2)

/-- Log page 0x02. The fields that the spec does not give (data units, commands, busy time, power cycles and hours, the times above the
temperature thresholds) are free values (log 58). -/
def smartPage (f : Nat) (s : State) : List Byte × State :=
  let a := freeFields 7 s
  let b := draw a.2
  (padTo (toLE 1 (s.critical f) ++ toLE 2 s.kelvin ++ toLE 1 s.sparePercent ++ toLE 1 s.q.spareThreshold ++ toLE 1 s.percentUsed ++
    List.replicate 26 0 ++ a.1 ++ toLE 16 s.life.unsafeShutdowns ++ toLE 16 s.fls.mediaErrors ++ toLE 16 0 ++ toLE 8 b.1.toNat) 512, b.2)

/-- The revision of a slot, 8 bytes; 0 for a slot with no record. -/
def State.revision (s : State) (n : Nat) : List Byte := padTo (((s.record n).map (·.revision)).getD []) 8

/-- Log page 0x03 (17 R482, R483): the active slot, the slot of the next reset where a commit has chosen one, and the revisions. -/
def slotPage (s : State) : List Byte :=
  let next := if s.fw.pendingNext then s.bootSlot.getD 0 else 0
  padTo (toLE 1 (s.running_ + 16 * next) ++ List.replicate 7 0 ++ s.revision 1 ++ s.revision 2) 512

/-- A device error log entry (13 Table 13-5). -/
def devEntryBytes (e : DevEntry) : List Byte :=
  toLE 8 e.first ++ toLE 8 e.last ++ toLE 4 e.seq ++ toLE 4 (sat 0xFFFFFFFF e.merged) ++ toLE 2 (e.index % 4096 + 4096 * e.kind) ++
    toLE 1 (e.cls % 128 + 128 * b2n e.uncorrectable) ++ toLE 1 e.flags ++ toLE 4 0 ++ toLE 8 e.address ++
    toLE 4 (e.syndrome % 65536 + 65536 * (e.symbols % 256) + 16777216 * (e.erasures % 256)) ++ toLE 2 e.dome ++ toLE 2 e.fn ++
    toLE 4 e.linked ++ List.replicate 12 0

/-- Log page 0xC0 (13 R399, Table 13-4). -/
def devPage (s : State) : List Byte :=
  padTo (toLE 4 s.itg.seq.toNat ++ toLE 2 s.itg.ring.length ++ toLE 2 (s.itg.ring.filter (·.uncorrectable)).length ++ toLE 4 s.itg.lost ++
    List.replicate 52 0 ++ s.itg.ring.flatMap devEntryBytes) 16448

/-- A compute error log entry (04 Table 4-11). -/
def cmpEntryBytes (e : CmpEntry) : List Byte :=
  toLE 8 e.tick ++ toLE 2 e.sq ++ toLE 2 e.cid ++ toLE 1 e.opcode ++ [0] ++ toLE 2 (e.sc % 256 + 256 * (e.sct % 8)) ++ toLE 2 e.dome ++
    toLE 2 e.tenant ++ toLE 2 e.cluster ++ toLE 2 e.fn ++ toLE 4 e.task ++ toLE 4 e.detail ++ toLE 8 e.object ++
    padTo (e.cursor.flatMap (toLE 4 ·)) 20 ++ toLE 4 e.seq

/-- Log page 0xC1 of a function (04 R141, Table 4-10). -/
def cmpPage (f : Nat) (s : State) : List Byte :=
  let l := s.cmpLog f
  padTo (toLE 4 l.seq.toNat ++ toLE 2 l.entries.length ++ [0, 0] ++ toLE 4 l.overwritten ++ List.replicate 52 0 ++
    l.entries.flatMap cmpEntryBytes) 16448

/-- Log page 0xC2 of a function (04 R142, Table 4-12): the time remaining is unknown while an operation runs. -/
def progressPage (f : Nat) (s : State) : List Byte :=
  match s.fls.progress.find? (·.fn == f) with
  | none => List.replicate 64 0
  | some p =>
    padTo (toLE 1 p.op ++ toLE 1 p.state ++ toLE 2 p.progress ++ toLE 4 p.nsid ++ toLE 2 (sat 65535 p.interruptions) ++ [0, 0] ++
      toLE 4 (if p.state = 1 ∨ p.state = 4 then 0xFFFFFFFF else 0) ++ toLE 2 p.status) 64

/-- Log page 0xC4 (04 R142, Table 4-13). -/
def healthPage (s : State) : List Byte :=
  padTo (toLE 4 s.itg.t0Lap ++ toLE 4 s.itg.t1Lap ++ toLE 4 s.cal.energy ++ toLE 4 s.fls.cacheMiB ++ toLE 4 s.fls.spares ++
    toLE 1 s.sparePercent ++ toLE 1 (b2n s.fls.readOnly) ++ toLE 2 s.str.fenced.length ++ toLE 1 s.itg.retired.length ++ [0] ++
    toLE 2 (s.fls.dies.filter (·.retired)).length ++ toLE 4 s.fls.grownBad) 64

/-- Read a log page from an offset: its contents there, and the state after the read; none for a page that the function does not have.
Page 0xC3 is a snapshot, taken at offset 0 (14 R424). A virtual function has no page of the physical function's: it gets Invalid Log
Page, which R140 leaves open (DESIGN CHOICE, log 95). The error information page holds no entry (log 58). -/
def logPage (id f off : Nat) (s : State) : Option (List Byte × State) :=
  if id = 0x01 then some (List.replicate 64 0, s)
  else if id = 0x02 then some (smartPage f s)
  else if id = 0x03 then some (slotPage s, s)
  else if id = 0xC0 ∧ f = 0 then some (devPage s, s)
  else if id = 0xC1 then some (cmpPage f s, s)
  else if id = 0xC2 then some (progressPage f s, s)
  else if id = 0xC3 ∧ f = 0 then
    let p := if off = 0 then calPage s else s.cal.snapshot
    some (p, s.modCal fun c => { c with snapshot := p })
  else if id = 0xC4 then some (healthPage s, s)
  else none

/-- The ring and the lost-report count are cleared; the sequence numbers go on (13 R399, R401). -/
def clearRing (s : State) : State := s.modItg fun t => { t with ring := [], lost := 0, dropped := false }

/-- The type of asynchronous event whose mask a read of a log page lifts (04 R141; log 14). -/
def eventOfPage (id : Nat) : Option Nat :=
  match id with
  | 0x01 => some 0 | 0x02 => some 1 | 0x03 => some 2 | 0xC0 => some 7 | 0xC1 => some 7 | _ => none

/-- A log page has been read without Retain Asynchronous Event: its event type is masked no longer. -/
def unmaskEvents (f id : Nat) (s : State) : State :=
  match eventOfPage id with
  | none => s
  | some ty => aenPump (s.modQ fun q => { q with aerMasked := q.aerMasked.filter (· ≠ (f, ty)) })

/-- Bytes of a page from an offset, as many as are asked for; beyond its size 0 (04 R140). -/
def logBytes (p : List Byte) (off n : Nat) : List Byte := padTo (p.drop off) n

end Sys2Proof.Machine
end

