-- ==== Sys2Proof/Machine/Namespaces.lean ====
section
/-! DEFINITION. Namespace Management and Attachment, Format NVM and Sanitize (04 R111, R113, R142 to R145; 12 R355; 18 R494, R499). The
status numbers and the layouts of the NVM Express specifications are log 14. -/

namespace Sys2Proof.Machine

open Sys2Proof

namespace St
/-- Invalid Format: Status Code Type 1, 0x0A (log 14). -/
def invalidFormat : Fail := { sct := 1, sc := 0x0A }
/-- Namespace Insufficient Capacity: Status Code Type 1, 0x15 (log 14). -/
def insufficientCapacity : Fail := { sct := 1, sc := 0x15 }
/-- Namespace Identifier Unavailable: Status Code Type 1, 0x16 (log 14). -/
def idUnavailable : Fail := { sct := 1, sc := 0x16 }
/-- Namespace Already Attached: Status Code Type 1, 0x18 (log 14). -/
def alreadyAttached : Fail := { sct := 1, sc := 0x18 }
/-- Namespace Not Attached: Status Code Type 1, 0x1A (log 14). -/
def notAttached : Fail := { sct := 1, sc := 0x1A }
/-- Controller List Invalid: Status Code Type 1, 0x1C (log 14). -/
def controllerList : Fail := { sct := 1, sc := 0x1C }
end St

/-- Extents that a size in blocks takes (R355). -/
def extentsFor (size fmt : Nat) : Nat := ceilDiv (size * (if fmt = 0 then 4096 else 512)) 16777216

/-- Extents of the block namespaces. -/
def State.nsExtents (s : State) : Nat := sumN (s.fls.nss.map fun n => extentsFor n.size n.fmt)

/-- Extents of the partitions' object-store quotas (R113). -/
def State.quotaExtents (s : State) : Nat :=
  sumN ((s.str.domes.filter (·.parent == 0)).map fun d => (s.quota d.id 3).getD 0) / 16777216

/-- Namespace identifiers that are free. -/
def State.freeNsid (s : State) : Option Nat := ((List.range 256).map (· + 1)).find? fun n => (s.ns? n).isNone

/-- A format or sanitize in progress stops a command that changes namespaces (R145). -/
def nsBlocked (s : State) : Option Fail := if s.sanitizing then some St.sanitizeBusy else none

/-- NAMESPACE_CREATE (R111, R113; 12 R355; 18 R494): the lowest free NSID, its extents UNMAPPED, a new key. -/
def execNamespaceCreate (a : Admin) (s : State) : Ans :=
  if bits a.cdw10.toNat 3 0 = 1 then .next s
  else runAdmin 0x0D a.src false (fun s =>
    orFail (nsBlocked s) fun _ =>
      let size := le a.input 0 8
      let fmt := bits (le a.input 26 1) 3 0
      if bits a.cdw10.toNat 3 0 ≠ 0 then .error St.invalidField
      else if a.nsid.toNat = 257 then .error St.invalidNamespace
      else if size = 0 then .error St.invalidField
      else if fmt > 1 then .error St.invalidFormat
      else if extentsFor size fmt + s.nsExtents + s.quotaExtents > 14305114 then .error St.insufficientCapacity
      else match s.freeNsid with
        | none => .error St.idUnavailable
        | some n =>
          let k := s.sec.nsKeys + 1
          .ok (ok a.src n 0 ((s.modSec fun x => { x with nsKeys := k }).modFls fun x =>
            { x with nss := x.nss ++ [{ nsid := n, size, fmt, key := k }] }))) s

/-- A namespace goes with its data, its place in the cache and its extents. -/
def dropNs (n : Nat) (s : State) : State := dropSpace n (s.modFls fun x => { x with nss := x.nss.filter (·.nsid ≠ n) })

/-- NAMESPACE_DELETE (R111; 12 R355): one namespace, or all with NSID 0xFFFF_FFFF. -/
def execNamespaceDelete (a : Admin) (s : State) : Ans :=
  if bits a.cdw10.toNat 3 0 ≠ 1 then .next s
  else runAdmin 0x0D a.src false (fun s =>
    orFail (nsBlocked s) fun _ =>
      if a.nsid.toNat = 0xFFFFFFFF ∧ s.fls.nss.any (·.busy) then .error St.formatBusy
      else if a.nsid.toNat = 0xFFFFFFFF then .ok (ok a.src 0 0 (s.fls.nss.foldl (fun s n => dropNs n.nsid s) s))
      else match s.ns? a.nsid.toNat with
        | none => .error St.invalidNamespace
        | some n => if n.busy then .error St.formatBusy else .ok (ok a.src 0 0 (pumpWrites (dropNs n.nsid s)))) s

/-- NAMESPACE_ATTACHMENT (R111): the controllers of the list attach or detach; a controller's identifier is its function's number
(log 52). -/
def execNamespaceAttachment (a : Admin) (s : State) : Ans :=
  runAdmin 0x15 a.src false (fun s =>
    orFail (nsBlocked s) fun _ =>
      let sel := bits a.cdw10.toNat 3 0
      let cs := (List.range (le a.input 0 2)).map fun i => le a.input (2 + 2 * i) 2
      match s.ns? a.nsid.toNat with
      | none => .error St.invalidNamespace
      | some n =>
        if sel > 1 then .error St.invalidField
        else if n.busy then .error St.formatBusy
        else if cs.isEmpty ∨ cs.any (fun c => (s.fn? c).isNone) then .error St.controllerList
        else if sel = 0 ∧ cs.any n.attached.contains then .error St.alreadyAttached
        else if sel = 1 ∧ cs.any (fun c => !n.attached.contains c) then .error St.notAttached
        else .ok (ok a.src 0 0 (modNs n.nsid (fun x =>
          { x with attached := if sel = 0 then x.attached ++ cs else x.attached.filter fun c => !cs.contains c }) s))) s

/-! ### Format NVM and Sanitize -/

/-- A function's progress record (R142). -/
def State.progressOf (s : State) (fn : Nat) : Option Progress := s.fls.progress.find? (·.fn == fn)

/-- Put a function's progress record. -/
def putProgress (p : Progress) (s : State) : State := s.modFls fun x => { x with progress := p :: x.progress.filter (·.fn ≠ p.fn) }

/-- The namespaces that an NSID names: one, or all. -/
def State.nsNamed (s : State) (nsid : Nat) : List Ns := s.fls.nss.filter fun n => nsid == 0xFFFFFFFF || n.nsid == nsid

/-- FORMAT_NVM (R111, R143, R145): the namespaces are busy until it ends. -/
def execFormatNvm (a : Admin) (s : State) : Ans :=
  runAdmin 0x80 a.src false (fun s =>
    orFail (nsBlocked s) fun _ =>
      let ses := bits a.cdw10.toNat 11 9
      let ns := s.nsNamed a.nsid.toNat
      if a.nsid.toNat ≠ 0xFFFFFFFF ∧ ns.isEmpty then .error St.invalidNamespace
      else if ses > 2 then .error St.invalidField
      else if bits a.cdw10.toNat 3 0 > 1 ∨ bits a.cdw10.toNat 8 4 ≠ 0 then .error St.invalidFormat
      else if ns.any (·.busy) ∨ (s.progressOf a.src.fn).any Progress.running then .error St.formatBusy
      else .ok (putProgress { fn := a.src.fn, op := ses + 1, state := 1, nsid := a.nsid.toNat, src := some a.src, lbaf := bits a.cdw10.toNat 3 0 }
        (ns.foldl (fun s n => modNs n.nsid (fun x => { x with busy := true }) s) s))) s

/-- Sanitize begins (R144): only with no Milris command outstanding; it completes at once and runs on. -/
def beginSanitize (a : Admin) (op : Nat) (s : State) : Except Fail State :=
  if s.sanitizing then .error St.sanitizeBusy
  else if s.fls.progress.any Progress.running then .error St.formatBusy
  else if !s.hostCmds.isEmpty then .error St.structureBusy
  else .ok (ok a.src 0 0 (putProgress { fn := a.src.fn, op, state := 1, nsid := 0xFFFFFFFF } s))

/-- The sanitize action, CDW10 [2:0]: 2 is Block Erase and 4 Crypto Erase (PRESUMED: NVM Express; log 14). -/
def sanact (a : Admin) : Nat := bits a.cdw10.toNat 2 0

/-- SANITIZE_BLOCK_ERASE (R109, R144). An action that the module does not support is refused here. -/
def execSanitizeBlockErase (a : Admin) (s : State) : Ans :=
  if sanact a = 4 then .next s
  else runAdmin 0x84 a.src false (fun s => if sanact a ≠ 2 then .error St.invalidField else beginSanitize a 4 s) s

/-- SANITIZE_CRYPTO_ERASE (R144; 18 R499). -/
def execSanitizeCryptoErase (a : Admin) (s : State) : Ans :=
  if sanact a ≠ 4 then .next s
  else runAdmin 0x84 a.src false (fun s => beginSanitize a 5 s) s

/-- A namespace's data and extents are erased: it reads as zeros. -/
def eraseNs (n : Nat) (s : State) : State := dropSpace n (modNs n (fun x => { x with data := [] }) s)

/-- A new key for a namespace (18 R494, R499). -/
def rekeyNs (n : Nat) (s : State) : State :=
  let k := s.sec.nsKeys + 1
  modNs n (fun x => { x with key := k }) (s.modSec fun x => { x with nsKeys := k })

/-- Sanitize has erased the block namespaces and the object store, with the images of BACKED objects (R144); the domes remain. -/
def sanitizeAll (s : State) : State :=
  let s1 := s.fls.nss.foldl (fun s n => eraseNs n.nsid s) s
  let s2 := (s1.obj.list.filter (·.flag 5)).foldl (fun s o => destroy o.id (dropObject o.id s)) s1
  let s3 := s2.obj.store.foldl (fun s d => dropSpace (objSpace d.id) s) s2
  s3.modObj fun o => { o with store := [], charges := o.charges.filter (·.tier != 3) }

/-- Crypto Erase replaces the media key and every namespace key, and unloads every tenant key (18 R499). -/
def newKeys (s : State) : State :=
  (s.fls.nss.foldl (fun s n => rekeyNs n.nsid s) s).modSec fun x => { x with mediaGen := x.mediaGen + 1, keys := [] }

/-- A format has ended with success: data, extents, key and format of its namespaces (R143; 18 R494). The bytes of a namespace stay as
many when its block size changes. -/
def endFormat (p : Progress) (s : State) : State :=
  (s.nsNamed p.nsid).foldl (fun s n =>
    let s1 := eraseNs n.nsid s
    let s2 := if p.op = 3 then rekeyNs n.nsid s1 else s1
    modNs n.nsid (fun x => { x with busy := false, fmt := p.lbaf, size := x.size * x.blockBytes / (if p.lbaf = 0 then 4096 else 512) }) s2) s

/-- FORMAT_SANITIZE_END (R142 to R145): the operation of a function ends, with its final status; a format completes. -/
def execFormatSanitizeEnd (fn : Nat) (ok_ : Bool) (s : State) : Ans :=
  .next (match s.progressOf fn with
    | none => s
    | some p =>
      if !p.running then s
      else
        let code := if ok_ then 0 else if p.op ≤ 3 then 0x06 else 0x1C
        let s1 := if !ok_ then (if p.op ≤ 3 then (s.nsNamed p.nsid).foldl (fun s n => modNs n.nsid (fun x => { x with busy := false }) s) s else s)
          else if p.op ≤ 3 then endFormat p s
          else if p.op = 4 then sanitizeAll s else newKeys (sanitizeAll s)
        let s2 := putProgress { p with state := if ok_ then 2 else 3, progress := if ok_ then 65535 else p.progress, status := code, src := none } s1
        match p.src with
        | some a => post { src := a, sct := 0, sc := code } s2
        | none => s2)

end Sys2Proof.Machine
end

