-- ==== Sys2Proof/Machine/Admin.lean ====
section
/-! DEFINITION. The NVMe admin commands: queues, Get Log Page, Identify, Abort, the features, Asynchronous Event Request and
Virtualization Management (04 R109 to R119, R138 to R142). Layouts and status numbers of NVM Express are log 14. -/

namespace Sys2Proof.Machine

open Sys2Proof

namespace St
/-- Completion Queue Invalid. -/
def cqInvalid : Fail := { sct := 1, sc := 0x00 }
/-- Invalid Queue Identifier. -/
def queueId : Fail := { sct := 1, sc := 0x01 }
/-- Invalid Queue Size. -/
def queueSize : Fail := { sct := 1, sc := 0x02 }
/-- Invalid Interrupt Vector. -/
def vectorInvalid : Fail := { sct := 1, sc := 0x08 }
/-- Invalid Log Page. -/
def logPageInvalid : Fail := { sct := 1, sc := 0x09 }
/-- Invalid Queue Deletion. -/
def queueDeletion : Fail := { sct := 1, sc := 0x0C }
/-- Feature Identifier Not Saveable. -/
def notSaveable : Fail := { sct := 1, sc := 0x0D }
/-- Invalid Controller Identifier. -/
def controllerId : Fail := { sct := 1, sc := 0x1F }
/-- Invalid Secondary Controller State. -/
def secondaryState : Fail := { sct := 1, sc := 0x20 }
/-- Invalid Number of Controller Resources. -/
def resourceCount : Fail := { sct := 1, sc := 0x21 }
/-- Invalid Resource Identifier. -/
def resourceId : Fail := { sct := 1, sc := 0x22 }
/-- I/O Command Set Combination Rejected. -/
def combination : Fail := { sct := 1, sc := 0x2B }
/-- Command Abort Requested. -/
def aborted : Fail := { sct := 0, sc := 0x07 }
end St

/-! ### Queues (R114, R139) -/

/-- The queue pairs assigned to the virtual functions. -/
def State.vfQueues (s : State) : Nat := sumN ((s.fns.filter (·.id != 0)).map (·.queues))

/-- The I/O queue pairs that a function may have (R114): those assigned to a virtual function; on the physical function its own number,
or what the virtual functions leave of 1,023. -/
def State.queueLimit (s : State) (f : Func) : Nat :=
  if f.id ≠ 0 then Nat.min 64 f.queues
  else if f.queues = 0 then 1023 - s.vfQueues else Nat.min f.queues (1023 - s.vfQueues)

/-- A queue identifier that a function may use, for submission queues (or completion queues): within its limit and within what Number of
Queues granted. -/
def State.queueIdOk (s : State) (fn id : Nat) (sub : Bool) : Bool :=
  match s.fn? fn with
  | none => false
  | some f =>
    let n := f.feat.numQueues.toNat
    let here := if sub then (s.q.sqs.filter fun q => q.fn == fn && q.id != 0).length else (s.q.cqs.filter fun q => q.fn == fn && q.id != 0).length
    1 ≤ id && id ≤ s.queueLimit f && here < s.queueLimit f && id ≤ (if sub then bits n 15 0 else bits n 31 16) + 1

/-- CREATE_IO_COMPLETION_QUEUE (R109, R114). -/
def execCreateIoCompletionQueue (a : Admin) (s : State) : Ans :=
  runAdmin 0x05 a.src false (fun s =>
    let id := bits a.cdw10.toNat 15 0
    let size := bits a.cdw10.toNat 31 16 + 1
    let vector := bits a.cdw11.toNat 31 16
    let ien := bit a.cdw11.toNat 1
    if !s.queueIdOk a.src.fn id false || (s.cq? a.src.fn id).isSome then .error St.queueId
    else if size < 2 then .error St.queueSize
    else if !bit a.cdw11.toNat 0 then .error St.invalidField
    else if ien && vector ≥ (if a.src.fn = 0 then 2048 else 64) then .error St.vectorInvalid
    else .ok (ok a.src 0 0 (s.modQ fun q =>
      { q with cqs := q.cqs ++ [{ id, fn := a.src.fn, size, vector, ien, base := a.dptr.toNat }] }))) s

/-- CREATE_IO_SUBMISSION_QUEUE (R109, R114). -/
def execCreateIoSubmissionQueue (a : Admin) (s : State) : Ans :=
  runAdmin 0x01 a.src false (fun s =>
    let id := bits a.cdw10.toNat 15 0
    let size := bits a.cdw10.toNat 31 16 + 1
    let cq := bits a.cdw11.toNat 31 16
    if !s.queueIdOk a.src.fn id true || (s.sq? a.src.fn id).isSome then .error St.queueId
    else if cq = 0 || (s.cq? a.src.fn cq).isNone then .error St.cqInvalid
    else if size < 2 then .error St.queueSize
    else if !bit a.cdw11.toNat 0 then .error St.invalidField
    else .ok (ok a.src 0 0 (s.modQ fun q =>
      { q with sqs := q.sqs ++ [{ id, fn := a.src.fn, size, cq, base := a.dptr.toNat }] }))) s

/-- DELETE_IO_COMPLETION_QUEUE (R109): not while a submission queue uses it. -/
def execDeleteIoCompletionQueue (a : Admin) (s : State) : Ans :=
  runAdmin 0x04 a.src false (fun s =>
    let f := a.src.fn
    let id := bits a.cdw10.toNat 15 0
    if id = 0 || (s.cq? f id).isNone then .error St.queueId
    else if s.q.sqs.any fun q => q.fn == f && q.cq == id && q.id != 0 then .error St.queueDeletion
    else .ok (ok a.src 0 0 (s.modQ fun q => { q with cqs := q.cqs.filter fun c => !(c.fn == f && c.id == id) }))) s

/-- The NVM commands of a queue that still wait are aborted with it (R139; log 14). -/
def abortNvm (f q : Nat) (s : State) : State :=
  let here (x : Src) : Bool := x.fn == f && x.sq == q
  let srcs := (s.fls.reads.filter fun r => here r.src).map (·.src) ++ (s.fls.writes.filter fun w => here w.n.src).map (·.n.src)
  srcs.foldl (fun s x => refuse x St.sqDeleted s)
    ((dropReads (fun r => here r.src) s).modFls fun x => { x with writes := x.writes.filter fun w => !here w.n.src })

/-- DELETE_IO_SUBMISSION_QUEUE (R139): its Milris commands stop at their next task boundary, and it completes after the last. -/
def execDeleteIoSubmissionQueue (a : Admin) (s : State) : Ans :=
  runAdmin 0x00 a.src false (fun s =>
    let f := a.src.fn
    let id := bits a.cdw10.toNat 15 0
    if id = 0 || !(s.sq? f id).any (·.deleting.isNone) then .error St.queueId
    else
      let s1 := abortNvm f id (modSq f id (fun q => { q with deleting := some a.src }) s)
      let mine := (s.sch.cmds.filter fun c => c.src.fn == f && c.src.sq == id).map (·.src)
      let s2 := mine.foldl (fun s x => modCmd x (fun c => { c with deleting := true }) s) s1
      .ok (deleteCheck f id (mine.foldl (fun s x => settle x s) s2))) s

/-- ABORT (R138): an NVM command that has not begun its media access, one that waits for cache space, is aborted; nothing else is. -/
def execAbort (a : Admin) (s : State) : Ans :=
  runAdmin 0x08 a.src false (fun s =>
    let x : Src := { fn := a.src.fn, sq := bits a.cdw10.toNat 15 0, cid := bits a.cdw10.toNat 31 16 }
    if s.fls.writes.any fun w => w.n.src == x && !w.programmed then
      .ok (ok a.src 0 0 (refuse x St.aborted (s.modFls fun f => { f with writes := f.writes.filter fun w => w.n.src != x })))
    else if s.fls.reads.any fun r => r.src == x && !r.begun && r.waits.all s.stillQueued then
      .ok (ok a.src 0 0 (refuse x St.aborted (dropReads (fun r => r.src == x) s)))
    else .ok (ok a.src 1 0 s)) s

/-! ### Get Log Page (R140, R141; 13 R399) -/

/-- GET_LOG_PAGE (R140; 03 R102): any dword-aligned offset and length; page 0xC0 is cleared when bit 0 of the Log Specific Parameter is
set. -/
def execGetLogPage (a : Admin) (s : State) : Ans :=
  runAdmin 0x02 a.src true (fun s =>
    let id := bits a.cdw10.toNat 7 0
    let n := 4 * (bits a.cdw10.toNat 31 16 + 65536 * bits a.cdw11.toNat 15 0 + 1)
    let off := a.cdw12.toNat + 2 ^ 32 * a.cdw13.toNat
    if off % 4 ≠ 0 then .error St.invalidField
    else match logPage id a.src.fn off s with
      | none => .error St.logPageInvalid
      | some (p, s1) =>
        let s2 := writeT2 a.dptr.toNat (logBytes p off n) s1
        let s3 := if id = 0xC0 ∧ bit a.cdw10.toNat 8 then clearRing s2 else s2
        .ok (ok a.src 0 0 (if bit a.cdw10.toNat 15 then s3 else unmaskEvents a.src.fn id s3))) s

/-! ### Identify (R109, R111, R112) -/

/-- A structure of 4,096 bytes with fields at their offsets; the other bytes are the module's (log 59). -/
def identifyFree (cns : Nat) (reserved : List (Nat × Nat)) (fields : List (Nat × List Byte)) : List Byte :=
  fields.foldl (fun l f => patch l f.1 f.2) ((List.range 4096).map fun i =>
    if reserved.any fun r => r.1 ≤ i && i < r.1 + r.2 then 0 else Config.identifyByte cns i)

/-- The reserved fields of the Identify Controller structure, and the fields of what Table 4-1 marks as not supported: offset and bytes
(PRESUMED: NVM Express Base 2.1; log 59). They hold 0 (00 R14, R109). -/
def controllerZeros : List (Nat × Nat) :=
  [(96, 4), (103, 1), (108, 2), (135, 105), (240, 16), (312, 4), (316, 3), (359, 1), (362, 6), (388, 124), (522, 2), (577, 1), (588, 180),
   (1024, 1024), (2144, 928)]

/-- The reserved fields of the Identify Namespace structure, and those of protection, metadata, reservations and Copy, which are not
supported. -/
def namespaceZeros : List (Nat × Nat) := [(27, 3), (31, 1), (74, 7), (83, 1), (88, 4), (96, 3), (136, 248)]

/-- The reserved fields of the Primary Controller Capabilities structure. -/
def primaryZeros : List (Nat × Nat) := [(5, 27), (48, 16), (80, 4016)]

/-- The reserved fields of the I/O Command Set specific Identify Controller structure of the NVM command set, and Write Uncorrectable's,
which is not supported. -/
def nvmZeros : List (Nat × Nat) := [(2, 1), (24, 4072)]

/-- A structure of 4,096 bytes whose other bytes are 0. -/
def identifyZero (fields : List (Nat × List Byte)) : List Byte := fields.foldl (fun l f => patch l f.1 f.2) (List.replicate 4096 0)

/-- Identify Controller: what the spec states of it (R109, R111; 17 R476, R479; 20 R533). -/
def identifyController (f : Nat) (s : State) : List Byte :=
  let watts (w : Nat) : List Byte := toLE 2 (w * 100) ++ [0, 0]
  identifyFree 1 controllerZeros
    [(0, toLE 2 Config.vendorId), (4, padTo Config.serial 20), (24, padTo (ascii "KD240-P7A") 9 ++ List.replicate 31 0x20),
     (64, s.revision s.fw.keep), (78, toLE 2 f), (80, toLE 4 0x00020100), (84, toLE 4 8000000), (88, toLE 4 10000000),
     (256, toLE 2 0x8E), (258, [3]), (260, [0x14]), (263, [2]), (265, [0]), (266, toLE 2 368), (268, toLE 2 378), (270, toLE 2 50),
     (280, toLE 16 (14305114 * 16777216)), (296, toLE 16 ((14305114 - s.nsExtents) * 16777216)), (319, [1]), (320, toLE 2 0),
     (328, toLE 4 3), (516, toLE 4 257), (520, toLE 2 0xCC), (525, [0]),
     (2048, watts 600), (2080, watts 450), (2112, watts 300)]

/-- Identify Namespace (R109; 12 R355, R356): the common capabilities for none. -/
def identifyNamespace (n : Option Ns) : List Byte :=
  let fields : List (Nat × List Byte) :=
    [(25, [1]), (33, [1]), (128, [0, 0, 12, 0]), (132, [0, 0, 9, 0])]
  match n with
  | none => identifyFree 0 namespaceZeros fields
  | some x => identifyFree 0 namespaceZeros (fields ++ [(0, toLE 8 x.size), (8, toLE 8 x.size), (26, toLE 1 x.fmt),
      (48, toLE 16 (x.size * x.blockBytes))])

/-- The Milris controller structure (R112). -/
def identifyMilris : List Byte :=
  identifyZero [(0, toLE 2 1), (4, toLE 4 67108864), (8, toLE 4 1073741824), (12, toLE 4 0x100)]

/-- The NSIDs attached to a function, above one, rising, of a command set or of all (R111): NSID 257 is on every function. -/
def State.activeNs (s : State) (f above : Nat) (csi : Option Nat) : List Nat :=
  let block := (List.range 256).map (· + 1) |>.filter fun n => (s.ns? n).any fun x => x.attached.contains f
  ((if csi = some 0x30 then [] else block) ++ (if csi = some 0 then [] else [257])).filter (· > above)

/-- A list of dwords. -/
def dwords (l : List Nat) : List Byte := padTo (l.flatMap (toLE 4 ·)) 4096

/-- A list of controllers: the count and their identifiers (log 52). -/
def controllers (l : List Nat) : List Byte := padTo (toLE 2 l.length ++ l.flatMap (toLE 2 ·)) 4096

/-- The entry of a secondary controller. -/
def secondaryEntry (f : Func) : List Byte :=
  toLE 2 f.id ++ toLE 2 0 ++ toLE 1 (b2n f.online) ++ [0, 0, 0] ++ toLE 2 f.id ++ toLE 2 f.queues ++ toLE 2 f.vectors ++
    List.replicate 18 0

/-- The primary controller's capabilities (R114): 1,023 flexible queue pairs, at most 64 to a function, and 64 vectors to each. -/
def primaryCaps (s : State) : List Byte :=
  identifyFree 0x14 primaryZeros
    [(0, toLE 2 0), (4, [3]), (32, toLE 4 1023), (36, toLE 4 s.vfQueues), (44, toLE 2 64), (46, toLE 2 1),
     (64, toLE 4 4032), (68, toLE 4 (sumN ((s.fns.filter (·.id != 0)).map (·.vectors)))), (76, toLE 2 64), (78, toLE 2 1)]

/-- A namespace identification descriptor list: the command set of the namespace. -/
def descriptors (csi : Nat) : List Byte := padTo ([4, 1, 0, 0] ++ toLE 1 csi) 4096

/-- The data of Identify: by CNS, CSI, NSID and controller; or the failure. -/
def identifyData (f cns cntid csi nsid : Nat) (s : State) : Except Fail (List Byte) :=
  let inList (n : Nat) : Bool := n ≤ 257 || n = 0xFFFFFFFF
  if cns = 0x00 then
    (if nsid = 0xFFFFFFFF then .ok (identifyNamespace none)
     else if nsid = 0 ∨ nsid > 257 then .error St.invalidNamespace
     else if nsid = 257 then .error St.invalidField
     else match s.ns? nsid with
       | some n => .ok (if n.attached.contains f then identifyNamespace (some n) else List.replicate 4096 0)
       | none => .ok (List.replicate 4096 0))
  else if cns = 0x01 then .ok (identifyController f s)
  else if cns = 0x02 then (if nsid ≥ 0xFFFFFFFE then .error St.invalidNamespace else .ok (dwords (s.activeNs f nsid none)))
  else if cns = 0x03 then
    (if (s.activeNs f 0 none).contains nsid then .ok (descriptors (if nsid = 257 then 0x30 else 0)) else .error St.invalidNamespace)
  else if cns = 0x05 then
    (if !inList nsid then .error St.invalidNamespace
     else if csi ≠ 0 ∧ csi ≠ 0x30 then .error St.invalidField else .ok (List.replicate 4096 0))
  else if cns = 0x06 then
    (if csi = 0x30 then .ok identifyMilris else if csi = 0 then .ok (identifyFree 6 nvmZeros []) else .error St.invalidField)
  else if cns = 0x07 then
    (if csi ≠ 0 ∧ csi ≠ 0x30 then .error St.invalidField else .ok (dwords (s.activeNs f nsid (some csi))))
  else if cns = 0x10 then
    .ok (dwords (((List.range 256).map (· + 1) |>.filter fun n => (s.ns? n).isSome) ++ [257] |>.filter (· > nsid)))
  else if cns = 0x11 then
    (if nsid = 0 ∨ nsid > 257 then .error St.invalidNamespace
     else match s.ns? nsid with
       | some n => .ok (identifyNamespace (some n))
       | none => .ok (List.replicate 4096 0))
  else if cns = 0x12 then
    (match s.ns? nsid with
     | some n => .ok (controllers ((s.fns.map (·.id)).filter fun c => c ≥ cntid && n.attached.contains c))
     | none => if nsid = 257 then .ok (controllers ((s.fns.map (·.id)).filter (· ≥ cntid))) else .error St.invalidNamespace)
  else if cns = 0x13 then .ok (controllers ((s.fns.map (·.id)).filter (· ≥ cntid)))
  else if cns = 0x14 ∧ f = 0 then .ok (primaryCaps s)
  else if cns = 0x15 ∧ f = 0 then
    let l := s.fns.filter fun x => x.id != 0 && x.id ≥ cntid
    .ok (padTo (toLE 1 l.length ++ List.replicate 31 0 ++ l.flatMap secondaryEntry) 4096)
  else if cns = 0x1C then .ok (identifyZero [(0, toLE 8 (1 + 2 ^ 48))])
  else .error St.invalidField

/-- IDENTIFY (R109, R111, R112; 03 R102). -/
def execIdentify (a : Admin) (s : State) : Ans :=
  runAdmin 0x06 a.src true (fun s =>
    match identifyData a.src.fn (bits a.cdw10.toNat 7 0) (bits a.cdw10.toNat 31 16) (bits a.cdw11.toNat 31 24) a.nsid.toNat s with
    | .error f => .error f
    | .ok d => .ok (ok a.src 0 0 (writeT2 a.dptr.toNat d s))) s

/-! ### Features (R109, R118, R119; 16 R449) -/

/-- The feature that an entry names: CDW10 [7:0]. -/
def featureId (a : Admin) : Nat := bits a.cdw10.toNat 7 0

/-- Update the features of a function. -/
def modFeat (f : Nat) (g : Features → Features) (s : State) : State := modFn f (fun x => { x with feat := g x.feat }) s

/-- Saving a feature is not supported (R119; log 14). -/
def saves (a : Admin) : Option Fail := if bit a.cdw10.toNat 31 then some St.notSaveable else none

/-- What Number of Queues grants of a count, less 1. -/
def State.queueGrant (s : State) (f : Func) (n : Nat) : Nat := Nat.min n (s.queueLimit f - 1)

/-- Set one of the standard features (R109). -/
def setStandard (a : Admin) (f : Func) (s : State) : Except Fail State :=
  let id := featureId a
  let v := a.cdw11
  let done (g : Features → Features) : Except Fail State := .ok (ok a.src 0 0 (modFeat f.id g s))
  if id = 0x01 then done fun x => { x with arbitration := v }
  else if id = 0x04 then
    (if bits v.toNat 21 20 > 1 ∨ (bits v.toNat 19 16 ≠ 0 ∧ bits v.toNat 19 16 ≠ 15) then .error St.invalidField
     else if bits v.toNat 21 20 = 0 then done fun x => { x with tempOver := bits v.toNat 15 0 }
     else done fun x => { x with tempUnder := bits v.toNat 15 0 })
  else if id = 0x07 then
    (if bits v.toNat 15 0 = 0xFFFF ∨ bits v.toNat 31 16 = 0xFFFF then .error St.invalidField
     else if (s.q.sqs.any fun q => q.fn == f.id && q.id != 0) || (s.q.cqs.any fun q => q.fn == f.id && q.id != 0) then .error St.sequenceError
     else
       let n := s.queueGrant f (bits v.toNat 15 0) + 65536 * s.queueGrant f (bits v.toNat 31 16)
       .ok (ok a.src n 0 (modFeat f.id (fun x => { x with numQueues := BitVec.ofNat 32 n }) s)))
  else if id = 0x08 then done fun x => { x with coalescing := v }
  else if id = 0x09 then
    (if bits v.toNat 15 0 ≥ (if f.id = 0 then 2048 else 64) then .error St.invalidField
     else done fun x =>
       { x with vectorConfig := if bit v.toNat 16 then insN (bits v.toNat 15 0) x.vectorConfig else delN (bits v.toNat 15 0) x.vectorConfig })
  else if id = 0x0B then
    .ok (aenPump (ok a.src 0 0 (modFeat f.id (fun x => { x with asyncConfig := v }) s)))
  else if id = 0x0E then
    done fun x => { x with timestamp := le a.input 0 6, timestampSet := true, timestampTick := s.tick.toNat }
  else if id = 0x19 then
    (if bits v.toNat 8 0 ≠ 0 then .error St.combination else done fun x => { x with ioProfile := v })
  else .error St.invalidField

/-- SET_FEATURES (R109): the features without a row of their own. -/
def execSetFeatures (a : Admin) (s : State) : Ans :=
  if [0x02, 0xD0, 0xD1].contains (featureId a) then .next s
  else runAdmin 0x09 a.src false (fun s =>
    orFail (saves a) fun _ => match s.fn? a.src.fn with
      | none => .error St.invalidField
      | some f => setStandard a f s) s

/-- SET_FEATURES_POWER_MANAGEMENT (R109; 16 R449): PS0 to PS2, from the next tick boundary. -/
def execSetFeaturesPowerManagement (a : Admin) (s : State) : Ans :=
  if featureId a ≠ 0x02 then .next s
  else runAdmin 0x09 a.src false (fun s =>
    orFail (saves a) fun _ =>
      if bits a.cdw11.toNat 4 0 > 2 then .error St.invalidField
      else .ok (ok a.src 0 0 (s.modPwr fun p => { p with psNext := some (bits a.cdw11.toNat 4 0) }))) s

/-- SET_FEATURES_PASID_BINDING (R118). -/
def execSetFeaturesPasidBinding (a : Admin) (s : State) : Ans :=
  if featureId a ≠ 0xD0 then .next s
  else runAdmin 0x09 a.src false (fun s =>
    let id := bits a.cdw11.toNat 15 0
    orFail (saves a) fun _ =>
      if bits a.cdw11.toNat 31 16 ≠ 0 ∨ bits a.cdw12.toNat 30 20 ≠ 0 ∨ id = 0 ∨ (s.sq? a.src.fn id).isNone then .error St.invalidField
      else .ok (ok a.src 0 0 (modSq a.src.fn id (fun q =>
        { q with pasid := if bit a.cdw12.toNat 31 then some (bits a.cdw12.toNat 19 0) else none }) s))) s

/-- SET_FEATURES_SPARE_THRESHOLD (R119): on the physical function only; it applies to Critical Warning from the next tick boundary. -/
def execSetFeaturesSpareThreshold (a : Admin) (s : State) : Ans :=
  if featureId a ≠ 0xD1 then .next s
  else runAdmin 0x09 a.src false (fun s =>
    orFail (saves a) fun _ =>
      if a.src.fn ≠ 0 ∨ bits a.cdw11.toNat 31 8 ≠ 0 ∨ a.cdw11.toNat > 100 then .error St.invalidField
      else .ok (ok a.src 0 0 (s.modQ fun q => { q with spareThreshold := a.cdw11.toNat }))) s

/-- The value of a feature: Dwords 0 of the completion and the bytes it returns; none for a feature the module has not. -/
def State.feature (s : State) (f : Func) (id v : Nat) : Option (Nat × List Byte) :=
  let x := f.feat
  if id = 0x01 then some (x.arbitration.toNat, [])
  else if id = 0x02 then some (s.pwr.psNext.getD s.pwr.ps, [])
  else if id = 0x04 then some (if bits v 21 20 = 0 then x.tempOver else x.tempUnder, [])
  else if id = 0x07 then some (s.queueGrant f (bits x.numQueues.toNat 15 0) + 65536 * s.queueGrant f (bits x.numQueues.toNat 31 16), [])
  else if id = 0x08 then some (x.coalescing.toNat, [])
  else if id = 0x09 then some (bits v 15 0 + 65536 * b2n (x.vectorConfig.contains (bits v 15 0)), [])
  else if id = 0x0B then some (x.asyncConfig.toNat, [])
  else if id = 0x0E then some (0, toLE 6 (x.timestamp + (s.tick.toNat - x.timestampTick) / 2) ++ toLE 1 (2 * b2n x.timestampSet) ++ [0])
  else if id = 0x19 then some (x.ioProfile.toNat, [])
  else if id = 0xD0 then
    (match s.sq? f.id (bits v 15 0) with
     | some q => some (match q.pasid with | some p => p + 2 ^ 31 | none => 0, [])
     | none => none)
  else if id = 0xD1 then some (s.q.spareThreshold, [])
  else none

/-- GET_FEATURES (R109, R119; 03 R102): the current value; the other selections are not supported. -/
def execGetFeatures (a : Admin) (s : State) : Ans :=
  runAdmin 0x0A a.src true (fun s =>
    if bits a.cdw10.toNat 10 8 ≠ 0 then .error St.invalidField
    else match (s.fn? a.src.fn).bind fun f => s.feature f (featureId a) a.cdw11.toNat with
      | none => .error St.invalidField
      | some (v, bs) => .ok (ok a.src v 0 (if bs.isEmpty then s else writeT2 a.dptr.toNat bs s))) s

/-! ### Asynchronous Event Request and Virtualization Management (R114, R141) -/

/-- ASYNCHRONOUS_EVENT_REQUEST (R141): held until an event completes it. -/
def execAsynchronousEventRequest (a : Admin) (s : State) : Ans :=
  runAdmin 0x0C a.src false (fun s => .ok (aenPump (s.modQ fun q => { q with aerHeld := q.aerHeld ++ [a.src] }))) s

/-- Assign resources to a secondary controller that is offline (R114): queue pairs, or vectors. -/
def assignResources (src : Src) (f : Func) (rt nr : Nat) (s : State) : Except Fail State :=
  if f.online then .error St.secondaryState
  else if rt > 1 then .error St.resourceId
  else if nr > 64 ∨ (rt = 0 ∧ s.vfQueues - f.queues + nr + (Nat.max (s.q.sqs.filter fun q => q.fn == 0 && q.id != 0).length (s.q.cqs.filter fun q => q.fn == 0 && q.id != 0).length) > 1023) then
    .error St.resourceCount
  else .ok (ok src nr 0 (modFn f.id (fun x => if rt = 0 then { x with queues := nr } else { x with vectors := nr }) s))

/-- VIRTUALIZATION_MANAGEMENT (R114): on the physical function; the actions are those of NVM Express (log 14). -/
def execVirtualizationManagement (a : Admin) (s : State) : Ans :=
  runAdmin 0x1C a.src false (fun s =>
    let act := bits a.cdw10.toNat 3 0
    let rt := bits a.cdw10.toNat 10 8
    let id := bits a.cdw10.toNat 31 16
    let nr := bits a.cdw11.toNat 15 0
    if a.src.fn ≠ 0 then .error St.invalidOpcode
    else if act = 1 then
      (if id ≠ 0 then .error St.controllerId
       else if rt > 1 then .error St.resourceId
       else if rt = 0 ∧ (nr = 0 ∨ nr + s.vfQueues > 1023) then .error St.resourceCount
       else .ok (ok a.src nr 0 (modFn 0 (fun x => if rt = 0 then { x with queues := nr } else { x with vectors := nr }) s)))
    else if act ≠ 7 ∧ act ≠ 8 ∧ act ≠ 9 then .error St.invalidField
    else match (s.fns.filter (·.id != 0)).find? (·.id == id) with
      | none => .error St.controllerId
      | some f =>
        if act = 8 then assignResources a.src f rt nr s
        else if act = 7 then .ok (ok a.src 0 0 (modFn id (fun x => { x with online := false }) (stopController id 0 s)))
        else if f.queues = 0 ∨ !f.enabled then .error St.secondaryState
        else .ok (ok a.src 0 0 (modFn id (fun x => { x with online := true }) s))) s

end Sys2Proof.Machine
end

