-- ==== Sys2Proof/Machine/Generate.lean ====
section
/-! DEFINITION. GENERATE: the model, vocabulary and adapter headers, admission, the KV pool, SAMPLE and the decode step; and the
random source (08 R243 to R258). -/

namespace Sys2Proof.Machine

open Sys2Proof

/-! ### Headers -/

/-- A 48-bit object ID in an 8-byte field, and whether the field's upper bits are set. -/
def idField (m : Mem) (off : Nat) : Nat × Bool := (memLE m off 6, memLE m (off + 6) 2 != 0)

/-- Run an optional check as an Except. -/
def orErr (f : Option Fail) : Except Fail Unit := match f with
  | some x => .error x
  | none => .ok ()

/-- Run checks in order, each only when those before it pass. -/
def inTurn : List (Unit → Except Fail Unit) → Except Fail Unit
  | [] => .ok ()
  | f :: r => match f () with
    | .error x => .error x
    | .ok _ => inTurn r

/-- The checks of a base model and its vocabulary (R236, R244, R247, R253). -/
def checkModel (id part : Nat) (s : State) : Except Fail Unit :=
  inTurn [
    fun _ => orErr (inputFail id part s),
    fun _ => let m := s.model id
      checks [(m.bad, fieldBad 0x803), (m.reserved, St.invalidField)],
    fun _ => let k := (s.model id).shape
      checkQword k.q 4 k.d,
    fun _ => checkVocab (s.model id).vocab part s]

/-- The checks of an adapter for a base model (R236, R249, R250). -/
def checkAdapter (id base part : Nat) (s : State) : Except Fail Unit :=
  inTurn [
    fun _ => orErr (inputFail id part s),
    fun _ => failIf ((s.live? id).any (·.part != part)) (St.objectNotFound id),
    fun _ => let a := s.adapter id
      checks [(a.bad || a.base != base, fieldBad 0x803), (a.reserved, St.invalidField)]]

/-! ### The pool and admission (R243, R246, R252, R255) -/

/-- The checks of a KV pool for a model (R243). -/
def checkPool (id model part : Nat) (s : State) : Except Fail Unit :=
  match writeFail id part s with
  | some f => .error f
  | none => match s.live? id with
    | none => .error (St.objectNotFound id)
    | some o =>
      let b := (s.model model).shape.block
      failIf (!o.flag 1 || o.flag 5 || o.size < b || o.size % b != 0) (fieldBad 0x804)

/-- The admitted sequences of a dome (R255). -/
def State.admittedIn (s : State) (d : Nat) : Nat := (s.inf.seqs.filter fun q => q.admitted && q.dome == d).length

/-- A sequence is admitted: it binds to the adapter's current version (R252) and takes the blocks of its prompt (R246). -/
def admitSeq (src : Src) (s : State) : State :=
  let n := s.inf.order
  let s1 := modSeq src (fun q => { q with admitted := true, order := n, version := if q.adapter = 0 then 0 else (s.adapter q.adapter).version }) s
  takeBlocks src (modCmd src (fun c => { c with waiting := false }) (s1.modInf fun x => { x with order := n + 1 }))

/-! ### The command -/

/-- Fields of GENERATE (Table 4-3, Table 8-10). -/
def Gf.mode (e : Entry) : Nat := bits e.dw13.toNat 17 16
/-- DETOKENISE. -/
def Gf.detok (e : Entry) : Bool := bit e.dw13.toNat 18
/-- UTF8-IN. -/
def Gf.utf8 (e : Entry) : Bool := bit e.dw13.toNat 19
/-- Temperature, binary16. -/
def Gf.temp (e : Entry) : Nat := bits e.dw15.toNat 31 16

/-- The prompt's token IDs (R254). -/
def promptOf (e : Entry) (v : Option Vocab) : List Nat :=
  let body := e.input.drop 64
  if Gf.utf8 e then (v.map fun v => tokenise v body).getD []
  else (List.range (le e.input 16 4)).map fun i => le body (4 * i) 4

/-- The sampling parameter or the temperature is out of range (R254). -/
def samplingBad (e : Entry) : Bool :=
  let p := le e.input 0 4
  let t := Gf.temp e
  let pos (x : Nat) : Bool := x != 0 && x ≤ 0x7C00
  (if Gf.mode e = 0 then p != 0 || t != 0
   else if Gf.mode e = 1 then bits p 12 0 == 0 || bits p 12 0 > 4096 || !pos t
   else !(pos (bits p 15 0) && bits p 15 0 ≤ 0x3C00) || bits p 28 16 > 4096 || !pos t) ||
  le e.input 4 4 == 0 || le e.input 4 4 > 131072

/-- The input header's reserved fields and the length of the input (R254). -/
def promptBad (e : Entry) : Bool :=
  let n := le e.input 16 4
  e.inLen.toNat < 64 || Gf.mode e == 3 || !allZero (slice e.input 36 28) || le e.input 14 2 != 0 ||
  (Gf.mode e == 1 && bits (le e.input 0 4) 31 13 != 0) || (Gf.mode e == 2 && bits (le e.input 0 4) 31 29 != 0) ||
  e.inLen.toNat != 64 + (if Gf.utf8 e then n else 4 * n)

/-- The shape of GENERATE. -/
def shapeGenerate : Shape := ⟨0x8C, 4, 0x000F0000#32, 0xFFFFFFFF#32, 0xFFFFFFFF#32, true, true⟩

/-- The sequence that a GENERATE makes. -/
def seqOf (e : Entry) (part : Nat) (m : Model) (v : Option Vocab) (dec : Plan) : Seq :=
  let p := le e.input 0 4
  { src := e.src, dome := Fe.dome e, part, model := Fe.obj1 e, adapter := Fe.obj2 e, version := 0, pool := le e.input 8 6, order := 0,
    decode := dec, prompt := promptOf e v, maxNew := le e.input 4 4, maxCtx := m.maxCtx,
    stops := m.endToken :: (((List.range 4).map fun i => le e.input (20 + 4 * i) 4).filter (· ≠ 0xFFFFFFFF)),
    mode := Gf.mode e,
    k := if Gf.mode e = 1 then bits p 12 0 else if bits p 28 16 = 0 then 1024 else bits p 28 16,
    p := BitVec.ofNat 16 p, temp := BitVec.ofNat 16 (Gf.temp e), detok := Gf.detok e, vocab := m.vocab }

/-- The checks of GENERATE (R236, R243, R250, R254). -/
def checkGenerate (e : Entry) (s : State) : Except Fail Unit :=
  let part := s.part (Fe.dome e)
  let m := s.model (Fe.obj1 e)
  inTurn [
    fun _ => failIf (promptBad e) St.invalidField,
    fun _ => checkModel (Fe.obj1 e) part s,
    fun _ => if Fe.obj2 e = 0 then .ok () else checkAdapter (Fe.obj2 e) (Fe.obj1 e) part s,
    fun _ => checkPool (le e.input 8 6) (Fe.obj1 e) part s,
    fun _ => failIf (samplingBad e) (fieldBad 0x80A),
    fun _ => let ids := promptOf e (s.vocab? m.vocab)
      checks [(ids.length > m.maxCtx - 1, fieldBad 0x802),
              (ids.any fun i => (s.vocab? m.vocab).any fun v => i ≥ v.n, fieldBad 0x801)]]

/-- The token IDs that a pass of a repeated plan takes: as many as the input of its GATHER holds (log 28). -/
def passIds (cap pass : Nat) (ids : List Nat) : List Nat := if cap = 0 then ids else slab cap pass ids

/-- A pass of a repeated plan begins: its token IDs stand at byte 0 of the scratch (log 28). -/
def feedPass (src : Src) (ids : List Nat) (s : State) : State :=
  modCmd src (fun c => { c with scratch := memOf (ids.flatMap (toLE 4)), rowScales := [] }) s

/-- The passes of a plan over some tokens, as one chain. -/
def passesOf (p : Plan) (n : Nat) : Chain := { tasks := (List.replicate (p.passes n) p.tasks).flatten }

/-- A checked GENERATE becomes outstanding with its sequence, which is admitted, or waits, after those that wait already, for room in its dome
(R255). Its prefill plan runs once, or as often as its prompt takes. -/
def admitGenerate (e : Entry) (pre dec : Plan) (s : State) : State :=
  let m := s.model (Fe.obj1 e)
  let q := seqOf e (s.part (Fe.dome e)) m (s.vocab? m.vocab) dec
  let named := [Fe.obj1 e, Fe.obj2 e, q.pool, m.vocab, m.prefill, m.decode]
  let c := { cmdOf e 0x8C (nubN ((named ++ pre.objs ++ dec.objs).filter (· ≠ 0))) with
    plan := some pre, waiting := true, args := e.input, chains := [passesOf pre q.prompt.length, { tasks := [], dynamic := true }] }
  let c' := { c with writes := nubN (c.writes ++ pre.writes ++ dec.writes) }
  let s1 := beginFirstFill e.src (feedPass e.src (passIds pre.capacity 0 q.prompt)
    ((enrol c' s).modInf fun x => { x with seqs := x.seqs ++ [q] }))
  if s.admittedIn q.dome < 4096 ∧ !(s.inf.seqs.any fun x => x.dome == q.dome && !x.admitted) then admitSeq e.src s1 else s1

/-- GENERATE (04 Table 4-3; 08 R243, R246, R250, R252 to R255): the sequence is admitted, or waits. -/
def execGenerate (e : Entry) (s : State) : Ans :=
  runMilris shapeGenerate e (fun s =>
    let m := s.model (Fe.obj1 e)
    match checkGenerate e s with
    | .error f => .error f
    | .ok _ => match loadPlan .prefill m.prefill 0 (Fe.dome e) s with
      | .error f => .error f
      | .ok pre => match loadPlan .decode m.decode 0 (Fe.dome e) s with
        | .error f => .error f
        | .ok dec => .ok (admitGenerate e pre dec s)) s

/-- SEQUENCE_ADMISSION (R255): the first waiting sequence of a dome, in fetch order, is admitted when there is room. -/
def execSequenceAdmission (dome : Nat) (s : State) : Ans :=
  .next (if s.admittedIn dome ≥ 4096 then s
    else match s.inf.seqs.find? fun q => !q.admitted && q.dome == dome with
      | none => s
      | some q => admitSeq q.src s)

/-- A sequence's prefill has ended (R255): its prompt's positions are in the pool. -/
def prefillEnd (src : Src) (s : State) : State :=
  match s.seq? src with
  | none => s
  | some q => takeBlocks src (ctrPart .genPromptTokensPrefilled q.dome q.prompt.length
      (modSeq src (fun q => { q with prefilled := true, position := q.prompt.length }) s))

/-! ### SAMPLE (R256, R258) -/

/-- The shortest prefix of candidates whose sum reaches a part of the whole, at least one. -/
def keepPrefix (goal : Nat) : Nat → List (Nat × Nat) → List (Nat × Nat)
  | _, [] => []
  | acc, (i, q) :: r => let a := add32 acc q; if lt32 a goal then (i, q) :: keepPrefix goal a r else [(i, q)]

/-- The sum of the candidates' weights, in order. -/
def sumQ (l : List (Nat × Nat)) : Nat := l.foldl (fun a x => add32 a x.2) 0

/-- The first kept candidate whose running sum exceeds u; the last, should rounding leave none (log 27). -/
def pick (u : Nat) : Nat → List (Nat × Nat) → Nat
  | _, [] => 0
  | _, [(i, _)] => i
  | acc, (i, q) :: r => let a := add32 acc q; if lt32 u a then i else pick u a r

/-- The logits over the temperature (R256). -/
def tempered (q : Seq) (logits : List Nat) : List Nat :=
  if q.mode = 0 then logits else logits.map fun x => div32 x (widen q.temp.toNat)

/-- The candidates with their weights (R256): top-k, or top-cap cut to the prefix of top-p. -/
def sampleCands (q : Seq) (z : List Nat) : List (Nat × Nat) × Sel Nat :=
  let sel := select false q.k (ranked true (rowEntries z))
  let top := (sel.entries.map (·.2.2)).headD 0
  let w := sel.entries.map fun e => (e.2.1, exp32 (sub32 e.2.2 top))
  (if q.mode = 2 then keepPrefix (mul32 (widen q.p.toNat) (sumQ w)) 0 w else w, sel)

/-- SAMPLE (R256): the token and the state with its counters and its draw. -/
def sample (cluster : Nat) (q : Seq) (logits : List Nat) (s : State) : Nat × State :=
  let z := tempered q logits
  if z.any f32.nan then (argMax z, ctrPart .genNanLogitRows q.dome 1 (countSel cluster q.dome 1 (argSel z) s))
  else if q.mode = 0 ∨ z.contains 0x7F800000 then
    (argMax z, countSel cluster q.dome 1 (argSel z) s)
  else
    let c := sampleCands q z
    let d := draw s
    let u := mul32 (f32.rn (d.1.toNat % 2 ^ 24) 1 (-24)) (sumQ c.1)
    (pick u 0 c.1, countSel cluster q.dome q.k c.2 d.2)

/-- The stop reason after a token (R258): end or stop token, token limit, context limit. -/
def stopOf (q : Seq) (token : Nat) : Option Nat :=
  if q.stops.contains token then some 0
  else if q.tokens.length + 1 ≥ q.maxNew then some 1
  else if q.prompt.length + q.tokens.length + 1 ≥ q.maxCtx then some 2
  else none

/-- A sequence has stopped: its answer is made and the command ends (R258; Table 4-3). -/
def stopSeq (q : Seq) (reason : Nat) (s : State) : State :=
  let text := if reason = 0 then q.tokens.dropLast else q.tokens
  let out := if q.detok then ((s.vocab? q.vocab).map fun v => detokenise v text).getD [] else q.tokens.flatMap (toLE 4)
  settle q.src (modCmd q.src (fun c =>
    { c with out, dw0 := q.tokens.length, dw1 := reason, chains := updAt 1 (fun h => { h with finished := true }) c.chains }) s)

/-- The token of a sequence in a decode step (R256, R258): its position advances, and it stops, takes a block or pauses. -/
def stepSeq (cluster : Nat) (q : Seq) (logits : List Nat) (s : State) : Nat × State :=
  let r := sample cluster q logits s
  let n := { q with tokens := q.tokens ++ [r.1], position := Nat.max q.position (q.nextPos + 1), stopped := stopOf q r.1 }
  let s1 := ctrPart .genTokensGenerated q.dome 1 (modSeq q.src (fun _ => n) r.2)
  (r.1, match n.stopped with
    | some reason => stopSeq n reason s1
    | none => takeBlocks q.src s1)

/-! ### The selection unit (09 R269, R272, R273) -/

/-- ROUTE of one row (R241): the route list, with the unit's counters. -/
def routeRow (k : OpCtx) (cluster : Nat) (x z : Tensor) (row : Nat) (s : State) : State :=
  let v := getVals k k.o.in0 x row s
  let e := bits k.o.params.toNat 7 0
  let r := route e v.1
  let s1 := countSel cluster k.c.dome e r.2.2 v.2
  putPart k z row 0 (routeBytes r.1) (if r.2.1 then ctrPart .genNanLogitRows k.c.dome 1 s1 else s1)

/-- SAMPLE of one row (R256): the token of the row's sequence; a row without a sequence gives none. -/
def sampleRow (k : OpCtx) (cluster : Nat) (x z : Tensor) (row : Nat) (s : State) : State :=
  match (s.rowAt k.c k.h x.rows row).seq with
  | none => s
  | some q =>
    if q.stopped.isSome then s
    else
      let v := getVals k k.o.in0 x row s
      let r := stepSeq cluster q v.1 v.2
      putPart k z row 0 (toLE 4 r.1) r.2

/-- SELECTION (09 R269, R272 to R282; R241, R256): a task in flight hands the unit of its cluster a row of the ROUTE or the SAMPLE that it has
come to, which ranks it in direction MAX and exact mode. A row that is too long fails the task. -/
def execSelection (t : TaskRef) (op row : Nat) (s : State) : Ans :=
  .next (onRow t op row [0x08, 0x0C] (fun k r x z s =>
    if x.len > 1048576 then
      failTask t { St.rowTooLong with detail := sat 0xFFFFFFFF x.len } (ctrPart .selRowsTooLong k.c.dome 1 s)
    else if k.o.code = 0x08 then routeRow k r.cluster x z row s
    else sampleRow k r.cluster x z row s) s)

/-! ### The decode step (R255) -/

/-- The sequences that join a dome's next decode step for a model (R255). -/
def State.joiners (s : State) (dome model : Nat) : List Seq :=
  s.inf.seqs.filter fun q => q.dome == dome && q.model == model && q.admitted && q.prefilled && !q.paused && q.stopped.isNone &&
    (s.cmd? q.src).any fun c => !c.ending && !c.suspended

/-- The sender of a dome's decode steps for a model (log 38). -/
def stepSrc (dome model : Nat) : Src := { fn := 0, sq := 0x10000, cid := dome + 4096 * model }

/-- The tokens that a decode step processes, one for each sequence: its last, or the last of its prompt; what stands there for an empty prompt
is a free value (log 38). -/
def lastTokens (l : List Seq) (s : State) : List Nat × State :=
  l.foldl (fun (a : List Nat × State) q => match (q.prompt ++ q.tokens).getLast? with
    | some t => (a.1 ++ [t], a.2)
    | none => let d := draw a.2; (a.1 ++ [d.1.toNat % 2 ^ 32], d.2)) ([], s)

/-- The token IDs of a decode step. -/
def Cmd.stepIds (c : Cmd) : List Nat := (List.range (c.args.length / 4)).map fun i => le c.args (4 * i) 4

/-- A decode step as a run of the module's own: the passes of the decode plan for its batch. -/
def stepCmd (dome model : Nat) (q : Seq) (js : List Seq) (ids : List Nat) (tenant : Nat) : Cmd :=
  { src := stepSrc dome model, opcode := 0x8C, dome, tenant, objs := q.decode.objs, writes := q.decode.writes, plan := some q.decode,
    args := ids.flatMap (toLE 4), batch := js.map (·.src), chains := [passesOf q.decode js.length] }

/-- DECODE_STEP (R255; log 38): the sequences that join make the batch of a run of the decode plan, whose tasks are placed and dispatched as
every other's (01 R24). A dome has one step for a model at a time. -/
def execDecodeStep (dome model : Nat) (s : State) : Ans :=
  .next (
    let js := s.joiners dome model
    if s.hb.quiesced || s.life.phase != .up || (s.cmd? (stepSrc dome model)).isSome then s
    else match js with
      | [] => s
      | q :: _ =>
        let ids := lastTokens js s
        let c := stepCmd dome model q js ids.1 (((s.cmd? q.src).map (·.tenant)).getD 0)
        beginFirstFill c.src (feedPass c.src (passIds q.decode.capacity 0 ids.1) (enrol c ids.2)))

/-- The paused sequences of a pool in admission order. -/
def State.pausedIn (s : State) (pool : Nat) : List Seq := (s.poolSeqs pool).filter (·.paused)

/-- The sequence of a list with the least order that satisfies a test. -/
def leastSeq (p : Seq → Bool) (l : List Seq) : Option Seq :=
  l.foldl (fun b q => if !p q then b else match b with
    | none => some q
    | some x => if q.order < x.order then some q else some x) none

/-- KV_BLOCK_FREED (R246): a paused sequence for which the pool has room resumes. -/
def execKvBlockFreed (pool : Nat) (s : State) : Ans :=
  .next (match leastSeq (fun q => (s.lacking q).isSome) (s.pausedIn pool) with
    | none => s
    | some q => takeBlocks q.src s)

/-- The sequence of a list admitted most recently. -/
def latestSeq (l : List Seq) : Option Seq :=
  l.foldl (fun b q => match b with
    | none => some q
    | some x => if q.order > x.order then some q else some x) none

/-- KV_POOL_FAILURE (R246): every sequence of a pool has been paused for one full tick; the latest admitted fails with Quota Exceeded
in tier 1. -/
def execKvPoolFailure (pool : Nat) (s : State) : Ans :=
  .next (
    let qs := s.poolSeqs pool
    if qs.isEmpty || qs.any (fun q => !q.paused || s.tick.toNat < q.pausedAt + 2) then s
    else match latestSeq qs with
      | none => s
      | some q => failWhole q.src (St.quotaExceeded 1 q.dome) (ctrPart .genKvPoolFailures q.dome 1 s))

/-! ### The random source (R257) -/

/-- RANDOM_SOURCE_HEALTH_FAILURE (R257): the event, an entry of the device error log and the counter; draws continue. -/
def execRandomSourceHealthFailure (s : State) : Ans :=
  .next (if !s.inf.rngOk then s
    else ctrAdd .genRandomSourceHealthFailures 0 1 (raise 0x013 0 (reportCor 5 0 0x0D (s.modInf fun x => { x with rngOk := false }))))

/-- RANDOM_SOURCE_RESEED (R257): the source passes again and the conditioner is reseeded. -/
def execRandomSourceReseed (s : State) : Ans := .next (s.modInf fun x => { x with rngOk := true })

end Sys2Proof.Machine
end

