-- ==== Sys2Proof/Machine/Streams.lean ====
section
/-! DEFINITION. Streams and transfers (05 R162, R168 to R178; 18 R501; 19 R512). -/

namespace Sys2Proof.Machine

open Sys2Proof

/-- The stream with an ID. -/
def State.stream? (s : State) (id : Nat) : Option Stream := s.strm.find? (·.decl.id == id)

/-- Update a stream. -/
def modStream (id : Nat) (f : Stream → Stream) (s : State) : State := s.modStrm (updIf (·.decl.id == id) f)

/-- The tasks in flight that wait in one way. -/
def State.waiting (s : State) (w : Wait) : List TaskRef :=
  s.sch.cmds.flatMap fun c => c.chains.zipIdx.filterMap fun h =>
    if h.1.run.any (·.wait == w) then some { src := c.src, chain := h.2 } else none

/-- Credits of a buffer (R169): one for each 4 KiB chunk. -/
def Stream.credits (x : Stream) : Nat := x.decl.buffer / 4096

/-- The first task that waits in one way goes on. Of several that wait for one stream the first in command order is taken, which the spec
leaves open (DESIGN CHOICE, log 91). -/
def wake (w : Wait) (s : State) : State :=
  match s.waiting w with
  | [] => s
  | t :: _ =>
    let s1 := endWait t s
    match w, s.flight? t with
    | .streamIn id, some (c, _, r) => streamPacket 2 id c.dome r.cluster (((s.stream? id).map fun x => x.credits - x.buffer.length).getD 0) ((s.now 0 - r.waitSince) * 1500) s1
    | .streamOut id, some (c, _, r) => streamPacket 2 id c.dome r.cluster (((s.stream? id).map fun x => x.credits - x.buffer.length).getD 0) ((s.now 0 - r.waitSince) * 1500) s1
    | _, _ => s1

/-- The first n tasks that wait in one way go on. -/
def wakeN (w : Wait) : Nat → State → State
  | 0, s => s
  | n + 1, s => wakeN w n (wake w s)

/-- The bytes of a stream's chunk in T0 are free (02 R570): what tasks and objects still hold of a T0 buffer's share of a cluster lies at its
end. Chunks are dealt in turns to the producer's clusters. -/
def State.slotFree (s : State) (x : Stream) : Bool :=
  if x.decl.inT1 then true
  else
    let cs := s.clusters x.decl.producer
    let k := x.written % Nat.max 1 x.credits
    match cs[k % Nat.max 1 cs.length]? with
    | none => true
    | some cl =>
      let uses := s.obj.t0.filter (·.cluster == cl)
      let share := sumN ((uses.filter fun u => u.owner == .stream x.decl.id).map (·.bytes))
      let excess := sumN (uses.map (·.bytes)) + s.t0Tasks cl - t0Bytes
      4096 * (k / Nat.max 1 cs.length + 1) + excess ≤ share

/-- A task may write a chunk of a stream now, or it waits for a credit or for the chunk's bytes, or fails (R168, R169, R173): none when it
may. -/
def chunkRoom (t : TaskRef) (c : Cmd) (r : Run) (x : Stream) (s : State) : Option State :=
  if x.halted then some (failTask t (St.streamHalted x.haltBy) s)
  else if x.buffer.length ≥ x.credits then some (streamPacket 0 x.decl.id c.dome r.cluster 0 0 (setWait t (.streamOut x.decl.id) s))
  else if !s.slotFree x then some (setWait t .memory s)
  else none

/-- A chunk enters a stream's buffer, and the first consumer that waits goes on (R169). -/
def putStream (id : Nat) (bytes : List Byte) (s : State) : State :=
  wake (.streamIn id) (modStream id (fun x => { x with buffer := x.buffer ++ [bytes], moved := true, written := x.written + 1 }) s)

/-- The oldest chunk of a stream leaves it, spilled ones first (R172), and its credit goes back; or the task waits, or fails (R169, R173). -/
def takeChunk (t : TaskRef) (c : Cmd) (r : Run) (x : Stream) (s : State) : Except State (List Byte × State) :=
  let id := x.decl.id
  if x.halted then .error (failTask t (St.streamHalted x.haltBy) s)
  else match x.spilled, x.buffer with
    | b :: rest, _ => .ok (b, modStream id (fun x => { x with spilled := rest, moved := true }) s)
    | [], b :: rest => .ok (b, wake (.streamOut id) (modStream id (fun x => { x with buffer := rest, moved := true }) s))
    | [], [] => .error (streamPacket 1 id c.dome r.cluster x.credits 0 (setWait t (.streamIn id) s))

/-- STREAM_CHUNK_WRITE (R168, R169, R173; 02 R570): a task of the producer dome writes a chunk, or waits. -/
def execStreamChunkWrite (t : TaskRef) (stream : Nat) (bytes : List Byte) (s : State) : Ans :=
  .next (match s.flight? t, s.stream? stream with
    | some (c, _, r), some x =>
      if x.decl.producer ≠ c.dome || bytes.isEmpty || bytes.length > 4096 ||
         (r.wait != .none && r.wait != .streamOut stream && r.wait != .memory) then s
      else match chunkRoom t c r x s with
        | some u => u
        | none => putStream stream bytes (endWait t s)
    | _, _ => s)

/-- STREAM_CHUNK_READ (R169, R172, R173): a task of the consumer dome reads the oldest chunk, spilled ones first, or waits. -/
def execStreamChunkRead (t : TaskRef) (stream : Nat) (s : State) : Ans :=
  .next (match s.flight? t, s.stream? stream with
    | some (c, _, r), some x =>
      if x.decl.consumer ≠ c.dome || (r.wait != .none && r.wait != .streamIn stream) then s
      else match takeChunk t c r x s with
        | .error u => u
        | .ok (_, u) => endWait t u
    | _, _ => s)

/-! ### Transfer descriptors (Table 5-6, R174 to R178) -/

namespace Xd
/-- Source. -/
def src (d : List Byte) : Nat := le d 0 8
/-- Destination. -/
def dst (d : List Byte) : Nat := le d 8 8
/-- Source space. -/
def srcSpace (d : List Byte) : Nat := le d 16 1
/-- Destination space. -/
def dstSpace (d : List Byte) : Nat := le d 17 1
/-- ATOMIC. -/
def atomic (d : List Byte) : Bool := bit (le d 18 2) 0
/-- CHAINED. -/
def chained (d : List Byte) : Bool := bit (le d 18 2) 1
/-- Element bytes. -/
def elem (d : List Byte) : Nat := le d 20 4
/-- The five counts. -/
def counts (d : List Byte) : List Nat := (List.range 5).map fun i => le d (32 + 4 * i) 4
/-- The source strides. -/
def srcStrides (d : List Byte) : List Int := (List.range 5).map fun i => toSigned 64 (le d (56 + 8 * i) 8)
/-- The destination strides. -/
def dstStrides (d : List Byte) : List Int := (List.range 5).map fun i => toSigned 64 (le d (96 + 8 * i) 8)
/-- Bytes of the transfer (R174). -/
def total (d : List Byte) : Nat := (counts d).foldl (· * ·) (elem d)
/-- Chunks of the transfer (R174). -/
def chunks (d : List Byte) : Nat := ceilDiv (total d) 4096
/-- The five element indices of an element number, dimension 0 fastest (R174). -/
def indices (d : List Byte) (n : Nat) : List Nat :=
  ((counts d).foldl (fun (acc : List Nat × Nat) c => (acc.1 ++ [acc.2 % c], acc.2 / c)) ([], n)).1
/-- The resume cursor at the start of a chunk (R176). -/
def cursor (d : List Byte) (chunk : Nat) : List Nat := indices d (4096 * chunk / elem d)
/-- The place of byte n of the transfer at an end with a base and strides. -/
def place (d : List Byte) (base : Nat) (strides : List Int) (n : Nat) : Int :=
  ((indices d (n / elem d)).zip strides).foldl (fun (a : Int) p => a + p.2 * (p.1 : Int)) (base : Int) + (n % elem d : Nat)
/-- The source place of byte n of the transfer. -/
def srcByte (d : List Byte) (n : Nat) : Int := place d (src d) (srcStrides d) n
/-- The destination place of byte n of the transfer. -/
def dstByte (d : List Byte) (n : Nat) : Int := place d (dst d) (dstStrides d) n
/-- The bytes of a chunk, by their numbers in the transfer. -/
def chunkBytes (d : List Byte) (k : Nat) : List Nat := (List.range (Nat.min 4096 (total d - 4096 * k))).map (4096 * k + ·)
/-- The T0 offset of the next descriptor of its chain. -/
def next (d : List Byte) : Nat := le d 136 8
/-- The bytes of a chain from a descriptor on, each next one read from the scratch; `fuel` bounds its length (R174). -/
def chainTotal (scratch : Mem) : Nat → List Byte → Nat
  | 0, d => total d
  | k + 1, d => total d + (if chained d then chainTotal scratch k (memRead scratch (next d) 144) else 0)
/-- Why the descriptor cannot run: reserved fields and unlisted encodings (00 R13, R15), and an atomic chain above 1 MiB. Descriptors lie in
T0, where nothing can check them before the plan runs: a chain is checked, whole, when its first descriptor starts (R174, 03 R85; log 85). -/
def bad (scratch : Mem) (d : List Byte) : Option Fail :=
  firstFail [
    (d.length != 144 || bits (le d 18 2) 15 2 != 0 || le d 24 8 != 0 || le d 52 4 != 0 || srcSpace d > 4 || dstSpace d > 4 ||
      !([1, 2, 4, 8, 16, 32, 64, 128, 256, 512, 1024, 2048, 4096].contains (elem d)) || (counts d).contains 0 ||
      (!chained d && le d 136 8 != 0), St.invalidField),
    (atomic d && chainTotal scratch 4096 d > 1048576, St.planInvalid)]
end Xd

/-- The channel of a task with a descriptor. -/
def State.channel? (s : State) (t : TaskRef) : Option Transfer := s.xfer.find? (·.task == t)

/-- Set the channel of a task. -/
def setChannel (x : Transfer) (s : State) : State := s.modXfer fun l => l.filter (·.task ≠ x.task) ++ [x]

/-- An end of a transfer: its space, and the object or stream that it names (Table 5-6; log 31). -/
structure XferEnd where
  space : Nat
  id : Nat
  /-- the places of a chunk's bytes there -/
  at_ : List Int

/-- The source end of a chunk. -/
def XferEnd.source (d : List Byte) (e : XferEnds) (k : Nat) : XferEnd := { space := Xd.srcSpace d, id := e.src, at_ := (Xd.chunkBytes d k).map (Xd.srcByte d) }
/-- The destination end of a chunk. -/
def XferEnd.dest (d : List Byte) (e : XferEnds) (k : Nat) : XferEnd := { space := Xd.dstSpace d, id := e.dst, at_ := (Xd.chunkBytes d k).map (Xd.dstByte d) }

/-- An end lies in host memory: the space T2, or an object placed there. -/
def State.inT2 (s : State) (space id : Nat) : Bool := space == 2 || (space == 3 && (s.obj? id).any (·.flag 2))

/-- A transfer touches T2. -/
def State.usesT2 (s : State) (d : List Byte) (e : XferEnds) : Bool := s.inT2 (Xd.srcSpace d) e.src || s.inT2 (Xd.dstSpace d) e.dst

/-- The T2 addresses of an end's bytes; one outside every region has the object's offset in its place. -/
def State.t2Addresses (s : State) (x : XferEnd) : List Nat :=
  if x.space = 2 then x.at_.map (·.toNat)
  else match s.obj? x.id with
    | some o => if x.space = 3 ∧ o.flag 2 then x.at_.map fun a => (regionAddr o.regions a.toNat).getD a.toNat else []
    | none => []

/-- A place in host memory lies in the input or the output of a command (01 R21). -/
def Cmd.names (c : Cmd) (a : Int) : Bool :=
  let in_ (base n : Nat) : Bool := (base : Int) ≤ a && a < (base + n : Nat)
  in_ c.inAddr c.inLen || (!c.outObj && in_ c.outAddr c.outLen)

/-- The first place of an end that the command's buffers (01 R21), or the regions or the bytes of its object (R178), do not hold. -/
def State.outside (s : State) (c : Cmd) (x : XferEnd) : Option Nat :=
  if x.space = 2 then (x.at_.find? fun a => !c.names a).map (·.toNat)
  else if x.space = 3 then (x.at_.find? fun a => a < 0 || !((s.obj? x.id).any fun o => a < (o.size : Int))).map (·.toNat)
  else none

/-- What an end names is its command's: an object it names, one it writes for a destination, or a stream of which its dome is the consumer
or the producer (R175; 04 R129). -/
def State.endOk (s : State) (c : Cmd) (x : XferEnd) (writes : Bool) : Bool :=
  if x.space = 3 then (s.live? x.id).isSome && (if writes then c.writes.contains x.id else c.objs.contains x.id)
  else if x.space = 4 then (s.stream? x.id).any fun y => (if writes then y.decl.producer else y.decl.consumer) == c.dome
  else true

/-- An end's pages of a BACKED object are resident or declared (R156): the object otherwise. -/
def State.endUndeclared (s : State) (h : Chain) (x : XferEnd) : Option Nat :=
  if x.space = 3 ∧ x.at_.any (fun a => s.undeclared h x.id a.toNat 1) then some x.id else none

/-- The bytes of a chunk at its source (log 31): T0 is the plan's scratch, T2 host memory under the queue's PASID; what T1 holds at an address,
which no plan can name, is a free value. -/
def chunkFrom (c : Cmd) (x : XferEnd) (s : State) : List Byte × State :=
  if x.space = 0 then (x.at_.map fun a => memGet c.scratch a.toNat, s)
  else if x.space = 2 then (x.at_.map fun a => hostGet s.obj.t2 (t2Key (s.pasidOf c.src) a.toNat), s)
  else if x.space = 3 then (x.at_.flatMap fun a => s.objBytes x.id a.toNat 1, x.at_.foldl (fun s a => touch x.id a.toNat 1 s) s)
  else let d := draws x.at_.length s; (d.1.map (BitVec.ofNat 8), d.2)

/-- The bytes of a chunk go to their destination (log 31). -/
def chunkTo (c : Cmd) (x : XferEnd) (bs : List Byte) (s : State) : State :=
  let ps := (x.at_.map (·.toNat)).zip bs
  if x.space = 0 then modCmd c.src (fun c => { c with scratch := ps.foldl (fun m p => memSet m p.1 p.2) c.scratch }) s
  else if x.space = 2 then sendT2 (ps.map fun p => (t2Key (s.pasidOf c.src) p.1, [p.2])) s
  else if x.space = 3 then ps.foldl (fun s p => noteWrite c.src x.id (p.1 + 1) (writeObj x.id p.1 [p.2] s)) s
  else if x.space = 4 then putStream x.id bs s
  else s

/-- A chunk of a stream as n bytes of a transfer: bytes that the chunk lacks are free values (log 31). -/
def fillChunk (n : Nat) (bs : List Byte) (s : State) : List Byte × State :=
  let d := draws (n - bs.length) s
  (bs.take n ++ d.1.map (BitVec.ofNat 8), d.2)

/-! ### Bandwidth shares (R162) -/

/-- The class of an end's traffic on the cluster's port: 0 read, 1 write, 2 remote, for what lies in T0 of the dome's clusters; none for the
plan's own T0 (log 71). -/
def State.classOf (s : State) (space id : Nat) (writes : Bool) : Option Nat :=
  let remote := (space == 3 && (s.obj? id).any (·.flag 0)) || (space == 4 && (s.stream? id).any (!·.decl.inT1))
  if space = 0 then none else if remote then some 2 else some (b2n writes)

/-- The sixteenths of a class (02 R44). -/
def Split.of (x : Split) (cls : Nat) : Nat := if cls = 0 then x.rd else if cls = 1 then x.wr else x.remote

/-- The flits that a dome has sent in a class at a cluster's port in a window. -/
def State.sent (s : State) (cl d cls window : Nat) : Nat :=
  sumN ((s.sch.shares.filter fun e => e.1 == cl && e.2.1 == d && e.2.2.1 == cls && e.2.2.2.1 == window).map (·.2.2.2.2))

/-- The first class whose grant of a window cannot take the flits of a chunk: 125 flits for each sixteenth (R162). -/
def State.shareSpent (s : State) (cl d window flits : Nat) (classes : List Nat) : Option Nat :=
  classes.find? fun k => s.sent cl d k window + flits * classes.count k > 125 * (s.splitOf d).of k

/-- The flits of a chunk count in their classes; windows that have passed are forgotten. -/
def spendShare (cl d window flits : Nat) (classes : List Nat) (s : State) : State :=
  s.modSch fun k => { k with shares := (k.shares.filter fun e => e.2.2.2.1 ≥ window) ++ classes.map fun c => (cl, d, c, window, flits) }

/-- The window of 3.2 µs in which a moment of this tick falls, in tenths of a µs since its boundary. -/
def State.window (s : State) (tenths : Nat) : Nat := (5000 * s.tick.toNat + tenths) / 32

/-- A chunk's flits between a cluster and host memory wake the fabric quadrants that they cross (02 R43; 16 Table 16-1), by way of PHY half 0
(log 17). -/
def wakePath (d cl : Nat) (s : State) : State :=
  (s.trafficPath d cl 0x20).foldl (fun s q => modDomain (43 + q) (fun x => if x.state = .gated then { x with state := .on, idle := 0 } else x) s) s

/-- An unresolved fault (R178): the channel halts, and the task fails with the cursor and the address. -/
def transferFault (t : TaskRef) (x : Transfer) (addr : Nat) (s : State) : State :=
  failTask t (St.transferFault addr (Xd.cursor x.desc x.next))
    (ctrAdd .tierUnresolvedT2Faults t.src.fn 1 (setChannel { x with halted := true, request := none } s))

/-- The PASID of the page requests of a transfer (R177): that of the T2 object (R152), or the binding of the task's queue (04 R118). -/
def State.xferPasid (s : State) (x : Transfer) : Option Nat :=
  let of (space id : Nat) : Option (Option Nat) := if space = 3 then ((s.obj? id).filter (·.flag 2)).map (·.pasid) else none
  ((of (Xd.srcSpace x.desc) x.ends.src).orElse fun _ => of (Xd.dstSpace x.desc) x.ends.dst).getD (s.pasidOf x.task.src)

/-- A missing page (R177, R178): a page request, or a wait when the allocation is used up, or an unresolved fault when page
requests are disabled. -/
def pageMissing (t : TaskRef) (x : Transfer) (addr : Nat) (s : State) : State :=
  match s.fn? t.src.fn with
  | none => s
  | some f =>
    if !f.priEnable then transferFault t x addr s
    else if f.priOut < Nat.min f.priAlloc 4096 then
      setWait t (.page addr) (ctrAdd .tierPageRequestsSent t.src.fn 1
        ((modFn t.src.fn (fun f => { f with priOut := f.priOut + 1 }) (setChannel { x with request := some addr } s)).modOut
          fun o => { o with pages := o.pages ++ [(t.src.fn, s.xferPasid x, addr)] }))
    else setWait t (.page addr) (setChannel { x with request := none } s)

/-- The counter of waits for a class's share: read, write, remote (R162). -/
def shareCounter (cls : Nat) : Ctr :=
  if cls = 0 then .tierShareWaitsRead else if cls = 1 then .tierShareWaitsWrite else .tierShareWaitsRemote

/-- The channel of a task as a chunk of a descriptor finds it: one under way with that descriptor, the next of its chain, which stands in the
scratch where the one before says (Table 5-6), or a new one. none: the engine cannot come to this chunk now. -/
def State.channelFor (s : State) (t : TaskRef) (c : Cmd) (desc : List Byte) (ends : XferEnds) : Option Transfer :=
  match s.channel? t with
  | none => some { task := t, desc, ends }
  | some x =>
    if x.halted || x.request.isSome then none
    else match x.chained with
      | none => if x.desc = desc ∧ x.ends = ends then some x else none
      | some off => if memRead c.scratch off 144 = desc then some { task := t, desc, ends } else none

/-- The channel after a chunk: at the next one, at the next descriptor of the chain, or gone. -/
def chunkDone (x : Transfer) (s : State) : State :=
  if x.next + 1 < Xd.chunks x.desc then setChannel { x with next := x.next + 1 } s
  else if Xd.chained x.desc then setChannel { x with desc := [], next := 0, chained := some (Xd.next x.desc) } s
  else s.modXfer fun l => l.filter (·.task ≠ x.task)

/-- Words of a cluster's T0 that are written whole lose their poison (13 R391): an address in T0 is that of the cluster's frames (log 31). -/
def unpoison (cl : Nat) (at_ : List Nat) (s : State) : State :=
  let gone (p : FrameAt × Nat) : Bool := match p.1 with
    | .t0 c f => c == cl && (List.range 32).all fun i => at_.contains (f * 4096 + p.2 * 32 + i)
    | .t1 _ _ => false
  s.modItg fun t => { t with poisoned := t.poisoned.filter fun p => !gone p }

/-- A chunk is delivered (R174, R175): read at its source, where a stream may make the task wait, and written at its destination. -/
def moveChunk (x : Transfer) (c : Cmd) (r : Run) (a z : XferEnd) (s : State) : State :=
  let land (bs : List Byte) (s : State) : State :=
    chunkDone x (chunkTo c z bs (unpoison r.cluster (if z.space = 0 then z.at_.map (·.toNat) else []) (endWait x.task s)))
  if a.space = 4 then match s.stream? a.id with
    | none => s
    | some y => match takeChunk x.task c r y s with
      | .error u => u
      | .ok (bs, u) => let f := fillChunk a.at_.length bs u; land f.1 f.2
  else let f := chunkFrom c a s; land f.1 f.2

/-- A chunk that its pages let pass: a stream at its destination (R169) and the shares of its classes (R162) may make it wait. -/
def sendChunk (x : Transfer) (c : Cmd) (r : Run) (a z : XferEnd) (window : Nat) (s : State) : State :=
  let classes := (s.classOf a.space a.id false).toList ++ (s.classOf z.space z.id true).toList
  let flits := ceilDiv a.at_.length 64
  match (if z.space = 4 then (s.stream? z.id).bind fun y => chunkRoom x.task c r y s else none) with
  | some u => u
  | none => match s.shareSpent r.cluster c.dome window flits classes with
    | some k => if r.wait = .memory then s else ctrAdd (shareCounter k) c.dome 1 (setWait x.task .memory s)
    | none =>
      moveChunk x c r a z (if s.usesT2 x.desc x.ends then wakePath c.dome r.cluster (spendShare r.cluster c.dome window flits classes s)
        else spendShare r.cluster c.dome window flits classes s)

/-- A task that waits in this way waits for its transfer, or not at all. -/
def Wait.moves : Wait → Bool
  | .none | .streamIn _ | .streamOut _ | .page _ | .memory => true
  | .semaphore _ | .arrays => false

/-- TRANSFER_CHUNK_DELIVERED (R156, R162, R174 to R178; 01 R21; 18 R501): the engine comes to the next chunk of a descriptor, some tenths of a
µs after the last boundary. -/
def execTransferChunkDelivered (t : TaskRef) (desc : List Byte) (ends : XferEnds) (path : ChunkPath) (tenths : Nat) (s : State) : Ans :=
  .next (match s.flight? t with
    | none => s
    | some (c, h, r) => match s.channelFor t c desc ends with
      | none => s
      | some x =>
        let a := XferEnd.source desc ends x.next
        let z := XferEnd.dest desc ends x.next
        match (if x.next = 0 then Xd.bad c.scratch desc else none) with
        | some f => failTask t f s
        | none =>
          if !r.wait.moves || !s.endOk c a false || !s.endOk c z true || (s.hb.quiesced && s.inT2 z.space z.id) then s
          else match (s.outside c a).orElse fun _ => s.outside c z with
            | some addr => transferFault t x addr s
            | none => match (s.endUndeclared h a).orElse fun _ => s.endUndeclared h z with
              | some id => failTask t (undeclaredFail id) s
              | none => match path with
                | .present => sendChunk x c r a z (s.window tenths) s
                | .pageMissing addr =>
                  if (s.t2Addresses a ++ s.t2Addresses z).any (fun b => b / 4096 == addr / 4096) then pageMissing t x addr s else s
                | .ideInsecure =>
                  if s.sec.ide.any (·.insecure) && s.usesT2 desc ends then
                    failTask t { St.transferFault 0 (Xd.cursor desc x.next) with detail := 0x1201 } (setChannel { x with halted := true } s)
                  else s)

/-- The page requests of a function that the channels wait for. -/
def State.awaited (s : State) (fn : Nat) : Nat := (s.xfer.filter fun x => x.task.src.fn == fn && x.request.isSome).length

/-- PAGE_REQUEST_RESPONSE (R177, R178). The response to a request whose task has gone gives the allocation back. -/
def execPageRequestResponse (t : TaskRef) (p : PriResponse) (s : State) : Ans :=
  .next (match (s.channel? t).bind fun x => x.request.map fun a => (x, a) with
    | none =>
      if (s.fn? t.src.fn).any fun f => f.priOut > s.awaited t.src.fn then modFn t.src.fn (fun f => { f with priOut := f.priOut - 1 }) s
      else s
    | some (x, addr) =>
        let s1 := modFn t.src.fn (fun f => { f with priOut := f.priOut - 1 }) s
        match p with
        | .success => endWait t (setChannel { x with request := none } s1)
        | .invalidRequest | .responseFailure => transferFault t x addr s1)

/-- Report an error through Advanced Error Reporting: 0 completion timeout, 1 IDE check failed (19 R512, 18 R501). -/
def reportAer (n : Nat) (s : State) : State := s.modLife fun l => { l with aer := l.aer ++ [n] }

/-! ### Cyclic waits (R171 to R173) -/

/-- The waits of R171 as edges: a stream, the dome that waits and the dome that it waits on. A wait on a stream whose other dome
is suspended by its slice table does not count (03 R93). -/
def State.waitEdges (s : State) : List (Nat × Nat × Nat × Bool) :=
  s.sch.cmds.flatMap fun c => c.chains.filterMap fun h => h.run.bind fun r => match r.wait with
    | .streamIn id => (s.stream? id).bind fun x => if s.eligible x.decl.producer then some (id, c.dome, x.decl.producer, r.waitOld) else none
    | .streamOut id => (s.stream? id).bind fun x => if s.eligible x.decl.consumer then some (id, c.dome, x.decl.consumer, r.waitOld) else none
    | _ => none

/-- The edges that may be part of a cycle (R171): an old wait on a stream in which nothing has moved. -/
def State.stuckEdges (s : State) : List (Nat × Nat × Nat) :=
  (s.waitEdges.filter fun e => e.2.2.2 && !(s.stream? e.1).any (·.moved)).map fun e => (e.1, e.2.1, e.2.2.1)

/-- Domes reached from some domes over edges; `fuel` bounds the length of a way. -/
def reach (es : List (Nat × Nat × Nat)) : Nat → List Nat → List Nat
  | 0, l => l
  | k + 1, l => reach es k (nubN (l ++ (es.filter fun e => l.contains e.2.1).map (·.2.2)))

/-- The edges of cycles: those whose end leads back to their start. -/
def cycleEdges (es : List (Nat × Nat × Nat)) : List (Nat × Nat × Nat) :=
  es.filter fun e => (reach es es.length [e.2.2]).contains e.2.1

/-- The streams of the cycle through an edge. -/
def cycleOf (es : List (Nat × Nat × Nat)) (e : Nat × Nat × Nat) : List Nat :=
  nubN ((es.filter fun f =>
    (reach es es.length [e.2.2]).contains f.2.1 && (reach es es.length [f.2.2]).contains e.2.1).map (·.1))

/-- Spill or halt one cycle (R172, R173). A reserve that can take a chunk spills what its stream's buffer holds, be it nothing. -/
def breakCycle (streams : List Nat) (s : State) : State :=
  match minN streams with
  | none => s
  | some low => match s.stream? low with
    | none => s
    | some x =>
      let free := x.decl.spill / 4096 - x.spilled.length
      if free ≠ 0 then
        let n := Nat.min free x.buffer.length
        let s1 := modStream low (fun x => { x with spilled := x.spilled ++ x.buffer.take n, buffer := x.buffer.drop n }) s
        streamPacket 3 low x.decl.producer 0xFFFF 0 0 <| raisePart x.decl.producer 4 (BitVec.ofNat 32 low) (ctrPart .tierStreamSpills x.decl.producer 1 (wakeN (.streamOut low) n s1))
      else
        let s1 := streams.foldl (fun t id => modStream id (fun x => { x with halted := true, haltBy := low }) t) s
        let victims := streams.flatMap fun id => s.waiting (.streamIn id) ++ s.waiting (.streamOut id)
        let s2 := victims.foldl (fun t v => failTask v (St.streamHalted low) t) s1
        streamPacket 4 low x.decl.producer 0xFFFF 0 0 <| raisePart x.decl.producer 5 (BitVec.ofNat 32 low) (ctrPart .tierStreamHalts x.decl.producer 1 s2)

/-- A cycle is found and broken; its streams are marked until one moves again, so that it is reported once (R171). -/
def foundCycle (streams : List Nat) (s : State) : State :=
  if streams.all fun id => (s.stream? id).any (·.found) then s
  else streams.foldl (fun t id => modStream id (fun x => { x with found := true }) t) (breakCycle streams s)

/-- The work of the stream hardware at a boundary (R171): every cycle once, then the waits and moves of the ended tick are
forgotten. -/
def streamCycles (s : State) : State :=
  let es := cycleEdges s.stuckEdges
  let cycles := (es.map (cycleOf es)).eraseDups
  let s1 := cycles.foldl (fun t c => foundCycle c t) (s.modStrm fun l => l.map fun x => { x with found := x.found && !x.moved })
  let s2 := s1.modStrm fun l => l.map fun x => { x with moved := false }
  s2.modSch fun k => { k with cmds := k.cmds.map fun c => { c with chains := c.chains.map fun h =>
    { h with run := h.run.map fun r => { r with waitOld := r.wait != .none } } } }

end Sys2Proof.Machine
end

