-- ==== Sys2Proof/Machine/Security.lean ====
section
/-! DEFINITION. SPDM over DOE, measurements, tenant keys, the observation fuse and IDE (18 R485 to R501, R505). The byte layouts of the
SPDM messages are those of SPDM 1.3, an external standard (log 22). -/

namespace Sys2Proof.Machine

open Sys2Proof

/-! ### Messages -/

/-- The request code of an SPDM message. -/
def DoeReqCode (d : DoeReq) : Nat := (byteAt d.payload 1).toNat

/-- A number as n bytes, most significant first. -/
def toBE (n v : Nat) : List Byte := (toLE n v).reverse

/-- The mailbox answers: the physical function's configuration space is ready (R489). -/
def State.doeUp (s : State) : Bool := s.powered && s.life.cfgReady

/-- A response leaves through the mailbox. -/
def doeSend (r : List Byte) (s : State) : State := s.modOut fun o => { o with doe := o.doe ++ [r] }

/-- An ERROR response. -/
def spdmError (code : Nat) (s : State) : State := doeSend [0x13, 0x7F, BitVec.ofNat 8 code, 0] s

/-- The secure session that a request came in is open. -/
def State.sessionOpen (s : State) (n : Nat) : Bool := s.sec.sessions.any (·.1 == n)

/-- The secure session that a request came in is established (R490). -/
def State.established (s : State) (x : Option Nat) : Bool := x.any fun n => s.sec.sessions.contains (n, true)

/-- An SPDM request of a row acts: the mailbox answers, the request carries its code, its session is open and its version is 1.3 (R490). -/
def spdmRuns (code : Nat) (d : DoeReq) (s : State) : Bool :=
  s.doeUp && DoeReqCode d == code && !(d.session.any fun n => !s.sessionOpen n) && byteAt d.payload 0 == 0x13

/-- An SPDM request: it acts when it carries its own request code, its session is open and its version is 1.3 (R490). -/
def spdm (code : Nat) (d : DoeReq) (own : State → State) (s : State) : Ans :=
  .next (
    if !s.doeUp || DoeReqCode d != code then s
    else if d.session.any fun n => !s.sessionOpen n then spdmError 0x02 s
    else if byteAt d.payload 0 ≠ 0x13 then spdmError 0x41 s
    else own s)

/-- The conversation has reached a stage, else ERROR UnexpectedRequest. -/
def staged (n : Nat) (own : State → State) (s : State) : State := if s.sec.spdm = n then own s else spdmError 0x04 s

/-- n random bytes of the Keep: free values (log 3). -/
def randomBytes : Nat → State → List Byte × State
  | 0, s => ([], s)
  | n + 1, s =>
    let d := draw s
    let r := randomBytes n d.2
    (toLE 8 d.1.toNat ++ r.1, r.2)

/-- Sign a transcript with the alias key: the signature covers its SHAKE256 digest (R491). -/
def signed (transcript : List Byte) (s : State) : List Byte × State :=
  let d := draw s
  (Config.falconSign s.sec.aliasDigest (Config.shake256 transcript) d.1.toNat, d.2)

/-! ### Discovery, version, capabilities, algorithms (R489 to R491) -/

/-- DOE_DISCOVERY (R489): object types 0, 1 and 2 of the PCI-SIG; each answer names the next index. -/
def execDoeDiscovery (d : DoeReq) (s : State) : Ans :=
  .next (
    if !s.doeUp then s
    else
      let i := (byteAt d.payload 0).toNat
      doeSend (if i > 2 then [0xFF, 0xFF, 0, 0] else [0x01, 0x00, BitVec.ofNat 8 i, BitVec.ofNat 8 ((i + 1) % 3)]) s)

/-- The SPDM request codes of the rows (Table 18-1). -/
def spdmCodes : List Nat := [0x81, 0x82, 0x83, 0xE0, 0xE1, 0xE3, 0xE4, 0xE5, 0xEC, 0xFE]

/-- GET_VERSION (R490): version 1.3 only. Another request code receives ERROR UnsupportedRequest, here. -/
def execGetVersion (d : DoeReq) (s : State) : Ans :=
  .next (
    if !s.doeUp || spdmCodes.contains (DoeReqCode d) then s
    else if DoeReqCode d ≠ 0x84 then spdmError 0x07 s
    else if byteAt d.payload 0 ≠ 0x10 then spdmError 0x41 s
    else
      let r : List Byte := [0x10, 0x04, 0, 0, 0, 1, 0x00, 0x13]
      doeSend r (s.modSec fun x => { x with spdm := 1, vca := d.payload ++ r, transcript := [], measured := [] }))

/-- The capability flags of Table 18-1. -/
def spdmFlags : Nat := 0x202F6

/-- GET_CAPABILITIES (R490, Table 18-1). -/
def execGetCapabilities (d : DoeReq) (s : State) : Ans :=
  spdm 0xE1 d (staged 1 fun s =>
    let r : List Byte := [0x13, 0x61, 0, 0, 0, 14, 0, 0] ++ toLE 4 spdmFlags ++ toLE 4 4096 ++ toLE 4 65536
    doeSend r (s.modSec fun x => { x with spdm := 2, vca := x.vca ++ d.payload ++ r })) s

/-- The entries of R491: Falcon-1024 and SHAKE256 with 64 bytes of output. -/
def falconEntry : List Byte := [0x03, 0x00, 0x01, 0x0F]
def shakeEntry : List Byte := [0x03, 0x00, 0x02, 0x0F]

/-- The extended entries that NEGOTIATE_ALGORITHMS offers. -/
def extOffered (p : List Byte) : List (List Byte) :=
  (List.range ((byteAt p 28).toNat + (byteAt p 29).toNat)).map fun i => slice p (32 + 4 * i) 4

/-- The ALGORITHMS response (R491). -/
def algorithms : List Byte :=
  [0x13, 0x63, 4, 0] ++ toLE 2 60 ++ [1, 0] ++ toLE 4 1 ++ toLE 4 0 ++ toLE 4 0 ++ List.replicate 12 0 ++ [1, 1, 0, 0] ++
  falconEntry ++ shakeEntry ++
  [2, 0x20, 0x10, 0, 3, 0x20, 0x02, 0, 4, 0x20, 0, 0, 5, 0x20, 0x01, 0]

/-- NEGOTIATE_ALGORITHMS (R491): a requester that offers neither entry receives ERROR InvalidRequest. -/
def execNegotiateAlgorithms (d : DoeReq) (s : State) : Ans :=
  spdm 0xE3 d (staged 2 fun s =>
    if !(extOffered d.payload).contains falconEntry && !(extOffered d.payload).contains shakeEntry then spdmError 0x01 s
    else doeSend algorithms (s.modSec fun x => { x with spdm := 3, vca := x.vca ++ d.payload ++ algorithms })) s

/-! ### Certificates and measurements (R486, R492, R493) -/

/-- The certificate chain of slot 0 as SPDM carries it: its length, the root's digest and the certificates (R486). -/
def State.chainBytes (s : State) : List Byte :=
  let cs := Config.certificates s.sec.aliasDigest s.sec.aliasSecver
  let h := Config.shake256 Config.rootCertificate
  toLE 2 (4 + h.length + cs.length) ++ [0, 0] ++ h ++ cs

/-- GET_DIGESTS (R486): slot 0 alone. -/
def execGetDigests (d : DoeReq) (s : State) : Ans :=
  spdm 0x81 d (staged 3 fun s =>
    let r : List Byte := [0x13, 0x01, 0x01, 0x01] ++ Config.shake256 s.chainBytes
    doeSend r (s.modSec fun x => { x with transcript := x.transcript ++ d.payload ++ r })) s

/-- GET_CERTIFICATE (R486): a part of the chain, at most what one transfer of 4,096 bytes carries. -/
def execGetCertificate (d : DoeReq) (s : State) : Ans :=
  spdm 0x82 d (staged 3 fun s =>
    let chain := s.chainBytes
    let off := le d.payload 4 2
    let n := Nat.min (Nat.min (le d.payload 6 2) 4088) (chain.length - off)
    if byteAt d.payload 2 ≠ 0 ∨ off ≥ chain.length then spdmError 0x01 s
    else
      let r : List Byte := [0x13, 0x02, 0, 0] ++ toLE 2 n ++ toLE 2 (chain.length - off - n) ++ slice chain off n
      doeSend r (s.modSec fun x => { x with transcript := x.transcript ++ d.payload ++ r })) s

/-- The digest of a section in the image that a core runs; 64 zero bytes where it cannot be read. -/
def State.coreDigest (s : State) (slot kind : Nat) : Option (List Byte) := fwDigest (s.slotAt slot).image kind

/-- The measurement blocks of Table 18-2, each an index, a value type and its value (R492, R493). -/
def State.blocks (s : State) : List (Nat × Nat × List Byte) :=
  let dig (slot kind : Nat) : List Byte := (s.coreDigest slot kind).getD []
  let keepImage := (s.slotAt s.fw.keep).image
  let front := match s.coreDigest s.fw.keep 6 with
    | some x => [(7, 0x81, x)]
    | none => []
  [(1, 0x80, Config.romDigest), (2, 0x81, dig s.fw.keep 1), (3, 0x81, dig s.fw.vane 2), (4, 0x81, dig s.fw.vane 3),
   (5, 0x81, dig s.fw.scheduler 4), (6, 0x81, dig ((s.fw.bands[24]?).getD 0) 5)] ++ front ++
  [(8, 0x87, toLE 4 (imageSecurity keepImage) ++ toLE 1 s.sec.floor ++ toLE 1 ((signerSlot keepImage).getD 0) ++
       toLE 1 s.sec.revoked.toNat ++ [0]),
   (9, 0x82, toLE 1 (b2n s.sec.obsOff) ++ toLE 1 (Config.fusedClusters % 33) ++ toLE 1 s.itg.retired.length ++ List.replicate 5 0),
   (10, 0x83, s.str.digest)]

/-- A measurement block as the response carries it: DMTF measurement specification, value type, size and value. -/
def blockBytes (b : Nat × Nat × List Byte) : List Byte :=
  toLE 1 b.1 ++ [1] ++ toLE 2 (3 + b.2.2.length) ++ toLE 1 b.2.1 ++ toLE 2 b.2.2.length ++ b.2.2

/-- The measurement summary of a challenge or a key exchange: asked for by a type of 1 or 0xFF. -/
def State.summary (s : State) (type_ : Byte) : List Byte :=
  if type_ = 0 then [] else Config.shake256 ((s.blocks.map blockBytes).flatten)

/-- CHALLENGE (R490, R491): signed over the version, capabilities, algorithms, certificate and challenge messages. -/
def execChallenge (d : DoeReq) (s : State) : Ans :=
  spdm 0x83 d (staged 3 fun s =>
    if byteAt d.payload 2 ≠ 0 ∨ ! [0, 1, 0xFF].contains (byteAt d.payload 3) then spdmError 0x01 s
    else
      let n := randomBytes 4 s
      let r : List Byte := [0x13, 0x03, 0, 1] ++ Config.shake256 s.chainBytes ++ n.1 ++ s.summary (byteAt d.payload 3) ++ toLE 2 0 ++
        padTo (slice d.payload 36 8) 8
      let g := signed (s.sec.vca ++ s.sec.transcript ++ d.payload ++ r) n.2
      doeSend (r ++ g.1) (g.2.modSec fun x => { x with transcript := [] })) s

/-- GET_MEASUREMENTS (R492, R493): the number of blocks, one block or all; signed with the alias key and taken fresh. -/
def execGetMeasurements (d : DoeReq) (s : State) : Ans :=
  spdm 0xE0 d (staged 3 fun s =>
    let op := (byteAt d.payload 3).toNat
    let bs := s.blocks.filter fun b => op == 0xFF || b.1 == op
    let body := (bs.map blockBytes).flatten
    if op ≠ 0 ∧ bs.isEmpty then spdmError 0x01 s
    else
      let n := randomBytes 4 s
      let at_ := if bit (byteAt d.payload 2).toNat 0 then 37 else 4
      let r : List Byte := [0x13, 0x60, BitVec.ofNat 8 (if op = 0 then s.blocks.length else 0), 0] ++ toLE 1 bs.length ++
        toLE 3 body.length ++ body ++ n.1 ++ toLE 2 0 ++ padTo (slice d.payload at_ 8) 8
      let g := signed (s.sec.vca ++ s.sec.measured ++ d.payload ++ r) n.2
      doeSend (r ++ g.1) (g.2.modSec fun x => { x with measured := [] })) s

/-! ### Sessions (R490) -/

/-- KEY_EXCHANGE (R490): at most two sessions are open at once. The module's random data, key share and verification data are free
values (log 3). -/
def execKeyExchange (d : DoeReq) (s : State) : Ans :=
  spdm 0xE4 d (staged 3 fun s =>
    if byteAt d.payload 3 ≠ 0 ∨ ! [0, 1, 0xFF].contains (byteAt d.payload 2) then spdmError 0x01 s
    else if s.sec.sessions.length ≥ 2 then spdmError 0x03 s
    else
      let n := (s.sec.opened + 1) % 65536
      let id := le d.payload 4 2 + 65536 * n
      let x := randomBytes 16 s
      let r : List Byte := [0x13, 0x64, 0, 0] ++ toLE 2 n ++ [0, 0] ++ x.1 ++ s.summary (byteAt d.payload 2) ++ toLE 2 0
      let g := signed (s.sec.vca ++ Config.shake256 s.chainBytes ++ d.payload ++ r) x.2
      let v := randomBytes 8 g.2
      doeSend (r ++ g.1 ++ v.1) (v.2.modSec fun y => { y with sessions := y.sessions ++ [(id, false)], opened := n })) s

/-- FINISH (R490): in the handshake of its session; the command stands for one whose verification data are right (log 22). -/
def execFinish (d : DoeReq) (s : State) : Ans :=
  spdm 0xE5 d (fun s =>
    match d.session with
    | none => spdmError 0x04 s
    | some n =>
      if s.established d.session then spdmError 0x04 s
      else doeSend [0x13, 0x65, 0, 0] (s.modSec fun x => { x with sessions := updIf (·.1 == n) (fun _ => (n, true)) x.sessions })) s

/-- END_SESSION (R490): its own session ends. -/
def execEndSession (d : DoeReq) (s : State) : Ans :=
  spdm 0xEC d (fun s =>
    match d.session with
    | none => spdmError 0x04 s
    | some n =>
      if !s.established d.session then spdmError 0x04 s
      else doeSend [0x13, 0x6C, 0, 0] (s.modSec fun x => { x with sessions := x.sessions.filter (·.1 ≠ n) })) s

/-! ### Vendor key messages (R495, R498, R505; Table 18-3) -/

/-- The operation of a vendor message: byte 0 of its payload, after the standard, the vendor ID and the length. -/
def vendorOp (d : DoeReq) : Nat := (byteAt d.payload 11).toNat

/-- The bytes after the operation. -/
def vendorBody (d : DoeReq) : List Byte := d.payload.drop 12

/-- A vendor message answers with one status byte. -/
def vendorAnswer (status : Nat) (s : State) : State :=
  doeSend ([0x13, 0x7E, 0, 0] ++ toLE 2 3 ++ [2] ++ toLE 2 Config.vendorId ++ toLE 2 1 ++ toLE 1 status) s

/-- A vendor message inside an established session, under StandardID 0x0003 and the Vendor ID of the function; outside one it receives
ERROR UnsupportedRequest (R495). -/
def vendorMessage (d : DoeReq) (op : Nat → Bool) (own : State → State) (s : State) : Ans :=
  if !op (vendorOp d) then .next s
  else spdm 0xFE d (fun s =>
    if !s.established d.session then spdmError 0x07 s
    else if le d.payload 4 2 ≠ 3 ∨ byteAt d.payload 6 ≠ 2 ∨ le d.payload 7 2 ≠ Config.vendorId % 65536 then spdmError 0x07 s
    else own s) s

/-- A vendor message acts: it is a VENDOR_DEFINED_REQUEST in an established session, with its standard and vendor (R495). -/
def vendorRuns (d : DoeReq) (s : State) : Bool :=
  spdmRuns 0xFE d s && s.established d.session && le d.payload 4 2 == 3 && byteAt d.payload 6 == 2 &&
  le d.payload 7 2 == Config.vendorId % 65536

/-- LOAD_TENANT_KEY (R495): status 0 done, 1 field invalid, 2 loaded with a different key or partition. An unlisted operation is
answered here. -/
def execLoadTenantKey (d : DoeReq) (s : State) : Ans :=
  vendorMessage d (fun o => o != 2 && o != 3) (fun s =>
    let b := vendorBody d
    let t := le b 0 2
    let p := le b 2 2
    let k : BitVec 256 := BitVec.ofNat 256 (le b 4 32)
    if vendorOp d ≠ 1 ∨ b.length ≠ 36 ∨ t > 0xFFF ∨ p = 0 ∨ p > 0xFFF then vendorAnswer 1 s
    else match s.key? t with
      | some x => vendorAnswer (if x.part = p ∧ x.key = k then 0 else 2) s
      | none => vendorAnswer 0 (s.modSec fun x => { x with keys := x.keys ++ [{ tenant := t, part := p, key := k }] })) s

/-- UNLOAD_TENANT_KEY (R495, R498): status 3 when the tenant has no key. Commands taken before it keep their keys. -/
def execUnloadTenantKey (d : DoeReq) (s : State) : Ans :=
  vendorMessage d (· == 2) (fun s =>
    let b := vendorBody d
    let t := le b 0 2
    if b.length ≠ 2 ∨ t > 0xFFF then vendorAnswer 1 s
    else if (s.key? t).isNone then vendorAnswer 3 s
    else vendorAnswer 0 (s.modSec fun x => { x with keys := x.keys.filter (·.tenant ≠ t) })) s

/-- FUSE_OBSERVATION_OFF (R495, R505): the fuse is burned for ever; domain 49 goes OFF and stays OFF. -/
def execFuseObservationOff (d : DoeReq) (s : State) : Ans :=
  vendorMessage d (· == 3) (fun s =>
    let b := vendorBody d
    if b.length ≠ 4 ∨ le b 0 4 ≠ 0x46464F4C then vendorAnswer 1 s
    else if s.sec.obsOff then vendorAnswer 4 s
    else vendorAnswer 0 (lanternDark (s.modSec fun x => { x with obsOff := true }))) s

/-! ### IDE (R500, R501) -/

/-- An IDE stream's record. -/
def State.ideStream (s : State) (n : Nat) : IdeStream := (s.sec.ide.find? (·.id == n)).getD { id := n }

/-- Put an IDE stream's record. -/
def putIde (x : IdeStream) (s : State) : State := s.modSec fun y => { y with ide := x :: y.ide.filter (·.id ≠ x.id) }

/-- Keys of the same set, direction and substream. -/
def IdeKey_same (a b : IdeKey) : Bool := a.keySet == b.keySet && a.rx == b.rx && a.substream == b.substream

/-- An IDE_KM acknowledgement: its object, stream, status and the key's place. -/
def ideAck (object status : Nat) (k : IdeKey) (s : State) : State :=
  doeSend ([0x00, BitVec.ofNat 8 object, 0, 0] ++ toLE 1 k.stream ++ toLE 1 status ++
    toLE 1 (k.keySet % 2 + 2 * b2n (!k.rx) + 16 * (k.substream % 16)) ++ [0]) s

/-- IDE_KM inside an established session; outside one nothing is programmed and the request is not supported (R500). -/
def ideKm (session : Option Nat) (object : Nat) (k : IdeKey) (own : State → State) (s : State) : Ans :=
  .next (
    if !s.doeUp then s
    else if !s.established session then spdmError 0x07 s
    else if k.stream > 8 || k.keySet > 1 || k.substream > 2 then ideAck object 3 k s
    else own s)

/-- KEY_PROG (R500): a key of a stream is programmed. -/
def execKeyProg (session : Option Nat) (k : IdeKey) (s : State) : Ans :=
  ideKm session 3 k (fun s =>
    let x := s.ideStream k.stream
    ideAck 3 0 k (putIde { x with keys := k :: x.keys.filter fun y => !IdeKey_same y k } s)) s

/-- K_SET_GO (R500, R501): a programmed key set comes into use; a stream that was Insecure sends again, and with the link's stream the
held completions are posted. -/
def execKSetGo (session : Option Nat) (k : IdeKey) (s : State) : Ans :=
  ideKm session 6 k (fun s =>
    let x := s.ideStream k.stream
    if !x.keys.any fun y => IdeKey_same y k then ideAck 6 4 k s
    else
      let s1 := ideAck 6 0 k (putIde { x with active := some k.keySet, insecure := false } s)
      if k.stream = 0 ∧ x.insecure then postHeld s1 else s1) s

/-- K_SET_STOP (R500): a key set goes out of use. -/
def execKSetStop (session : Option Nat) (k : IdeKey) (s : State) : Ans :=
  ideKm session 6 k (fun s =>
    let x := s.ideStream k.stream
    ideAck 6 0 k (putIde { x with active := if x.active = some k.keySet then none else x.active } s)) s

/-- IDE_STREAM_INSECURE (R501): a stream in use becomes Insecure, which Advanced Error Reporting reports. -/
def execIdeStreamInsecure (stream : Nat) (s : State) : Ans :=
  .next (
    let x := s.ideStream stream
    if stream > 8 || x.active.isNone || x.insecure then s
    else reportAer 1 (putIde { x with insecure := true } s))

end Sys2Proof.Machine
end

