-- ==== Sys2Proof/Machine/Registers.lean ====
section
/-! DEFINITION. The registers: doorbells and fetching, the writes of BAR0, BAR2 and configuration space, and what a read of BAR2 returns
(04 R120, R136; 00 R12, R15 to R18; 22 R554 to R568). -/

namespace Sys2Proof.Machine

open Sys2Proof

/-! ### Doorbells and fetching (04 R120, R136; 22 R555) -/

/-- A function's BAR0 and BAR2 answer: configuration space is ready and its Memory Space Enable is set. -/
def State.barOpen (s : State) (f : Nat) : Bool := s.life.cfgReady && (s.fn? f).any fun x => x.enabled && x.memSpace

/-- An invalid doorbell write is reported as an Error event: 0 for a queue that does not exist, 1 for a value out of its range (R555;
log 14). -/
def badDoorbell (f info : Nat) (s : State) : State := aen f 0 info 0x01 s

/-- SQ_TAIL_DOORBELL (04 R136; R555): accepted on a frozen queue as well. -/
def execSqTailDoorbell (fn sq : Nat) (value : DWord) (s : State) : Ans :=
  .next (
    if !s.barOpen fn then s
    else match s.sq? fn sq with
      | none => badDoorbell fn 0 s
      | some q =>
        if bits value.toNat 15 0 ≥ q.size then badDoorbell fn 1 s
        else modSq fn sq (fun q => { q with tail := bits value.toNat 15 0 }) s)

/-- CQ_HEAD_DOORBELL (R555): entries are free again, and completions that waited for them are posted. -/
def execCqHeadDoorbell (fn cq : Nat) (value : DWord) (s : State) : Ans :=
  .next (
    if !s.barOpen fn then s
    else match s.cq? fn cq with
      | none => badDoorbell fn 0 s
      | some q =>
        if bits value.toNat 15 0 ≥ q.size then badDoorbell fn 1 s
        else q.waiting.foldl (fun s c => postNow c s) (modCq fn cq (fun q => { q with head := bits value.toNat 15 0, waiting := [] }) s))

/-- The front end may fetch from a queue: its controller is ready, and the queue holds an entry, is not frozen, is not being deleted
and, for an I/O queue, the driver is not quiesced (03 R100; 04 R136, R139). -/
def State.mayFetch (s : State) (f : Nat) (q : Sq) : Bool :=
  s.life.phase == .up && (s.fn? f).any (fun x => x.rdy && x.busMaster) && q.head != q.tail && !q.frozen && q.deleting.isNone &&
    !(s.hb.quiesced && q.id != 0)

/-- The opcodes that the module supports on a queue: of admin commands on queue 0, of NVM and Milris commands on another (04 R109,
Tables 4-1, 4-3 and 4-5). -/
def opcodesOf (sq : Nat) : List Nat :=
  if sq = 0 then [0x00, 0x01, 0x02, 0x04, 0x05, 0x06, 0x08, 0x09, 0x0A, 0x0C, 0x0D, 0x10, 0x11, 0x15, 0x1C, 0x80, 0x84,
    0xC0, 0xC1, 0xC2, 0xC3, 0xC4, 0xC5, 0xC6]
  else [0x00, 0x01, 0x02, 0x08, 0x09, 0x0C, 0x81, 0x82, 0x85, 0x88, 0x89, 0x8A, 0x8C, 0x8D, 0x90, 0x91, 0x92, 0x93]

/-- The entry at the head of a queue is fetched. -/
def fetch (fn sq : Nat) (s : State) : State :=
  (modSq fn sq (fun q => { q with head := (q.head + 1) % q.size }) s).modQ fun x => { x with fetched := x.fetched ++ [(fn, sq)] }

/-- COMMAND_FETCH (04 R109, R120): the entry at the head of a queue is fetched. One whose opcode the module does not support, given with its
command identifier, is taken at once and completes with Invalid Opcode (log 93). -/
def execCommandFetch (fn sq : Nat) (unsupported : Option (Nat × Nat)) (s : State) : Ans :=
  .next (match s.sq? fn sq with
    | none => s
    | some q =>
      if !s.mayFetch fn q then s
      else match unsupported with
        | none => fetch fn sq s
        | some (opcode, cid) =>
          if (opcodesOf sq).contains opcode then fetch fn sq s
          else refuse { fn, sq, cid } St.invalidOpcode (begun { fn, sq, cid } opcode 0xFFFF (fetch fn sq s)))

/-! ### RW fields of BAR2 (R560 to R562; 00 R15) -/

/-- Write one dword of the heartbeat block: HBEAT, SILENCE or HOLD (03 R98; R561, R562, Table 22-11). -/
def writeBeat (d : Nat × DWord) (us : Nat) (s : State) : State :=
  if d.1 = 0x1000 then heartbeat d.2 us s
  else if d.1 = 0x1004 ∧ 100 ≤ bits d.2.toNat 13 0 ∧ bits d.2.toNat 13 0 ≤ 10000 then s.modReg fun r => { r with silence := bits d.2.toNat 13 0 }
  else if d.1 = 0x1008 ∧ 1 ≤ bits d.2.toNat 11 0 ∧ bits d.2.toNat 11 0 ≤ 3600 then s.modReg fun r => { r with hold := bits d.2.toNat 11 0 }
  else s

/-- HBEAT_WRITE (03 R98; R561): a write that covers HBEAT; a qword covers SILENCE as well. -/
def execHbeatWrite (w : RegWrite) (us : Nat) (s : State) : Ans :=
  .next (
    if s.bar2 w 0x1000 0x1004 && w.fn == 0 then (RegWriteDwords w).foldl (fun s d => writeBeat d us s) s else s)

/-- The capability structures: ID, base and length in dwords. Each begins at the next multiple of 8 (R558; log 60). -/
def capTable : List (Nat × Nat × Nat) :=
  [(0x1, 0x100, 8), (0x2, 0x120, 10), (0x3, 0x148, 4), (0x4, 0x158, 6), (0x5, 0x170, 4), (0x6, 0x180, 5), (0x7, 0x198, 10),
   (0x8, 0x1C0, 6), (0x9, 0x1D8, 4), (0xA, 0x1E8, 8), (0xB, 0x208, 4)]

/-- The structure at an offset, with the offset within it. -/
def capAt (off : Nat) : Option (Nat × Nat) :=
  (capTable.find? fun c => c.2.1 ≤ off && off < c.2.1 + 4 * c.2.2).map fun c => (c.1, off - c.2.1)

/-- A value within the range of its field, else the value before (00 R15). -/
def keepRange (lo hi v old : Nat) : Nat := if lo ≤ v ∧ v ≤ hi then v else old

/-- Write one dword of a capability's RW fields (R560, Table 22-10). -/
def writeCap (off : Nat) (v : DWord) (r : Settings) : Settings :=
  let n := v.toNat
  match capAt off with
  | some (0x7, 0x08) => { r with period := keepRange 1 1024 (bits n 10 0) r.period }
  | some (0xA, 0x08) => { r with scales := bit n 0, readLevels := bit n 1, thermal := bit n 2 }
  | some (0xA, 0x0C) => { r with target := keepRange 16 255 (bits n 7 0) r.target, step := keepRange 1 4 (bits n 10 8) r.step }
  | some (0xA, 0x10) => { r with minRows := keepRange 256 1048576 (bits n 20 0) r.minRows }
  | some (0xA, 0x14) => { r with coverage := keepRange 60000 65535 (bits n 15 0) r.coverage }
  | some (0xA, 0x18) => { r with freeze := r.freeze &&& 0xFFFFFFFF00000000#64 ||| v.setWidth 64 }
  | some (0xA, 0x1C) => { r with freeze := r.freeze &&& 0x00000000FFFFFFFF#64 ||| (v.setWidth 64 <<< 32) }
  | some (0xB, 0x08) => { r with refresh := keepRange 10000 1000000 (bits n 19 0) r.refresh }
  | _ => r

/-- Write one dword of BAR2 without a row of its own; the regions that are read-only or reserved ignore it (00 R12). -/
def writeBar2 (f : Nat) (d : Nat × DWord) (s : State) : State :=
  if 0x100 ≤ d.1 ∧ d.1 < 0x1000 then s.modReg (writeCap d.1 d.2)
  else if 0x1000 ≤ d.1 ∧ d.1 < 0x1040 ∧ f = 0 then writeBeat d 0 s
  else if 0x2000 ≤ d.1 ∧ d.1 < 0x3000 then writeEvent f d s
  else s

/-! ### BAR0 and configuration space (R555; log 12) -/

/-- Write one dword of the controller registers: INTMS, INTMC, AQA, ASQ and ACQ. -/
def writeBar0 (f : Nat) (d : Nat × DWord) (s : State) : State :=
  modFn f (fun x =>
    let v := d.2
    if d.1 = 0x0C then { x with intm := x.intm ||| v }
    else if d.1 = 0x10 then { x with intm := x.intm &&& ~~~v }
    else if d.1 = 0x24 then { x with aqa := v &&& 0x0FFF0FFF }
    else if d.1 = 0x28 then { x with asq := x.asq &&& 0xFFFFFFFF00000000#64 ||| (v &&& 0xFFFFF000).setWidth 64 }
    else if d.1 = 0x2C then { x with asq := x.asq &&& 0x00000000FFFFFFFF#64 ||| (v.setWidth 64 <<< 32) }
    else if d.1 = 0x30 then { x with acq := x.acq &&& 0xFFFFFFFF00000000#64 ||| (v &&& 0xFFFFF000).setWidth 64 }
    else if d.1 = 0x34 then { x with acq := x.acq &&& 0x00000000FFFFFFFF#64 ||| (v.setWidth 64 <<< 32) }
    else x) s

/-- A write of CC that neither turns the controller on or off nor begins a shutdown sets CC alone. -/
def writeCc (w : RegWrite) (s : State) : State :=
  match ccWrite w s with
  | some (old, new) =>
    if old.getLsbD 0 != new.getLsbD 0 || (shn new == 1 && shn old != 1) || (shn new == 2 && shn old != 2) then s
    else modFn w.fn (fun x => { x with cc := new }) s
  | none => s

/-- The virtual functions that SR-IOV enables come and go (04 R114, R134; log 12). -/
def setVfs (n : Nat) (s : State) : State :=
  let gone := (s.fns.filter fun f => f.id > n).map (·.id)
  let s1 := gone.foldl (fun s f => stopController f 0 s) s
  s1.modFns fun fs =>
    (fs.filter fun f => f.id ≤ n) ++ ((List.range n).map (· + 1) |>.filter fun i => !fs.any (·.id == i)).map fun i => ({ id := i } : Func)

/-- Write a field of configuration space (log 12): Command, MSI-X control, page-request control and allocation, SR-IOV control, and the
mask of an MSI-X vector. -/
def writeConfig (f off : Nat) (v : DWord) (s : State) : State :=
  if !s.life.cfgReady then s
  else if off = 0x04 then modFn f (fun x => { x with memSpace := v.getLsbD 1, busMaster := v.getLsbD 2 }) s
  else if off = 0x100 then flushPba f (modFn f (fun x => { x with msix := v.getLsbD 15 }) s)
  else if off = 0x104 then modFn f (fun x => { x with priEnable := v.getLsbD 0 }) s
  else if off = 0x108 then modFn f (fun x => { x with priAlloc := v.toNat }) s
  else if off = 0x10C ∧ f = 0 then setVfs (if v.getLsbD 0 then Nat.min 63 (bits v.toNat 21 16) else 0) s
  else if 0x2000 ≤ off ∧ off < 0x2000 + 4 * 2048 ∧ v.getLsbD 0 then modFn f (fun x => { x with unmasked := delN ((off - 0x2000) / 4) x.unmasked }) s
  else s

/-- REGISTER_WRITE (R555, R560, R562; 00 R15, R16): a write to a register field without a row of its own. Bar 255 stands for
configuration space (log 12). -/
def execRegisterWrite (w : RegWrite) (s : State) : Ans :=
  .next (
    if w.bar = 255 then (RegWriteDwords w).foldl (fun s d => writeConfig w.fn d.1 d.2 s) s
    else if !s.barOpen w.fn then s
    else if w.bar = 0 then
      (if w.offset = 0x14 then writeCc w s else (RegWriteDwords w).foldl (fun s d => writeBar0 w.fn d s) s)
    else if w.bar = 2 then
      (if s.bar2 w 0x1000 0x1004 || s.bar2 w 0x2000 0x2400 || (s.bar2 w 0x2600 0x2700 && w.offset % 8 == 0) then s
       else (RegWriteDwords w).foldl (fun s d => writeBar2 w.fn d s) s)
    else s)

/-! ### What BAR2 shows (R556 to R567) -/

/-- Fields that firmware sets read 0 until CSTS.RDY has been set (00 R18). -/
def State.fwSet (s : State) (v : Nat) : Nat := if s.life.fwSet then v else 0

/-- The identity block (R557, Table 22-5). -/
def identityDword (s : State) (off : Nat) : Nat :=
  let keep := (s.slotAt s.fw.keep).image
  if off = 0x00 then 0x4F59444B
  else if off = 0x04 then 1
  else if 0x08 ≤ off ∧ off < 0x18 then le (padTo (ascii "KD240-P7A") 16) (off - 0x08) 4
  else if 0x18 ≤ off ∧ off < 0x28 then le (padTo Config.serial 16) (off - 0x18) 4
  else if off = 0x28 ∨ off = 0x2C then s.fwSet (memLE keep (32 + (off - 0x28)) 4)
  else if off = 0x30 then s.fwSet (memLE keep 16 4)
  else if off = 0x34 then s.fwSet (memLE keep 12 4)
  else if off = 0x38 then s.life.bootst.toNat + 256 * s.fwSet s.fw.booted + 65536 * s.sec.floor
  else if off = 0x3C then 800 + 65536 * (Config.fusedClusters % 33) + 4194304 * b2n s.sec.obsOff
  else 0

/-- DRAM channel groups in service. -/
def State.groupsLeft (s : State) : List Nat := (List.range 8).filter fun g => !s.itg.retired.contains g

/-- The fixed words of the capabilities (Tables 22-7 and 22-9): ID, offset and value. -/
def capFixed : List (Nat × Nat × Nat) :=
  [(0x1, 0x08, 800 + 65536 * 4 + 16777216 * 32), (0x1, 0x0C, 1966080), (0x1, 0x10, 4095 + 65536 * 64), (0x1, 0x14, 0x3000),
   (0x1, 0x18, 0x80000), (0x1, 0x1C, 64),
   (0x3, 0x08, 0x7F + 256 * 7 + 4096 * 7 + 65536 + 131072 * 4 + 1048576),
   (0x4, 0x08, 4096 + 65536 * 1024), (0x4, 0x0C, 1024 + 65536 * 4096), (0x4, 0x10, 256 + 65536 * 7 + 16777216 * 8 + 268435456 * 7),
   (0x5, 0x08, 4096 + 65536 * 64), (0x5, 0x0C, 1048576),
   (0x6, 0x08, 4096 + 65536 * 32), (0x6, 0x0C, 0x2000), (0x6, 0x10, 1023),
   (0x8, 0x08, 63 + 256 * 64 + 65536 * 64), (0x8, 0x0C, 16773120), (0x8, 0x10, 1073741824),
   (0x9, 0x08, 256 + 65536 * 65535), (0x9, 0x0C, 4096 + 65536 * 8192)]

/-- The word of a capability at an offset within it (R558 to R560, Tables 22-6 to 22-10). -/
def capDword (s : State) (id rel : Nat) : Nat :=
  let i := (capTable.findIdx? (·.1 == id)).getD 0
  let objlimit := 16777216 * (14305114 - s.nsExtents)
  let usable := 95831457792 * s.groupsLeft.length
  let half (v : Nat) (hi : Bool) : Nat := if hi then v / 2 ^ 32 % 2 ^ 32 else v % 2 ^ 32
  if rel = 0 then s.fwSet (id + 65536 + 16777216 * ((capTable[i]?).map (·.2.2)).getD 0)
  else if rel = 4 then s.fwSet (((capTable[i + 1]?).map (·.2.1)).getD 0)
  else if id = 0x2 then s.fwSet (
    if rel = 0x08 ∨ rel = 0x0C then half s.obj.t1Alloc (rel == 0x0C)
    else if rel = 0x10 ∨ rel = 0x14 then half usable (rel == 0x14)
    else if rel = 0x18 then sumN (s.groupsLeft.map (2 ^ ·))
    else if rel = 0x20 ∨ rel = 0x24 then half objlimit (rel == 0x24) else 0)
  else if id = 0x7 then
    (if rel = 0x08 then s.reg.period + 65536 * b2n s.sec.obsOff + 131072 * b2n (s.granted 9) + 262144 * b2n s.lan.enabled
     else if rel = 0x10 then 0x1FFF00FF
     else if rel = 0x18 ∨ rel = 0x1C then half s.lan.mask.toNat (rel == 0x1C)
     else if rel = 0x20 then 0x100000
     else if rel = 0x24 then 32768 + 65536 * 2 else 0)
  else if id = 0xA then
    (if rel = 0x08 then b2n s.reg.scales + 2 * b2n s.reg.readLevels + 4 * b2n s.reg.thermal
     else if rel = 0x0C then s.reg.target + 256 * s.reg.step
     else if rel = 0x10 then s.reg.minRows
     else if rel = 0x14 then s.reg.coverage
     else if rel = 0x18 ∨ rel = 0x1C then half s.reg.freeze.toNat (rel == 0x1C) else 0)
  else if id = 0xB then (if rel = 0x08 then s.reg.refresh else if rel = 0x0C then 0xFE else 0)
  else s.fwSet (((capFixed.find? fun c => c.1 == id && c.2.1 == rel).map (·.2.2)).getD 0)

/-- The heartbeat block (R561, Table 22-11); LASTBEAT counts to the last tick boundary (log 4). -/
def beatDword (s : State) (off : Nat) : Nat :=
  if off = 0x1004 then s.reg.silence
  else if off = 0x1008 then s.reg.hold
  else if off = 0x100C then b2n s.hb.armed + 2 * b2n s.hb.quiesced + 4 * b2n s.hb.heldOut
  else if off = 0x1010 then s.hb.neg.toNat % 2 ^ 32
  else if off = 0x1014 then s.hb.neg.toNat / 2 ^ 32
  else if off = 0x1018 then s.hb.epoch.toNat
  else if off = 0x101C then (if s.hb.quiesced then s.hb.qEpoch.toNat else 0)
  else if off = 0x1020 then (if s.hb.armed then sat 0xFFFFFFFF ((s.now 0 - s.hb.lastBeat) / 1000) else 0)
  else 0

/-- A dword of 32 source bits that a function sees. -/
def sourceBits (s : State) (f base off : Nat) (p : Nat → Bool) : Nat :=
  sumN ((List.range 32).map fun i => let n := (off - base) / 4 * 32 + i; if p n && (f == 0 || s.seesSource f n) then 2 ^ i else 0)

/-- The event block as a function sees it (15 R436, R441, Tables 15-1 to 15-3). A read of EDGECNT clears it: that is EDGECNT_READ. -/
def eventDword (s : State) (f off : Nat) : Nat :=
  if 0x2000 ≤ off ∧ off < 0x2200 then sourceBits s f 0x2000 off fun n => s.evt.pend.contains n
  else if 0x2200 ≤ off ∧ off < 0x2400 then sourceBits s f 0x2200 off fun n => !s.evt.unmasked.contains n
  else if 0x2400 ≤ off ∧ off < 0x2600 then sourceBits s f 0x2400 off fun n => s.evt.level.contains n
  else if 0x2600 ≤ off ∧ off < 0x2700 then
    let g := (off - 0x2600) / 8
    let x := s.evGroup g
    if !s.seesGroup f g then 0
    else if off % 8 = 0 then x.holdoff + 65536 * b2n x.enable + 131072 * b2n x.new + 262144 * b2n x.holding.isSome
    else (if f = 0 then x.vector else x.vfVector) + 65536 * x.deliveries.toNat
  else if off = 0x2700 then (lookN f s.evt.edgeSel).getD 0
  else if off = 0x2704 then ((s.selected f).bind fun n => lookN n s.evt.edges).getD 0
  else if off = 0x2708 then (((s.selected f).bind fun n => lookN n s.evt.detail).map (·.toNat)).getD 0
  else if off = 0x270C then sumN ((List.range 32).map fun g => if s.groupPending g && s.seesGroup f g then 2 ^ g else 0)
  else 0

/-- A function's view of domes: the physical function sees every one, a virtual function its bound partition's subtree (R556). -/
def State.seesDome (s : State) (f d : Nat) : Bool :=
  f == 0 || (match s.boundTo f with | some p => s.under d p | none => false)

/-- How a band's state reads (Table 22-12). -/
def DomState.code : DomState → Nat
  | .on => 0
  | .gated => 1
  | .retain => 2
  | .off => 3

/-- A cluster's entry in the directory. -/
def clusterDword (s : State) (c : Nat) : Nat :=
  let holder := s.holder c
  let pending := s.str.fences.any fun x => x.cluster == c && !x.unfence
  let fenced := s.str.fenced.contains c
  let state := if fenced then 2 else if pending then 3 else if holder.isSome then 1 else 0
  c / 32 + 32 * (Config.quadrant c) + 256 * (if fenced then 0 else holder.getD 0) + 1048576 * s.fwSet state +
    4194304 * (s.running c).length + 268435456 * s.fwSet (s.domain (c / 32)).state.code

/-- A dome's entry in the directory. -/
def domeDword (s : State) (d : Nat) : Nat :=
  if d = 0 then 4096
  else match s.dome? d with
    | none => 0
    | some x => x.parent + 4096 + 8192 * b2n x.empty + 16384 * b2n x.dissolving + 32768 * b2n x.volatile_ + 65536 * b2n x.lowPri +
        131072 * b2n (s.eligible d) + 262144 * (s.slotOf d).getD 0

/-- The dome status directory (R563, Table 22-12). A virtual function sees what concerns its partition (R556; log 60). -/
def directoryDword (s : State) (f off : Nat) : Nat :=
  let seen := s.str.domes.filter fun d => s.seesDome f d.id
  if f ≠ 0 ∧ (s.boundTo f).isNone then 0
  else if off = 0x3000 then s.str.generation
  else if off = 0x3004 then seen.length + 65536 * (seen.filter (·.parent == 0)).length
  else if off = 0x3008 then (if f = 0 then s.fwSet (s.freePool.length + 65536 * s.str.fenced.length) else 0)
  else if off = 0x300C then s.str.changes.toNat
  else if off = 0x3010 then b2n s.changing
  else if 0x3040 ≤ off ∧ off < 0x3140 then
    match s.str.slots[(off - 0x3040) / 4]? with
    | none => 0
    | some d => if s.seesDome f d then d + 4096 + 65536 * (s.boundFn d).getD 0 else 0
  else if 0x3200 ≤ off ∧ off < 0x3E80 then
    let c := (off - 0x3200) / 4
    if f = 0 || (s.holder c).any (s.seesDome f) then clusterDword s c else 0
  else if 0x4000 ≤ off ∧ off < 0x8000 then
    let d := (off - 0x4000) / 4
    if d = 0 || s.seesDome f d then domeDword s d else 0
  else 0

/-- The 64 bytes of a dome record (R564, Tables 2-1 and 22-13). -/
def domeRecord (s : State) (d : Nat) : List Byte :=
  let body (z : Sizes) (u1 u2 u3 out : Nat) : List Byte :=
    z.bytes ++ toLE 8 u1 ++ toLE 8 u2 ++ toLE 8 u3 ++ toLE 2 (sat 0xFFFF out) ++ List.replicate 6 0
  let parts := (s.str.domes.filter (·.parent == 0)).map (·.id)
  let all (tier : Nat) : Nat := sumN (parts.map fun p => s.used p tier)
  if d = 0 then body { clusters := 800 - s.str.fenced.length, t1 := s.obj.t1Alloc, t2 := 2 ^ 64 - 1 } (all 1) (all 2) (all 3) 0
  else match s.dome? d with
    | none => List.replicate 64 0
    | some _ => body (s.sizesOf d) (s.used d 1) (s.used d 2) (s.used d 3)
        ((s.hostCmds.filter fun c => c.dome == d).length)

/-- The counter at an offset of its block: walk the rows of its table (R566). -/
def ctrRowAt : List Ctr → Nat → Option (Ctr × Nat)
  | [], _ => none
  | c :: r, n =>
    let k := c.spec.scope.instances * c.spec.per
    if n < k then some (c, n) else ctrRowAt r (n - k)

/-- The counter whose qword lies at an offset of BAR2 (R565, R566). -/
def ctrAtOffset (off : Nat) : Option (Ctr × Nat) :=
  match (((List.range 13).map (28 - ·)).filterMap fun b => (ctrBlockBase b).map fun base => (b, base)).find? fun x => x.2 ≤ off with
  | some (b, base) => ctrRowAt (Ctr.table b) ((off - base) / 8)
  | none => none

/-- The value of a counter in the last mirror; dome 0 reads 0 (R566). -/
def State.mirrored (s : State) (c : Ctr) (i : Nat) : Nat :=
  if c.spec.scope == .dome && i == 0 then 0
  else ((s.mirror.find? fun e => e.1 == c && e.2.1 == i).map (·.2.2)).getD 0

/-- The counter window (21 R549; R565, R566). A mirror is whole, so BUSY reads 0 (log 60). -/
def windowDword (s : State) (off : Nat) : Nat :=
  let part (v : Nat) : Nat := if off % 8 = 0 then v % 2 ^ 32 else v / 2 ^ 32 % 2 ^ 32
  if off = 0x10000 ∨ off = 0x10004 then part s.tick.toNat
  else if off = 0x10008 ∨ off = 0x1000C then part s.sch.mirrorTick
  else if off < 0x11000 then 0
  else match ctrAtOffset off with
    | some (c, i) => part (s.mirrored c i)
    | none => 0

/-- The bytes of a packet (21 R544). -/
def packetBytes (p : Packet) : List Byte := toLE 1 p.type_ ++ toLE 1 p.source ++ toLE 2 p.seq ++ toLE 8 p.time ++ padTo p.payload 20

/-- The mirror ring (21 R547, Table 21-4): 0 while domain 49 is OFF. -/
def ringDword (s : State) (off : Nat) : Nat :=
  if (s.domain 49).state != .on then 0
  else if off = 0x100000 then s.lan.total
  else if off = 0x100004 then b2n s.lan.active + 2
  else if 0x101000 ≤ off ∧ off < 0x201000 then
    match lookN ((off - 0x101000) / 32) s.lan.ring with
    | some p => le (packetBytes p) ((off - 0x101000) % 32) 4
    | none => 0
  else 0

/-- A dword of BAR2 as a function reads it (R556, Table 22-4). -/
def bar2Dword (s : State) (f off : Nat) : Nat :=
  if off < 0x100 then identityDword s off
  else if off < 0x1000 then (match capAt off with | some (id, rel) => capDword s id rel | none => 0)
  else if off < 0x1040 then (if f = 0 then beatDword s off else 0)
  else if 0x2000 ≤ off ∧ off < 0x3000 then eventDword s f off
  else if 0x3000 ≤ off ∧ off < 0x8000 then directoryDword s f off
  else if 0x10000 ≤ off ∧ off < 0x80000 then (if f = 0 then windowDword s off else 0)
  else if 0x80000 ≤ off ∧ off < 0xC0000 then
    let d := (off - 0x80000) / 64
    if f = 0 || s.seesDome f d then le (domeRecord s d) ((off - 0x80000) % 64) 4 else 0
  else if 0x100000 ≤ off ∧ off < 0x201000 then (if f = 0 then ringDword s off else 0)
  else 0

/-- A read of BAR2 (00 R16): a naturally aligned dword or qword; another access returns 0. -/
def bar2Read (s : State) (f off size : Nat) : Nat :=
  if size = 4 ∧ off % 4 = 0 then bar2Dword s f off
  else if size = 8 ∧ off % 8 = 0 then bar2Dword s f off + 2 ^ 32 * bar2Dword s f (off + 4)
  else 0

/-- A dword of the peer window as a peer reads it (10 R324, Table 10-8): the ready board and the inbox headers; every other offset reads 0. -/
def bar4Dword (s : State) (off : Nat) : Nat :=
  if !s.windowOpen then 0
  else if off < 0x1000 ∨ (0x1000000 ≤ off ∧ off < 0x40000000 ∧ off % 0x1000000 < 64) then memLE s.mrg.window off 4
  else 0

/-- A read of the peer window (R568): a naturally aligned dword or qword; another size returns 0. -/
def bar4Read (s : State) (off size : Nat) : Nat :=
  if size = 4 ∧ off % 4 = 0 then bar4Dword s off
  else if size = 8 ∧ off % 8 = 0 then bar4Dword s off + 2 ^ 32 * bar4Dword s (off + 4)
  else 0

/-- CSTS (17 R475 to R477). -/
def State.csts (s : State) (f : Func) : Nat := b2n f.rdy + 2 * b2n s.life.cfs + 4 * f.shst

/-- A dword of the controller registers (R555, Table 22-2). -/
def bar0Dword (s : State) (f off : Nat) : Nat :=
  match s.fn? f with
  | none => 0
  | some x =>
    if off = 0x00 then 0xFFFF + 65536 + 80 * 16777216
    else if off = 0x04 then 0x41 * 32 + 4 * 1048576
    else if off = 0x08 then 0x00020100
    else if off = 0x0C ∨ off = 0x10 then x.intm.toNat
    else if off = 0x14 then x.cc.toNat
    else if off = 0x1C then s.csts x
    else if off = 0x24 then x.aqa.toNat
    else if off = 0x28 then x.asq.toNat % 2 ^ 32
    else if off = 0x2C then x.asq.toNat / 2 ^ 32
    else if off = 0x30 then x.acq.toNat % 2 ^ 32
    else if off = 0x34 then x.acq.toNat / 2 ^ 32
    else 0

end Sys2Proof.Machine
end

