-- ==== Sys2Proof/Machine/Tune.lean ====
section
/-! DEFINITION. TUNE: its specification and data, the steps, and the commit (08 R264 to R267). -/

namespace Sys2Proof.Machine

open Sys2Proof

/-! ### Specification and data (R264) -/

/-- Steps: Dword 15 [31:16]. -/
def Tf.steps (e : Entry) : Nat := bits e.dw15.toNat 31 16
/-- Data object. -/
def Tf.data (e : Entry) : Nat := le e.input 0 6
/-- Examples. -/
def Tf.examples (e : Entry) : Nat := le e.input 8 4
/-- Examples a step. -/
def Tf.batch (e : Entry) : Nat := le e.input 12 4
/-- Tokens of an example at most. -/
def Tf.maxTokens (e : Entry) : Nat := le e.input 16 4
/-- RESET-STATE. -/
def Tf.reset (e : Entry) : Bool := bit (le e.input 44 4) 0

/-- The examples of the data object (R264): target positions and token IDs; none when the data is malformed. -/
def examplesOf (s : State) (id size maxTokens : Nat) : Nat → Nat → Option (List (Nat × List Nat))
  | 0, _ => some []
  | n + 1, at_ =>
    let count := ofLE (s.objBytes id at_ 4)
    let start := ofLE (s.objBytes id (at_ + 4) 4)
    let stop := at_ + 8 + ceilDiv (4 * count) 8 * 8
    if count = 0 ∨ count > maxTokens ∨ start ≥ count ∨ stop > size then none
    else
      let b := s.objBytes id (at_ + 8) (4 * count)
      (examplesOf s id size maxTokens n stop).map fun r => (count - start, (List.range count).map fun i => le b (4 * i) 4) :: r

/-! ### Factors and the training section (R249, R266) -/

/-- The masters of an adapter's decoded factors, target by target, A then B (R266). -/
def decodedMasters (a : Adapter) : List Nat :=
  a.targets.flatMap fun t =>
    (storedFactor a.data t.fmt t.aCodes t.aScales a.rank t.k ++ storedFactor a.data t.fmt t.bCodes t.bScales t.n a.rank).flatMap fun r =>
      r.map fun c => decode32 c.1 c.2

/-- The offset of each target's part of the training section: masters, m and v, 12 bytes an element (R266). -/
def trainAt (a : Adapter) (i : Nat) : Nat := a.training + 12 * sumN ((a.targets.take i).map a.elems)

/-- Words of the training section: part 0 masters, 1 m, 2 v of every target, in master order. -/
def sectionWords (a : Adapter) (part : Nat) : List Nat :=
  a.targets.zipIdx.flatMap fun t =>
    (List.range (a.elems t.1)).map fun i => memLE a.data (trainAt a t.2 + 4 * (part * a.elems t.1 + i)) 4

/-- t of the training section: it follows the words (R266). -/
def sectionT (a : Adapter) : Nat := memLE a.data (a.training + 12 * a.total) 4

/-- The training section is absent or smaller than R266 asks. -/
def sectionBad (a : Adapter) : Bool := a.training == 0 || a.training + 16 * a.total + 8 > a.size

/-- The quantised bytes of a factor (R267): codes and group scales. -/
def factorBytes (fmt rows len : Nat) (xs : List Nat) : List Byte × List Byte :=
  ((masterFactor fmt rows len xs).flatMap fun row => packRow fmt (row.map fun c => codeOf fmt false c.1),
   (List.range rows).flatMap fun r => (groupScales fmt len ((xs.drop (r * len)).take len)).flatMap (toLE 2))

/-! ### The command -/

/-- The shape of TUNE. -/
def shapeTune : Shape := ⟨0x8D, 5, 0#32, 0xFFFFFFFF#32, 0xFFFFFFFF#32, true, true⟩

/-- The checks of TUNE (R236, R249, R250, R264, R266, R267). -/
def checkTune (e : Entry) (s : State) : Except Fail Unit :=
  let part := s.part (Fe.dome e)
  let m := s.model (Fe.obj1 e)
  let a := s.adapter (Fe.obj2 e)
  inTurn [
    fun _ => failIf (e.inLen != 64 || Tf.steps e == 0 || le e.input 6 2 != 0 || bits (le e.input 44 4) 31 1 != 0 ||
      !allZero (slice e.input 48 16)) St.invalidField,
    fun _ => checkModel (Fe.obj1 e) part s,
    fun _ => orErr (writeFail (Fe.obj2 e) part s),
    fun _ => checkAdapter (Fe.obj2 e) (Fe.obj1 e) part s,
    fun _ => failIf (s.inf.tunes.any (·.adapter == Fe.obj2 e)) (St.objectBusy (Fe.obj2 e)),
    fun _ => failIf (sectionBad a) (fieldBad 0x809),
    fun _ => failIf (Tf.examples e == 0 || Tf.batch e == 0 || Tf.batch e > 4096 || Tf.maxTokens e == 0 || Tf.maxTokens e > 8192 ||
      Tf.maxTokens e > m.maxCtx || e.outLen.toNat < 16 * Tf.steps e) St.invalidField,
    fun _ => orErr (inputFail (Tf.data e) part s),
    fun _ => match examplesOf s (Tf.data e) (((s.obj? (Tf.data e)).map (·.size)).getD 0) (Tf.maxTokens e) (Tf.examples e) 0 with
      | none => .error (fieldBad 0x80B)
      | some l => failIf (l.any fun x => x.2.any fun i => (s.vocab? m.vocab).any fun v => i ≥ v.n) (fieldBad 0x801)]

/-- The run that a TUNE makes (R266): masters, m, v and t as the training section or RESET-STATE gives them. -/
def tuneRun (e : Entry) (s : State) : TuneRun :=
  let a := s.adapter (Fe.obj2 e)
  let w32 (l : List Nat) : List DWord := l.map (BitVec.ofNat 32)
  let b := e.input
  let f (off : Nat) : DWord := BitVec.ofNat 32 (le b off 4)
  { src := e.src, adapter := Fe.obj2 e, steps := Tf.steps e, eta := f 20, beta1 := f 24, beta2 := f 28, eps := f 32, lambda := f 36, clip := f 40,
    w := w32 (if !Tf.reset e && sectionT a == 0 then decodedMasters a else sectionWords a 0),
    m := w32 (if Tf.reset e then List.replicate a.total 0 else sectionWords a 1),
    v := w32 (if Tf.reset e then List.replicate a.total 0 else sectionWords a 2),
    t := if Tf.reset e then 0 else sectionT a, batch := Tf.batch e,
    examples := (examplesOf s (Tf.data e) (((s.obj? (Tf.data e)).map (·.size)).getD 0) (Tf.maxTokens e) (Tf.examples e) 0).getD [] }

/-- A pass of a step begins: those of its examples' token IDs that it takes stand at byte 0 of the scratch (log 28). -/
def startTunePass (src : Src) (p : Plan) (pass : Nat) (s : State) : State :=
  match s.tune? src with
  | none => s
  | some r => feedPass src (passIds p.capacity pass (r.stepTokens r.step)) s

/-- The chain of a TUNE's steps: for each the passes that its tokens take. -/
def stepChain (p : Plan) (r : TuneRun) : Chain :=
  { tasks := (List.range r.steps).flatMap fun j => (passesOf p (r.stepTokens j).length).tasks }

/-- The T1 bytes of a run: masters, m and v, and the layer inputs of a step in binary16 (R265, R267). -/
def tuneBytes (e : Entry) (s : State) : Nat :=
  let m := s.model (Fe.obj1 e)
  12 * (s.adapter (Fe.obj2 e)).total + 2 * m.shape.layers * Tf.batch e * Tf.maxTokens e * m.width

/-- A checked TUNE becomes outstanding with its run, as the objects were before its charge, on a state with the charge. -/
def admitTune (e : Entry) (p : Plan) (s s1 : State) : State :=
  let m := s.model (Fe.obj1 e)
  let r := tuneRun e s
  let c := cmdOf e 0x8D (nubN ([Fe.obj1 e, Fe.obj2 e, m.vocab, m.prefill, Tf.data e] ++ p.objs))
  let chains := [stepChain p r, { tasks := [], dynamic := true }]
  let s2 := (enrol { c with plan := some p, args := e.input, chains, writes := nubN (c.writes ++ p.writes ++ [Fe.obj2 e]) } s1).modInf
    fun x => { x with tunes := x.tunes ++ [r] }
  beginFirstFill e.src (startTunePass e.src p 0 s2)

/-- TUNE (04 Table 4-3; 08 R264 to R267): each step runs the model's plan over its examples; the masters and the state, and the
layer inputs, are held in T1. -/
def execTune (e : Entry) (s : State) : Ans :=
  runMilris shapeTune e (fun s =>
    let m := s.model (Fe.obj1 e)
    match checkTune e s with
    | .error f => .error f
    | .ok _ => match loadPlan .tune m.prefill 0 (Fe.dome e) s with
      | .error f => .error f
      | .ok p => match quotaOr 1 (take (.tuneState e.src) 1 (Fe.dome e) (tuneBytes e s) s) with
        | .error f => .error f
        | .ok s1 => .ok (admitTune e p s s1)) s

/-! ### A step (R265 to R267) -/

/-- The loss of a step: the mean of the cross-entropies of its target positions (R265). -/
def TuneRun.meanLoss (r : TuneRun) : Nat := div32 (sum32 (r.terms.map (·.toNat))) (ofNat32 r.targets)

/-- The last pass of a step has ended: its loss record is written (R267), and the next step starts from nothing. -/
def tuneStepEnd (src : Src) (r : TuneRun) (s : State) : State :=
  let loss := r.meanLoss
  let rec_ := toLE 4 (r.step + 1) ++ toLE 4 loss ++ toLE 4 r.targets ++ toLE 4 (normGrads r.gradients)
  ctrPart .genTuneSteps (((s.cmd? src).map (·.dome)).getD 0) 1
    (modCmd src (fun c => { c with out := c.out ++ rec_, dw0 := r.step + 1, dw1 := loss })
      (modTune src (fun r => { r with step := r.step + 1, ready := r.step + 1 ≥ r.steps,
                                      grads := [], terms := [], inputs := [] }) s))

/-- A pass of a TUNE's plan has ended, and its step with the last one (R265, R267). -/
def tunePassEnd (src : Src) (h : Chain) (s : State) : State :=
  match s.cmd? src, s.tune? src with
  | some c, some r => match c.plan with
    | none => s
    | some p =>
      let pass := s.passOf c h
      if pass + 1 ≥ p.passes (r.stepTokens r.step).length then startTunePass src p 0 (tuneStepEnd src r s)
      else startTunePass src p (pass + 1) s
  | _, _ => s

/-! ### The commit (R252, R267) -/

/-- The writes of a commit, target by target: offsets and bytes of the factors and of the training section (R266, R267). -/
def commitWrites (a : Adapter) (r : TuneRun) : List (Nat × List Byte) :=
  let words (l : List DWord) : List Byte := l.flatMap fun w => toLE 4 w.toNat
  (a.targets.zipIdx.flatMap fun t =>
    let from_ := sumN ((a.targets.take t.2).map a.elems)
    let part (l : List DWord) : List DWord := (l.drop from_).take (a.elems t.1)
    let w := (part r.w).map (·.toNat)
    let fa := factorBytes t.1.fmt a.rank t.1.k (w.take (a.rank * t.1.k))
    let fb := factorBytes t.1.fmt t.1.n a.rank (w.drop (a.rank * t.1.k))
    [(t.1.aCodes, fa.1), (t.1.aScales, fa.2), (t.1.bCodes, fb.1), (t.1.bScales, fb.2),
     (trainAt a t.2, words (part r.w) ++ words (part r.m) ++ words (part r.v))]) ++
  [(a.training + 12 * a.total, toLE 4 r.t), (20, toLE 4 (a.version + 1))]

/-- The version that running sequences still use stays, charged to the owning partition (R252). -/
def keepVersion (id : Nat) (a : Adapter) (s : State) : State :=
  if s.inf.seqs.any fun q => q.admitted && q.adapter == id && q.version == a.version then
    charge (.adapter id a.version) 1 (((s.obj? id).map (·.part)).getD 0) a.size
      (s.modInf fun x => { x with versions := x.versions ++ [(id, a.version, a.data)] })
  else s

/-- A command whose run is to be committed at a tick boundary: its last step and its tasks have ended (R267). -/
def State.tuneDue (s : State) (src : Src) : Bool :=
  (s.tune? src).any (·.ready) && (s.cmd? src).any fun c => !c.ending && !c.inFlight && !c.chains.all (·.finished)

/-- Factors, training section and version change together, the dirty pages are written back and the command completes (R267). An adapter whose
pages cannot be written back, flash being read-only, stays as it was: the TUNE fails. -/
def tuneCommitNow (src : Src) (s : State) : State :=
  match s.tune? src with
  | none => s
  | some r =>
    if s.readOnly && (s.obj? r.adapter).any (·.flag 5) then failWhole src St.writeProtected s
    else
      let a := s.adapter r.adapter
      let s1 := (commitWrites a r).foldl (fun s w => writeObj r.adapter w.1 w.2 s) (keepVersion r.adapter a s)
      settle src (modCmd src (fun c => { c with chains := updAt 1 (fun h => { h with finished := true }) c.chains }) s1)

end Sys2Proof.Machine
end

