-- ==== Sys2Proof/Machine/Boundary.lean ====
section
/-! DEFINITION. The tick boundary: the work of Table 3-1, and what other chapters say happens at a boundary (03 R67, R71 to R96; 04 R119;
05 R171; 12 R375; 13 R396, R400; 14 R410, R415, R416, R418; 16 R443, R449 to R454; 17 R476, R481; 21 R539 to R549; 22 R560). -/

namespace Sys2Proof.Machine

open Sys2Proof

/-! ### Step 1: waiting changes (02 R57, R59, R61) -/

/-- Dispatch stops for the structure change that waits or, with none, for the oldest fence (log 24). -/
def stopDispatch (s : State) : State :=
  s.modStr fun x => match x.change with
    | some c => { x with change := some { c with stopped := c.stopped.orElse fun _ => some s.tick.toNat } }
    | none => { x with fences := x.fences.zipIdx.map fun f =>
        if f.2 = 0 then { f.1 with stopped := f.1.stopped.orElse fun _ => some s.tick.toNat } else f.1 }

/-! ### Step 2: slices (R72, R74, R80, R82, R86, R90) -/

/-- The length in ticks of a pointer's entry. -/
def State.entryLength (s : State) (p : SlicePtr) : Nat := (((s.table? p.part).bind (·.entries[p.entry]?)).map (·.length)).getD 1

/-- The pointer's entry starts on this boundary. -/
def State.entryStarts (s : State) (p : SlicePtr) : Bool := p.left == s.entryLength p

/-- A pointer at its slice boundary moves to the next entry; a switch of which a save or a restore has not ended is late (R86). -/
def State.advanced (s : State) (p : SlicePtr) : SlicePtr :=
  let q := { p with entry := s.nextEntry p, stretched := false }
  { q with left := s.entryLength q, phase := .idle, overrun := false, outgoing := [], incoming := [], saving := [], restoring := [], captured := [],
           late := if p.phase == .saving && !p.current.done then p.late ++ [{ p.current with boundary := s.now 0 }] else p.late }

/-- A pointer at a boundary (R72). A switch whose save has not begun by its slice boundary begins there, late. The incoming domes of an
overrun switch start on the first boundary at or after the end of its restores (R82). -/
def stepPtr (part : Nat) (s0 : State) : State :=
  let s := modPtr part (fun p => { p with late := p.late.filter fun w => !(w.overrun && w.done) }) s0
  match s.ptr? part with
  | none => s
  | some p =>
    if p.fresh then modPtr part (fun p => { p with fresh := false }) s
    else if p.left > 1 then modPtr part (fun p => { p with left := p.left - 1 }) s
    else
      let s1 := if p.phase != .saving && !(s.outgoing p).isEmpty then startSave part 0 s else s
      modPtr part s1.advanced s1

/-- The check at an entry's first boundary (R82): the switch lead with any release window is longer than the slice, and the switch
starts here. -/
def overrunCheck (part : Nat) (s : State) : State :=
  match s.switching part with
  | none => s
  | some p =>
    let lead := s.leadOf p
    let win := s.windowNeeded p
    if !s.entryStarts p || p.phase != .idle || lead + (if win then 100 else 0) ≤ p.left * 500 then s
    else
      let o := s.outgoing p
      let i := s.incoming p
      let s1 := switchPacket 4 part (o.headD 0) (i.headD 0) 0xFFFF 0 (ctrPart .schedSwitchOverrun part 1
        (raisePart part 0 (BitVec.ofNat 32 ((minN (if i.isEmpty then o else i)).getD 0))
          (modPtr part (fun p => { p with overrun := true, lead }) s)))
      if win then
        switchPacket 0 part (o.headD 0) (i.headD 0) 0xFFFF 0
          (yieldRequests o (modPtr part (fun p => { p with phase := .window, windowAt := s.now 0, outgoing := o, incoming := i }) s1))
      else startSave part 0 s1

/-- The switch lead is computed at each boundary of the ending slice while its save has not started (R80). -/
def leadStep (part : Nat) (s : State) : State :=
  match s.ptr? part with
  | none => s
  | some p => if p.phase == .saving then s else modPtr part (fun q => { q with lead := s.leadOf p }) s

/-- The lendings whose waiter's slice has ended pause, and those whose holder's own dome is eligible end, when no lent task is in
flight (R90). -/
def lendingsStep (s : State) : State :=
  s.sch.sems.foldl (fun t m => match m.lending with
    | some l => if (s.cmd? l.1).any (·.inFlight) then t else lendingCheck l.1 (s.now 0) t
    | none => t) s

/-- Step 2 of Table 3-1. -/
def slicesStep (s : State) : State :=
  let parts := s.sch.ptrs.map (·.part)
  let s1 := parts.foldl (fun t p => leadStep p (overrunCheck p (stepPtr p t))) s
  resumeEligible (lendingsStep s1)

/-! ### Step 3: scales, read levels and trims (R95; 14 R410, R415, R418) -/

/-- A slice of the dome's partition that holds the dome starts on this boundary; without a slice table every boundary is one (R410). -/
def State.sliceStarts (s : State) (d : Nat) : Bool :=
  match s.ptr? (s.part d) with
  | none => true
  | some p => s.entryStarts p && s.eligible d

/-- The watch slots whose pending scale is due on this boundary. -/
def State.dueScales (s : State) : List Watch :=
  s.qnt.slots.filter fun w => w.pending.isSome && (s.sliceStarts w.dome || (w.deferred && s.eligible w.dome))

/-- The block groups whose new offsets are due. -/
def State.dueLevels (s : State) : List RdGroup := s.cal.groups.filter (·.pending.isSome)

/-- A pending scale becomes the effective one. -/
def applyScale (w : Watch) (s : State) : State :=
  ctrPart .calibScalesApplied w.dome 1 (modSlot w.slot (fun x =>
    { x with effective := x.pending.getD x.effective, pending := none, deferred := false, applied := x.applied + 1,
             appliedTick := s.tick.toNat }) s)

/-- The scales that are due take effect, with one calibration-applied event for each dome (R410). -/
def applyScales (s : State) : State :=
  let due := s.dueScales
  (nubN (due.map (·.dome))).foldl (fun t d => raisePart d 9 (BitVec.ofNat 32 d) t) (due.foldl (fun t w => applyScale w t) s)

/-- New read levels take effect (R415). -/
def applyLevels (s : State) : State :=
  s.modCal fun c => { c with groups := c.groups.map fun g => { g with offsets := g.pending.getD g.offsets, pending := none } }

/-- Step 3 of the shedding: what is due waits, and the slices of the partitions whose scales wait count as stretched (R95, R96). -/
def deferCalibration (s : State) : State :=
  let due := s.dueScales
  let s1 := due.foldl (fun t w => stretch (s.part w.dome) (modSlot w.slot (fun x => { x with deferred := true }) t)) s
  ctrAdd .schedCalibrationDeferrals 0 (due.length + s.dueLevels.length) s1

/-- The thermal trims that wait take effect (R418). -/
def applyTrims (s : State) : State :=
  match s.cal.trimsNext with
  | none => s
  | some l =>
    ctrAdd .calibThermalTrimSteps 0 ((l.zip s.cal.trims).filter fun p => p.1 != p.2).length
      (s.modCal fun c => { c with trims := l, trimsNext := none })

/-- The read-level offsets and the map are checkpointed at least once every 2,048 ticks (R416; log 51). -/
def checkpointStep (s : State) : State :=
  if s.tick.toNat < s.cal.checkpointTick + 2048 then s
  else (s.modFls fun f => { f with checkpoint := f.extents }).modCal fun c =>
    { c with checkpoint := c.groups, checkpointTick := s.tick.toNat }

/-! ### Programmable values (22 R560; 12 R375; 04 R119) -/

/-- What has been written takes effect; blocks that already meet a new refresh threshold are queued (R375). -/
def settingsStep (s : State) : State :=
  let changed := s.reg.refresh ≠ s.eff.refresh
  let s1 := (s.modEff fun _ => s.reg).modQ fun q => { q with spareThresholdEff := q.spareThreshold }
  if changed then (s.fls.blocks.filter fun b => b.reads ≥ s.reg.refresh).foldl (fun t b => queueRefresh b.id t) s1 else s1

/-! ### Power (16 R449 to R454) -/

/-- The power state, the power level and the applied level at a boundary (R449, R451), for the ended tick's average power and the cap.
The level falls once for each 8 consecutive ticks below 95 % of the cap. -/
def powerLevels (avg cap : Nat) (p : Pwr) : Pwr :=
  let low := avg * 100 < 95 * cap
  let calm := if low then p.calm + 1 else 0
  let up := if avg > cap then sat 15 (p.powerLevel + 1) else p.powerLevel
  let lvl := if p.force15 then 15 else if calm ≥ 8 then up - 1 else up
  { p with
    powerLevel := lvl, calm := if calm ≥ 8 || p.force15 then 0 else calm, force15 := false,
    level := Nat.max lvl p.thermalLevel, tickPower := avg,
    overTicks := if p.level = 15 ∧ avg > cap then p.overTicks + 1 else 0,
    underTicks := if avg ≤ cap then p.underTicks + 1 else 0 }

/-- The levels of a boundary: a power state set since the last one is in force first (R449). -/
def powerStep (avg : Nat) (s : State) : State :=
  let s1 := s.modPwr fun p => { p with ps := p.psNext.getD p.ps, psNext := none }
  s1.modPwr (powerLevels avg s1.cap)

/-- Cause 3 of the power emergency (Table 16-3). -/
def overCause (s : State) : State :=
  if s.pwr.causes.getLsbD 3 then (if s.pwr.underTicks ≥ 8 then endCause 3 s else s)
  else if s.pwr.overTicks ≥ 2 then (beginCause 3 s).modPwr fun p => { p with underTicks := 0 }
  else s

/-- A save or a restore is under way on the band: it keeps the band ON (R446). -/
def State.bandSwitches (s : State) (b : Nat) : Bool :=
  s.sch.ptrs.any fun p => (p.saving ++ p.restoring ++ p.late.flatMap fun w => w.saving ++ w.restoring).any fun c => c / 32 == b

/-- A cluster band at a boundary (R443): OFF while none of its clusters is held, GATED with no task in flight; the full ticks GATED are
counted (R445). -/
def bandStep (b : Nat) (s : State) : State :=
  let d := s.domain b
  if !s.bandHeld b then modDomain b (fun d => { d with state := .off, idle := 0 }) s
  else match d.state with
    | .on => if s.bandBusy b || s.bandSwitches b then s else modDomain b (fun d => { d with state := .gated, idle := 0 }) s
    | .gated => modDomain b (fun d => { d with idle := d.idle + 1 }) s
    | _ => s

/-- The domains at a boundary: the ended tick counts for the state of each (Table 16-7), then the bands move. -/
def domainsStep (s : State) : State :=
  let s1 := s.pwr.domains.zipIdx.foldl (fun t d => ctrAdd .powerTicksInEachState (4 * d.2 + d.1.state.code) 1 t) s
  (List.range 25).foldl (fun t b => bandStep b t) s1

/-! ### Step 6: the dispatch budget (R94 to R96) -/

/-- The trace sources that cost cycles: those of the mask while formation is active (21 R541). -/
def State.traceSources (s : State) : Nat := if s.lan.active then maskCount s.lan.mask else 0

/-- The clusters of the switches that are under way or whose save falls in the coming tick. -/
def State.switched (s : State) : Nat :=
  sumN (s.sch.ptrs.map fun p => sumN (p.late.map (·.saving.length)) +
    if p.phase == .saving then p.saving.length
    else if !(s.outgoing p).isEmpty && p.left * 500 ≤ p.lead + 500 then (s.clustersOf (s.outgoing p)).length else 0)

/-- The cycles of the coming tick by Table 3-5: everything but sampling, mirroring and calibration; sampling; calibration. `extra` is the
scheduler core's estimate for dispatches, completions and semaphore operations (log 40). -/
def State.demandParts (s : State) (extra : Nat) : Nat × Nat × Nat :=
  (extra + 40 * s.switched, 50 * s.traceSources, 400 * (s.dueScales.length + s.dueLevels.length))

/-- The shed steps for a demand (R95): in order, until the rest fits. -/
def shedFor (base trace cal : Nat) : BitVec 4 :=
  if base + trace + 60000 + cal ≤ 900000 then 0
  else if base + 60000 + cal ≤ 900000 then 1
  else if base + cal ≤ 900000 then 3
  else if base ≤ 900000 then 7
  else 15

/-- The budget of the tick, its shedding and its counters; the turns start again (R77). `p` is the demand as estimated, of which `extra` is for
the dispatches, completions and semaphore operations to come: they draw on the budget as they happen (R94, R96). -/
def budgetStep (p : Nat × Nat × Nat) (extra : Nat) (shed : BitVec 4) (s : State) : State :=
  let own := p.1 - extra + (if shed.getLsbD 0 then 0 else p.2.1) + (if shed.getLsbD 1 then 0 else 60000) + (if shed.getLsbD 2 then 0 else p.2.2)
  let s1 := s.modSch fun k =>
    { k with demand := p.1 + p.2.1 + 60000 + p.2.2, budget := 900000 - own, lastServed := none, skipped := [], carried := false }
  let count (c : Ctr) (i : Nat) (s : State) : State := if shed.getLsbD i then ctrAdd c 0 1 s else s
  let s2 := count .schedTicksWithLowPriorityDispatchShed 3 (count .schedTicksWithCounterMirroringShed 1
    (count .schedTicksWithTraceSamplingShed 0 s1))
  if shed.getLsbD 3 then
    (s2.sch.cmds.filter fun c => c.chains.any fun h => s2.heldLow c h).foldl (fun t c => stretch (s2.part c.dome) t) s2
  else s2

/-! ### Counters (21 R541, R549; 22 R566, R567) -/

/-- The counters that state a current value. -/
def State.currents (s : State) : List (Ctr × Nat × Nat) :=
  let one (c : Ctr) (v : Nat) : Ctr × Nat × Nat := (c, 0, v)
  let retiring : List Block := s.fls.blocks.filter fun b =>
    (s.die (dieOf b.id)).retiring && !(s.die (dieOf b.id)).retired && (b.state == .openB || b.state == .closed)
  [one .schedTickCount s.tick.toNat, one .quantWatchSlotsInUse s.qnt.slots.length, one .flashFreeBlocks s.fls.free,
   one .flashFineMapsInUse s.fineMaps, one .flashOpenStripeGroups s.openGroups, one .flashRefreshQueuedBlocks s.fls.refreshQ.length,
   one .flashRetirementBlocksRemaining (sat 65535 retiring.length), one .integPoisonedWords (sat 0xFFFFFFFF s.itg.poisoned.length),
   one .calibBlockGroupsAtLimit (s.cal.groups.filter (·.atLimit)).length, one .powerAppliedThrottleLevel s.applied,
   one .powerTickAveragePowerW (sat 1023 s.pwr.tickPower)] ++
  s.str.domes.map (fun d => (.genSequencesAdmitted, d.id, s.admittedIn d.id)) ++
  s.str.slots.zipIdx.map (fun p =>
    (.genKvBlocksInUse, p.2, sumN ((s.inf.seqs.filter fun q => q.admitted && q.part == p.1).map (·.blocks.length)))) ++
  (List.range 32).flatMap fun k =>
    [(.integSpareFramesUsed, k, (s.itg.spares.filter (·.1 == k)).length),
     (.integT1ScrubFramesDoneInCurrentLap, k, ((s.itg.scrubs.find? (·.unit_ == 800 + k)).map (·.next)).getD 0)]

/-- Every counter as it stands; one that is 0 is not listed. -/
def State.counters (s : State) : List (Ctr × Nat × Nat) := s.currents.filter (·.2.2 ≠ 0) ++ s.ctr

/-- The mirror of a tick in which mirroring is not shed (21 R549). -/
def mirrorStep (shed : BitVec 4) (s : State) : State :=
  if shed.getLsbD 1 then s
  else { s.modSch fun k => { k with mirrorTick := s.tick.toNat } with mirror := s.counters }

/-- The qwords of a block: BAR2 offset, counter and index (22 R566). -/
def blockQwords (base : Nat) : List Ctr → List (Nat × Ctr × Nat)
  | [] => []
  | c :: r =>
    let n := c.spec.scope.instances * c.spec.per
    (List.range n).map (fun i => (base + 8 * i, c, i)) ++ blockQwords (base + 8 * n) r

/-- The COUNTER packets of a counter source (21 R541; 22 R567). -/
def counterPackets (all : List (Ctr × Nat × Nat)) (b : Nat) (s : State) : State :=
  match ctrBlockBase b with
  | none => s
  | some base => (blockQwords base (Ctr.table b)).foldl (fun t q =>
      let v := if q.2.1.spec.scope == .dome && q.2.2 == 0 then 0
        else ((all.find? fun e => e.1 == q.2.1 && e.2.1 == q.2.2).map (·.2.2)).getD 0
      record b 0x20 (toLE 4 (q.1 - 0x10000) ++ toLE 8 v) t) s

/-- The counter sources at a boundary whose tick count is a multiple of the sampling period (21 R541). -/
def sampleStep (s : State) : State :=
  if !s.lan.active || s.tick.toNat % s.eff.period ≠ 0 then s
  else
    let all := s.counters
    ((List.range 13).map (16 + ·)).foldl (fun t b => if s.lan.mask.toNat.testBit b then counterPackets all b t else t) s

/-- The TICK packet (21 Table 21-3), never dropped and never shed. -/
def tickPacket (demand : Nat) (shed : BitVec 4) (carried : Bool) (s : State) : State :=
  if !s.lan.active then s
  else putPacket 0x01 0 (toLE 8 s.tick.toNat ++ toLE 4 (sat 0xFFFFFFFF demand) ++ toLE 1 (shed.toNat + 128 * b2n carried) ++
    toLE 1 s.applied ++ toLE 2 s.pwr.tickPower ++ toLE 4 s.lan.sentLast) s

/-- The port's own counts at a boundary. -/
def lanternTick (s : State) : State :=
  let s1 := s.modLan fun l => { l with sentLast := l.sentNow, sentNow := 0 }
  if (s.domain 49).state == .on then ctrAdd .lanternTicksWithBothLanesTransmitting 0 1 s1 else s1

/-! ### Health events (04 R141; 12 R373) -/

/-- The critical warnings that have risen since the last boundary, to the functions that ask for them (log 14). -/
def warningsStep (s : State) : State :=
  (s.fns.filter (·.enabled)).foldl (fun t f =>
    let now := s.critical f.id
    let rise (b info : Nat) (t : State) : State :=
      if now.testBit b && !f.critical.testBit b && f.feat.asyncConfig.toNat.testBit b then aen f.id 1 info 0x02 t else t
    modFn f.id (fun f => { f with critical := now % 8 }) (rise 2 0 (rise 1 1 (rise 0 2 t)))) s

/-! ### The boundary -/

/-- A running Format NVM or Sanitize goes on: how far it has come by this boundary is a free value that never falls; with SES 1, and
during Sanitize, it is recorded at least every 1/256 of the operation and at least every second (04 R142, R145; log 94). -/
def progressOne (p : Progress) (s : State) : State :=
  if !p.running || !s.life.fwSet then s
  else
    let d := draw s
    let now := p.progress + d.1.toNat % (65536 - p.progress)
    let keeps := p.op != 1 && p.op != 3
    let due := keeps && (now / 256 != p.recorded / 256 || s.tick.toNat - p.recordedTick ≥ 2000)
    d.2.modFls fun f => { f with progress := updIf (·.fn == p.fn) (fun x =>
      { x with progress := now, recorded := if due then now else x.recorded, recordedTick := if due then s.tick.toNat else x.recordedTick }) f.progress }

/-- Every running Format NVM or Sanitize at a boundary. -/
def progressStep (s : State) : State := s.fls.progress.foldl (fun t p => progressOne p t) s

/-- Steps 5 and 6 of Table 3-1 and what else happens at a boundary; dispatch begins (step 7). -/
def lastSteps (s : State) : State :=
  let s4 := s.itg.retiring.foldl (fun t r => lowerGroup r t) (settingsStep (closeWindow (streamCycles s)))
  let s5 := domainsStep (stopBand (overCause s4))
  let s6 := if s5.applied ≥ 8 then ctrAdd .powerTicksAtAppliedLevel8OrAbove 0 1 s5 else s5
  resumeWalks ((warningsStep (mirrorStep s.sch.shed (sampleStep (budgetStep s.sch.estimate s.sch.extra s.sch.shed
    (progressStep (shutdownDone s6)))))).modSch fun k => { k with step := 0 })

/-- The start of quiesce is due at this boundary (R99). -/
def State.quiesceDue (s : State) : Bool := s.hb.armed && !s.hb.quiesced && s.now 0 - s.hb.lastBeat ≥ s.eff.silence * 1000

/-- The hold limit has passed at this boundary (R106). -/
def State.holdDue (s : State) : Bool := s.hb.quiesced && !s.hb.heldOut && s.now 0 - s.hb.qStart ≥ s.eff.hold * 1000000

/-- The TUNE runs whose commits are due at this boundary (08 R267). -/
def State.tunesDue (s : State) : List Src := (s.inf.tunes.map (·.src)).filter s.tuneDue

/-- After step 4: where commits of TUNE are due the boundary waits for each (TUNE_COMMIT; log 24). -/
def tuneStep (s : State) : State :=
  if s.tunesDue.isEmpty then lastSteps s else s.modSch fun k => { k with step := 5 }

/-- Step 4 of Table 3-1: where the start of quiesce or the hold limit is due the boundary waits for it (QUIESCE_START,
HOLD_LIMIT_EXPIRY). -/
def heartbeatStep (s : State) : State :=
  if s.quiesceDue || s.holdDue then s.modSch fun k => { k with step := 4 } else tuneStep s

/-- Steps 2 and 3 of Table 3-1, with the trims (14 R418) and the checkpoint (14 R416). -/
def middleSteps (s : State) : State :=
  let s1 := slicesStep s
  checkpointStep (applyTrims (if s.sch.shed.getLsbD 2 then deferCalibration s1 else applyLevels (applyScales s1)))

/-- The waiting image takes effect at this boundary. -/
def State.imageDue (s : State) : Option Image :=
  match s.str.change with
  | some c => match c.kind with
    | .image img => if s.changeReady c then some img else none
    | .dissolve _ => none
  | none => none

/-- The waiting dissolution takes effect at this boundary. -/
def State.dissolveDue (s : State) : Option Nat :=
  match s.str.change with
  | some c => match c.kind with
    | .dissolve d => if s.changeReady c then some d else none
    | .image _ => none
  | none => none

/-- The oldest fence or unfence, when it takes effect at this boundary: with no structure change before it (R56). -/
def State.fenceDue (s : State) : Option FenceReq :=
  if s.str.change.isSome then none else (s.str.fences.head?).filter s.fenceReady

/-- Step 1 of Table 3-1: where a structure change, a fence or an unfence is due the boundary waits for it (IMAGE_TAKES_EFFECT and its
like). -/
def structureStep (s0 : State) : State :=
  let s := stopDispatch s0
  if s.imageDue.isSome || s.dissolveDue.isSome || s.fenceDue.isSome then s.modSch fun k => { k with step := 1 }
  else heartbeatStep (middleSteps s)

/-- What is due at step 1 takes effect. -/
def structureNow (s : State) : State :=
  if s.imageDue.isSome || s.dissolveDue.isSome then changeNow s
  else match s.fenceDue with
    | some r => if r.unfence then unfenceNow r s else fenceNow r s
    | none => s

/-- What is due at step 4 takes effect. -/
def heartbeatNow (s : State) : State := if s.quiesceDue then quiesceNow s else if s.holdDue then holdNow s else s

/-- The demand that step 6 will estimate: steps 1 to 4 are looked at before they are done, for the TICK packet precedes every other packet
of its tick (21 R545). -/
def State.boundaryDemand (s : State) (extra : Nat) : Nat × Nat × Nat :=
  let dry := heartbeatNow (slicesStep (structureNow (stopDispatch (s.modLan fun l => { l with active := false }))))
  (State.modLan dry fun _ => s.lan).demandParts extra

/-- A boundary of a powered module whose PERST# is deasserted. -/
def boundaryNow (powerW extra : Nat) (s : State) : State :=
  let s1 := lanternTick (lanternDrained (lanternPending (bankRamp (powerStep powerW s))))
  let p := s1.boundaryDemand extra
  let shed := shedFor p.1 p.2.1 p.2.2
  structureStep ((tickPacket (p.1 + p.2.1 + 60000 + p.2.2) shed s.sch.carried s1).modSch fun k => { k with shed, estimate := p, extra })

/-- A boundary that still waits when the next one comes goes on without what it waits for, which is then due at the next. -/
def finishBoundary (s : State) : State :=
  match s.sch.step with
  | 0 => s
  | 4 | 5 => lastSteps s
  | _ => lastSteps (middleSteps s)

/-- TICK_BOUNDARY (R67, R71): the tick count rises, and the work of the boundary follows. An isolated module, or one that shuts down for
its temperature, only counts (16 R456, R458); one without 12 V or in PERST# does not count (R67). -/
def execTickBoundary (powerW extraDemand : Nat) (s : State) : Ans :=
  .next (match s.life.phase with
    | .starting | .up | .failed =>
      let s0 := finishBoundary s
      boundaryNow powerW extraDemand { s0 with tick := s0.tick + 1 }
    | .isolated | .thermalDown => { s with tick := s.tick + 1 }
    | _ => s)

/-! ### The happenings of steps 1 and 4, and of TUNE (log 24) -/

/-- IMAGE_TAKES_EFFECT (02 R57 to R60): at step 1 of a boundary, whose other steps follow. -/
def execImageTakesEffect (s : State) : Ans :=
  .next (if s.sch.step = 1 && s.imageDue.isSome then heartbeatStep (middleSteps (changeNow s)) else s)

/-- DISSOLVE_TAKES_EFFECT (02 R59; 04 R133): at step 1 of a boundary, whose other steps follow. -/
def execDissolveTakesEffect (s : State) : Ans :=
  .next (if s.sch.step = 1 && s.dissolveDue.isSome then heartbeatStep (middleSteps (changeNow s)) else s)

/-- FENCE_TAKES_EFFECT (02 R61, R62): at step 1 of a boundary, whose other steps follow. -/
def execFenceTakesEffect (c : Nat) (s : State) : Ans :=
  .next (match s.fenceDue with
    | some r => if s.sch.step = 1 && !r.unfence && r.cluster == c then heartbeatStep (middleSteps (fenceNow r s)) else s
    | none => s)

/-- UNFENCE_TAKES_EFFECT (02 R65): at step 1 of a boundary, whose other steps follow. -/
def execUnfenceTakesEffect (c : Nat) (s : State) : Ans :=
  .next (match s.fenceDue with
    | some r => if s.sch.step = 1 && r.unfence && r.cluster == c then heartbeatStep (middleSteps (unfenceNow r s)) else s
    | none => s)

/-- QUIESCE_START (R99, R100): at step 4 of a boundary, whose other steps follow. -/
def execQuiesceStart (s : State) : Ans := .next (if s.sch.step = 4 && s.quiesceDue then tuneStep (quiesceNow s) else s)

/-- HOLD_LIMIT_EXPIRY (R106; 22 R562): at step 4 of a boundary, whose other steps follow. -/
def execHoldLimitExpiry (s : State) : Ans := .next (if s.sch.step = 4 && s.holdDue then tuneStep (holdNow s) else s)

/-- TUNE_COMMIT (08 R267): at a boundary after the last step of a TUNE, its commit takes effect; the boundary's other steps follow the last. -/
def execTuneCommit (src : Src) (s : State) : Ans := .next (if s.sch.step = 5 && s.tuneDue src then tuneStep (tuneCommitNow src s) else s)

end Sys2Proof.Machine
end

