-- ==== Sys2Proof/Machine/Embed.lean ====
section
/-! DEFINITION. EMBED, its arms and triggered ingest (08 R259 to R263). -/

namespace Sys2Proof.Machine

open Sys2Proof

/-! ### The embedding header (R259) -/

namespace Eh
/-- Dimensions. -/
def dims (m : Mem) : Nat := memLE m 4 2
/-- Output format. -/
def fmt (m : Mem) : Nat := memLE m 6 1
/-- Pooling. -/
def pooling (m : Mem) : Nat := memLE m 7 1
/-- NORMALISE. -/
def normalise (m : Mem) : Bool := bit (memLE m 8 1) 0
/-- Maximum tokens of a text. -/
def maxTokens (m : Mem) : Nat := memLE m 12 4
/-- Vocabulary object. -/
def vocab (m : Mem) : Nat := memLE m 16 6
/-- The prefix tokens. -/
def prefix_ (m : Mem) : List Nat := (List.range (memLE m 24 4)).map fun i => memLE m (28 + 4 * i) 4
/-- The header breaks R259. -/
def bad (m : Mem) (size : Nat) : Bool :=
  size < 64 || memLE m 0 4 != 0x42444D45 || dims m == 0 || dims m > 4096 ||
  maxTokens m == 0 || maxTokens m > 8192 || memLE m 24 4 > 8
/-- A reserved field is set, or a format or pooling is not one that R259 lists (00 R13, R15). -/
def reserved (m : Mem) : Bool :=
  !([0, 2, 5, 6].contains (fmt m)) || pooling m > 2 || bits (memLE m 8 1) 7 1 != 0 || memLE m 9 3 != 0 || memLE m 22 2 != 0 || memLE m 60 4 != 0
end Eh

/-- Bytes of a vector (R184), padded to a multiple of 8 (R260). -/
def vecRecord (f n : Nat) : Nat := ceilDiv (rowBytes f n) 8 * 8

/-- The checks of an embedding plan object, without its plan (R236, R247, R259). -/
def checkEmbedHeader (id part : Nat) (s : State) : Except Fail Unit :=
  let m := s.ix id
  inTurn [
    fun _ => orErr (inputFail id part s),
    fun _ => checks [(Eh.bad m (((s.obj? id).map (·.size)).getD 0), planBad 0x80C), (Eh.reserved m, St.invalidField)],
    fun _ => checkVocab (Eh.vocab m) part s,
    fun _ => failIf ((Eh.prefix_ m).any fun i => (s.vocab? (Eh.vocab m)).any fun v => i ≥ v.n) (fieldBad 0x801)]

/-- The index of an insertion matches the embedding (R261). -/
def checkEmbedIndex (id plan part : Nat) (s : State) : Except Fail Unit :=
  match indexFail id part true s with
  | some f => .error f
  | none => failIf (Ix.dims (s.ix id) != Eh.dims (s.ix plan) || Ix.fmt (s.ix id) != Eh.fmt (s.ix plan)) (fieldBad 0x807)

/-! ### The command without ARM (R260) -/

/-- Bits of Dword 13 (Table 4-3). -/
def Ef.writeIndex (e : Entry) : Bool := bit e.dw13.toNat 16
/-- RETURN-VECTORS. -/
def Ef.returns (e : Entry) : Bool := bit e.dw13.toNat 17
/-- ARM. -/
def Ef.arm (e : Entry) : Bool := bit e.dw13.toNat 18
/-- DISARM. -/
def Ef.disarm (e : Entry) : Bool := bit e.dw13.toNat 19
/-- Text count, or the arm number of DISARM. -/
def Ef.count (e : Entry) : Nat := bits e.dw15.toNat 31 16

/-- The text table of the input (R260). -/
def textTable (e : Entry) : List (Nat × List Byte × Nat × Nat) :=
  (List.range (Ef.count e)).map fun i =>
    let b := slice e.input (80 * i) 80
    (le b 0 5, slice b 16 64, le b 8 4, le b 12 4)

/-- The input breaks R260. -/
def textsBad (e : Entry) : Bool :=
  Ef.count e == 0 || e.inLen.toNat < 80 * Ef.count e || (List.range (Ef.count e)).any fun i =>
    le e.input (80 * i + 5) 3 != 0 || le e.input (80 * i + 12) 4 > 1048576 ||
    le e.input (80 * i + 8) 4 + le e.input (80 * i + 12) 4 > e.inLen.toNat

/-- The tokens of a text (R259): the prefix, then the text's, cut to the maximum; and whether it was cut. -/
def textTokens (r : EmbedRun) (text : List Byte) (s : State) : List Nat × Bool :=
  let l := r.prefix_ ++ ((s.vocab? r.vocab).map fun v => tokenise v text).getD []
  (l.take r.maxTokens, l.length > r.maxTokens)

/-- The text with a number. -/
def EmbedRun.text (r : EmbedRun) (i : Nat) : List Byte := match r.table[i]? with
  | some (_, _, off, n) => slice r.input off n
  | none => []

/-- The EMBED run of a command. -/
def State.embed? (s : State) (src : Src) : Option EmbedRun := s.inf.embeds.find? (·.src == src)

/-- A text's pass begins: its tokens stand at byte 0 of the scratch (log 28). -/
def startText (src : Src) (i : Nat) (s : State) : State :=
  match s.embed? src with
  | none => s
  | some r => feedPass src (textTokens r (r.text i) s).1 s

/-- The shape of EMBED. -/
def shapeEmbed : Shape := ⟨0x89, 2, 0x000F0000#32, 0xFFFFFFFF#32, 0xFFFFFFFF#32, true, true⟩

/-- The run that an EMBED makes. -/
def embedRun (e : Entry) (m : Mem) : EmbedRun :=
  { src := e.src, index := if Ef.writeIndex e then some (Fe.obj2 e) else none, returns := Ef.returns e, dims := Eh.dims m, format := Eh.fmt m,
    pooling := Eh.pooling m, normalise := Eh.normalise m, maxTokens := Eh.maxTokens m, vocab := Eh.vocab m, prefix_ := Eh.prefix_ m,
    texts := Ef.count e, table := textTable e, input := e.input }

/-- The checks of an EMBED without ARM and DISARM, up to its plan. -/
def checkEmbed (e : Entry) (s : State) : Except Fail Unit :=
  let part := s.part (Fe.dome e)
  inTurn [
    fun _ => failIf (Ef.arm e || Ef.disarm e || textsBad e || (Ef.writeIndex e && Fe.obj2 e == 0)) St.invalidField,
    fun _ => failIf (Ef.writeIndex e && s.readOnly) St.writeProtected,
    fun _ => checkEmbedHeader (Fe.obj1 e) part s,
    fun _ => if Ef.writeIndex e then checkEmbedIndex (Fe.obj2 e) (Fe.obj1 e) part s else .ok (),
    fun _ => failIf (Ef.writeIndex e && Ix.nodes (s.ix (Fe.obj2 e)) + Ef.count e > Ix.capacity (s.ix (Fe.obj2 e))) (fieldBad 0xA06)]

/-- An EMBED entry is EMBED's own row: neither ARM nor DISARM, or both, which no row gives a meaning. -/
def Ef.plain (e : Entry) : Bool := Ef.arm e == Ef.disarm e

/-- The chains of an embedding run: one pass of its plan for each text, and with an index the insertion, whose tasks follow the last text. -/
def embedChains (p : Plan) (texts : Nat) (inserts : Bool) : List Chain :=
  { tasks := (List.replicate texts p.tasks).flatten : Chain } :: (if inserts then [{ tasks := [], dynamic := true }] else [])

/-- An embedding run begins with its command (R260, R262). -/
def startEmbed (c : Cmd) (r : EmbedRun) (s : State) : State :=
  beginFirstFill c.src (startText c.src 0 ((enrol c s).modInf fun x => { x with embeds := x.embeds ++ [r] }))

/-- A checked EMBED becomes outstanding (R260). -/
def admitEmbed (e : Entry) (p : Plan) (s : State) : State :=
  let r := embedRun e (s.ix (Fe.obj1 e))
  let ix := r.index.toList
  let c := cmdOf e 0x89 (nubN (Fe.obj1 e :: r.vocab :: (ix ++ p.objs)))
  startEmbed { c with plan := some p, args := e.input, chains := embedChains p r.texts (!ix.isEmpty), writes := nubN (c.writes ++ ix ++ p.writes) } r s

/-- EMBED (04 Table 4-3, R130; 08 R259 to R261): one pass of the plan for each text. -/
def execEmbed (e : Entry) (s : State) : Ans :=
  if !Ef.plain e then .next s
  else runMilris shapeEmbed e (fun s =>
    match checkEmbed e s with
    | .error f => .error f
    | .ok _ => match loadPlan .embed (Fe.obj1 e) 64 (Fe.dome e) s with
      | .error f => .error f
      | .ok p => .ok (admitEmbed e p s)) s

/-- The vector that a pass left (R259; log 49): the output of the plan's POOL, or the rows of its last operator's output pooled as the
header says; then divided by its length with NORMALISE. -/
def passVector (t : TaskRef) (c : Cmd) (r : EmbedRun) (tokens : Nat) (s : State) : List Nat :=
  match c.plan with
  | none => []
  | some p => match p.ops.getLast? with
    | none => []
    | some o => match p.tensors[o.out]? with
      | none => []
      | some z =>
        let v := if o.code = 0x0F then poolRows 1 false [(s.rowVals t c o.out z 0).1]
          else poolRows r.pooling false ((List.range (Nat.min z.rows (Nat.max tokens 1))).map fun i => (s.rowVals t c o.out z i).1)
        if r.normalise then poolRows 1 true [v] else v

/-- The record of a text (R260): node ID, scale, flags, token count and vector; and the count of saturations. -/
def textRecord (r : EmbedRun) (node tokens : Nat) (cut : Bool) (v : List Nat) : List Byte × Nat :=
  let w := if r.format = 0 then let x := writeRow 0 v; (x.1, 0, x.2)
    else let q := quantVec r.format v; (packRow r.format (q.2.map (codeOf r.format false)), q.1, 0)
  (toLE 8 node ++ toLE 2 w.2.1 ++ toLE 2 (b2n cut) ++ toLE 4 tokens ++ padTo w.1 (vecRecord r.format r.dims), w.2.2)

/-- The node of a record with its attribute word (R261). -/
def recordNode (r : EmbedRun) (i : Nat) (b : List Byte) : NodeIn :=
  { id := le b 0 5, scale := BitVec.ofNat 16 (le b 8 2), attr := ((r.table[i]?).map fun t => t.2.1).getD [],
    codes := slice b 16 (rowBytes r.format r.dims) }

/-- Every text of an EMBED has its record: the output stands, and the insertion begins (R260, R261). -/
def embedAll (r : EmbedRun) (s : State) : State :=
  let s1 := if r.returns then modCmd r.src (fun c => { c with out := r.records.flatten }) s else s
  match r.index with
  | none => s1
  | some ix =>
    addJob { src := r.src, index := ix, op := .insert (r.records.zipIdx.map fun b => recordNode r b.2 b.1) }
      (modChain { src := r.src, chain := 1 } (fun h => { h with tasks := [jobTask ix (s.ix ix)] }) (useIndex ix s1))

/-- The last task of a text's pass has ended (R259, R260): its record is made, and the next text's pass follows. -/
def textEnd (t : TaskRef) (s : State) : State :=
  match s.cmd? t.src, s.embed? t.src with
  | some c, some r =>
    let i := r.records.length
    let tok := textTokens r (r.text i) s
    let rec_ := textRecord r (((r.table[i]?).map (·.1)).getD 0) tok.1.length tok.2 (passVector t c r tok.1.length s)
    let n := { r with records := r.records ++ [rec_.1] }
    let s1 := ctrPart .quantDecodeSaturations c.dome rec_.2 (ctrPart .genTextsEmbedded c.dome (b2n !t.src.inner)
      (if tok.2 then ctrPart .genTextsTruncated c.dome 1 s else s))
    let s2 := modCmd t.src (fun c => { c with dw0 := c.dw0 + 1, dw1 := sat 0xFFFFFFFF (c.dw1 + tok.1.length) })
      (s1.modInf fun x => { x with embeds := updIf (·.src == t.src) (fun _ => n) x.embeds })
    if n.records.length ≥ r.texts then embedAll n s2 else startText t.src (i + 1) s2
  | _, _ => s

/-! ### Arms (R262, R263) -/

/-- The arms of a partition. -/
def State.armsOf (s : State) (part : Nat) : List Arm := s.inf.arms.filter (·.part == part)

/-- EMBED_ARM (R262): the arm takes the lowest free number. -/
def execEmbedArm (e : Entry) (s : State) : Ans :=
  if !(Ef.arm e && !Ef.disarm e) then .next s
  else runMilris shapeEmbed e (fun s =>
    let part := s.part (Fe.dome e)
    match inTurn [
      fun _ => failIf (e.inLen != 16 || le e.input 6 2 != 0 || Fe.obj2 e == 0) St.invalidField,
      fun _ => failIf (Ef.writeIndex e && s.readOnly) St.writeProtected,
      fun _ => checkEmbedHeader (Fe.obj1 e) part s,
      fun _ => checkEmbedIndex (Fe.obj2 e) (Fe.obj1 e) part s,
      fun _ => orErr (inputFail (le e.input 0 6) part s)] with
    | .error f => .error f
    | .ok _ => match loadPlan .embed (Fe.obj1 e) 64 (Fe.dome e) s with
      | .error f => .error f
      | .ok _ => match ((List.range 16).map (· + 1)).find? fun n => !(s.armsOf part).any (·.number == n) with
        | none => .error (fieldBad 0x808)
        | some n => .ok (ok e.src n 0 (s.modInf fun x =>
            { x with arms := x.arms ++ [{ part, number := n, dome := Fe.dome e, tenant := Fe.tenant e, fn := e.src.fn, source := le e.input 0 6,
                                          plan := Fe.obj1 e, index := Fe.obj2 e, cursor := le e.input 8 8 }] }))) s

/-- EMBED_DISARM (R262): the arm of the dome's partition with the number in Dword 15 [31:16] goes. -/
def execEmbedDisarm (e : Entry) (s : State) : Ans :=
  if !(Ef.disarm e && !Ef.arm e) then .next s
  else runMilris shapeEmbed e (fun s =>
    let part := s.part (Fe.dome e)
    if Ef.writeIndex e && s.readOnly then .error St.writeProtected
    else if (s.armsOf part).any (·.number == Ef.count e) then
      .ok (ok e.src 0 0 (s.modInf fun x => { x with arms := x.arms.filter fun a => !(a.part == part && a.number == Ef.count e) }))
    else .error (fieldBad 0x808)) s

/-- A record of a source (R262): node ID, attribute word, the text's offset in the object and its length, and whether the record is in order. -/
structure IngestRecord where
  node : Nat
  attr : List Byte
  at_ : Nat
  len : Nat
  ok : Bool

/-- The complete records of a source between two offsets (R262), and the offset after the last. -/
def ingestRecords (s : State) (source limit : Nat) : Nat → Nat → List IngestRecord × Nat
  | 0, at_ => ([], at_)
  | fuel + 1, at_ =>
    if at_ + 80 > limit then ([], at_)
    else
      let b := s.objBytes source at_ 80
      let n := le b 72 4
      let stop := at_ + 80 + ceilDiv n 8 * 8
      if stop > limit then ([], at_)
      else
        let r := ingestRecords s source limit fuel stop
        ({ node := le b 0 5, attr := slice b 8 64, at_ := at_ + 80, len := n, ok := le b 5 3 == 0 && le b 76 4 == 0 && n ≤ 1048576 } :: r.1, r.2)

/-- The run of an arm over some records (R262): their texts, whose vectors it inserts. -/
def ingestRun (a : Arm) (rs : List IngestRecord) (stop : Nat) (s : State) : EmbedRun :=
  let m := s.ix a.plan
  let base := (rs.map (·.at_)).headD 0
  { src := armSrc a, index := some a.index, returns := false, dims := Eh.dims m, format := Eh.fmt m, pooling := Eh.pooling m,
    normalise := Eh.normalise m, maxTokens := Eh.maxTokens m, vocab := Eh.vocab m, prefix_ := Eh.prefix_ m, texts := rs.length,
    table := rs.map fun r => (r.node, r.attr, r.at_ - base, r.len), input := s.objBytes a.source base (stop - base), stop }

/-- The checks of a triggered run when it begins (R236, R262): the arming tenant's key, the records, and the plan and the index as an EMBED's. -/
def checkIngest (a : Arm) (rs : List IngestRecord) (s : State) : Except Fail Unit :=
  inTurn [
    fun _ => failIf (s.key? a.tenant).isNone St.keyUnavailable,
    fun _ => failIf (rs.any fun r => !r.ok) St.invalidField,
    fun _ => checkEmbedHeader a.plan a.part s,
    fun _ => checkEmbedIndex a.index a.plan a.part s,
    fun _ => failIf (Ix.nodes (s.ix a.index) + rs.length > Ix.capacity (s.ix a.index)) (fieldBad 0xA06)]

/-- An arm's triggered run becomes outstanding on the arming dome, under the arming tenant (R262). -/
def admitIngest (a : Arm) (p : Plan) (rs : List IngestRecord) (stop : Nat) (s : State) : State :=
  let c : Cmd :=
    { src := armSrc a, opcode := 0x89, dome := a.dome, tenant := a.tenant, objs := nubN (a.plan :: a.index :: a.source :: p.objs),
      writes := nubN (a.index :: p.writes), plan := some p, chains := embedChains p rs.length true }
  startEmbed c (ingestRun a rs stop s) s

/-- INGEST_TRIGGER (R262, R263): the complete records from the cursor are embedded and inserted, as an EMBED with WRITE-INDEX would, by tasks on
the arming dome. The cursor moves past them when they are in the index. While flash is read-only nothing runs. -/
def execIngestTrigger (part arm : Nat) (s : State) : Ans :=
  .next (match s.inf.arms.find? fun a => a.part == part && a.number == arm with
    | none => s
    | some a =>
      let rs := ingestRecords s a.source a.limit (a.limit - a.cursor) a.cursor
      if !a.due || s.readOnly || rs.1.isEmpty || (s.cmd? (armSrc a)).isSome || s.hb.quiesced || s.life.phase != .up then s
      else match checkIngest a rs.1 s with
        | .error f => ingestFailed a f.toFailure s
        | .ok _ => match loadPlan .embed a.plan 64 a.dome s with
          | .error f => ingestFailed a f.toFailure s
          | .ok p => admitIngest a p rs.1 rs.2 s)

end Sys2Proof.Machine
end

