-- ==== Sys2Proof/Machine/Merge.lean ====
section
/-! DEFINITION. The peer merge chain: MERGE, the BAR4 peer window and the completion timeout (10 R323 to R328; 11 R350; 07 R228;
19 R512). -/

namespace Sys2Proof.Machine

open Sys2Proof

/-! ### The chain descriptor (Table 10-11) -/

/-- DW13 [17:16]. -/
def Mf.kind (e : Entry) : Nat := bits e.dw13.toNat 17 16
/-- Position. -/
def Mf.pos (e : Entry) : Nat := bits e.dw14.toNat 5 0
/-- Chain length. -/
def Mf.len (e : Entry) : Nat := bits e.dw14.toNat 13 8 + 1
/-- Merge ID. -/
def Mf.id (e : Entry) : Nat := bits e.dw14.toNat 31 16
/-- k. -/
def Mf.k (e : Entry) : Nat := bits e.dw15.toNat 10 0
/-- The payload's bytes (R325). -/
def Mf.payload (e : Entry) : Nat := if Mf.kind e = 0 then le e.input 0 4 * (32 + 16 * Mf.k e) else le e.input 4 4

/-- The size of the aggregate payload in a local partial (11 R347). -/
def aggSize (b : List Byte) : Nat := 64 + le b 6 2 * (16 + 32 * le b 4 2)

/-- The shape of MERGE: k is named for kind 0 only. -/
def shapeMerge (kind : Nat) : Shape := ⟨0x90, 6, 0x00030000#32, 0xFFFF3F3F#32, if kind = 0 then 0x7FF#32 else 0#32, true, true⟩

/-- A descriptor field is out of range (R325, Table 10-11). -/
def chainBadField (e : Entry) : Bool :=
  let b := e.input
  let p := Mf.pos e
  let last := p + 1 == Mf.len e
  let kind := Mf.kind e
  (if kind = 0 then le b 0 4 == 0 || le b 0 4 > 4096 || le b 4 4 != 0
   else le b 0 4 != 0 || le b 4 4 < 8 || le b 4 4 > 16773120) || Mf.payload e > 16773120 ||
  (if last then le b 8 8 != 0 || le b 16 1 != 0 || le b 18 1 != 0 else le b 16 1 == 0 || le b 16 1 > 63 || le b 18 1 > 63) ||
  (if p = 0 then le b 17 1 != 0 || le b 19 1 != 0 || le b 24 8 != 0 else le b 17 1 == 0 || le b 17 1 > 63 || le b 19 1 > 63)

/-- An inbox or a board slot is in use by an outstanding MERGE. -/
def State.chainBusy (s : State) (e : Entry) : Bool :=
  s.mrg.merges.any fun g =>
    (Mf.pos e != 0 && g.position != 0 && g.ownInbox == le e.input 17 1) ||
    (Mf.pos e + 1 != Mf.len e && g.position + 1 != g.length && g.ownSlot == le e.input 18 1)

/-! ### Peer writes (R326, R327) -/

/-- The peer-failure event and counter (R327, Table 10-14). -/
def peerFailed (id : Nat) (s : State) : State := ctrAdd .searchPeerFailures 0 1 (raise 0x011 (BitVec.ofNat 32 id) s)

/-- Peer Unreachable with a detail code. -/
def unreachable (detail : Nat) : Fail := { St.peerUnreachable with detail }

/-- A MERGE fails against its peer (R327). -/
def mergeFails (m : Merge) (detail : Nat) (s : State) : State := peerFailed m.id (failWhole m.src (unreachable detail) s)

/-- Why a write to a peer on a function cannot go out, as a detail code: no bus mastering (R327), or an Insecure stream (18 R501; log
19). -/
def State.peerFault (s : State) (f : Nat) : Option Nat :=
  if !(s.fn? f).any (·.busMaster) then some 0xA22 else if s.sec.ide.any (·.insecure) then some 0x1202 else none

/-- Issue a write to a peer; in quiesce it is held (R328; 03 R100). -/
def sendPeer (a : Nat) (bs : List Byte) (s : State) : State :=
  if s.hb.quiesced then s.modHb fun h => { h with peer := h.peer ++ [(a, bs)] } else s.modMrg fun m => { m with sent := m.sent ++ [(a, bs)] }

/-- A ready notice (Table 10-9). -/
def readyNotice (id inbox bytes : Nat) : List Byte :=
  toLE 2 id ++ toLE 1 inbox ++ toLE 1 0 ++ toLE 4 bytes ++ List.replicate 52 0 ++ toLE 4 1

/-- An inbox header (Table 10-10). -/
def inboxHeader (id pos kind bytes crc queries : Nat) : List Byte :=
  toLE 2 id ++ toLE 1 pos ++ toLE 1 kind ++ toLE 4 bytes ++ toLE 4 crc ++ toLE 4 queries ++ List.replicate 44 0 ++ toLE 4 1

/-- Update a merge. -/
def modMerge (src : Src) (f : Merge → Merge) (s : State) : State :=
  s.modMrg fun x => { x with merges := updIf (·.src == src) f x.merges }

/-- The entry of a MERGE breaks Table 4-3 or R325. -/
def mergeBad (kind : Nat) (e : Entry) : Bool :=
  kind == 3 || e.inLen != 64 || bits e.dw14.toNat 13 8 == 0 || le e.input 20 4 != 0 || !allZero (slice e.input 32 32) ||
  (kind == 0 && (Mf.k e == 0 || Mf.k e > 1024))

/-- What a MERGE runs with (Table 10-11): its fields and its own partial. -/
def mergeOf (kind : Nat) (e : Entry) (own : List Byte) : Merge :=
  let b := e.input
  { src := e.src, kind, position := Mf.pos e, length := Mf.len e, id := Mf.id e, k := Mf.k e, queries := le b 0 4, payload := Mf.payload e,
    succBase := le b 8 8, succInbox := le b 16 1, ownInbox := le b 17 1, ownSlot := le b 18 1, predSlot := le b 19 1,
    predBase := le b 24 8, local_ := own, merged := Mf.pos e = 0 }

/-- A MERGE becomes outstanding. -/
def startMerge (e : Entry) (m : Merge) (s : State) : State :=
  (enrol { cmdOf e 0x90 [Fe.obj1 e] with chains := [({ tasks := [], dynamic := true } : Chain)] } s).modMrg fun x =>
    { x with merges := x.merges ++ [m] }

/-- Bytes of T1 that an inbox takes (R324). -/
def inboxBytes (m : Merge) : Nat := ceilDiv m.payload 4096 * 4096

/-- A MERGE arms its inbox, which its partition is charged with (R325). -/
def armInbox (m : Merge) (part : Nat) (s : State) : State :=
  (charge (.inbox m.ownInbox) 1 part (inboxBytes m) s).modMrg fun x => { x with armed := x.armed ++ [(m.ownInbox, m.id, m.payload)] }

/-- A result block of result blocks has a reserved field that is not 0, in its status, its header or an entry, or a count or stop reason that no
table lists (Tables 9-3, 9-6, 10-7; 00 R13, R15). -/
def listBad (size : Nat) (b : List Byte) : Bool :=
  (List.range (b.length / size)).any fun q =>
    let x := slice b (q * size) size
    let n := le x 0 2 % 2 ^ 13
    bits (le x 0 4) 31 15 != 0 || 32 + 16 * n > size || le x 24 1 > 2 || bits (le x 25 1) 7 5 != 0 || le x 28 4 != 0 ||
    (List.range n).any fun i => le x (44 + 16 * i) 4 != 0

/-- An aggregate payload has a reserved field that is not 0 (Table 11-8, 11 R347; 00 R13). -/
def aggReserved (b : List Byte) : Bool :=
  !allZero (slice b 40 24) || (List.range (le b 6 2)).any fun g => le b (72 + g * (16 + 32 * le b 4 2)) 8 != 0

/-- The local partial breaks what its kind asks (R325; 07 R228; 11 R350). -/
def partialBad (kind k size : Nat) (own : List Byte) : Option Fail :=
  if kind = 0 ∧ listBad (32 + 16 * k) own then some St.invalidField
  else if kind = 1 ∧ aggSize own ≠ size then some (fieldBad 0xB10)
  else if kind = 1 ∧ aggReserved own then some St.invalidField
  else if kind = 2 ∧ 16 + 4 * le own 2 2 * le own 4 4 ≠ size then some (fieldBad 0xA10)
  else if kind = 2 ∧ recordBad (le own 2 2) (le own 4 4) own then some St.invalidField
  else none

/-- A MERGE of a kind (R325, R326): its inbox is armed and its ready notice is written. A peer chain is a MERGE's alone: 01 R28 and 07 R228
allow one to a plan stage too, but Tables 8-1 to 8-5 give a stage no field that names peers or a chain order, so that none does (DESIGN
CHOICE, log 46). -/
def runMerge (kind : Nat) (e : Entry) (s : State) : Except Fail State :=
  let part := s.part (Fe.dome e)
  let id := Fe.obj1 e
  let size := Mf.payload e
  if mergeBad kind e then .error St.invalidField
  else if Mf.pos e ≥ Mf.len e ∨ chainBadField e ∨ s.chainBusy e then .error (fieldBad 0xA10)
  else orFail (inputFail id part s) fun _ =>
    let own := s.objBytes id 0 size
    if (s.obj? id).any (·.size < size) then .error (fieldBad 0xA10)
    else orFail (partialBad kind (Mf.k e) size own) fun _ =>
      let m := mergeOf kind e own
      if m.position = 0 then .ok (startMerge e m s)
      else match fit part 1 (inboxBytes m) s with
        | .error d => .error (St.quotaExceeded 1 d)
        | .ok t =>
          let s1 := armInbox m part (startMerge e m t)
          match s.peerFault e.src.fn with
          | none => .ok (sendPeer (m.predBase + 64 * m.predSlot) (readyNotice m.id m.ownInbox size) s1)
          | some x => .ok (mergeFails m x s1)

/-- MERGE_TOP_K (10 R325, R326). An unlisted kind is turned away here (00 R15). -/
def execMergeTopK (e : Entry) (s : State) : Ans :=
  if Mf.kind e = 1 ∨ Mf.kind e = 2 then .next s else runMilris (shapeMerge (Mf.kind e)) e (runMerge (Mf.kind e) e) s

/-- MERGE_AGGREGATES (10 R325, R326; 11 R350). -/
def execMergeAggregates (e : Entry) (s : State) : Ans :=
  if Mf.kind e ≠ 1 then .next s else runMilris (shapeMerge 1) e (runMerge 1 e) s

/-- MERGE_REDUCTION_SUM (10 R325, R326; 07 R228). -/
def execMergeReductionSum (e : Entry) (s : State) : Ans :=
  if Mf.kind e ≠ 2 then .next s else runMilris (shapeMerge 2) e (runMerge 2 e) s

/-! ### Merging (R314, R228; 11 R350) -/

/-- The list entries that a result block holds. -/
def blockEntries (b : List Byte) : List ListEntry := (List.range (le b 0 2 % 2 ^ 13)).map fun i => entryOf (slice b (32 + 16 * i) 16)

/-- A list that a result block holds, with its status (Table 9-3). -/
def blockList (b : List Byte) : Sel ListEntry :=
  let st := le b 0 8
  { entries := listRanked (blockEntries b), tie := bit st 13, approx := bit st 14, population := bits st 63 32, passes := 0, refine := 0 }

/-- Two result blocks, in the order in which they arrived, merged (R285, R286, R314): the block, the duplicates removed and the merge's own cut. -/
def mergeBlocks (k : Nat) (a b : List Byte) : List Byte × Nat × Sel ListEntry :=
  let cut := mergeLists k (blockEntries a ++ blockEntries b)
  let r := (mergedStatus cut.1 [blockList a, blockList b], cut.2)
  let count := r.1.entries.length
  let fa := le a 25 1
  let fb := le b 25 1
  let any (n : Nat) : Nat := 2 ^ n * b2n (bit fa n || bit fb n)
  let ex := b2n ((bit fa 0 || bit fb 0) && count < k)
  (resultBlock k (selStatus count r.1.tie r.1.approx r.1.population) (le a 8 4 + le b 8 4) (le a 12 4 + le b 12 4) (le a 16 4 + le b 16 4)
     (le a 20 4 + le b 20 4) (Nat.max (le a 24 1) (le b 24 1)) (ex + any 1 + any 2 + any 3 + any 4) (le a 26 2 + le b 26 2)
     (r.1.entries.map (·.2.2)), r.2, cut.1)

/-- A lane value m × 2^(Eₗ − 128) in units of 2^(E − 128), rounded to nearest with ties to even (07 R220). -/
def laneUnits (m : Int) (el e : Nat) : Int := if el ≥ e then m * 2 ^ (el - e) else rneShift m (e - el)

/-- The overflow re-runs of a tile joined to another (07 R221, R222): exponent, mantissas, re-runs, saturated. -/
def joinPass (cs : List Int) (el : Nat) : Nat → Nat → List Int → Nat × List Int × Nat × Bool
  | fuel, e, ms =>
    let n := (ms.zip cs).map fun p => p.1 + laneUnits p.2 el e
    if n.all inRange then (e, n, 0, false)
    else if e ≥ 254 then (e, n.map clipMant, 0, true)
    else match fuel with
      | 0 => (e, n.map clipMant, 0, true)
      | k + 1 =>
        let r := joinPass cs el k (e + 2) (ms.map fun m => rneShift m 2)
        (r.1, r.2.1, r.2.2.1 + 1, r.2.2.2)

/-- The exponent that an UNSET tile takes from another tile's lanes (07 R221). -/
def joinExponent (cs : List Int) (el : Nat) : Nat := Nat.min 255 (Nat.max 0 (el + Nat.log2 (maxN (cs.map Int.natAbs)) + 1 - 22))

/-- A received tile record continued with a local one (07 R220 to R222, R228): the record, the re-runs and whether it saturated
now (log 48). -/
def joinTiles (rcv own : List Byte) : List Byte × Nat × Bool :=
  let n := le own 2 2 * le own 4 4
  let mant (b : List Byte) : List Int := (List.range n).map fun i => toSigned 32 (le b (16 + 4 * i) 4)
  let passes := sat 0xFFFFFFFF (le rcv 12 4 + le own 12 4)
  let out (e : Option Nat) (ms : List Int) (st : Bool) (re : Nat) : List Byte :=
    toLE 1 (e.getD 0) ++ toLE 1 (b2n e.isNone + 2 * b2n st) ++ toLE 2 (le own 2 2) ++ toLE 4 (le own 4 4) ++ toLE 4 (sat 0xFFFF re) ++
    toLE 4 passes ++ ms.flatMap fun m => toLE 4 (ofSigned 32 m)
  let st := bit (le rcv 1 1) 1 || bit (le own 1 1) 1
  let re := le rcv 8 2 + le own 8 2
  let cs := mant own
  let unset := bit (le own 1 1) 0 || cs.all (· == 0)
  if unset then (out (if bit (le rcv 1 1) 0 then none else some (le rcv 0 1)) (mant rcv) st re, 0, false)
  else
    let e := if bit (le rcv 1 1) 0 then joinExponent cs (le own 0 1) else le rcv 0 1
    let r := joinPass cs (le own 0 1) 128 e (mant rcv)
    (out (some r.1) r.2.1 (st || r.2.2.2) (re + r.2.2.1), r.2.2.1, r.2.2.2)

/-- Two aggregate payloads whose layout no scan here has used: the slots' values are free (log 44). -/
def freeSlotsOf (a : List Byte) (s : State) : List Byte × State :=
  let n := le a 6 2 * le a 4 2
  let d := draws (2 * n) s
  let size := 16 + 32 * le a 4 2
  ((List.range n).foldl (fun b i =>
    let o := 64 + i / Nat.max 1 (le a 4 2) * size + 16 + 32 * (i % Nat.max 1 (le a 4 2))
    patch b o (toLE 8 (d.1.getD (2 * i) 0) ++ toLE 8 (d.1.getD (2 * i + 1) 0))) a, d.2)

/-- The merge of a received payload with the local partial, which was there first (09 R285) and whose merge the unit of the dome's first
cluster makes (log 84): the payload, the entries, the duplicates removed and the state. -/
def mergedPayload (m : Merge) (dome : Nat) (rcv : List Byte) (s : State) : Except Fail (List Byte × Nat × State) :=
  if m.kind = 0 then
    let size := 32 + 16 * m.k
    let bs := (List.range m.queries).map fun q => mergeBlocks m.k (slice m.local_ (q * size) size) (slice rcv (q * size) size)
    let dups := sat 0xFFFFFFFF (sumN (bs.map (·.2.1)))
    let count (s : State) (x : Sel ListEntry) : State := match s.clusters dome with
      | [] => s
      | cl :: _ => ctrAdd .selSelectionPasses cl x.passes s
    let s1 := bs.foldl (fun s b => countShort dome m.k b.2.2.entries.length (countCut dome b.2.2 (count s b.2.2))) s
    if listBad size rcv then .error St.invalidField else .ok (bs.flatMap (·.1), dups, ctrPart .selDuplicatesRemoved dome dups s1)
  else if m.kind = 1 then
    if !sameLayout rcv m.local_ then .error (fieldBad 0xB10)
    else match s.scn.layouts.find? fun l => l.1.toNat == le rcv 8 4 with
      | some l => .ok (mergePayload l.2 rcv m.local_, 0, s)
      | none =>
        let r := freeSlotsOf (mergePayload [] rcv m.local_) s
        .ok (r.1, 0, r.2)
  else if recordBad (le m.local_ 2 2) (le m.local_ 4 4) rcv then .error (planBad 0x705)
  else
    let r := joinTiles rcv m.local_
    let s1 := ctrPart .arrayOverflowReRuns dome r.2.1 s
    .ok (r.1, 0, if r.2.2 then ctrPart .arrayAccumulatorSaturations dome 1 s1 else s1)

/-- Entries of a payload: Dword 0 (R326; 11 R350). Those of a kind 2 payload are free (log 46). -/
def mergeEntries (m : Merge) (b : List Byte) (s : State) : Nat × State :=
  if m.kind = 0 then (sumN ((List.range m.queries).map fun q => (blockEntries (slice b (q * (32 + 16 * m.k)) (32 + 16 * m.k))).length), s)
  else if m.kind = 1 then (le b 6 2, s)
  else
    let d := draw s
    (d.1.toNat % 2 ^ 32, d.2)

/-- The result blocks of a payload of kind 0. -/
def payloadBlocks (m : Merge) (b : List Byte) : List (List Byte) :=
  (List.range m.queries).map fun q => slice b (q * (32 + 16 * m.k)) (32 + 16 * m.k)

/-- What the last position writes of a payload (R326; 07 R228): of a tile record its lanes in binary32, +0 for an UNSET tile (07 R224; log 48). -/
def lastOutput (m : Merge) (b : List Byte) : List Byte :=
  if m.kind ≠ 2 then b
  else
    let a : Acc := { exponent := if bit (le b 1 1) 0 then none else some (le b 0 1), saturated := bit (le b 1 1) 1
                     mant := (List.range (le b 2 2 * le b 4 4)).map fun i => toSigned 32 (le b (16 + 4 * i) 4) }
    (a.out f32).flatMap fun x => toLE 4 x.1

/-- The output saturations of the lanes that the last position writes (07 R224). -/
def lastSaturations (m : Merge) (b : List Byte) : Nat :=
  if m.kind ≠ 2 ∨ bit (le b 1 1) 0 then 0
  else ((List.range (le b 2 2 * le b 4 4)).filter fun i => (laneOut f32 (le b 0 1) (toSigned 32 (le b (16 + 4 * i) 4))).2).length

/-- A member completes with its dwords, its output and the end of its chain. -/
def endMerge (m : Merge) (out : List Byte) (s : State) : State :=
  let n := mergeEntries m m.local_ s
  settle m.src (modCmd m.src (fun c =>
    { c with out := if m.kind = 0 ∧ !out.isEmpty then keepTails c m.k (payloadBlocks m out) s else out, dw0 := n.1, dw1 := m.removed, chains := c.chains.map fun h => { h with finished := true } }) n.2)

/-! ### The events of a chain -/

/-- A board slot holds a valid notice for a merge ID. -/
def State.noticed (s : State) (slot id : Nat) : Bool :=
  memLE s.mrg.window (64 * slot + 60) 4 == 1 && memLE s.mrg.window (64 * slot) 2 == id

/-- The MERGE of a sender. -/
def State.merge? (s : State) (src : Src) : Option Merge := s.mrg.merges.find? (·.src == src)

/-- MERGE_READY_NOTICE_FOUND (R326 step 2): the payload goes to the successor's inbox, its header last. Peer writes are held during
quiesce (R328). -/
def execMergeReadyNoticeFound (src : Src) (s : State) : Ans :=
  .next (match s.merge? src with
    | none => s
    | some m =>
      if !m.merged ∨ m.sent ∨ m.position + 1 = m.length ∨ !s.noticed m.ownSlot m.id ∨ s.hb.quiesced ∨ (s.cmd? src).any (·.failed.isSome) then s
      else match s.peerFault src.fn with
      | some x => mergeFails m x s
      | none =>
        let base := m.succBase + m.succInbox * 0x1000000
        let s1 := sendPeer base (inboxHeader m.id m.position m.kind m.local_.length (crc32c m.local_).toNat m.queries)
          (sendPeer (base + 0x1000) m.local_ s)
        ctrAdd .searchPeerPayloadsSent 0 1 (modMerge src (fun m => { m with sent := true }) s1))

/-- MERGE_PAYLOAD_RECEIVED (R326 steps 3 and 4, R327): a valid header with the merge ID is in the inbox. -/
def execMergePayloadReceived (src : Src) (s : State) : Ans :=
  .next (match s.merge? src, s.cmd? src with
    | some m, some c =>
      let h := m.ownInbox * 0x1000000
      let at_ (o n : Nat) : Nat := memLE s.mrg.window (h + o) n
      if m.position = 0 ∨ m.merged ∨ at_ 60 4 ≠ 1 ∨ at_ 0 2 ≠ m.id ∨ c.failed.isSome then s
      else
        let rcv := memRead s.mrg.window (h + 0x1000) m.payload
        if at_ 4 4 ≠ m.payload ∨ at_ 3 1 ≠ m.kind ∨ at_ 12 4 ≠ m.queries ∨ at_ 8 4 ≠ (crc32c rcv).toNat then mergeFails m 0xA21 s
        else match mergedPayload m c.dome rcv s with
          | .error f => failWhole src f s
          | .ok (b, dups, s1) =>
            let n : Merge := { m with local_ := b, merged := true, removed := dups }
            let s2 := ctrAdd .searchPeerPayloadsReceived 0 1 (disarm m.ownInbox (modMerge src (fun _ => n) s1))
            if m.position + 1 = m.length then endMerge n (lastOutput n b) (ctrPart .arrayOutputSaturations c.dome (lastSaturations n b) s2) else s2
    | _, _ => s)

/-- The end of a read-back (R326 step 2, R327). -/
def readBackEnds (m : Merge) (r : ReadBack) (s : State) : State :=
  match r with
  | .ok => endMerge m [] (s.modMrg fun x => { x with window := memClear x.window (64 * m.ownSlot) 64 })
  | .unsupported | .completerAbort => mergeFails m 0xA20 s
  | .timeout => reportAer 0 (mergeFails m 0xA20 s)

/-- MERGE_READBACK_COMPLETE (R326, R327). -/
def execMergeReadbackComplete (src : Src) (r : ReadBack) (s : State) : Ans :=
  .next (match s.merge? src with
    | none => s
    | some m => if !m.sent ∨ (s.cmd? src).any (·.failed.isSome) then s else readBackEnds m r s)

/-- A stray peer write (R328). -/
def stray (inbox : Nat) (s : State) : State :=
  ctrAdd .searchPeerWritesDiscarded 0 1 (raise 0x012 (BitVec.ofNat 32 inbox) s)

/-- PEER_WINDOW_WRITE (R324, R328; 22 R568): the ready board takes writes at any time; a write to what no MERGE has armed is a stray. -/
def execPeerWindowWrite (w : PeerWrite) (s : State) : Ans :=
  .next (
    let n := w.bytes.length
    let store (s : State) : State := s.modMrg fun m => { m with window := memPut m.window w.offset w.bytes }
    if !s.windowOpen ∨ n = 0 ∨ w.offset + n > 0x40000000 then s
    else if w.offset + n ≤ 0x1000 then store s
    else
      let i := w.offset / 0x1000000
      let o := w.offset % 0x1000000
      match s.mrg.armed.find? (·.1 == i) with
      | none => stray i s
      | some a =>
        let whole := o + n ≤ 0x1000000
        let header := whole && o + n ≤ 64
        let load := whole && o ≥ 0x1000 && o + n ≤ 0x1000 + a.2.2
        if i = 0 ∨ !(header || load) then stray i s
        else if header && o = 0 && n ≥ 2 && le w.bytes 0 2 != a.2.1 then stray i s
        else store s)

/-- COMPLETION_TIMEOUT (19 R512): the request of a task's transfer (05 R178), or of a MERGE's read-back (10 R327), has no completion in
its time. -/
def execCompletionTimeout (t : TaskRef) (s : State) : Ans :=
  .next (match s.merge? t.src with
    | some m => if !m.sent ∨ (s.cmd? t.src).any (·.failed.isSome) then s else readBackEnds m .timeout s
    | none => match s.flight? t, s.channel? t with
      | some _, some x =>
        let a := XferEnd.source x.desc x.ends x.next
        let z := XferEnd.dest x.desc x.ends x.next
        match s.t2Addresses a ++ s.t2Addresses z with
        | [] => s
        | addr :: _ => if x.halted then s else reportAer 0 (transferFault t x addr s)
      | _, _ => s)

end Sys2Proof.Machine
end

