-- ==== Sys2Proof/Machine/Mgmt.lean ====
section
/-! DEFINITION. Management over SMBus, and the LEDs (16 R448; 19 R516, R517, R520; 20 R532). The layouts of NVMe-MI 2.0 are log 61. -/

namespace Sys2Proof.Machine

open Sys2Proof

/-- The SMBus endpoint has a supply. -/
def State.smbusUp (s : State) : Bool := s.life.vaux || s.life.v12

/-- 12 V is absent: the state of R448. -/
def State.onAux (s : State) : Bool := s.life.phase == .aux

/-- An answer leaves on the SMBus. -/
def smbusSend (r : List Byte) (s : State) : State :=
  (s.modOut fun o => { o with smbus := o.smbus ++ [r] }).modMgt fun m => { m with busy := true }

/-- The composite temperature as one byte, °C: 0x80 in the state of R448; at most 0x7F. -/
def State.tempByte (s : State) : Nat := if s.onAux then 0x80 else sat 0x7F (s.kelvin - 273)

/-- The status flags: drive ready, drive functional, reset not required, link active (log 61). -/
def State.statusFlags (s : State) : Nat :=
  64 * b2n (!(s.life.phase == .up)) + 32 * b2n (!s.life.cfs) + 16 * b2n (!s.life.cfs) + 8 * b2n s.life.cfgReady

/-- The SMART warnings: the Critical Warning bits, each inverted. -/
def State.smartWarnings (s : State) : Nat := 255 - s.critical 0

/-- SMBUS_TIMEOUT_RESET (20 R532): the interface resets and lets SMDAT go. -/
def execSmbusTimeoutReset (s : State) : Ans := .next (s.modMgt fun m => { m with busy := false })

/-- BASIC_MANAGEMENT_COMMAND (R516, R517; R448): status flags, SMART warnings, composite temperature, percentage used. -/
def execBasicManagementCommand (m : MiReq) (s : State) : Ans :=
  .next (
    if m.addr ≠ 0x6A || !s.smbusUp then s
    else smbusSend ([6] ++ toLE 1 s.statusFlags ++ toLE 1 s.smartWarnings ++ toLE 1 s.tempByte ++ toLE 1 s.percentUsed ++ [0, 0]) s)

/-- Bytes of the VPD (R517). -/
def vpdBytes (off n : Nat) : List Byte := (List.range (Nat.min n (256 - off))).map fun i => Config.vpdByte (off + i)

/-- The MCTP endpoint acknowledges its address: not in the state of R448. -/
def State.mctpUp (s : State) : Bool := s.powered

/-- An NVMe-MI answer: its status and its data. -/
def miAnswer (status : Nat) (data : List Byte) (s : State) : State := smbusSend (toLE 1 status ++ data) s

/-- An MI command over MCTP: it acts when it carries its own opcode (R517). -/
def miCommand (opcode : Nat) (m : MiReq) (own : State → State) (s : State) : Ans :=
  .next (if m.addr ≠ 0x1D || m.opcode ≠ opcode || !s.mctpUp then s else own s)

/-- VPD_READ (R516, R517; R448): read at its own address, from an offset, or with the MI command VPD Read. -/
def execVpdRead (m : MiReq) (s : State) : Ans :=
  .next (
    let off := le m.payload 0 2
    let n := le m.payload 2 2
    if m.addr = 0x53 ∧ s.smbusUp then smbusSend (vpdBytes off n) s
    else if m.addr = 0x1D ∧ m.opcode = 5 ∧ s.mctpUp then
      (if off + n > 256 then miAnswer 0x04 [] s else miAnswer 0 (vpdBytes off n) s)
    else s)

/-- READ_NVME_MI_DATA_STRUCTURE (R517): subsystem, port, controllers, one controller, or the optional commands. An MI opcode that Table 19-6
does not list receives Invalid Command Opcode, here. -/
def execReadNvmeMiDataStructure (m : MiReq) (s : State) : Ans :=
  .next (
    if m.addr ≠ 0x1D || [1, 2, 3, 4, 5].contains m.opcode || !s.mctpUp then s
    else if m.opcode ≠ 0 then miAnswer 0x03 [] s
    else
      let dtyp := le m.payload 3 1
      let port := le m.payload 2 1
      if dtyp = 0 then miAnswer 0 (padTo [1, 2, 0] 32) s
      else if dtyp = 1 ∧ port = 0 then miAnswer 0 (padTo [1, 0, 0, 0] 32) s
      else if dtyp = 1 ∧ port = 1 then
        miAnswer 0 (padTo ([2, 0] ++ toLE 2 s.mgt.mtu ++ toLE 4 0 ++ [0x53, 2, 0x1D, 2, 1]) 32) s
      else if dtyp = 2 then miAnswer 0 (toLE 2 s.fns.length ++ (s.fns.map (·.id)).flatMap (toLE 2 ·)) s
      else if dtyp = 3 then
        (match s.fn? (le m.payload 0 2) with
         | some f => miAnswer 0 (padTo ([0, 0, 0, 0, 0, 0] ++ toLE 2 f.id ++ toLE 2 Config.vendorId) 32) s
         | none => miAnswer 0x04 [] s)
      else if dtyp = 4 then miAnswer 0 (toLE 2 4 ++ [0x08, 5, 0x10, 0x06, 0x10, 0x02, 0x10, 0x0A]) s
      else miAnswer 0x04 [] s)

/-- NVM_SUBSYSTEM_HEALTH_STATUS_POLL (R517). -/
def execNvmSubsystemHealthStatusPoll (m : MiReq) (s : State) : Ans :=
  miCommand 1 m (fun s => miAnswer 0 ([0, 0, 0] ++ toLE 1 (s.statusFlags % 64) ++ toLE 1 s.smartWarnings ++ toLE 1 s.tempByte ++
    toLE 1 s.percentUsed ++ toLE 2 (b2n (s.fns.any (·.rdy)) + 2 * b2n s.life.cfs) ++ [0, 0]) s) s

/-- A controller's health entry. -/
def healthEntry (s : State) (f : Func) : List Byte :=
  toLE 2 f.id ++ toLE 2 (s.csts f) ++ toLE 2 s.kelvin ++ toLE 1 s.percentUsed ++ toLE 1 s.sparePercent ++ toLE 1 (s.critical f.id) ++
    List.replicate 7 0

/-- CONTROLLER_HEALTH_STATUS_POLL (R517): the controllers from an identifier up. -/
def execControllerHealthStatusPoll (m : MiReq) (s : State) : Ans :=
  miCommand 2 m (fun s =>
    let fs := s.fns.filter fun f => f.enabled && f.id ≥ le m.payload 0 2
    miAnswer 0 ([0, 0, 0] ++ toLE 1 fs.length ++ fs.flatMap (healthEntry s)) s) s

/-- CONFIGURATION_GET (R517): SMBus frequency (1 is 100 kHz, 2 is 400 kHz) or MCTP transmission unit. -/
def execConfigurationGet (m : MiReq) (s : State) : Ans :=
  miCommand 4 m (fun s =>
    let id := le m.payload 0 1
    if id = 1 then miAnswer 0 [if s.mgt.freq = 400 then 2 else 1, 0, 0] s
    else if id = 3 then miAnswer 0 (toLE 2 s.mgt.mtu ++ [0]) s
    else miAnswer 0x04 [] s) s

/-- CONFIGURATION_SET (R516, R517). -/
def execConfigurationSet (m : MiReq) (s : State) : Ans :=
  miCommand 3 m (fun s =>
    let id := le m.payload 0 1
    let v := le m.payload 1 1
    if id = 1 ∧ (v = 1 ∨ v = 2) then miAnswer 0 [] (s.modMgt fun x => { x with freq := if v = 1 then 100 else 400 })
    else if id = 3 ∧ 64 ≤ le m.payload 4 2 then miAnswer 0 [] (s.modMgt fun x => { x with mtu := le m.payload 4 2 })
    else miAnswer 0x04 [] s) s

/-- The data and Dword 0 of a tunnelled admin command: Identify, Get Log Page or Get Features; or the failure (R517). -/
def tunnelled (m : MiReq) (f : Func) (s : State) : Except Fail (Nat × List Byte × State) :=
  let nsid := le m.payload 4 4
  let dw (i : Nat) : Nat := le m.payload (8 + 4 * (i - 10)) 4
  if m.opcode = 0x06 then
    (identifyData f.id (bits (dw 10) 7 0) (bits (dw 10) 31 16) (bits (dw 11) 31 24) nsid s).map fun d => (0, d, s)
  else if m.opcode = 0x02 then
    let n := 4 * (bits (dw 10) 31 16 + 65536 * bits (dw 11) 15 0 + 1)
    let off := dw 12 + 2 ^ 32 * dw 13
    if off % 4 ≠ 0 then .error St.invalidField
    else if ! [0x01, 0x02, 0x03, 0xC4].contains (bits (dw 10) 7 0) then .error St.logPageInvalid
    else match logPage (bits (dw 10) 7 0) f.id off s with
      | none => .error St.logPageInvalid
      | some (p, t) => .ok (0, logBytes p off n, t)
  else if bits (dw 10) 10 8 ≠ 0 then .error St.invalidField
  else match s.feature f (bits (dw 10) 7 0) (dw 11) with
    | none => .error St.invalidField
    | some (v, d) => .ok (v, d, s)

/-- TUNNELLED_ADMIN_COMMAND (R517): answered over MCTP with the completion's Dword 0, its status and the data. Another command receives
Invalid Command Opcode. -/
def execTunnelledAdminCommand (m : MiReq) (s : State) : Ans :=
  .next (
    if m.addr ≠ 0x1D || !s.mctpUp then s
    else if ! [0x02, 0x06, 0x0A].contains m.opcode then miAnswer 0x03 [] s
    else match s.fn? (le m.payload 0 2) with
      | none => miAnswer 0x04 [] s
      | some f => match tunnelled m f s with
        | .error x => miAnswer 0 (toLE 4 0 ++ toLE 4 0 ++ toLE 2 0 ++ toLE 2 (2 * x.sc + 512 * x.sct)) s
        | .ok (v, d, t) => miAnswer 0 (toLE 4 v ++ toLE 4 0 ++ toLE 2 0 ++ toLE 2 0 ++ d) t)

/-! ### LEDs (R520, Table 19-8) -/

/-- How a LED shows: off, steady, or blinking at a rate in Hz. -/
inductive Led where
  | off | steady | blink (hz : Nat)
deriving DecidableEq, Repr

/-- PWR. -/
def State.ledPwr (s : State) : Led :=
  if !s.smbusUp then .off
  else if s.life.phase = .isolated ∨ s.life.phase = .thermalDown then .blink 4
  else if s.life.v12 then .steady else .blink 1

/-- ATTN: the Critical Warning bits 0, 2 and 3 are those of the physical function. -/
def State.ledAttn (s : State) : Led :=
  let w := s.critical 0
  if s.life.cfs ∨ (s.life.phase = .isolated ∧ s.life.flushing = none ∧ s.life.flushCut = none) then .steady
  else if s.emergency then .blink 4
  else if bit w 0 || bit w 2 || bit w 3 then .blink 1 else .off

/-- ACT: what happened in the last 50 ms is not held (log 57); a command outstanding or a task in flight stands for it. -/
def State.ledAct (s : State) : Led :=
  if s.hb.quiesced then .blink 2
  else if !s.q.begun.isEmpty || s.sch.cmds.any (·.inFlight) then .steady else .off

/-- OBS: the lanes transmit while domain 49 is ON. -/
def State.ledObs (s : State) : Led := if (s.domain 49).state = .on then .steady else .off

end Sys2Proof.Machine
end

