-- ==== Sys2Proof/Machine/Scan.lean ====
section
/-! DEFINITION. FILTER SCAN: its checks, the filter engines, the pages and the output (11 R331, R332, R339 to R349). -/

namespace Sys2Proof.Machine

open Sys2Proof

/-- The shape of FILTER SCAN. -/
def shapeScan : Shape := ⟨0x88, 1, 0x00030000#32, 0xFFFFFFFF#32, 0#32, true, true⟩

/-- The record set header breaks R332 (detail 0x0B01). -/
def recordSetBad (m : Mem) (size : Nat) : Bool :=
  let rb := memLE m 6 2
  memLE m 0 4 != 0x54534352 || memLE m 4 2 != 1 || !([64, 128, 256, 512, 1024, 2048, 4096, 8192, 16384].contains rb) ||
  memLE m 8 2 % 8 != 0 || memLE m 8 2 + 64 > rb || memLE m 10 6 != 0 || memLE m 16 8 ≥ 2 ^ 40 ||
  memLE m 24 8 % 16384 != 0 || memLE m 24 8 < 16384 || !allZero (memRead m 32 32) || size < memLE m 24 8 + memLE m 16 8 * rb

/-- The records of a scan: the field, or those to the end (Table 11-6). -/
def scanCount (m : Mem) (b : List Byte) : Nat := if le b 8 8 = 0 then memLE m 16 8 - le b 0 8 else le b 8 8

/-- Bytes of an aggregate payload (R347). -/
def aggPayload (b : List Byte) : Nat := 64 + le b 24 2 * (16 + 32 * le b 21 1)

/-- The input of a FILTER SCAN (R341, Table 11-13). -/
def checkScan (mode : Nat) (m : Mem) (inLen : Nat) (b : List Byte) : Except Fail Unit :=
  let n := le b 16 4
  let np := le b 20 1
  let na := le b 21 1
  let fl := le b 23 1
  let rb := memLE m 6 2
  let at_ (i : Nat) : List Byte := slice b (64 + n + 8 * i) 8
  match checks [
    (bits fl 7 2 != 0 || !allZero (slice b 26 38), St.invalidField),
    (inLen < 64 || n % 8 != 0 || (if mode = 1 then np == 0 || np > 16 else np != 0) || (if mode = 2 then na == 0 || na > 16 else na != 0) ||
      le b 0 8 > memLE m 16 8 || le b 0 8 + le b 8 8 > memLE m 16 8 || le b 24 2 == 0 || le b 24 2 > 4096 ||
      (!bit fl 0 && le b 24 2 != 1) || inLen != 64 + n + 8 * (np + na), fieldBad 0xB02)] with
  | .error f => .error f
  | .ok _ =>
    match (if n = 0 then .ok () else checkProgram (slice b 64 n) n) with
    | .error f => .error f
    | .ok _ => checks [
      ((List.range np).any (fun i => le (at_ i) 2 2 == 0 || le (at_ i) 0 2 + le (at_ i) 2 2 > rb || le (at_ i) 4 4 != 0), fieldBad 0xB07),
      ((List.range na).any (fun i => aggBad rb (at_ i)) || (bit fl 0 && le b 22 1 + (if bit fl 1 then 2 else 1) > 64) ||
        (mode == 2 && aggPayload b > 2097152), fieldBad 0xB08)]

/-- The pages of a scan: 16 KiB pages of the object (R332). -/
def Scan.range (x : Scan) : List Nat :=
  if x.count = 0 then []
  else
    let a := (x.recOff + x.first * x.recBytes) / 16384
    let b := (x.recOff + (x.first + x.count) * x.recBytes - 1) / 16384
    (List.range (b + 1 - a)).map (a + ·)

/-- Accumulator bytes of a scan in each engine (R339). -/
def Scan.accum (x : Scan) : Nat := if x.mode = 2 then x.groupCount * (16 + 32 * x.aggs.length) else 0

/-- The scans that an engine has loaded. -/
def State.loaded (s : State) (g : Nat) : List Scan := s.scn.scans.filter fun x => x.parts.any fun p => p.group == g && p.loaded

/-- An engine has a program slot and the accumulator space for a scan (R339, R343). -/
def State.engineFree (s : State) (g : Nat) (x : Scan) : Bool :=
  (s.loaded g).length < 16 && sumN ((s.loaded g).map Scan.accum) + x.accum ≤ 2097152

/-- A scan waits for an engine. -/
def State.engineWaits (s : State) (g : Nat) : Option Scan := s.scn.scans.find? fun x => x.parts.any fun p => p.group == g && !p.loaded

/-- Update a scan. -/
def modScan (src : Src) (f : Scan → Scan) (s : State) : State := s.modScn fun x => { x with scans := updIf (·.src == src) f x.scans }

/-- Update a scan's part in an engine. -/
def modPart (src : Src) (g : Nat) (f : EnginePart → EnginePart) (s : State) : State :=
  modScan src (fun x => { x with parts := updIf (·.group == g) f x.parts }) s

/-- The scan of a sender. -/
def State.scan? (s : State) (src : Src) : Option Scan := s.scn.scans.find? (·.src == src)

/-- A scan has no page left to read (R346). -/
def Scan.over (x : Scan) : Bool := x.stopped || x.range.all x.pages.contains

/-! ### The output (R345 to R349) -/

/-- The engines' slots of a group combined in ascending channel group order (R349); the first slot counts its matched records. -/
def Scan.slots (x : Scan) (g : Nat) : List AggSlot :=
  (List.range (x.aggs.length + 1)).map fun i =>
    let a := if i = 0 then (0, 0, 0, 0) else x.aggs.getD (i - 1) (0, 0, 0, 0)
    (x.parts.map fun p => (((lookN g p.groups).getD []).getD i {}).closed).foldl (fun acc v => mergeSlot a.1 a.2.1 acc v) {}

/-- The aggregate payload of a scan (R347, Table 11-8). -/
def Scan.payload (x : Scan) : List Byte :=
  let total (f : EnginePart → Nat) : Nat := sumN (x.parts.map f)
  toLE 4 0x53474741 ++ toLE 2 x.aggs.length ++ toLE 2 x.groupCount ++ toLE 4 x.layout.toNat ++
  toLE 4 (sat 0xFFFFFFFF (total (·.skipped))) ++ toLE 8 (total (·.scanned)) ++ toLE 8 (total (·.matched)) ++ toLE 8 (total (·.outKeys)) ++
  List.replicate 24 0 ++ (List.range x.groupCount).flatMap fun g =>
    let l := x.slots g
    toLE 8 (l.headD {}).count ++ List.replicate 8 0 ++ (l.drop 1).flatMap slotBytes

/-- A scan's output and dwords as its collectors end (R346, R349): skipped pages fail it, with its output (R344). -/
def finishScan (src : Src) (s : State) : State :=
  match s.scan? src, s.cmd? src with
  | some x, some c =>
    let out := if x.mode = 2 then x.payload else c.out
    let matched := sumN (x.parts.map (·.matched))
    let skipped := sumN (x.parts.map (·.skipped))
    let s1 := modCmd src (fun c => { c with out, dw0 := if x.mode ≠ 2 ∧ x.limit ≠ 0 then x.rows else sat 0xFFFFFFFF matched,
                                            dw1 := sat 0xFFFFFFFF (Nat.min out.length c.outLen) }) s
    let s2 := ctrPart .scanScansCompleted c.dome 1 s1
    if skipped = 0 then s2
    else
      let fail : Failure := { sct := 2, sc := 0x81, detail := sat 0xFFFFFFFF skipped }
      modCmd src (fun c => { c with failed := some fail }) s2
  | _, _ => s

/-- What a scan remembers of its aggregates for MERGE (R350; log 44). -/
def rememberLayout (x : Scan) (s : State) : State :=
  if x.mode ≠ 2 then s
  else s.modScn fun z => { z with layouts := (x.layout, x.aggs.map fun a => (a.1, a.2.1)) :: z.layouts.filter (·.1 ≠ x.layout) }

/-- The scan that an entry asks for. -/
def scanOf (e : Entry) (m : Mem) : Scan :=
  let b := e.input
  let n := le b 16 4
  let fl := le b 23 1
  let entry (i : Nat) : List Byte := slice b (64 + n + 8 * i) 8
  { src := e.src, object := Fe.obj1 e, mode := bits e.dw13.toNat 17 16, limit := e.dw14.toNat, first := le b 0 8, count := scanCount m b,
    recBytes := memLE m 6 2, attrOff := memLE m 8 2, recOff := memLE m 24 8, program := slice b 64 n,
    projs := (List.range (le b 20 1)).map fun i => (le (entry i) 0 2, le (entry i) 2 2),
    aggs := (List.range (le b 21 1)).map fun i => aggEntry (entry i),
    grouped := bit fl 0, keyOff := le b 22 1, keyWidth := if bit fl 1 then 2 else 1, groupCount := le b 24 2,
    layout := crc32c (slice b 20 8 ++ slice b (64 + n) (8 * le b 21 1)), parts := [] }

/-- A checked FILTER SCAN becomes outstanding with its collectors, each loaded where its engine has room (R343); over no record it ends
at once. -/
def admitScan (e : Entry) (m : Mem) (s : State) : State :=
  let x := scanOf e m
  let gs := if x.range.isEmpty then [] else List.range 8
  let free (g : Nat) : Bool := (s.engineWaits g).isNone && s.engineFree g x
  let x1 := { x with parts := gs.map fun g => { group := g, loaded := free g } }
  let task : TaskSpec := { worst := 400, t0 := 262144 }
  let c := { cmdOf e 0x88 [Fe.obj1 e] with chains := gs.map fun _ => ({ tasks := [task], dynamic := true } : Chain) }
  let s1 := rememberLayout x ((enrol c s).modScn fun z => { z with scans := z.scans ++ [x1] })
  let s2 := ctrPart .scanWaitsForAnEngineSlot (Fe.dome e) (gs.filter fun g => !free g).length s1
  if gs.isEmpty then settle e.src (finishScan e.src s2) else s2

/-- FILTER_SCAN (R331, R332, R341 to R343). The collectors are one for each channel group (log 43). -/
def execFilterScan (e : Entry) (s : State) : Ans :=
  runMilris shapeScan e (fun s =>
    let id := Fe.obj1 e
    if bits e.dw13.toNat 17 16 = 3 then .error St.invalidField
    else orFail (inputFail id (s.part (Fe.dome e)) s) fun _ =>
      let m := ((s.durable? id).map (·.data)).getD []
      if !(s.obj? id).any (·.flag 5) ∨ recordSetBad m (((s.obj? id).map (·.size)).getD 0) then .error (fieldBad 0xB01)
      else match checkScan (bits e.dw13.toNat 17 16) m e.inLen.toNat e.input with
        | .error f => .error f
        | .ok _ => .ok (admitScan e m s)) s

/-- SCAN_ENGINE_SLOT_FREE (R343): the scan that has waited longest for an engine takes the slot when it fits. -/
def execScanEngineSlotFree (group : Nat) (s : State) : Ans :=
  .next (match s.engineWaits group with
    | none => s
    | some x => if s.engineFree group x then modPart x.src group (fun p => { p with loaded := true }) s else s)

/-! ### A page (R344 to R349) -/

/-- A row of the output (R345). -/
def Scan.row (x : Scan) (i : Nat) (rec_ : List Byte) : List Byte :=
  if x.mode = 0 then toLE 8 i ++ rec_
  else
    let b := x.projs.flatMap fun p => slice rec_ p.1 p.2
    toLE 8 i ++ padTo b (ceilDiv b.length 8 * 8)

/-- A matched record aggregated in an engine (R347, R348). -/
def aggregateRecord (x : Scan) (rec_ : List Byte) (p : EnginePart) : EnginePart :=
  let key := if x.grouped then le (slice rec_ x.attrOff 64) x.keyOff x.keyWidth else 0
  if key ≥ x.groupCount then { p with outKeys := p.outKeys + 1 }
  else
    let l := (lookN key p.groups).getD (List.replicate (x.aggs.length + 1) {})
    let slots := l.zipIdx.map fun a =>
      if a.2 = 0 then aggCount a.1
      else
        let g := x.aggs.getD (a.2 - 1) (0, 0, 0, 0)
        if g.1 = 0 then aggCount a.1 else aggregate g.1 g.2.1 g.2.2.1 (le rec_ g.2.2.2 g.2.2.1) a.1
    { p with groups := putN key slots p.groups }

/-- The records of a page that lie in the range (R332). -/
def Scan.records (x : Scan) (page : Nat) : List Nat :=
  let per := 16384 / Nat.max 1 x.recBytes
  let base := (page * 16384 - x.recOff) / Nat.max 1 x.recBytes
  ((List.range per).map (base + ·)).filter fun i => x.first ≤ i && i < x.first + x.count

/-- Some n of a list of records, as free draws pick them (R346; log 83). -/
def pickSome : Nat → List Nat → List Nat → List Nat
  | 0, _, _ => []
  | n + 1, [], l => l.take (n + 1)
  | n + 1, d :: ds, l =>
    let x := l.getD (d % Nat.max 1 l.length) 0
    x :: pickSome n ds (delN x l)

/-- The matches of a page that become rows: all, or with too few rows left below the limit, some of them (R346). -/
def rowsOf (x : Scan) (hits : List Nat) (s : State) : List Nat × State :=
  if x.mode = 2 then ([], s)
  else if x.limit = 0 ∨ x.rows + hits.length ≤ x.limit then (hits, s)
  else
    let d := draws (x.limit - x.rows) s
    (hits.filter (pickSome (x.limit - x.rows) d.1 hits).contains, d.2)

/-- FILTER_ENGINE_PAGE (R331, R339, R344 to R348): an engine has read a page of a scan, for its collector in flight. -/
def execFilterEnginePage (src : Src) (group page block : Nat) (r : ReadEnd) (s : State) : Ans :=
  .next (match s.scan? src, s.flight? { src, chain := group } with
    | some x, some (c, _, _) =>
      match x.parts.find? fun p => p.group == group && p.loaded with
      | none => s
      | some p =>
        if x.stopped ∨ x.pages.contains page ∨ !x.range.contains page ∨ c.failed.isSome then s
        else
          let s1 := ctrPart .scanScanPagesRead c.dome 1 (countClass (dieOf block) 2 16384 (readBlock block r (readEnd r (countRead block 1 s))))
          let s2 := countEngine group (if readFailed r then 0 else (x.records page).length) (modScan src (fun x => { x with pages := x.pages ++ [page] }) s1)
          if readFailed r then
            ctrPart .scanScanPagesSkipped c.dome 1 (modPart src group (fun p => { p with skipped := p.skipped + 1 }) s2)
          else
            let m := ((s.durable? x.object).map (·.data)).getD []
            let read (i : Nat) : List Byte := memRead m (x.recOff + i * x.recBytes) x.recBytes
            let hits := (x.records page).filter fun i => matchesProgram x.program (slice (read i) x.attrOff 64)
            let out := rowsOf x hits s2
            let p1 := { p with scanned := p.scanned + (x.records page).length, matched := p.matched + hits.length }
            let p2 := if x.mode = 2 then hits.foldl (fun p i => aggregateRecord x (read i) p) p1 else p1
            let rows := x.rows + out.1.length
            let s3 := modScan src (fun x => { x with rows, stopped := x.mode != 2 && x.limit != 0 && rows ≥ x.limit }) out.2
            let s4 := modCmd src (fun c => { c with out := c.out ++ out.1.flatMap fun i => x.row i (read i) }) (modPart src group (fun _ => p2) s3)
            ctrPart .scanRecordsScanned c.dome (x.records page).length (ctrPart .scanRecordsMatched c.dome hits.length
              (ctrPart .scanGroupKeysOutOfRange c.dome (p2.outKeys - p.outKeys) s4))
    | _, _ => s)

end Sys2Proof.Machine
end

