-- ==== Sys2Proof/Machine/TaskEnd.lean ====
section
/-! DEFINITION. How a task ends: its results, the layer and paging bookkeeping of its stage, what follows it on its cluster, and its
command's completion; and the overrun stop (03 R69, R70; 05 R155, R156, R165, R166; 08 R242; 10 R305; 11 R342). -/

namespace Sys2Proof.Machine

open Sys2Proof

/-- A task has run all its operators. -/
def Chain.ran (h : Chain) (c : Cmd) : Bool := c.plan.isNone || h.run.any fun r => r.ops ≥ h.task.ops

/-- The experts in the route lists that a stage wrote (R242). -/
def State.routedExperts (s : State) (c : Cmd) (stage : Nat) : List Nat :=
  match c.plan with
  | none => []
  | some pl =>
    nubN ((pl.tasks.filter (·.stage == stage)).flatMap fun k =>
      (((pl.ops.drop k.firstOp).take k.ops).filter (·.code == 0x08)).flatMap fun o =>
        match pl.tensors[o.in0]?, pl.tensors[o.out]? with
        | some x, some z =>
          let n := x.rows * bits o.params.toNat 7 0
          (List.range n).map fun i => ofLE (s.tensorBytes c z (z.codes + 8 * i) 2)
        | _, _ => [])

/-- The last task of a routing stage has ended: the ranges of the experts chosen are those that the next stage declares (R242). -/
def declareRanges (t : TaskRef) (c : Cmd) (h : Chain) (s : State) : State :=
  let g := h.task.stage
  let rest := (h.tasks.drop (h.done + 1)).takeWhile (·.stage == g + 1)
  match c.plan.bind fun p => lookN (g + 1) p.dyn with
  | none => s
  | some ranges =>
    let pages := (s.routedExperts c g).flatMap fun e => ranges.getD e []
    modChain t (fun h => { h with tasks := h.tasks.zipIdx.map fun k =>
      if h.done < k.2 ∧ k.2 ≤ h.done + rest.length then { k.1 with pages } else k.1 }) s

/-- A chain whose next task is another of its own kind, rather than the next of a plan: a walk's, a collector's or an index job's. -/
def Chain.again (h : Chain) : Bool := h.dynamic && h.done + 1 ≥ h.tasks.length

/-- A chain has ended with its current task (R305, R342). -/
def State.chainOver (s : State) (t : TaskRef) (c : Cmd) (h : Chain) (last : Bool) : Bool :=
  if !h.dynamic then h.done + 1 ≥ h.tasks.length
  else if c.opcode = 0x8A then s.walkOver t
  else if c.opcode = 0x88 then (s.scan? t.src).any Scan.over
  else if c.opcode = 0x89 ∨ c.opcode = 0x91 ∨ c.opcode = 0x92 ∨ c.opcode = 0x93 then h.finished
  else last

/-- The task's writes to the objects that its command writes. -/
def taskWrites (src : Src) (c : Cmd) (ws : List (Nat × Nat × List Byte)) (s : State) : State :=
  (ws.filter fun w => c.writes.contains w.1).foldl (fun s w => noteWrite src w.1 (w.2.1 + w.2.2.length) (writeObj w.1 w.2.1 w.2.2 s)) s

/-- An object of which a task touched a page that is neither resident nor declared (R156). -/
def undeclaredTouch (s : State) (h : Chain) (r : TaskEnd) (c : Cmd) : Option Nat :=
  ((r.touched ++ (r.writes.filter fun w => c.writes.contains w.1).flatMap fun w => pagesOf w.1 w.2.1 w.2.2.length).find? fun p =>
    (s.obj? p.1).any (fun o => o.flag 5 && !o.resident.any (·.1 == p.2)) && !h.task.pages.contains p).map (·.1)

/-- A pass of a prefill or of a decode step ends (R255): the next one takes the tokens that follow. -/
def feedNext (t : TaskRef) (c : Cmd) (h : Chain) (ids : List Nat) (s : State) : State :=
  feedPass t.src (passIds ((c.plan.map Plan.capacity).getD 0) (h.pass c + 1) ids) s

/-- What the end of a pass means for a run that repeats its plan: a text of EMBED, a pass of TUNE, of a prefill or of a decode step. -/
def passEnd (t : TaskRef) (c : Cmd) (h : Chain) (s : State) : State :=
  let n := Nat.max 1 ((c.plan.map (·.tasks.length)).getD 1)
  if c.plan.isNone ∨ h.dynamic ∨ (h.done + 1) % n ≠ 0 then s
  else if (s.embed? t.src).isSome then textEnd t s
  else if (s.tune? t.src).isSome then tunePassEnd t.src h s
  else if t.src.decodes then feedNext t c h c.stepIds s
  else match s.seq? t.src with
    | some q => feedNext t c h q.prompt s
    | none => s

/-- The next task of a walk, a collector or a job takes over the context and the T0 bytes on the same cluster at once (R305, R342). -/
def takeOver (t : TaskRef) (c : Cmd) (h : Chain) (r : Run) (us : Nat) (s : State) : State :=
  let d := r.lent.getD c.dome
  if h.again && !s.hb.quiesced && s.eligible d && !s.changeStops c.dome && !s.fenceStops r.cluster && c.failed.isNone && !c.deleting &&
     !c.dropped && (s.clusters d).contains r.cluster && !s.shedLow c.dome && s.cutoff d us c h.task && s.sch.budget ≥ 30 &&
     !s.throttled (r.cluster / 32) && !s.swapping (r.cluster / 32) then
    modChain t (fun h => { h with run := some { cluster := r.cluster, start := s.now us, lent := r.lent, scales := s.scalesOf c.dome,
                                                sizes := s.sizesOf c.dome }, sizes := s.sizesOf c.dome })
      (taskPacket (if r.lent.isSome then 4 else 0) t.src c.opcode c.dome r.cluster 0 0 0 (spend 30 s))
  else s

/-- What follows when a chain has ended: a prefill, or a command whose chains have all ended, is put together. -/
def chainEnd (t : TaskRef) (s : State) : State :=
  match s.cmd? t.src with
  | none => s
  | some c =>
    let s1 := if c.opcode = 0x8C ∧ t.chain = 0 ∧ !t.src.inner then prefillEnd t.src s else s
    if c.failed.isSome ∨ !c.chains.all (·.finished) then s1
    else if c.opcode = 0x8A then finishSearch t.src s1
    else if c.opcode = 0x88 then finishScan t.src s1
    else if c.plan.isSome ∧ (c.outLen ≠ 0 ∨ !c.writes.isEmpty) then
      let d := draw s1
      ctrPart .tierLastDrainUs c.dome (d.1.toNat % 2 ^ 32) d.2
    else s1

/-- The bookkeeping of a task that has done its work: its results, its stage's end, its chain's next state. -/
def taskDone (t : TaskRef) (c : Cmd) (h : Chain) (r : Run) (us : Nat) (x : TaskEnd) (s : State) : State :=
  let s1 := passEnd t c h (taskWrites t.src c x.writes s)
  let stageEnd := !((h.tasks[h.done + 1]?).any (·.stage == h.task.stage))
  let s2 := if stageEnd then declareRanges t ((s1.cmd? t.src).getD c) h s1 else s1
  let s3 := if h.task.layerEnd && !h.filling.isEmpty then ctrPart .tierLatePrefetches c.dome 1 s2 else s2
  let s4 := modCmd t.src (fun c => { c with out := c.out ++ x.out, dw0 := c.dw0 + x.dw0, dw1 := c.dw1 + x.dw1, tasksRun := c.tasksRun + 1 }) s3
  let done_ := s4.chainOver t c ((s4.chain? t).getD h) x.last
  let s5 := modChain t (fun k =>
    { k with done := if k.again && !done_ then k.done else k.done + 1, finished := k.finished || done_,
             filling0 := if h.task.layerEnd then nubN (k.filling0 ++ k.filling) else k.filling0,
             filling := if h.task.layerEnd then [] else k.filling,
             live := if done_ then 0 else ((k.tasks[if k.again then k.done else k.done + 1]?).map (·.t0)).getD 0,
             -- a lent task's live T0 is saved back for the cluster that it came from (R89)
             at_ := if r.lent.isSome then k.at_.or (some r.cluster) else some r.cluster })
    (leaveCluster t s4)
  if done_ then chainEnd t s5 else takeOver t c h r us s5

/-- TASK_END (R69, R70), apart from the walks that have waited for its arrays: the task has run its operations, or one of them has failed; a wait, an operator with commands of its own that is not
done, or an overrun past one further tick does not end it. -/
def taskEnds (t : TaskRef) (us : Nat) (x : TaskEnd) (s : State) : State :=
  match s.flight? t with
    | none => s
    | some (c0, h0, r0) =>
      if r0.wait ≠ .none ∨ s.ranFor r0 us > h0.task.worst + 500 then s
      else
        let s1 := if x.fail.isSome then s else advance t (h0.task.firstOp + h0.task.ops) s
        match s1.flight? t with
        | none => startSavesOn r0.cluster s1
        | some (c, h, r) =>
          if x.fail.isNone && (!h.ran c || r.wait != .none) then claim t s1
          else
            let s2 := spend 20 (if s.ranFor r us > h.task.worst then ctrPart .schedTaskOverrun c0.dome 1 s1 else s1)
            match x.fail, undeclaredTouch s h x c with
            | some f, _ => startSavesOn r.cluster (failCmd t.src f h.done r.cluster
                (taskPacket 3 t.src c.opcode c.dome r.cluster f.sct f.sc (s.ranFor r us * 1500) (leaveCluster t (endLendings t.src (s.now us) s2))))
            | none, some id => startSavesOn r.cluster (failTask t (undeclaredFail id) (endLendings t.src (s.now us) s2))
            | none, none => startSavesOn r.cluster (settle t.src (lendingCheck t.src (s.now us) (taskDone t c h r us x
                (taskPacket 1 t.src c.opcode c.dome r.cluster 0 0 (s.ranFor r us * 1500) s2))))

/-- TASK_END (R69, R70). -/
def execTaskEnd (t : TaskRef) (us : Nat) (x : TaskEnd) (s : State) : Ans := .next (resumeWalks (taskEnds t us x s))

/-- TASK_OVERRUN_STOP (R70, R84): a task still running one tick after its declared worst case is stopped, or, while a non-preemptible
operation is under way, when that ends. -/
def execTaskOverrunStop (t : TaskRef) (us : Nat) (inOperation : Bool) (s : State) : Ans :=
  .next (match s.flight? t with
    | none => s
    | some (c, h, r) =>
      if inOperation || s.ranFor r us < h.task.worst + 500 then s
      else resumeWalks (startSavesOn r.cluster (failTask t St.taskOverrun (endLendings t.src (s.now us)
        (taskPacket 2 t.src c.opcode c.dome r.cluster 7 0x86 (s.ranFor r us * 1500) (ctrPart .schedTaskOverrunStops c.dome 1 s))))))

/-! ### Passes -/

/-- TILE_PASS_END (07 R211 to R225, R231; 08 R240, R251); a walk that has waited for the arrays goes on (07 R212). -/
def execTilePassEnd (t : TaskRef) (op rowBlock laneBlock : Nat) (misses : List Nat) (s : State) : Ans :=
  .next (resumeWalks (tilePassEnd t op rowBlock laneBlock misses s))

end Sys2Proof.Machine
end

