-- ==== Sys2Proof/Machine/Dispatch.lean ====
section
/-! DEFINITION. The meaning of every command: one arm for each row of spec/opcode_table.json, in its order. -/

namespace Sys2Proof.Machine

open Sys2Proof

/-- The effect of a command on everything but the queue. -/
def exec (i : Instr) (s : State) : Host.Outcome State Fault Refusal :=
  match i with
  | .place e => Sys2Proof.Machine.execPlace e s
  | .release e => Sys2Proof.Machine.execRelease e s
  | .runPlan e => Sys2Proof.Machine.execRunPlan e s
  | .filterScan e => Sys2Proof.Machine.execFilterScan e s
  | .embed e => Sys2Proof.Machine.execEmbed e s
  | .embedArm e => Sys2Proof.Machine.execEmbedArm e s
  | .embedDisarm e => Sys2Proof.Machine.execEmbedDisarm e s
  | .search e => Sys2Proof.Machine.execSearch e s
  | .generate e => Sys2Proof.Machine.execGenerate e s
  | .tune e => Sys2Proof.Machine.execTune e s
  | .mergeTopK e => Sys2Proof.Machine.execMergeTopK e s
  | .mergeAggregates e => Sys2Proof.Machine.execMergeAggregates e s
  | .mergeReductionSum e => Sys2Proof.Machine.execMergeReductionSum e s
  | .insert e => Sys2Proof.Machine.execInsert e s
  | .delete e => Sys2Proof.Machine.execDelete e s
  | .compact e => Sys2Proof.Machine.execCompact e s
  | .loadStructure a => Sys2Proof.Machine.execLoadStructure a s
  | .domeDissolve a => Sys2Proof.Machine.execDomeDissolve a s
  | .domeBind a => Sys2Proof.Machine.execDomeBind a s
  | .domeUnbind a => Sys2Proof.Machine.execDomeUnbind a s
  | .queueResume a => Sys2Proof.Machine.execQueueResume a s
  | .negotiate a us => Sys2Proof.Machine.execNegotiate a us s
  | .reattachAdopt a us => Sys2Proof.Machine.execReattachAdopt a us s
  | .reattachDiscard a us => Sys2Proof.Machine.execReattachDiscard a us s
  | .serviceFence a => Sys2Proof.Machine.execServiceFence a s
  | .serviceUnfence a => Sys2Proof.Machine.execServiceUnfence a s
  | .retireDramChannelGroup a => Sys2Proof.Machine.execRetireDramChannelGroup a s
  | .retireNandDie a => Sys2Proof.Machine.execRetireNandDie a s
  | .recalibrateScales a => Sys2Proof.Machine.execRecalibrateScales a s
  | .recalibrateReadLevels a => Sys2Proof.Machine.execRecalibrateReadLevels a s
  | .testButtressBank a => Sys2Proof.Machine.execTestButtressBank a s
  | .lanternDisable a => Sys2Proof.Machine.execLanternDisable a s
  | .lanternEnable a => Sys2Proof.Machine.execLanternEnable a s
  | .lanternSetSources a => Sys2Proof.Machine.execLanternSetSources a s
  | .createIoSubmissionQueue a => Sys2Proof.Machine.execCreateIoSubmissionQueue a s
  | .createIoCompletionQueue a => Sys2Proof.Machine.execCreateIoCompletionQueue a s
  | .deleteIoSubmissionQueue a => Sys2Proof.Machine.execDeleteIoSubmissionQueue a s
  | .deleteIoCompletionQueue a => Sys2Proof.Machine.execDeleteIoCompletionQueue a s
  | .getLogPage a => Sys2Proof.Machine.execGetLogPage a s
  | .identify a => Sys2Proof.Machine.execIdentify a s
  | .abort a => Sys2Proof.Machine.execAbort a s
  | .setFeatures a => Sys2Proof.Machine.execSetFeatures a s
  | .setFeaturesPasidBinding a => Sys2Proof.Machine.execSetFeaturesPasidBinding a s
  | .setFeaturesSpareThreshold a => Sys2Proof.Machine.execSetFeaturesSpareThreshold a s
  | .setFeaturesPowerManagement a => Sys2Proof.Machine.execSetFeaturesPowerManagement a s
  | .getFeatures a => Sys2Proof.Machine.execGetFeatures a s
  | .asynchronousEventRequest a => Sys2Proof.Machine.execAsynchronousEventRequest a s
  | .namespaceCreate a => Sys2Proof.Machine.execNamespaceCreate a s
  | .namespaceDelete a => Sys2Proof.Machine.execNamespaceDelete a s
  | .namespaceAttachment a => Sys2Proof.Machine.execNamespaceAttachment a s
  | .virtualizationManagement a => Sys2Proof.Machine.execVirtualizationManagement a s
  | .firmwareImageDownload a => Sys2Proof.Machine.execFirmwareImageDownload a s
  | .firmwareCommitProgram a => Sys2Proof.Machine.execFirmwareCommitProgram a s
  | .firmwareCommitNextReset a => Sys2Proof.Machine.execFirmwareCommitNextReset a s
  | .firmwareCommitActivateExisting a => Sys2Proof.Machine.execFirmwareCommitActivateExisting a s
  | .firmwareCommitLive a => Sys2Proof.Machine.execFirmwareCommitLive a s
  | .firmwareCommitBootPartition a => Sys2Proof.Machine.execFirmwareCommitBootPartition a s
  | .formatNvm a => Sys2Proof.Machine.execFormatNvm a s
  | .sanitizeBlockErase a => Sys2Proof.Machine.execSanitizeBlockErase a s
  | .sanitizeCryptoErase a => Sys2Proof.Machine.execSanitizeCryptoErase a s
  | .formatSanitizeEnd fn ok => Sys2Proof.Machine.execFormatSanitizeEnd fn ok s
  | .read n => Sys2Proof.Machine.execRead n s
  | .write n => Sys2Proof.Machine.execWrite n s
  | .flush n => Sys2Proof.Machine.execFlush n s
  | .writeZeroes n => Sys2Proof.Machine.execWriteZeroes n s
  | .datasetManagement n => Sys2Proof.Machine.execDatasetManagement n s
  | .verify n => Sys2Proof.Machine.execVerify n s
  | .sqTailDoorbell fn sq value => Sys2Proof.Machine.execSqTailDoorbell fn sq value s
  | .cqHeadDoorbell fn cq value => Sys2Proof.Machine.execCqHeadDoorbell fn cq value s
  | .commandFetch fn sq unsupported => Sys2Proof.Machine.execCommandFetch fn sq unsupported s
  | .hbeatWrite w us => Sys2Proof.Machine.execHbeatWrite w us s
  | .evpendWrite w => Sys2Proof.Machine.execEvpendWrite w s
  | .evmaskWrite w => Sys2Proof.Machine.execEvmaskWrite w s
  | .grpctlWrite w => Sys2Proof.Machine.execGrpctlWrite w s
  | .edgecntRead fn size => Sys2Proof.Machine.execEdgecntRead fn size s
  | .registerWrite w => Sys2Proof.Machine.execRegisterWrite w s
  | .controllerEnable w => Sys2Proof.Machine.execControllerEnable w s
  | .controllerReset w us => Sys2Proof.Machine.execControllerReset w us s
  | .normalShutdown w => Sys2Proof.Machine.execNormalShutdown w s
  | .abruptShutdown w => Sys2Proof.Machine.execAbruptShutdown w s
  | .perstAssert ns => Sys2Proof.Machine.execPerstAssert ns s
  | .perstDeassert t => Sys2Proof.Machine.execPerstDeassert t s
  | .startupComplete t => Sys2Proof.Machine.execStartupComplete t s
  | .auxPowerPresent => Sys2Proof.Machine.execAuxPowerPresent s
  | .powerUp12v sense0Open sense1Open => Sys2Proof.Machine.execPowerUp12v sense0Open sense1Open s
  | .conventionalReset t => Sys2Proof.Machine.execConventionalReset t s
  | .functionLevelReset fn => Sys2Proof.Machine.execFunctionLevelReset fn s
  | .dStateTransition fn d => Sys2Proof.Machine.execDStateTransition fn d s
  | .tickBoundary powerW extraDemand => Sys2Proof.Machine.execTickBoundary powerW extraDemand s
  | .imageTakesEffect => Sys2Proof.Machine.execImageTakesEffect s
  | .dissolveTakesEffect => Sys2Proof.Machine.execDissolveTakesEffect s
  | .fenceTakesEffect cluster => Sys2Proof.Machine.execFenceTakesEffect cluster s
  | .unfenceTakesEffect cluster => Sys2Proof.Machine.execUnfenceTakesEffect cluster s
  | .quiesceStart => Sys2Proof.Machine.execQuiesceStart s
  | .holdLimitExpiry => Sys2Proof.Machine.execHoldLimitExpiry s
  | .taskDispatch t us => Sys2Proof.Machine.execTaskDispatch t us s
  | .domainWake domain => Sys2Proof.Machine.execDomainWake domain s
  | .taskEnd t us r => Sys2Proof.Machine.execTaskEnd t us r s
  | .taskOverrunStop t us inOperation => Sys2Proof.Machine.execTaskOverrunStop t us inOperation s
  | .releaseWindowOpen part us => Sys2Proof.Machine.execReleaseWindowOpen part us s
  | .saveStart part us => Sys2Proof.Machine.execSaveStart part us s
  | .saveEnd part cluster us => Sys2Proof.Machine.execSaveEnd part cluster us s
  | .restoreEnd part cluster us => Sys2Proof.Machine.execRestoreEnd part cluster us s
  | .semaphoreAcquire t sem => Sys2Proof.Machine.execSemaphoreAcquire t sem s
  | .semaphoreRelease t sem => Sys2Proof.Machine.execSemaphoreRelease t sem s
  | .lendingStart sem us => Sys2Proof.Machine.execLendingStart sem us s
  | .streamChunkWrite t stream bytes => Sys2Proof.Machine.execStreamChunkWrite t stream bytes s
  | .streamChunkRead t stream => Sys2Proof.Machine.execStreamChunkRead t stream s
  | .tilePassEnd t op rowBlock laneBlock misses => Sys2Proof.Machine.execTilePassEnd t op rowBlock laneBlock misses s
  | .quantiseRow t op row => Sys2Proof.Machine.execQuantiseRow t op row s
  | .selection t op row => Sys2Proof.Machine.execSelection t op row s
  | .transferChunkDelivered t desc ends path tenths => Sys2Proof.Machine.execTransferChunkDelivered t desc ends path tenths s
  | .pageRequestResponse t r => Sys2Proof.Machine.execPageRequestResponse t r s
  | .pagingStart t => Sys2Proof.Machine.execPagingStart t s
  | .pageInComplete object page r => Sys2Proof.Machine.execPageInComplete object page r s
  | .layerFillEnd t cluster us => Sys2Proof.Machine.execLayerFillEnd t cluster us s
  | .decodeStep dome model => Sys2Proof.Machine.execDecodeStep dome model s
  | .sequenceAdmission dome => Sys2Proof.Machine.execSequenceAdmission dome s
  | .kvBlockFreed pool => Sys2Proof.Machine.execKvBlockFreed pool s
  | .kvPoolFailure pool => Sys2Proof.Machine.execKvPoolFailure pool s
  | .ingestTrigger part arm => Sys2Proof.Machine.execIngestTrigger part arm s
  | .tuneCommit src => Sys2Proof.Machine.execTuneCommit src s
  | .randomSourceHealthFailure => Sys2Proof.Machine.execRandomSourceHealthFailure s
  | .randomSourceReseed => Sys2Proof.Machine.execRandomSourceReseed s
  | .watchWindowEnd slot => Sys2Proof.Machine.execWatchWindowEnd slot s
  | .walkRecordArrival src walk slot block us r misses => Sys2Proof.Machine.execWalkRecordArrival src walk slot block us r misses s
  | .indexCommit src => Sys2Proof.Machine.execIndexCommit src s
  | .mergeReadyNoticeFound src => Sys2Proof.Machine.execMergeReadyNoticeFound src s
  | .mergePayloadReceived src => Sys2Proof.Machine.execMergePayloadReceived src s
  | .mergeReadbackComplete src r => Sys2Proof.Machine.execMergeReadbackComplete src r s
  | .peerWindowWrite w => Sys2Proof.Machine.execPeerWindowWrite w s
  | .completionTimeout t => Sys2Proof.Machine.execCompletionTimeout t s
  | .filterEnginePage src group page block r => Sys2Proof.Machine.execFilterEnginePage src group page block r s
  | .scanEngineSlotFree group => Sys2Proof.Machine.execScanEngineSlotFree group s
  | .flashReadComplete block page r iterations updown => Sys2Proof.Machine.execFlashReadComplete block page r iterations updown s
  | .blockRefreshQueued block => Sys2Proof.Machine.execBlockRefreshQueued block s
  | .readLevelEvaluation bgroup => Sys2Proof.Machine.execReadLevelEvaluation bgroup s
  | .destage nsid extent group members => Sys2Proof.Machine.execDestage nsid extent group members s
  | .garbageCollection group target members => Sys2Proof.Machine.execGarbageCollection group target members s
  | .refresh block target members => Sys2Proof.Machine.execRefresh block target members s
  | .programFailure block target members => Sys2Proof.Machine.execProgramFailure block target members s
  | .eraseFailure block => Sys2Proof.Machine.execEraseFailure block s
  | .blockErase block => Sys2Proof.Machine.execBlockErase block s
  | .eraseResume die => Sys2Proof.Machine.execEraseResume die s
  | .blockVerify block badPages overLimit => Sys2Proof.Machine.execBlockVerify block badPages overLimit s
  | .paritySpill group => Sys2Proof.Machine.execParitySpill group s
  | .dieRetirementEnd die => Sys2Proof.Machine.execDieRetirementEnd die s
  | .dieAutoRetire die => Sys2Proof.Machine.execDieAutoRetire die s
  | .strongDecodeEnd d => Sys2Proof.Machine.execStrongDecodeEnd d s
  | .scrubRead at_ received found => Sys2Proof.Machine.execScrubRead at_ received found s
  | .dramMigrationEnd group => Sys2Proof.Machine.execDramMigrationEnd group s
  | .packageStopsResponding package => Sys2Proof.Machine.execPackageStopsResponding package s
  | .powerSample edgeMv auxMv powerW us => Sys2Proof.Machine.execPowerSample edgeMv auxMv powerW us s
  | .supplyWarningBegin input mv => Sys2Proof.Machine.execSupplyWarningBegin input mv s
  | .supplyWarningEnd input => Sys2Proof.Machine.execSupplyWarningEnd input s
  | .supplyIsolation mv => Sys2Proof.Machine.execSupplyIsolation mv s
  | .flushEnd => Sys2Proof.Machine.execFlushEnd s
  | .flushStopped => Sys2Proof.Machine.execFlushStopped s
  | .thermalLevelStep temp => Sys2Proof.Machine.execThermalLevelStep temp s
  | .thermalEmergencyBegin temp => Sys2Proof.Machine.execThermalEmergencyBegin temp s
  | .thermalEmergencyEnd => Sys2Proof.Machine.execThermalEmergencyEnd s
  | .thermalShutdown => Sys2Proof.Machine.execThermalShutdown s
  | .bandRetain band => Sys2Proof.Machine.execBandRetain band s
  | .flashGroupGate group => Sys2Proof.Machine.execFlashGroupGate group s
  | .dramSelfRefresh group => Sys2Proof.Machine.execDramSelfRefresh group s
  | .fabricQuadrantGate quadrant => Sys2Proof.Machine.execFabricQuadrantGate quadrant s
  | .bankMeasurementStart => Sys2Proof.Machine.execBankMeasurementStart s
  | .bankDrawEnd stepMicroV deltaMicroV => Sys2Proof.Machine.execBankDrawEnd stepMicroV deltaMicroV s
  | .bankRecharged => Sys2Proof.Machine.execBankRecharged s
  | .writeCacheResized => Sys2Proof.Machine.execWriteCacheResized s
  | .thermalTrimStep raw => Sys2Proof.Machine.execThermalTrimStep raw s
  | .eventSourceRise source detail => Sys2Proof.Machine.execEventSourceRise source detail s
  | .groupDelivery group us => Sys2Proof.Machine.execGroupDelivery group us s
  | .holdoffEnd group us => Sys2Proof.Machine.execHoldoffEnd group us s
  | .msixVectorUnmask fn vector => Sys2Proof.Machine.execMsixVectorUnmask fn vector s
  | .activationBandSwap => Sys2Proof.Machine.execActivationBandSwap s
  | .schedulerCoreSwap us => Sys2Proof.Machine.execSchedulerCoreSwap us s
  | .keepSwap => Sys2Proof.Machine.execKeepSwap s
  | .vaneSwap => Sys2Proof.Machine.execVaneSwap s
  | .activationResume => Sys2Proof.Machine.execActivationResume s
  | .lanternAttach => Sys2Proof.Machine.execLanternAttach s
  | .lanternDetach => Sys2Proof.Machine.execLanternDetach s
  | .lanternPacketSend lane => Sys2Proof.Machine.execLanternPacketSend lane s
  | .smbusTimeoutReset => Sys2Proof.Machine.execSmbusTimeoutReset s
  | .basicManagementCommand m => Sys2Proof.Machine.execBasicManagementCommand m s
  | .vpdRead m => Sys2Proof.Machine.execVpdRead m s
  | .readNvmeMiDataStructure m => Sys2Proof.Machine.execReadNvmeMiDataStructure m s
  | .nvmSubsystemHealthStatusPoll m => Sys2Proof.Machine.execNvmSubsystemHealthStatusPoll m s
  | .controllerHealthStatusPoll m => Sys2Proof.Machine.execControllerHealthStatusPoll m s
  | .configurationGet m => Sys2Proof.Machine.execConfigurationGet m s
  | .configurationSet m => Sys2Proof.Machine.execConfigurationSet m s
  | .tunnelledAdminCommand m => Sys2Proof.Machine.execTunnelledAdminCommand m s
  | .doeDiscovery d => Sys2Proof.Machine.execDoeDiscovery d s
  | .getVersion d => Sys2Proof.Machine.execGetVersion d s
  | .getCapabilities d => Sys2Proof.Machine.execGetCapabilities d s
  | .negotiateAlgorithms d => Sys2Proof.Machine.execNegotiateAlgorithms d s
  | .getDigests d => Sys2Proof.Machine.execGetDigests d s
  | .getCertificate d => Sys2Proof.Machine.execGetCertificate d s
  | .challenge d => Sys2Proof.Machine.execChallenge d s
  | .getMeasurements d => Sys2Proof.Machine.execGetMeasurements d s
  | .keyExchange d => Sys2Proof.Machine.execKeyExchange d s
  | .finish d => Sys2Proof.Machine.execFinish d s
  | .endSession d => Sys2Proof.Machine.execEndSession d s
  | .loadTenantKey d => Sys2Proof.Machine.execLoadTenantKey d s
  | .unloadTenantKey d => Sys2Proof.Machine.execUnloadTenantKey d s
  | .fuseObservationOff d => Sys2Proof.Machine.execFuseObservationOff d s
  | .keyProg session k => Sys2Proof.Machine.execKeyProg session k s
  | .kSetGo session k => Sys2Proof.Machine.execKSetGo session k s
  | .kSetStop session k => Sys2Proof.Machine.execKSetStop session k s
  | .ideStreamInsecure stream => Sys2Proof.Machine.execIdeStreamInsecure stream s
  | .powerRemoved => Sys2Proof.Machine.execPowerRemoved s
  | .aspmL1Entry => Sys2Proof.Machine.execAspmL1Entry s
  | .l0pWidthChange width => Sys2Proof.Machine.execL0pWidthChange width s
  | .eraseComplete block => Sys2Proof.Machine.execEraseComplete block s
  | .nandProgramComplete group pages => Sys2Proof.Machine.execNandProgramComplete group pages s
  | .codeFlashProgramEnd readBackOk => Sys2Proof.Machine.execCodeFlashProgramEnd readBackOk s

end Sys2Proof.Machine
end

