-- ==== Sys2Proof/WellFormed.lean ====
section
/-! DEFINITION. Which command terms are well formed: the bounds that the spec gives to a command's operands, function numbers, queue
identifiers, cluster, die and block numbers and the like (00 R5; 02 R31; 04 R114; 12 Table 12-2; 16 Table 16-1; 19 R510). -/

namespace Sys2Proof

/-- A sender: function 0 to 63, queue 0 to 1,023, a 16-bit command identifier (04 R109, R114). -/
def Src.host (x : Src) : Bool := x.fn ≤ 63 && x.sq ≤ 1023 && x.cid < 65536

/-- The queue number under which the module's own runs stand, which no queue has: 0xFFFF for triggered ingest (08 R263), 0x10000 for the
steps of decode plans (log 38). -/
def Src.own (x : Src) : Bool := x.fn ≤ 63 && (x.sq = 0xFFFF || x.sq = 0x10000)

/-- What a task belongs to: a sender's command or a run of the module's own. -/
def Src.wf (x : Src) : Bool := x.host || x.own

/-- A moment of a tick: below 500 µs (03 R67). -/
def usWf (us : Nat) : Bool := us < 500

/-- A logical cluster: 0 to 799 (02 R32). -/
def clusterWf (c : Nat) : Bool := c ≤ 799

/-- A dome or partition ID: 12 bits (02 R31). -/
def domeWf (d : Nat) : Bool := d ≤ 0xFFF

/-- A physical block of the 5,591,040 (12 R366). -/
def blockWf (b : Nat) : Bool := b < 5591040

/-- A shared or private semaphore: an ID below 1,024 (02 R49). -/
def idWf (n : Nat) : Bool := n ≤ 0x3FF

/-- A stream: a 16-bit ID (02 R47). -/
def streamWf (n : Nat) : Bool := n ≤ 0xFFFF

/-- A Milris entry comes from an I/O queue (04 R120). -/
def Entry.wf (e : Entry) : Bool := e.src.host && e.src.sq ≠ 0

/-- An admin entry comes from an admin queue (04 R131). -/
def Admin.wf (a : Admin) : Bool := a.src.host && a.src.sq = 0

/-- An NVM entry comes from an I/O queue (04 R113). -/
def Nvm.wf (n : Nvm) : Bool := n.src.host && n.src.sq ≠ 0

/-- An access of 1 to 8 bytes to configuration space, BAR0 or BAR2 (00 R16; log 12 for the number of configuration space). -/
def RegWrite.wf (w : RegWrite) : Bool := w.fn ≤ 63 && (w.bar = 0 || w.bar = 2 || w.bar = 255) && 1 ≤ w.size && w.size ≤ 8

/-- A frame: one of 800 clusters or of 32 packages (13 R388). -/
def FrameAt.wf : FrameAt → Bool
  | .t0 c _ => clusterWf c
  | .t1 p _ => p ≤ 31

/-- A frame as read has 129 words (13 Table 13-1). -/
def frameWf (f : FrameBits) : Bool := f.length = 129

/-- A command is well formed. -/
def Instr.wf : Instr → Bool
  | .place e | .release e | .runPlan e | .filterScan e | .embed e | .embedArm e | .embedDisarm e | .search e | .generate e | .tune e
  | .mergeTopK e | .mergeAggregates e | .mergeReductionSum e | .insert e | .delete e | .compact e => e.wf
  | .loadStructure a | .domeDissolve a | .domeBind a | .domeUnbind a | .queueResume a | .serviceFence a | .serviceUnfence a
  | .retireDramChannelGroup a | .retireNandDie a | .recalibrateScales a | .recalibrateReadLevels a | .testButtressBank a
  | .lanternDisable a | .lanternEnable a | .lanternSetSources a | .createIoSubmissionQueue a | .createIoCompletionQueue a
  | .deleteIoSubmissionQueue a | .deleteIoCompletionQueue a | .getLogPage a | .identify a | .abort a | .setFeatures a
  | .setFeaturesPasidBinding a | .setFeaturesSpareThreshold a | .setFeaturesPowerManagement a | .getFeatures a
  | .asynchronousEventRequest a | .namespaceCreate a | .namespaceDelete a | .namespaceAttachment a | .virtualizationManagement a
  | .firmwareImageDownload a | .firmwareCommitProgram a | .firmwareCommitNextReset a | .firmwareCommitActivateExisting a
  | .firmwareCommitLive a | .firmwareCommitBootPartition a | .formatNvm a | .sanitizeBlockErase a | .sanitizeCryptoErase a => a.wf
  | .negotiate a us | .reattachAdopt a us | .reattachDiscard a us => a.wf && usWf us
  | .formatSanitizeEnd fn _ => fn ≤ 63
  | .read n | .write n | .flush n | .writeZeroes n | .datasetManagement n | .verify n => n.wf
  | .sqTailDoorbell fn q _ | .cqHeadDoorbell fn q _ => fn ≤ 63 && q ≤ 1023
  | .commandFetch fn q u => fn ≤ 63 && q ≤ 1023 && u.all fun x => x.1 ≤ 255 && x.2 ≤ 65535
  | .hbeatWrite w us | .controllerReset w us => w.wf && usWf us
  | .evpendWrite w | .evmaskWrite w | .grpctlWrite w | .registerWrite w | .controllerEnable w | .normalShutdown w
  | .abruptShutdown w => w.wf
  | .edgecntRead fn size => fn ≤ 63 && 1 ≤ size && size ≤ 8
  | .perstAssert _ | .perstDeassert _ | .startupComplete _ | .auxPowerPresent | .powerUp12v _ _ | .conventionalReset _ => true
  | .functionLevelReset fn => fn ≤ 63
  | .dStateTransition fn d => fn ≤ 63 && d ≤ 3
  | .tickBoundary w _ => w ≤ 1023
  | .imageTakesEffect | .dissolveTakesEffect | .quiesceStart | .holdLimitExpiry => true
  | .fenceTakesEffect c | .unfenceTakesEffect c => clusterWf c
  | .taskDispatch t us | .taskEnd t us _ | .taskOverrunStop t us _ => t.src.wf && usWf us
  | .domainWake d => d ≤ 49
  | .releaseWindowOpen part us | .saveStart part us => domeWf part && usWf us
  | .saveEnd part c us | .restoreEnd part c us => domeWf part && clusterWf c && usWf us
  | .semaphoreAcquire t n | .semaphoreRelease t n => t.src.wf && idWf n
  | .lendingStart n us => idWf n && usWf us
  | .streamChunkWrite t n b => t.src.wf && streamWf n && b.length ≤ 4096
  | .streamChunkRead t n => t.src.wf && streamWf n
  | .tilePassEnd t _ _ _ _ | .quantiseRow t _ _ | .selection t _ _ | .pageRequestResponse t _ | .pagingStart t
  | .completionTimeout t => t.src.wf
  | .transferChunkDelivered t _ e _ n => t.src.wf && e.src < 2 ^ 48 && e.dst < 2 ^ 48 && n < 5000
  | .pageInComplete _ _ _ => true
  | .layerFillEnd t c us => t.src.wf && clusterWf c && usWf us
  | .decodeStep d _ | .sequenceAdmission d => domeWf d
  | .kvBlockFreed _ | .kvPoolFailure _ | .randomSourceHealthFailure | .randomSourceReseed => true
  | .ingestTrigger part arm => domeWf part && 1 ≤ arm && arm ≤ 16
  | .tuneCommit src | .mergeReadyNoticeFound src | .mergePayloadReceived src | .mergeReadbackComplete src _ | .indexCommit src =>
    src.wf
  | .watchWindowEnd slot => slot ≤ 4095
  | .walkRecordArrival src _ _ b us _ _ => src.wf && blockWf b && usWf us
  | .peerWindowWrite w => w.offset < 2 ^ 30
  | .filterEnginePage src g _ b _ => src.wf && g ≤ 7 && blockWf b
  | .scanEngineSlotFree g => g ≤ 7
  | .flashReadComplete b _ _ _ _ | .programFailure b _ _ | .refresh b _ _ | .eraseFailure b | .blockErase b | .blockVerify b _ _
  | .blockRefreshQueued b | .eraseComplete b => blockWf b
  | .readLevelEvaluation g => g ≤ 88063
  | .destage nsid _ _ _ => nsid ≤ 257 || (2 ^ 48 ≤ nsid && nsid < 2 ^ 49)
  | .garbageCollection _ _ _ | .paritySpill _ | .nandProgramComplete _ _ | .codeFlashProgramEnd _ => true
  | .eraseResume d | .dieRetirementEnd d | .dieAutoRetire d => d ≤ 511
  | .strongDecodeEnd d => d.at_.wf && frameWf d.received && d.found.all frameWf
  | .scrubRead at_ f g => at_.wf && frameWf f && g.all frameWf
  | .dramMigrationEnd g | .dramSelfRefresh g | .flashGroupGate g => g ≤ 7
  | .packageStopsResponding p => p ≤ 31
  | .powerSample _ _ _ us => usWf us
  | .supplyWarningBegin i _ | .supplyWarningEnd i => i ≤ 1
  | .supplyIsolation _ | .flushEnd | .flushStopped | .thermalLevelStep _ | .thermalEmergencyBegin _ | .thermalEmergencyEnd
  | .thermalShutdown | .bankMeasurementStart | .bankDrawEnd _ _ | .bankRecharged | .writeCacheResized => true
  | .bandRetain b => b ≤ 24
  | .fabricQuadrantGate q => q ≤ 3
  | .thermalTrimStep raw => raw.length = 40
  | .eventSourceRise n _ => n ≤ 0xFFF
  | .groupDelivery g us | .holdoffEnd g us => g ≤ 31 && usWf us
  | .msixVectorUnmask fn v => fn ≤ 63 && v ≤ 2047
  | .activationBandSwap | .keepSwap | .vaneSwap | .activationResume | .lanternAttach | .lanternDetach | .smbusTimeoutReset
  | .powerRemoved | .aspmL1Entry => true
  | .schedulerCoreSwap us => usWf us
  | .lanternPacketSend lane => lane ≤ 1
  | .basicManagementCommand m | .vpdRead m | .readNvmeMiDataStructure m | .nvmSubsystemHealthStatusPoll m
  | .controllerHealthStatusPoll m | .configurationGet m | .configurationSet m | .tunnelledAdminCommand m => m.addr ≤ 0x7F && m.opcode ≤ 0xFF
  | .doeDiscovery _ | .getVersion _ | .getCapabilities _ | .negotiateAlgorithms _ | .getDigests _ | .getCertificate _ | .challenge _
  | .getMeasurements _ | .keyExchange _ | .finish _ | .endSession _ | .loadTenantKey _ | .unloadTenantKey _ | .fuseObservationOff _ => true
  | .keyProg _ k | .kSetGo _ k | .kSetStop _ k => k.keySet ≤ 1 && k.substream ≤ 2
  | .ideStreamInsecure n => n ≤ 8
  | .l0pWidthChange w => w = 1 || w = 2 || w = 4 || w = 8 || w = 16

end Sys2Proof
end

