-- ==== Sys2Proof/Safety.lean ====
section
/-! DEFINITION. What counts as a safe state and a safe run: the block's queue holds well-formed commands, and the invariants of the
model, in the terms that the statements use. -/

namespace Sys2Proof.Machine

open Sys2Proof

/-- t is s but for the trace port, the counters and the free values drawn. -/
def Traced (s t : State) : Prop :=
  ∃ (lan : Lan) (free : Nat) (ctr : List (Ctr × Nat × Nat)), t = { s with lan := lan, free := free, ctr := ctr }

/-- t is s but for the Belfry and what a trace touches. -/
def Raised (s t : State) : Prop :=
  ∃ (lan : Lan) (free : Nat) (ctr : List (Ctr × Nat × Nat)) (evt : Evt), t = { s with lan := lan, free := free, ctr := ctr, evt := evt }

/-- t is s but for what posting a completion touches: the queues, the outputs, the MSI-X state of the functions, the held completions and the trace. -/
def Posted (s t : State) : Prop :=
  ∃ (lan : Lan) (free : Nat) (ctr : List (Ctr × Nat × Nat)) (q : Queues) (out : Out) (fns : List Func) (hb : Hb), t = { s with lan := lan, free := free, ctr := ctr, q := q, out := out, fns := fns, hb := hb }

/-- t is s but for what writing a log entry touches: the logs, the Belfry and what a completion touches. -/
def Reported (s t : State) : Prop :=
  ∃ (lan : Lan) (free : Nat) (ctr : List (Ctr × Nat × Nat)) (q : Queues) (out : Out) (fns : List Func) (hb : Hb) (evt : Evt) (itg : Itg), t = { s with lan := lan, free := free, ctr := ctr, q := q, out := out, fns := fns, hb := hb, evt := evt, itg := itg }

/-- From s to t nothing is undone that the spec says is for ever: flash stays read-only (12 R374), observation stays off (18 R505), the
anti-rollback floor does not fall and stays within its 128 fuses (18 R488), no revocation is undone (18 R487); flash without spares is
read-only (12 R374); and the waiting commands are the same. -/
def Onward (s t : State) : Prop :=
  t.pending = s.pending ∧ (s.fls.readOnly = true → t.fls.readOnly = true) ∧ (s.sec.obsOff = true → t.sec.obsOff = true) ∧
  s.sec.floor ≤ t.sec.floor ∧ (s.sec.floor ≤ 128 → t.sec.floor ≤ 128) ∧
  (∀ i, s.sec.revoked.getLsbD i = true → t.sec.revoked.getLsbD i = true) ∧
  ((s.fls.spares = 0 → s.fls.readOnly = true) → t.fls.spares = 0 → t.fls.readOnly = true)

/-- The invariant of every step: the waiting commands are well formed, the anti-rollback floor stays within its 128 fuses (18 R488), and
flash without spares is read-only (12 R374). -/
def StateInv (s : State) : Prop :=
  (∀ c ∈ s.pending, c.wf = true) ∧ s.sec.floor ≤ 128 ∧ (s.fls.spares = 0 → s.fls.readOnly = true)

/-- The operator at an index of the operator table as its event finds it, where the event acts on it: its task is in flight and waits for
nothing, the operator is one of the task's that is still to come and of a listed code, the ones before it are done, and no range of it is
undeclared (05 R156). With it come the run, the first input, the output and the state in which it is worked out. -/
def State.atOperator (s : State) (t : TaskRef) (op : Nat) (codes : List Nat) : Option (OpCtx × Run × Tensor × Tensor × State) :=
  match (s.flight? t).bind fun g => g.1.plan.bind fun p => (p.ops[op]?).map fun o => (g, o) with
  | none => none
  | some ((_, h, r0), o) =>
    if !codes.contains o.code || r0.wait != .none || op < h.task.firstOp + r0.ops || op ≥ h.task.firstOp + h.task.ops then none
    else match (advance t op s).opAt t with
      | none => none
      | some (k, r) => match k.tensor k.o.in0, k.tensor k.o.out with
        | some x, some z =>
          let gs := (advance t op s).opRanges k.c k.plan k.o
          if k.op ≠ op then none
          else if (gs.find? fun g => (advance t op s).undeclared k.h g.1 g.2.1 g.2.2).isSome then none
          else some (k, r, x, z, gs.foldl (fun s g => touch g.1 g.2.1 g.2.2 s) (advance t op s))
        | _, _ => none

end Sys2Proof.Machine
end

