-- ==== Sys2Proof/Certificates/Slice0/Obligations.lean ====
section
/-! DEFINITION. The statements for the provers. Each formalises what a rule of spec/ says that the block does, or a property of the whole
block that follows. -/

open Sys2Proof Sys2Proof.Machine

/-- A step takes the command at the front of the queue and runs it with the queue's rest; on an empty queue the block idles (the model's own queue, log 1). -/
def Obligations.StepRunsFrontCommand : Prop :=
  ∀ (c : Instr) (rest : List Instr) (s : State), 
    step { s with pending := c :: rest } = exec c { s with pending := rest } ∧
    step { s with pending := [] } = .next { s with pending := [] }

/-- PLACE with flags 0 returns the flags in force and changes nothing, or fails with Object Not Found -/
def Obligations.PlaceWithFlagsZero : Prop :=
  (∀ (e : Entry) (s : State) (o : Obj), 
    milrisRuns shapePlace e s = true →
    Fe.obj1 e ≠ 0 →
    placeFlags e = 0#8 →
    s.live? (Fe.obj1 e) = some o →
    o.part = s.part (Fe.dome e) →
    exec (.place e) s = .next (ok e.src o.flags.toNat 0 (begun e.src 0x81 (Fe.dome e) s))) ∧
  (∀ (e : Entry) (s : State), 
    milrisRuns shapePlace e s = true →
    Fe.obj1 e ≠ 0 →
    placeFlags e = 0#8 →
    s.live? (Fe.obj1 e) = none ∧ s.elsewhere (Fe.obj1 e) (s.part (Fe.dome e)) = false →
    exec (.place e) s =
      .next (failMilris e.src 0x81 (Fe.dome e) (Fe.tenant e) (St.objectNotFound (Fe.obj1 e)) (begun e.src 0x81 (Fe.dome e) s)))

/-- Where PLACE and RELEASE complete, and with what next state -/
def Obligations.PlaceAndReleaseComplete : Prop :=
  (∀ (e : Entry) (s : State), 
    milrisRuns shapePlace e s = true →
    Fe.obj1 e ≠ 0 →
    s.obj? (Fe.obj1 e) = none ∧ s.elsewhere (Fe.obj1 e) (s.part (Fe.dome e)) = false →
    placeFlags e ≠ 0#8 →
    flagsBad (placeFlags e) = false →
    0 < placeSize e ∧ placeSize e < 2 ^ 48 →
    ((placeFlags e).toNat.testBit 5 && s.readOnly) = false →
    (placeNew e (Fe.obj1 e) (placeSize e) (placeFlags e) (begun e.src 0x81 (Fe.dome e) s)).isOk = true →
    ∃ t, placeNew e (Fe.obj1 e) (placeSize e) (placeFlags e) (begun e.src 0x81 (Fe.dome e) s) = .ok t ∧
      exec (.place e) s = .next t) ∧
  (∀ (e : Entry) (s : State) (o : Obj), 
    milrisRuns shapePlace e s = true →
    Fe.obj1 e ≠ 0 →
    s.live? (Fe.obj1 e) = some o →
    o.part = s.part (Fe.dome e) →
    placeFlags e ≠ 0#8 →
    flagsBad (placeFlags e) = false →
    0 < placeSize e ∧ placeSize e < 2 ^ 48 →
    ((placeFlags e).toNat.testBit 5 && s.readOnly) = false →
    (placeAgain e o (placeSize e) (placeFlags e) (begun e.src 0x81 (Fe.dome e) s)).isOk = true →
    ∃ t, placeAgain e o (placeSize e) (placeFlags e) (begun e.src 0x81 (Fe.dome e) s) = .ok t ∧
      exec (.place e) s = .next t) ∧
  (∀ (e : Entry) (s : State) (o : Obj), 
    milrisRuns shapeRelease e s = true →
    Fe.obj1 e ≠ 0 →
    s.live? (Fe.obj1 e) = some o →
    o.part = s.part (Fe.dome e) →
    s.named (Fe.obj1 e) = false →
    exec (.release e) s = .next (ok e.src 0 0
      (if bit e.dw13.toNat 16 then destroy (Fe.obj1 e) (dropObject (Fe.obj1 e) (begun e.src 0x82 (Fe.dome e) s)) else dropObject (Fe.obj1 e) (begun e.src 0x82 (Fe.dome e) s))))

/-- REATTACH with another epoch fails with Epoch Mismatch, and outside quiesce with Command Sequence Error -/
def Obligations.ReattachRefusals : Prop :=
  (∀ (a : Admin) (us : Nat) (s : State), 
    adminRuns a.src true s = true →
    a.src.fn = 0 →
    (bit a.cdw11.toNat 0 || s.granted 11) = true →
    bits a.cdw11.toNat 31 1 = 0 ∧ tailSet a = false →
    s.hb.quiesced = true →
    a.cdw10 ≠ s.hb.qEpoch →
    exec (if bit a.cdw11.toNat 0 then .reattachDiscard a us else .reattachAdopt a us) s =
      .next (refuse a.src St.epochMismatch (begun a.src 0xC4 0xFFFF s))) ∧
  (∀ (a : Admin) (us : Nat) (s : State), 
    adminRuns a.src true s = true →
    a.src.fn = 0 →
    (bit a.cdw11.toNat 0 || s.granted 11) = true →
    bits a.cdw11.toNat 31 1 = 0 ∧ tailSet a = false →
    s.hb.quiesced = false →
    exec (if bit a.cdw11.toNat 0 then .reattachDiscard a us else .reattachAdopt a us) s =
      .next (refuse a.src St.sequenceError (begun a.src 0xC4 0xFFFF s)))

/-- Where NEGOTIATE, REATTACH and QUEUE RESUME complete, and the state each leaves -/
def Obligations.AttachmentCommandsComplete : Prop :=
  (∀ (a : Admin) (us : Nat) (s : State), 
    adminRuns a.src true s = true →
    a.src.fn = 0 →
    a.cdw13 = 0 ∧ a.cdw14 = 0 ∧ a.cdw15 = 0 →
    (a.cdw11 ++ a.cdw10 : QWord).getLsbD 0 = true →
    let grant : QWord := (a.cdw11 ++ a.cdw10) &&& 0xFFF#64
    let s1 := (begun a.src 0xC3 0xFFFF s).modHb fun h =>
      { h with neg := grant, epoch := if h.quiesced then h.epoch else nextEpoch h.epoch,
               lastBeat := if h.armed then h.lastBeat else s.now us, armed := true }
    exec (.negotiate a us) s =
      .next (ok a.src (grant.toNat % 2 ^ 32) (grant.toNat / 2 ^ 32) (if s1.lanternOn then lanternTry s1 else lanternStop s1))) ∧
  (∀ (a : Admin) (us : Nat) (s : State), 
    adminRuns a.src true s = true →
    bit a.cdw11.toNat 0 = false →
    reattachGate a s = none →
    let handed := s.hb.parked.foldl (fun t p => uncharge (.parked p.src) (deliver p.outObj p.addr p.out t)) (releaseDma (begun a.src 0xC4 0xFFFF s))
    exec (.reattachAdopt a us) s =
      .next (ok a.src (nextEpoch s.hb.epoch).toNat s.answers
        (settleKept (postHeld (endQuiesce us (handed.modHb fun h => { h with parked := [], epoch := nextEpoch h.epoch })))))) ∧
  (∀ (a : Admin) (us : Nat) (s : State), 
    adminRuns a.src true s = true →
    bit a.cdw11.toNat 0 = true →
    reattachGate a s = none →
    exec (.reattachDiscard a us) s =
      .next (ok a.src (nextEpoch s.hb.epoch).toNat s.answers
        (endQuiesce us ((deleteIoQueues (dropWork (begun a.src 0xC4 0xFFFF s))).modHb fun h => { h with epoch := nextEpoch h.epoch })))) ∧
  (∀ (a : Admin) (s : State) (q : Sq), 
    adminRuns a.src false s = true →
    s.granted 0 = true →
    bits a.cdw10.toNat 31 17 = 0 ∧ a.cdw11 = 0 ∧ tailSet a = false →
    bits a.cdw10.toNat 15 0 ≠ 0 →
    s.sq? a.src.fn (bits a.cdw10.toNat 15 0) = some q →
    q.frozen = true →
    let id := bits a.cdw10.toNat 15 0
    let n := if bit a.cdw10.toNat 16 then (q.tail + q.size - q.head) % q.size else 0
    let flushed := (List.range n).foldl (fun t i =>
      let src : Src := { fn := q.fn, sq := id, cid := le a.input (64 * i + 2) 2 }
      post { src, sct := 7, sc := 0x96 } (queuePacket 4 src (le a.input (64 * i) 1) 7 0x96 0xFFFF t)) (begun a.src 0xC2 0xFFFF s)
    exec (.queueResume a) s =
      .next (ok a.src n 0 (queuePacket 3 { a.src with sq := id } 0 0 0 0xFFFF
        (modSq q.fn id (fun q => { q with frozen := false, head := if n = 0 then q.head else q.tail }) flushed)))) ∧
  (∀ (s : State), 
    s.sch.step = 4 ∧ s.hb.armed = true ∧ s.hb.quiesced = false →
    s.eff.silence * 1000 ≤ s.now 0 - s.hb.lastBeat →
    exec .quiesceStart s = .next (tuneStep (stopLending (s.now 0) (raise 0x010 s.hb.epoch (ctrAdd .schedQuiesceEntries 0 1
      (s.modHb fun h => { h with quiesced := true, qEpoch := h.epoch, qStart := s.now 0, heldOut := false })))))) ∧
  (∀ (s : State), 
    s.sch.step = 4 ∧ s.hb.quiesced = true ∧ s.hb.heldOut = false →
    s.eff.hold * 1000000 ≤ s.now 0 - s.hb.qStart →
    let s1 := deleteIoQueues (dropWork s)
    let vol := (s1.str.domes.filter (·.volatile_)).map (·.id)
    exec .holdLimitExpiry s =
      .next (tuneStep ((vol.foldl (fun t d => if (t.dome? d).isSome then dissolveNow d t else t) s1).modHb fun h => { h with heldOut := true })))

/-- A BAR2 access that is not an aligned dword or qword reads 0, writes nothing and reports nothing -/
def Obligations.NarrowAccessesReadZeroAndWriteNothing : Prop :=
  (∀ (s : State) (f off size : Nat), 
    (size = 4 ∧ off % 4 = 0 → bar2Read s f off size = bar2Dword s f off) ∧
    (size = 8 ∧ off % 8 = 0 → bar2Read s f off size = bar2Dword s f off + 2 ^ 32 * bar2Dword s f (off + 4)) ∧
    (¬ (size = 4 ∧ off % 4 = 0) → ¬ (size = 8 ∧ off % 8 = 0) → bar2Read s f off size = 0)) ∧
  (∀ (s : State) (w : RegWrite) (us : Nat), 
    w.bar = 2 →
    ¬ (w.size = 4 ∧ w.offset % 4 = 0) →
    ¬ (w.size = 8 ∧ w.offset % 8 = 0) →
    exec (.hbeatWrite w us) s = .next s ∧ exec (.evpendWrite w) s = .next s ∧ exec (.evmaskWrite w) s = .next s ∧
    exec (.grpctlWrite w) s = .next s ∧ exec (.registerWrite w) s = .next s)

/-- What doorbells, the fetch of a command and register writes leave -/
def Obligations.DoorbellsFetchAndRegisterWritesComplete : Prop :=
  (∀ (fn sq : Nat) (value : DWord) (s : State) (q : Sq), 
    s.barOpen fn = true →
    s.sq? fn sq = some q →
    bits value.toNat 15 0 < q.size →
    exec (.sqTailDoorbell fn sq value) s = .next (modSq fn sq (fun q => { q with tail := bits value.toNat 15 0 }) s)) ∧
  (∀ (fn cq : Nat) (value : DWord) (s : State) (q : Cq), 
    s.barOpen fn = true →
    s.cq? fn cq = some q →
    bits value.toNat 15 0 < q.size →
    exec (.cqHeadDoorbell fn cq value) s =
      .next (q.waiting.foldl (fun s c => postNow c s) (modCq fn cq (fun q => { q with head := bits value.toNat 15 0, waiting := [] }) s))) ∧
  (∀ (fn sq : Nat) (u : Option (Nat × Nat)) (s : State) (q : Sq), 
    s.sq? fn sq = some q →
    s.mayFetch fn q = true →
    let s1 := (modSq fn sq (fun q => { q with head := (q.head + 1) % q.size }) s).modQ fun x => { x with fetched := x.fetched ++ [(fn, sq)] }
    exec (.commandFetch fn sq u) s = .next (match u with
      | none => s1
      | some (opcode, cid) => if (opcodesOf sq).contains opcode then s1
          else refuse { fn, sq, cid } St.invalidOpcode (begun { fn, sq, cid } opcode 0xFFFF s1))) ∧
  (∀ (w : RegWrite) (us : Nat) (s : State), 
    s.bar2 w 0x1000 0x1004 = true →
    w.fn = 0 →
    w.size = 4 ∧ w.offset % 4 = 0 →
    exec (.hbeatWrite w us) s =
      .next (if s.hb.quiesced || !s.hb.armed || w.value.setWidth 32 != s.hb.epoch then s
             else s.modHb fun h => { h with lastBeat := s.now us })) ∧
  (∀ (w : RegWrite) (s : State), 
    w.bar = 2 →
    s.barOpen w.fn = true →
    (s.bar2 w 0x1000 0x1004 || s.bar2 w 0x2000 0x2400 || (s.bar2 w 0x2600 0x2700 && w.offset % 8 == 0)) = false →
    exec (.registerWrite w) s = .next ((RegWriteDwords w).foldl (fun s d => writeBar2 w.fn d s) s)) ∧
  (∀ (w : RegWrite) (s : State), 
    w.bar = 0 →
    w.offset ≠ 0x14 →
    s.barOpen w.fn = true →
    exec (.registerWrite w) s = .next ((RegWriteDwords w).foldl (fun s d => writeBar0 w.fn d s) s)) ∧
  (∀ (w : RegWrite) (s : State) (old new : DWord), 
    w.bar = 0 →
    w.offset = 0x14 →
    ccWrite w s = some (old, new) →
    old.getLsbD 0 = new.getLsbD 0 →
    ¬ (shn new = 1 ∧ shn old ≠ 1) →
    ¬ (shn new = 2 ∧ shn old ≠ 2) →
    exec (.registerWrite w) s = .next (modFn w.fn (fun x => { x with cc := new }) s)) ∧
  (∀ (w : RegWrite) (s : State), 
    w.bar = 255 →
    exec (.registerWrite w) s = .next ((RegWriteDwords w).foldl (fun s d => writeConfig w.fn d.1 d.2 s) s))

/-- What the event block's writes, deliveries and edges leave -/
def Obligations.EventCommandsComplete : Prop :=
  (∀ (w : RegWrite) (s : State), 
    s.bar2 w 0x2000 0x2200 = true →
    w.size = 4 ∧ w.offset % 4 = 0 →
    exec (.evpendWrite w) s = .next (s.modEvt fun e => { e with pend := e.pend.filter fun n =>
      !((sourcesOf 0x2000 w.offset (w.value.setWidth 32)).contains n && s.seesSource w.fn n) })) ∧
  (∀ (w : RegWrite) (s : State), 
    s.bar2 w 0x2200 0x2400 = true →
    w.size = 4 ∧ w.offset % 4 = 0 →
    exec (.evmaskWrite w) s = .next (writeMask w.fn w.offset (w.value.setWidth 32) s)) ∧
  (∀ (w : RegWrite) (s : State), 
    s.bar2 w 0x2600 0x2700 = true →
    w.size = 4 ∧ w.offset % 8 = 0 →
    s.seesGroup w.fn ((w.offset - 0x2600) / 8) = true →
    exec (.grpctlWrite w) s = .next (s.modEvt (updGroup ((w.offset - 0x2600) / 8) fun x =>
      { x with holdoff := bits (w.value.setWidth 32).toNat 9 0, enable := bit (w.value.setWidth 32).toNat 16 }))) ∧
  (∀ (fn size n : Nat) (s : State), 
    (s.fn? fn).any (fun f => f.enabled && f.memSpace) = true →
    size = 4 ∨ size = 8 →
    s.selected fn = some n →
    exec (.edgecntRead fn size) s = .next (s.modEvt fun e =>
      { e with edgeRead := (lookN n e.edges).getD 0, edges := e.edges.filter (·.1 ≠ n) })) ∧
  (∀ (g us : Nat) (s : State), 
    g ≤ 31 →
    (s.evGroup g).new = true ∧ (s.evGroup g).enable = true ∧ (s.evGroup g).holding = none →
    s.groupPending g = true →
    (s.pwr.domains[47]?).any (·.state == .on) = true →
    exec (.groupDelivery g us) s = .next (sendMsix (s.receiverFn g) (s.groupVector g) (eventPacket 2 g 0
      (s.modEvt (updGroup g fun x => { x with new := false, deliveries := x.deliveries + 1,
                                              holding := if x.holdoff = 0 then none else some (s.now us + x.holdoff) }))))) ∧
  (∀ (g us t : Nat) (s : State), 
    (s.evGroup g).holding = some t →
    t ≤ s.now us →
    exec (.holdoffEnd g us) s = .next (s.modEvt (updGroup g fun x => { x with holding := none }))) ∧
  (∀ (n : Nat) (d : DWord) (s : State), 
    s.sourceLive n = true →
    eventLevel n = false ∨ s.evt.level.contains n = false →
    ∃ t, exec (.eventSourceRise n d) s = .next t ∧ lookN n t.evt.detail = some d ∧ t.evt.pend.contains n = true ∧
      (s.evt.pend.contains n = true → lookN n t.evt.edges = some (sat 255 ((lookN n s.evt.edges).getD 0 + 1))) ∧
      (s.evt.pend.contains n = false → t.evt.edges = s.evt.edges)) ∧
  (∀ (fn v : Nat) (s : State), 
    v ≤ (if fn = 0 then 2047 else 63) →
    exec (.msixVectorUnmask fn v) s = .next (flushPba fn (modFn fn (fun x => { x with unmasked := insN v x.unmasked }) s)))

/-- What a write of CC that enables, resets or shuts down a controller leaves -/
def Obligations.ControllerAndShutdownWritesComplete : Prop :=
  (∀ (w : RegWrite) (s : State) (old new : DWord) (f : Func), 
    ccWrite w s = some (old, new) →
    s.fn? w.fn = some f →
    old.getLsbD 0 = false ∧ new.getLsbD 0 = true →
    w.fn = 0 ∨ f.online = true →
    let s1 := adminQueues f (modFn w.fn (fun x => { x with cc := new }) s)
    exec (.controllerEnable w) s =
      .next (initRdy (if w.fn = 0 then s1.modLife fun l => { l with normalDone := false, abruptDone := false } else s1))) ∧
  (∀ (w : RegWrite) (us : Nat) (s : State) (old new : DWord), 
    ccWrite w s = some (old, new) →
    old.getLsbD 0 = true ∧ new.getLsbD 0 = false →
    w.fn ≠ 0 →
    exec (.controllerReset w us) s = .next (stopController w.fn new s)) ∧
  (∀ (w : RegWrite) (us : Nat) (s : State) (old new : DWord), 
    ccWrite w s = some (old, new) →
    old.getLsbD 0 = true ∧ new.getLsbD 0 = false →
    w.fn = 0 →
    let s1 := if s.life.cfs && s.life.phase == .up then trapReset s else s
    let s2 := if s1.hb.quiesced then
        endQuiesce us ((deleteIoQueues (dropWork s1)).modHb fun h => { h with epoch := nextEpoch h.epoch })
      else s1
    exec (.controllerReset w us) s = .next (activatePending (stopController 0 new s2))) ∧
  (∀ (w : RegWrite) (s : State) (old new : DWord), 
    ccWrite w s = some (old, new) →
    shn new = 1 ∧ shn old ≠ 1 ∧ new.getLsbD 0 = old.getLsbD 0 →
    let s1 := modFn w.fn (fun f => { f with cc := new, shst := if w.fn = 0 then 1 else 2 }) s
    exec (.normalShutdown w) s = .next (if w.fn = 0 then shutdownDone s1 else s1)) ∧
  (∀ (w : RegWrite) (s : State) (old new : DWord), 
    ccWrite w s = some (old, new) →
    shn new = 2 ∧ shn old ≠ 2 ∧ new.getLsbD 0 = old.getLsbD 0 →
    let s1 := modFn w.fn (fun f => { f with cc := new, shst := if w.fn = 0 then 1 else 2 }) s
    exec (.abruptShutdown w) s = .next (if w.fn = 0 ∧ s.life.flushing.isNone then s1.modLife fun l =>
      { l with flushing := some .abrupt, flushCut := none, flushCmds := s.outstanding, flushTick := s.tick.toNat } else s1))

/-- What the supplies, PERST#, the resets and start-up leave -/
def Obligations.SuppliesAndResetsComplete : Prop :=
  (∀ (ns : Nat) (s : State), 
    1000 ≤ ns →
    s.life.phase = .up ∨ s.life.phase = .starting ∨ s.life.phase = .failed →
    let s1 := s.modLife fun l => { l with perst := true }
    exec (.perstAssert ns) s = .next (linkDown ((if s.life.flushing.isSome then s1 else abandon s1).modLife fun l =>
      { l with phase := .held, flushing := some .perst, flushCut := none }))) ∧
  (∀ (ns : Nat) (s : State), 
    ns < 1000 →
    exec (.perstAssert ns) s = .next s) ∧
  (∀ (t : BootTest) (s : State), 
    s.life.perst = true →
    s.life.phase = .held →
    s.life.flushing = none →
    exec (.perstDeassert t) s = .next (applyTests t (coldStart (s.modLife fun l => { l with perst := false })))) ∧
  (∀ (s : State), 
    s.atRest = true →
    exec .auxPowerPresent s = .next (modDomain 47 (fun d => { d with state := .retain, idle := 0 })
      (domainsOff (List.range 50) (linkDown ((if s.life.v12 then progressCut s else s).modLife fun l => { l with phase := .aux, vaux := true, v12 := false }))))) ∧
  (∀ (open0 open1 : Bool) (s : State), 
    s.life.phase = .unpowered ∨ s.life.phase = .aux →
    let s1 := ((bankAtPowerUp s).modLife fun l => { l with v12 := true, phase := .held }).modPwr fun p =>
      { p with sense := if open0 then (if open1 then 150 else 450) else (if open1 then 300 else 600),
               edgeMv := 12000, auxMv := 12000, causes := 0, thermalEmerg := false }
    exec (.powerUp12v open0 open1) s = .next (if s.life.perst then s1 else coldStart s1)) ∧
  (∀ (t : BootTest) (s : State), 
    s.powered = true ∧ s.life.cfgReady = true →
    exec (.conventionalReset t) s = .next (applyTests t (coldStart (s.modLife fun l => { l with flushCmds := [], flushing := none })))) ∧
  (∀ (fn : Nat) (s : State), 
    s.life.cfgReady = true →
    (s.fn? fn).any (·.enabled) = true →
    exec (.functionLevelReset fn) s = .next (if fn = 0 then
      ((s.fns.map (·.id)).foldl (fun s f => stopController f 0 s) s).modFns fun _ => [{ id := 0 }]
    else modFn fn (fun x => { id := x.id, enabled := true, queues := x.queues, vectors := x.vectors, online := x.online })
      (stopController fn 0 s))) ∧
  (∀ (fn d : Nat) (s : State), 
    d ≤ 3 →
    s.life.cfgReady = true →
    exec (.dStateTransition fn d) s = .next (flushPba fn (modFn fn (fun x => { x with dstate := d }) s))) ∧
  (∀ (s : State), 
    s.atRest = true →
    let s1 := domainsOff (List.range 50) (linkDown ((if s.life.v12 then progressCut s else s).modLife fun l => { l with phase := .unpowered, vaux := false, v12 := false }))
    exec .powerRemoved s = .next ((((s1.modCal fun c => { c with trims := List.replicate 40 0, trimsNext := none, trimRaised := [] }).modPwr
      fun p => { p with causes := 0, thermalEmerg := false }).modEvt fun _ => {}).modMgt fun _ => {})) ∧
  (∀ (t : BootTest) (s : State), 
    s.life.phase = .starting →
    ((applyTests t s).life.coolWait && decide (t.temp ≥ 760)) = false →
    t.calRowOk = true ∧ t.mapOk = true →
    (applyTests t s).fw.booted ≠ 0 →
    (applyTests t s).itg.retired.length < 8 →
    exec (.startupComplete t) s =
      .next (initRdy ((restore (applyTests t s)).modLife fun l => { l with phase := .up, bootst := 0x01 }))) ∧
  (∀ (t : BootTest) (s : State), 
    s.life.phase = .starting →
    (applyTests t s).life.coolWait = false →
    t.calRowOk = false ∨ (applyTests t s).fw.booted = 0 ∨ 8 ≤ (applyTests t s).itg.retired.length ∨ t.mapOk = false →
    exec (.startupComplete t) s = .next ((applyTests t s).modLife fun l =>
      { l with phase := .failed, cfs := true,
               bootst := if !t.calRowOk then 0x10 else if (applyTests t s).fw.booted = 0 then 0x11
                 else if 8 ≤ (applyTests t s).itg.retired.length then 0x12 else 0x13 })) ∧
  (∀ (s : State) (k : FlushKind), 
    s.life.flushing = some k →
    let s1 := spillOpen (s.modLife fun l => { l with flushing := none })
    exec .flushEnd s = .next (match k with
      | .isolation => domainsOff (List.range 50) s1
      | .thermal => linkDown (domainsOff (List.range 50) (s1.modLife fun l => { l with cfs := true }))
      | .perst => if s.life.perst then s1 else coldStart s1
      | .abrupt => (s1.modLife fun l => { l with abruptDone := true }).modFns fun fs =>
          fs.map fun f => if f.id = 0 then { f with shst := 2 } else f))

/-- What samples, supply warnings, emergencies, isolation and the thermal shutdown leave -/
def Obligations.PowerEventsComplete : Prop :=
  (∀ (edge aux w us : Nat) (s : State), 
    s.powered = true →
    exec (.powerSample edge aux w us) s = .next (s.modPwr fun p =>
      let high := if p.sense * 115 < w * 100 then p.over115 + 10 else 0
      { p with edgeMv := edge, auxMv := aux, over115 := high, force15 := p.force15 || decide (100 ≤ high),
               lowPowerUs := if w < 40 then p.lowPowerUs + 10 else 0,
               edgeLow := if edge < 11300 then (s.now us) / 500 else p.edgeLow,
               auxLow := if aux < 11300 then (s.now us) / 500 else p.auxLow })) ∧
  (∀ (edge aux w us : Nat) (s : State), 
    s.life.phase = .isolated ∨ s.life.phase = .thermalDown →
    exec (.powerSample edge aux w us) s = .next (s.modPwr fun p => { p with edgeMv := edge, auxMv := aux })) ∧
  (∀ (input mv : Nat) (s : State), 
    s.powered = true →
    input ≤ 1 →
    mv ≤ 11000 →
    s.pwr.causes.getLsbD input = false →
    let s1 := s.modPwr fun p =>
      if input = 0 then { p with edgeMv := mv, edgeLow := s.tick.toNat } else { p with auxMv := mv, auxLow := s.tick.toNat }
    exec (.supplyWarningBegin input mv) s =
      .next (bankSag (lineUp 0x008 (BitVec.ofNat 32 mv) (ctrAdd .powerSupplyWarnings 0 1 (beginCause input s1))))) ∧
  (∀ (input : Nat) (s : State), 
    input ≤ 1 →
    s.pwr.causes.getLsbD input = true →
    11300 ≤ (if input = 0 then s.pwr.edgeMv else s.pwr.auxMv) →
    (if input = 0 then s.pwr.edgeLow else s.pwr.auxLow) + 2 ≤ s.tick.toNat →
    exec (.supplyWarningEnd input) s =
      .next (if (endCause input s).warned then endCause input s else lineDown 0x008 (endCause input s))) ∧
  (∀ (mv : Nat) (s : State), 
    mv ≤ 10400 →
    s.powered = true ∨ s.life.phase = .thermalDown →
    let s1 := ctrAdd .powerIsolations 0 1 (raise 0x009 (BitVec.ofNat 32 mv) (beginCause 2 s))
    exec (.supplyIsolation mv) s = .next (linkDown (domainsOff (List.range 25 ++ [41, 42, 48, 49])
      ((if s.life.flushing.isSome then s1 else abandon s1).modLife fun l =>
        { l with phase := .isolated, flushing := some .isolation, flushCut := none })))) ∧
  (∀ (s : State), 
    s.life.flushing = some .isolation →
    ∃ n, n < 6 ∧ exec .flushStopped s = .next (ctrAdd .powerIncompleteFlushes 0 1
      ({ s with free := s.free + 1 }.modLife fun l => { l with flushing := none, flushCut := some n }))) ∧
  (∀ (temp : Int) (s : State), 
    s.powered = true →
    exec (.thermalLevelStep temp) s = .next (throttleLine temp (s.modPwr fun p =>
      { p with temp, thermalLevel :=
                 if p.thermalEmerg then 15 else if 760 ≤ temp then sat 15 (p.thermalLevel + 1)
                 else if temp < 736 then p.thermalLevel - 1 else p.thermalLevel }))) ∧
  (∀ (temp : Int) (s : State), 
    s.powered = true →
    840 ≤ temp →
    s.pwr.thermalEmerg = false →
    let d := BitVec.ofNat 32 (ofSigned 32 temp)
    exec (.thermalEmergencyBegin temp) s = .next (holdActivation (throttleLine temp (lineUp 0x00C d
      (ctrAdd .powerThermalEmergencies 0 1 (s.modPwr fun p =>
        { p with temp, thermalEmerg := true, thermalLevel := 15, calmSince := none })))))) ∧
  (∀ (s : State), 
    s.pwr.thermalEmerg = true →
    s.pwr.temp < 800 →
    exec .thermalEmergencyEnd s =
      .next (calm (s.tick.toNat + 1) (lineDown 0x00C (s.modPwr fun p => { p with thermalEmerg := false })))) ∧
  (∀ (s : State), 
    s.powered = true →
    880 ≤ s.pwr.temp →
    s.life.flushing = none →
    exec .thermalShutdown s = .next ((abandon s).modLife fun l =>
      { l with phase := .thermalDown, flushing := some .thermal, flushCut := none, coolWait := true }))

/-- What the power domains' transitions leave -/
def Obligations.PowerDomainEventsComplete : Prop :=
  (∀ (n : Nat) (s : State), 
    n ≤ 49 →
    (s.domain n).state ≠ .on →
    s.powered = true ∧ s.mayWake n = true →
    ¬ (n < 25 ∧ (s.domain n).newImage = true) →
    let s1 := modDomain n (fun d => { d with state := .on, idle := 0 }) s
    let s2 := if (s.domain n).state == .gated then s1 else ctrAdd .powerWakesFromRETAINOrOFF n 1 s1
    exec (.domainWake n) s = .next (if n = 41 ∨ n = 42 then s2.modLife fun l => { l with l1 := false } else s2)) ∧
  (∀ (n : Nat) (s : State), 
    n < 25 →
    (s.domain n).state ≠ .on →
    s.powered = true ∧ s.mayWake n = true →
    (s.domain n).newImage = true →
    let s1 := modDomain n (fun d => { d with state := .on, idle := 0 }) s
    exec (.domainWake n) s = .next (bandTakes n ((s.fw.activation.map (·.1)).getD s.fw.vane)
      (if (s.domain n).state == .gated then s1 else ctrAdd .powerWakesFromRETAINOrOFF n 1 s1))) ∧
  (∀ (b : Nat) (s : State), 
    b ≤ 24 →
    (s.domain b).state = .gated →
    8 ≤ (s.domain b).idle →
    exec (.bandRetain b) s = .next (modDomain b (fun d => { d with state := .retain, idle := 0 }) s)) ∧
  (∀ (g : Nat) (s : State), 
    g ≤ 7 →
    s.nandBusy g = false →
    (s.domain (25 + g)).state = .on →
    exec (.flashGroupGate g) s = .next (modDomain (25 + g) (fun d => { d with state := .gated, idle := 0 }) s)) ∧
  (∀ (g : Nat) (s : State), 
    g ≤ 7 →
    (s.domain (33 + g)).state = .on →
    exec (.dramSelfRefresh g) s = .next (modDomain (33 + g) (fun d => { d with state := .retain, idle := 0 }) s)) ∧
  (∀ (q : Nat) (s : State), 
    q ≤ 3 →
    (s.domain (43 + q)).state = .on →
    exec (.fabricQuadrantGate q) s = .next (modDomain (43 + q) (fun d => { d with state := .gated, idle := 0 }) s)) ∧
  (∀ (s : State), 
    s.powered = true ∧ s.life.cfgReady = true →
    s.life.l1 = false →
    let rest (n : Nat) (s : State) : State := modDomain n (fun d => if d.state == .on then { d with state := .retain, idle := 0 } else d) s
    exec .aspmL1Entry s = .next (rest 42 (rest 41 (s.modLife fun l => { l with l1 := true })))) ∧
  (∀ (w : Nat) (s : State), 
    [1, 2, 4, 8, 16].contains w = true →
    s.powered = true ∧ s.life.cfgReady = true →
    w ≠ s.life.width →
    let s1 := s.modLife fun l => { l with width := w }
    exec (.l0pWidthChange w) s = .next (
      if w ≤ 8 then modDomain 42 (fun d => if d.state == .on then { d with state := .retain, idle := 0 } else d) s1
      else if (s.domain 42).state == .retain && !s.life.l1 then
        ctrAdd .powerWakesFromRETAINOrOFF 42 1 (modDomain 42 (fun d => { d with state := .on, idle := 0 }) s1)
      else s1))

/-- What a read-level evaluation and SERVICE 0x06 leave -/
def Obligations.ReadLevelCommandsComplete : Prop :=
  (∀ (g : Nat) (s : State), 
    (s.rdGroup g).sample = none →
    256 ≤ (s.rdGroup g).stats.reads →
    s.eff.readLevels = true →
    (s.die (dieOfGroup g)).retired = false →
    exec (.readLevelEvaluation g) s = .next (modRd g (fun r => { r with stats := {} }) (evalGroup g (s.rdGroup g).stats s).1)) ∧
  (∀ (g n : Nat) (x : RdStats) (s : State), 
    (s.rdGroup g).sample = some (n, x) →
    16 ≤ n →
    let e := evalGroup g x s
    exec (.readLevelEvaluation g) s = .next (recalStep g e.2 (modRd g (fun r => { r with sample := none }) e.1))) ∧
  (∀ (a : Admin) (s : State), 
    adminRuns a.src false s = true →
    bits a.cdw10.toNat 7 0 = 6 →
    serviceGate a 0x06 false s = none →
    bits a.cdw11.toNat 31 10 = 0 →
    bits a.cdw11.toNat 9 0 ≤ 511 ∨ bits a.cdw11.toNat 9 0 = 0x3FF →
    let gs := s.closedGroups (bits a.cdw11.toNat 9 0)
    exec (.recalibrateReadLevels a) s = .next (if gs.isEmpty then ok a.src 0 0 (begun a.src 0xC5 0xFFFF s) else
      gs.foldl (fun s g => modRd g (fun r => { r with sample := r.sample.orElse fun _ => some (0, {}) }) s)
        ((begun a.src 0xC5 0xFFFF s).modCal fun c => { c with recal := c.recal ++ [(a.src, gs, 0)] })))

/-- LOAD STRUCTURE, DOME CONTROL and the SERVICE fences wait for a boundary; a binding changes at once -/
def Obligations.StructureCommandsWait : Prop :=
  (∀ (a : Admin) (s : State), 
    adminRuns a.src false s = true →
    a.src.fn = 0 ∧ s.granted 0 = true →
    a.cdw11 = 0 ∧ a.cdw12 = 0 ∧ a.cdw13 = 0 ∧ a.cdw14 = 0 ∧ a.cdw15 = 0 →
    s.changing = false →
    (imageKind a.input = 1 → s.granted 7 = true) →
    (imageKind a.input = 0 → s.hostCmds.any (fun c => c.opcode != 0x81 && c.opcode != 0x82) = false) →
    (validate a.input (Nat.min a.cdw10.toNat a.input.length) (begun a.src 0xC0 0xFFFF s)).isOk = true →
    ∃ img, validate a.input (Nat.min a.cdw10.toNat a.input.length) (begun a.src 0xC0 0xFFFF s) = .ok img ∧
      exec (.loadStructure a) s = .next (markDissolving (fun d => !(standingDomes img (begun a.src 0xC0 0xFFFF s)).any (·.id == d))
        ((reserve img (begun a.src 0xC0 0xFFFF s)).modStr fun x => { x with change := some { kind := .image img, src := a.src } }))) ∧
  (∀ (a : Admin) (s : State), 
    adminRuns a.src false s = true →
    a.src.fn = 0 ∧ s.granted 0 = true →
    bits a.cdw10.toNat 3 0 = 0 ∧ controlReserved a = false ∧ a.cdw11 = 0 →
    controlDome a ≠ 0 ∧ (s.dome? (controlDome a)).isSome = true →
    s.changing = false →
    exec (.domeDissolve a) s = .next (markDissolving (fun x => s.under x (controlDome a))
      ((begun a.src 0xC1 0xFFFF s).modStr fun x => { x with change := some { kind := .dissolve (controlDome a), src := a.src } }))) ∧
  (∀ (a : Admin) (s : State), 
    adminRuns a.src false s = true →
    a.src.fn = 0 ∧ s.granted 0 = true →
    bits a.cdw10.toNat 3 0 = 1 ∧ controlReserved a = false ∧ bits a.cdw11.toNat 31 6 = 0 →
    controlDome a ≠ 0 ∧ bits a.cdw11.toNat 5 0 ≠ 0 →
    (s.fn? (bits a.cdw11.toNat 5 0)).any (·.enabled) = true →
    s.vfBusy (bits a.cdw11.toNat 5 0) = false →
    s.str.bindings.any (fun b => b.1 == bits a.cdw11.toNat 5 0 || b.2 == controlDome a) = false →
    exec (.domeBind a) s = .next (ok a.src 0 0 ((begun a.src 0xC1 0xFFFF s).modStr fun x =>
      { x with bindings := x.bindings ++ [(bits a.cdw11.toNat 5 0, controlDome a)], changes := x.changes + 1 }))) ∧
  (∀ (a : Admin) (s : State) (f : Nat), 
    adminRuns a.src false s = true →
    a.src.fn = 0 ∧ s.granted 0 = true →
    bits a.cdw10.toNat 3 0 = 2 ∧ controlReserved a = false ∧ a.cdw11 = 0 →
    controlDome a ≠ 0 →
    s.boundFn (controlDome a) = some f →
    s.vfBusy f = false →
    exec (.domeUnbind a) s = .next (ok a.src 0 0 ((begun a.src 0xC1 0xFFFF s).modStr fun x =>
      { x with bindings := x.bindings.filter (·.2 ≠ controlDome a), changes := x.changes + 1 }))) ∧
  (∀ (a : Admin) (s : State), 
    adminRuns a.src false s = true →
    serviceGate a 1 true s = none →
    a.cdw11.toNat ≤ 799 →
    s.str.fenced.contains a.cdw11.toNat = false →
    exec (.serviceFence a) s = .next ((begun a.src 0xC5 0xFFFF s).modStr fun x => { x with fences := x.fences ++
      [{ cluster := a.cdw11.toNat, replace := bit a.cdw10.toNat 8, src := a.src, unfence := false }] })) ∧
  (∀ (a : Admin) (s : State), 
    adminRuns a.src false s = true →
    serviceGate a 2 false s = none →
    a.cdw11.toNat ≤ 799 →
    s.str.fenced.contains a.cdw11.toNat = true →
    exec (.serviceUnfence a) s = .next ((begun a.src 0xC5 0xFFFF s).modStr fun x => { x with fences := x.fences ++
      [{ cluster := a.cdw11.toNat, replace := false, src := a.src, unfence := true }] }))

/-- When an image, a dissolution, a fence and an unfence take effect, and what each leaves -/
def Obligations.StructureChangesTakeEffect : Prop :=
  (∀ (s : State) (img : Image) (src : Src) (stopped : Option Nat), 
    s.str.change = some { kind := .image img, src, stopped } →
    s.sch.step = 1 →
    img.partial_ = false ∨ (stopped.any (· < s.tick.toNat) = true ∧ s.busyUnder img.target = false) →
    exec .imageTakesEffect s = .next (heartbeatStep (middleSteps (structurePacket 0 img.target 0xFFFF (applyImage img src s))))) ∧
  (∀ (s : State) (d : Nat) (src : Src) (stopped : Option Nat), 
    s.str.change = some { kind := .dissolve d, src, stopped } →
    s.sch.step = 1 →
    stopped.any (· < s.tick.toNat) = true ∧ s.busyUnder d = false →
    exec .dissolveTakesEffect s = .next (heartbeatStep (middleSteps (applyDissolve d src s)))) ∧
  (∀ (s : State) (r : FenceReq) (rest : List FenceReq), 
    s.str.fences = r :: rest →
    s.str.change = none ∧ r.unfence = false →
    s.str.fenced.contains r.cluster = false →
    s.sch.step = 1 →
    r.stopped.any (· < s.tick.toNat) = true ∧ (s.running r.cluster).isEmpty = true →
    let s1 := s.modStr fun x => { x with fences := rest }
    let repl := if r.replace then s1.replacement r.cluster else none
    exec (.fenceTakesEffect r.cluster) s = .next (heartbeatStep (middleSteps (ok r.src (match repl with | some y => 1 + y * 2 ^ 16 | none => 0) 0
      (applyFence r.cluster repl false s1))))) ∧
  (∀ (s : State) (r : FenceReq) (rest : List FenceReq), 
    s.str.fences = r :: rest →
    s.str.change = none ∧ r.unfence = true →
    s.str.fenced.contains r.cluster = true →
    s.sch.step = 1 ∧ r.stopped.any (· < s.tick.toNat) = true →
    exec (.unfenceTakesEffect r.cluster) s = .next (heartbeatStep (middleSteps (ok r.src 0 0 (structurePacket 2 0 r.cluster
      (s.modStr fun x => { x with fences := rest, fenced := delN r.cluster x.fenced, changes := x.changes + 1 }))))))

/-- What LANTERN CONTROL, the attachment of a capture device and the sending of a packet leave -/
def Obligations.LanternCommandsComplete : Prop :=
  (∀ (a : Admin) (s : State), 
    adminRuns a.src false s = true →
    a.src.fn = 0 ∧ s.granted 9 = true →
    s.sec.obsOff = false →
    a.cdw10 = 0 →
    a.cdw11 = 0 ∧ a.cdw12 = 0 ∧ a.cdw13 = 0 ∧ a.cdw14 = 0 ∧ a.cdw15 = 0 →
    let now := ((s.lan.pending.filter (·.1 == 2)).getLast?.map (·.2)).getD s.lan.mask
    exec (.lanternDisable a) s = .next (ok a.src (maskCount now) 0 ((begun a.src 0xC6 0xFFFF s).modLan fun l => { l with pending := l.pending ++ [(0, now)] }))) ∧
  (∀ (a : Admin) (s : State), 
    adminRuns a.src false s = true →
    a.src.fn = 0 ∧ s.granted 9 = true →
    s.sec.obsOff = false →
    a.cdw10 = 1 →
    a.cdw11 = 0 ∧ a.cdw12 = 0 ∧ a.cdw13 = 0 ∧ a.cdw14 = 0 ∧ a.cdw15 = 0 →
    let now := ((s.lan.pending.filter (·.1 == 2)).getLast?.map (·.2)).getD s.lan.mask
    exec (.lanternEnable a) s = .next (ok a.src (maskCount now) 0 ((begun a.src 0xC6 0xFFFF s).modLan fun l => { l with pending := l.pending ++ [(1, now)] }))) ∧
  (∀ (a : Admin) (s : State), 
    adminRuns a.src false s = true →
    a.src.fn = 0 ∧ s.granted 9 = true →
    s.sec.obsOff = false →
    a.cdw10 = 2 →
    (a.cdw12 ++ a.cdw11 : QWord) &&& ~~~lanSources = 0 →
    a.cdw13 = 0 ∧ a.cdw14 = 0 ∧ a.cdw15 = 0 →
    let m : QWord := (a.cdw12 ++ a.cdw11) ||| 1
    exec (.lanternSetSources a) s = .next (ok a.src (maskCount m) 0 ((begun a.src 0xC6 0xFFFF s).modLan fun l => { l with pending := l.pending ++ [(2, m)] }))) ∧
  (∀ (s : State), 
    (s.modLan fun l => { l with lpres := true }).lanternOn = true →
    s.powered = true →
    (s.domain 49).state = .off →
    exec .lanternAttach s = .next (lanternStart (s.modLan fun l => { l with lpres := true }))) ∧
  (∀ (s : State), 
    exec .lanternDetach s = .next (domainsOff [49] (s.modLan fun l => { l with lpres := false }))) ∧
  (∀ (lane : Nat) (s : State) (p : Packet), 
    lane ≤ 1 →
    (s.domain 49).state = .on →
    s.lan.fifo.find? (fun p => p.seq % 2 == lane) = some p →
    exec (.lanternPacketSend lane) s = .next (lanternDrained (ctrAdd .lanternPacketsSent lane 1
      ((s.modLan fun l => { l with fifo := l.fifo.erase p, sentNow := l.sentNow + 1 }).modOut fun o =>
        { o with lantern := o.lantern ++ [(lane, p)] }))))

/-- What the bank's measurement, the write cache's size and the thermal trims leave -/
def Obligations.BankCacheAndTrimCommandsComplete : Prop :=
  (∀ (a : Admin) (s : State), 
    adminRuns a.src false s = true →
    serviceGate a 7 false s = none →
    a.cdw11 = 0 →
    s.emergency = false →
    exec (.testButtressBank a) s = .next ((begun a.src 0xC5 0xFFFF s).modCal fun c => { c with bankSrc := c.bankSrc ++ [(a.src, false)] })) ∧
  (∀ (s : State), 
    s.cal.bankPhase = .idle →
    s.cal.bankSrc ≠ [] ∨ s.bankDue = true →
    s.calmTick = true →
    let s1 := if drawEnd s.cal.capUF < 22000 then resizeCache (cacheFor (drawEnd s.cal.capUF)) s else s
    exec .bankMeasurementStart s = .next (s1.modCal fun c =>
      { c with bankPhase := if s1.fls.cacheTarget.isSome then .shrinking else .drawing,
               bankSrc := c.bankSrc.map fun x => (x.1, true) })) ∧
  (∀ (stepUv deltaUv : Nat) (s : State), 
    s.cal.bankPhase = .drawing →
    deltaUv ≠ 0 →
    exec (.bankDrawEnd stepUv deltaUv) s = .next (s.modCal fun x =>
      { x with bankPhase := .recharging,
               bankNew := some (200000000000 / deltaUv, 304 * (200000000000 / deltaUv) / 1000, stepUv / 2) })) ∧
  (∀ (s : State) (c e r : Nat), 
    s.cal.bankPhase = .recharging →
    s.cal.bankNew = some (c, e, r) →
    let s1 := ctrAdd .calibBankMeasurements 0 1 (raise 0x00E (BitVec.ofNat 32 e) (s.modCal fun x =>
      { x with bankPhase := .idle, bankNew := none, capUF := c, energy := e, esr := r, bankTick := s.tick.toNat,
               bankResult := if e < 15000 then 4 else if e < 22000 then 3 else 1 }))
    exec .bankRecharged s = .next (resizeCache (cacheFor s1.cal.energy) (bankAnswer s1))) ∧
  (∀ (s : State) (mib : Nat), 
    s.fls.cacheTarget = some mib →
    s.cacheUsed ≤ mib * 256 →
    exec .writeCacheResized s = .next ((setCache mib s).modCal fun c =>
      { c with bankPhase := if c.bankPhase = .shrinking then .drawing else c.bankPhase })) ∧
  (∀ (raw : List Int) (s : State), 
    raw.length = 40 →
    let now := s.trimmed raw
    let s1 := s.modCal fun c => { c with readings := now }
    let want := now.zipIdx.map fun x => if x.2 = 0 then 0 else s.trim x.2 + trimStep (now.headD 0) x.1
    let held := (want.zipIdx.filter fun x => x.1 > 16 || x.1 < -16).map (·.2)
    exec (.thermalTrimStep raw) s = .next (
      if !s.eff.thermal || s.pwr.lowPowerUs < 10000000 || s.emergency || hottest now ≥ 760 then s1
      else (held.filter fun i => !s.cal.trimRaised.contains i).foldl (fun s i => raise 0x00F (BitVec.ofNat 32 i) s)
        (s1.modCal fun c => { c with trimsNext := some (want.map fun v => if v > 16 then 16 else if v < -16 then -16 else v),
                                     trimRaised := nubN (c.trimRaised ++ held) })))

/-- A tick boundary counts, and on a running module does the work of Table 3-1 -/
def Obligations.TickBoundaryCompletes : Prop :=
  ∀ (w extra : Nat) (s : State), 
    exec (.tickBoundary w extra) s = .next (match s.life.phase with
      | .starting | .up | .failed => boundaryNow w extra { finishBoundary s with tick := (finishBoundary s).tick + 1 }
      | .isolated | .thermalDown => { s with tick := s.tick + 1 }
      | .unpowered | .aux | .held => s)

/-- Where a dispatch completes: the task starts, or the slice is stretched, or the refusal is counted. -/
def Obligations.DispatchCompletes : Prop :=
  (∀ (t : TaskRef) (us : Nat) (s : State) (c : Cmd) (h : Chain) (d cl : Nat) (lent : Option Nat), 
    s.cmd? t.src = some c ∧ s.chain? t = some h →
    s.hb.quiesced = false ∧ s.life.phase = .up ∧ s.sch.step = 0 →
    s.heldLow c h = false ∧ s.onlyThrottled c h = false →
    s.turn us = some d →
    s.firstOf us d = some (t, cl, lent) →
    (s.domain (cl / 32)).state = .on →
    30 ≤ s.sch.budget →
    exec (.taskDispatch t us) s = .next (kickWalk t (claim t (startTask t cl lent us s)))) ∧
  (∀ (t : TaskRef) (us : Nat) (s : State) (c : Cmd) (h : Chain) (d cl : Nat) (lent : Option Nat), 
    s.cmd? t.src = some c ∧ s.chain? t = some h →
    s.hb.quiesced = false ∧ s.life.phase = .up ∧ s.sch.step = 0 →
    s.heldLow c h = false ∧ s.onlyThrottled c h = false →
    s.turn us = some d →
    s.firstOf us d = some (t, cl, lent) →
    (s.domain (cl / 32)).state = .on →
    s.sch.budget < 30 →
    exec (.taskDispatch t us) s = .next (stretch (s.part c.dome) (s.modSch fun k => { k with carried := true }))) ∧
  (∀ (t : TaskRef) (us : Nat) (s : State) (c : Cmd) (h : Chain), 
    s.cmd? t.src = some c ∧ s.chain? t = some h →
    s.hb.quiesced = false ∧ s.life.phase = .up ∧ s.sch.step = 0 →
    s.heldLow c h = true →
    exec (.taskDispatch t us) s = .next (stretch (s.part c.dome) s)) ∧
  (∀ (t : TaskRef) (us : Nat) (s : State) (c : Cmd) (h : Chain), 
    s.cmd? t.src = some c ∧ s.chain? t = some h →
    s.hb.quiesced = false ∧ s.life.phase = .up ∧ s.sch.step = 0 →
    s.heldLow c h = false ∧ s.onlyThrottled c h = true →
    exec (.taskDispatch t us) s = .next (ctrPart .powerDispatchesRefusedByThrottling c.dome 1 s))

/-- Where a task ends and is stopped, and what each leaves. -/
def Obligations.TaskEventsComplete : Prop :=
  (∀ (t : TaskRef) (us : Nat) (x : TaskEnd) (s : State) (c0 c : Cmd) (h0 h : Chain) (r0 r : Run), 
    s.flight? t = some (c0, h0, r0) →
    r0.wait = .none ∧ s.ranFor r0 us ≤ h0.task.worst + 500 →
    x.fail = none →
    (advance t (h0.task.firstOp + h0.task.ops) s).flight? t = some (c, h, r) →
    h.ran c = true ∧ r.wait = .none →
    undeclaredTouch s h x c = none →
    let s1 := advance t (h0.task.firstOp + h0.task.ops) s
    let s2 := spend 20 (if s.ranFor r us > h.task.worst then ctrPart .schedTaskOverrun c0.dome 1 s1 else s1)
    exec (.taskEnd t us x) s = .next (resumeWalks (startSavesOn r.cluster (settle t.src (lendingCheck t.src (s.now us) (taskDone t c h r us x
      (taskPacket 1 t.src c.opcode c.dome r.cluster 0 0 (s.ranFor r us * 1500) s2))))))) ∧
  (∀ (t : TaskRef) (us : Nat) (x : TaskEnd) (s : State) (c0 c : Cmd) (h0 h : Chain) (r0 r : Run) (id : Nat), 
    s.flight? t = some (c0, h0, r0) →
    r0.wait = .none ∧ s.ranFor r0 us ≤ h0.task.worst + 500 →
    x.fail = none →
    (advance t (h0.task.firstOp + h0.task.ops) s).flight? t = some (c, h, r) →
    h.ran c = true ∧ r.wait = .none →
    undeclaredTouch s h x c = some id →
    let s1 := advance t (h0.task.firstOp + h0.task.ops) s
    let s2 := spend 20 (if s.ranFor r us > h.task.worst then ctrPart .schedTaskOverrun c0.dome 1 s1 else s1)
    exec (.taskEnd t us x) s = .next (resumeWalks (startSavesOn r.cluster (failTask t (undeclaredFail id) (endLendings t.src (s.now us) s2))))) ∧
  (∀ (t : TaskRef) (us : Nat) (x : TaskEnd) (s : State) (c : Cmd) (h : Chain) (r : Run) (f : Failure), 
    s.flight? t = some (c, h, r) →
    r.wait = .none ∧ s.ranFor r us ≤ h.task.worst + 500 →
    x.fail = some f →
    let s2 := spend 20 (if s.ranFor r us > h.task.worst then ctrPart .schedTaskOverrun c.dome 1 s else s)
    exec (.taskEnd t us x) s = .next (resumeWalks (startSavesOn r.cluster (failCmd t.src f h.done r.cluster
      (taskPacket 3 t.src c.opcode c.dome r.cluster f.sct f.sc (s.ranFor r us * 1500) (leaveCluster t (endLendings t.src (s.now us) s2))))))) ∧
  (∀ (t : TaskRef) (us : Nat) (s : State) (c : Cmd) (h : Chain) (r : Run), 
    s.flight? t = some (c, h, r) →
    h.task.worst + 500 ≤ s.ranFor r us →
    exec (.taskOverrunStop t us false) s = .next (resumeWalks (startSavesOn r.cluster (failTask t St.taskOverrun (endLendings t.src (s.now us)
      (taskPacket 2 t.src c.opcode c.dome r.cluster 7 0x86 (s.ranFor r us * 1500) (ctrPart .schedTaskOverrunStops c.dome 1 s)))))) ∧
    exec (.taskOverrunStop t us true) s = .next s)

/-- Where windows, saves, restores, semaphores, lending and fills complete, and what each leaves -/
def Obligations.SwitchAndSemaphoreEventsComplete : Prop :=
  (∀ (part us : Nat) (s : State) (p : SlicePtr), 
    s.switching part = some p →
    p.phase = .idle →
    s.windowNeeded p = true →
    p.lead < p.timeLeft us ∧ p.timeLeft us ≤ p.lead + 100 →
    exec (.releaseWindowOpen part us) s = .next (switchPacket 0 part ((s.outgoing p).headD 0) ((s.incoming p).headD 0) 0xFFFF 0
      (yieldRequests (s.outgoing p) (modPtr part (fun p => { p with phase := .window, windowAt := s.now us }) s)))) ∧
  (∀ (part us : Nat) (s : State) (p : SlicePtr), 
    s.switching part = some p →
    (p.phase = .idle ∧ p.timeLeft us ≤ p.lead) ∨
    (p.phase = .window ∧ ((p.overrun = false ∧ p.timeLeft us ≤ p.lead) ∨ (p.overrun = true ∧ p.windowAt + 100 ≤ s.now us))) →
    exec (.saveStart part us) s = .next (startSave part us
      (if p.phase = .idle ∧ s.windowNeeded p = true then yieldRequests (s.outgoing p) s else s))) ∧
  (∀ (part cl us : Nat) (s : State) (p : SlicePtr) (i : Option Nat) (w : Switch), 
    s.ptr? part = some p →
    p.switchOn cl = some (i, w) →
    w.saving.contains cl = true →
    (s.domain (cl / 32)).state = .on →
    s.busyWith w.outgoing cl = false →
    exec (.saveEnd part cl us) s = .next (switchDone part us
      (switchPacket 2 part (w.outgoing.headD 0) (w.incoming.headD 0) cl ((s.now us - w.saveAt) * 1500)
        (modPtr part (fun p => p.setSwitch i { w with saving := delN cl w.saving })
          ((cancelReads w.outgoing cl s).modSch fun k =>
            { k with saved := (k.saved.filter fun v => !(w.outgoing.contains v.1 && v.2.1 == cl)) ++ s.savedBy w cl }))))) ∧
  (∀ (part cl us : Nat) (s : State) (p : SlicePtr) (i : Option Nat) (w : Switch), 
    s.ptr? part = some p →
    p.switchOn cl = some (i, w) →
    w.saving.contains cl = false →
    (s.domain (cl / 32)).state = .on →
    exec (.restoreEnd part cl us) s = .next (freedOn [cl] (switchDone part us
      (switchPacket 3 part (w.outgoing.headD 0) (w.incoming.headD 0) cl ((s.now us - w.saveAt) * 1500)
        (modPtr part (fun p => p.setSwitch i { w with restoring := delN cl w.restoring })
          (s.modSch fun k => { k with saved := k.saved.filter fun v => !(w.incoming.contains v.1 && v.2.1 == cl) })))))) ∧
  (∀ (t : TaskRef) (id : Nat) (s : State) (c : Cmd) (h : Chain) (r : Run) (i : Nat) (m : Sem), 
    s.flight? t = some (c, h, r) →
    r.wait = .none →
    (ensureSem c.dome id s).semIndex c.dome id = some i ∧ (ensureSem c.dome id s).sch.sems[i]? = some m →
    m.denies c.dome = false →
    exec (.semaphoreAcquire t id) s = .next (
      if m.count > 0 then modSem i (fun m => { m with count := m.count - 1, held := addHeld t.src 1 m.held }) (spend 15 (ensureSem c.dome id s))
      else
        let s1 := setWait t (.semaphore id) (modSem i (fun m => { m with waiters := m.waiters ++ [t] }) (spend 15 (ensureSem c.dome id s)))
        if m.dome.isNone then semPacket 0 id c.dome r.cluster 0 s1 else s1)) ∧
  (∀ (t : TaskRef) (id : Nat) (s : State) (c : Cmd) (h : Chain) (r : Run) (i : Nat) (m : Sem), 
    s.flight? t = some (c, h, r) →
    r.wait = .none →
    (ensureSem c.dome id s).semIndex c.dome id = some i ∧ (ensureSem c.dome id s).sch.sems[i]? = some m →
    m.denies c.dome = false →
    m.waiters ≠ [] ∨ m.count + 1 ≤ m.maximum →
    exec (.semaphoreRelease t id) s = .next (giveUnit i (remark (modSem i (fun m =>
      { m with held := if m.held.any (·.1 == t.src) then addHeld t.src (-1) m.held else m.held }) (spend 15 (ensureSem c.dome id s)))))) ∧
  (∀ (sem us i cl wd : Nat) (s : State) (m : Sem) (c : Cmd) (k : TaskSpec), 
    s.hb.quiesced = false →
    s.sch.sems.findIdx? (fun m => m.id == sem && m.dome.isNone) = some i ∧ s.sch.sems[i]? = some m →
    m.suspended.bind s.cmd? = some c →
    s.otherWaiter m c.dome = some wd →
    m.lending = none ∧ s.eligible c.dome = false ∧ s.eligible wd = true →
    c.nextTask = some k ∧ s.place wd k.t0 = some cl →
    (s.domain (cl / 32)).state = .on →
    exec (.lendingStart sem us) s = .next (semPacket 3 sem wd cl 0 (raisePart wd 2 (BitVec.ofNat 32 sem)
      (moveSaved c true (modSem i (fun m => { m with lending := some (c.src, wd, cl, s.now us) }) s))))) ∧
  (∀ (t : TaskRef) (cl us : Nat) (s : State) (c : Cmd) (h : Chain), 
    s.cmd? t.src = some c ∧ s.chain? t = some h →
    s.fillCancelled c.dome cl = false ∧ h.fillWaits = false →
    exec (.layerFillEnd t cl us) s = .next (
      if h.filling0.contains cl then
        let rest := delN cl h.filling0
        let s1 := modChain t (fun h => { h with filling0 := rest, fillStart := if rest.isEmpty then none else h.fillStart }) s
        match h.fillStart with
        | some b => if rest.isEmpty then ctrPart .tierFirstFillStallUs c.dome (s.now us - b) s1 else s1
        | none => s1
      else modChain t (fun h => { h with filling := delN cl h.filling }) s))

/-- Where the NVM I/O commands complete, and what each leaves -/
def Obligations.BlockCommandsComplete : Prop :=
  (∀ (n : Nvm) (x : Ns) (s : State), 
    nvmRuns n.src s = true →
    nvmCheck n.src.fn n.nsid.toNat n.slba.toNat (blockCount n) s = .ok x →
    exec (.read n) s = .next (beginRead n x false (begun n.src 0x02 0xFFFF s))) ∧
  (∀ (n : Nvm) (x : Ns) (s : State), 
    nvmRuns n.src s = true →
    nvmCheck n.src.fn n.nsid.toNat n.slba.toNat (blockCount n) s = .ok x →
    exec (.verify n) s = .next (beginRead n x true (begun n.src 0x0C 0xFFFF s))) ∧
  (∀ (n : Nvm) (x : Ns) (s : State), 
    nvmRuns n.src s = true →
    nvmCheck n.src.fn n.nsid.toNat n.slba.toNat (blockCount n) s = .ok x →
    s.readOnly = false →
    let s1 := readRest n x (begun n.src 0x01 0xFFFF s)
    s1.cacheUnits ≠ 0 ∧ s1.cacheTakes x.nsid (x.units n.slba.toNat (blockCount n)) = true →
    exec (.write n) s = .next (ok n.src 0 0 (cacheWrite x.nsid (n.slba.toNat * x.blockBytes)
      (padTo n.input (blockCount n * x.blockBytes)) (x.units n.slba.toNat (blockCount n)) s1))) ∧
  (∀ (n : Nvm) (x : Ns) (s : State), 
    nvmRuns n.src s = true →
    nvmCheck n.src.fn n.nsid.toNat 0 0 s = .ok x →
    exec (.flush n) s = .next (ok n.src 0 0 (begun n.src 0x00 0xFFFF s))) ∧
  (∀ (n : Nvm) (x : Ns) (s : State), 
    nvmRuns n.src s = true →
    nvmCheck n.src.fn n.nsid.toNat n.slba.toNat (blockCount n) s = .ok x →
    s.readOnly = false →
    exec (.writeZeroes n) s = .next (ok n.src 0 0 (deallocate x n.slba.toNat (blockCount n) (begun n.src 0x08 0xFFFF s)))) ∧
  (∀ (n : Nvm) (x : Ns) (s : State), 
    nvmRuns n.src s = true →
    nvmCheck n.src.fn n.nsid.toNat 0 0 s = .ok x →
    bit n.cdw11.toNat 2 = true ∧ s.readOnly = false →
    ((dsmRanges n).any fun r => r.1 + r.2 > x.size) = false →
    exec (.datasetManagement n) s = .next (ok n.src 0 0 ((dsmRanges n).foldl (fun s r => deallocate x r.1 r.2 s) (begun n.src 0x09 0xFFFF s))))

/-- Where namespaces are created, deleted, attached, formatted and sanitized, and what each leaves -/
def Obligations.NamespaceCommandsComplete : Prop :=
  (∀ (a : Admin) (k : Nat) (s : State), 
    adminRuns a.src false s = true →
    s.sanitizing = false →
    a.nsid ≠ 257 ∧ bits a.cdw10.toNat 3 0 = 0 →
    le a.input 0 8 ≠ 0 ∧ bits (le a.input 26 1) 3 0 ≤ 1 →
    extentsFor (le a.input 0 8) (bits (le a.input 26 1) 3 0) + s.nsExtents + s.quotaExtents ≤ 14305114 →
    s.freeNsid = some k →
    exec (.namespaceCreate a) s = .next (ok a.src k 0 (((begun a.src 0x0D 0xFFFF s).modSec fun x => { x with nsKeys := s.sec.nsKeys + 1 }).modFls fun x =>
      { x with nss := x.nss ++ [{ nsid := k, size := le a.input 0 8, fmt := bits (le a.input 26 1) 3 0, key := s.sec.nsKeys + 1 }] }))) ∧
  (∀ (a : Admin) (x : Ns) (s : State), 
    adminRuns a.src false s = true →
    s.sanitizing = false →
    bits a.cdw10.toNat 3 0 = 1 ∧ a.nsid ≠ 0xFFFFFFFF →
    s.ns? a.nsid.toNat = some x ∧ x.busy = false →
    exec (.namespaceDelete a) s = .next (ok a.src 0 0 (pumpWrites (dropNs x.nsid (begun a.src 0x0D 0xFFFF s))))) ∧
  (∀ (a : Admin) (x : Ns) (s : State), 
    adminRuns a.src false s = true →
    s.sanitizing = false →
    s.ns? a.nsid.toNat = some x ∧ x.busy = false →
    bits a.cdw10.toNat 3 0 ≤ 1 →
    let cs := (List.range (le a.input 0 2)).map fun i => le a.input (2 + 2 * i) 2
    cs ≠ [] ∧ cs.all (fun c => (s.fn? c).isSome) = true ∧ cs.all (fun c => x.attached.contains c == (bits a.cdw10.toNat 3 0 == 1)) = true →
    exec (.namespaceAttachment a) s = .next (ok a.src 0 0 (modNs x.nsid (fun x =>
      { x with attached := if bits a.cdw10.toNat 3 0 = 0 then x.attached ++ cs else x.attached.filter fun c => !cs.contains c }) (begun a.src 0x15 0xFFFF s)))) ∧
  (∀ (a : Admin) (s : State), 
    adminRuns a.src false s = true →
    s.sanitizing = false →
    a.nsid = 0xFFFFFFFF ∨ (s.nsNamed a.nsid.toNat).isEmpty = false →
    bits a.cdw10.toNat 11 9 ≤ 2 ∧ bits a.cdw10.toNat 3 0 ≤ 1 ∧ bits a.cdw10.toNat 8 4 = 0 →
    (s.nsNamed a.nsid.toNat).any (·.busy) = false ∧ (s.progressOf a.src.fn).any Progress.running = false →
    exec (.formatNvm a) s = .next (putProgress
      { fn := a.src.fn, op := bits a.cdw10.toNat 11 9 + 1, state := 1, nsid := a.nsid.toNat, src := some a.src, lbaf := bits a.cdw10.toNat 3 0 }
      ((s.nsNamed a.nsid.toNat).foldl (fun s n => modNs n.nsid (fun x => { x with busy := true }) s) (begun a.src 0x80 0xFFFF s)))) ∧
  (∀ (a : Admin) (s : State), 
    adminRuns a.src false s = true →
    sanact a = 2 →
    s.sanitizing = false ∧ s.fls.progress.any Progress.running = false ∧ s.hostCmds = [] →
    exec (.sanitizeBlockErase a) s =
      .next (ok a.src 0 0 (putProgress { fn := a.src.fn, op := 4, state := 1, nsid := 0xFFFFFFFF } (begun a.src 0x84 0xFFFF s)))) ∧
  (∀ (a : Admin) (s : State), 
    adminRuns a.src false s = true →
    sanact a = 4 →
    s.sanitizing = false ∧ s.fls.progress.any Progress.running = false ∧ s.hostCmds = [] →
    exec (.sanitizeCryptoErase a) s =
      .next (ok a.src 0 0 (putProgress { fn := a.src.fn, op := 5, state := 1, nsid := 0xFFFFFFFF } (begun a.src 0x84 0xFFFF s)))) ∧
  (∀ (p : Progress) (s : State), 
    s.progressOf p.fn = some p ∧ p.running = true →
    exec (.formatSanitizeEnd p.fn true) s = .next (
      let s2 := putProgress { p with state := 2, progress := 65535, status := 0, src := none }
        (if p.op ≤ 3 then endFormat p s else if p.op = 4 then sanitizeAll s else newKeys (sanitizeAll s))
      match p.src with
      | some a => post { src := a, sct := 0, sc := 0 } s2
      | none => s2))

/-- Where destage, garbage collection, refresh, program ends and failures act, and what each leaves -/
def Obligations.FlashProgramsAndCopiesComplete : Prop :=
  (∀ (nsid ext group : Nat) (members : List Nat) (s s1 : State), 
    let whole := s.fls.dirtyExt.contains (nsid, ext)
    let us := if whole then List.range 4096 else s.dirtyOf (nsid, ext)
    let coarse := us.length == 4096
    us ≠ [] →
    8192 ≤ s.fls.free →
    s.fineMaps < 1048576 →
    openTarget group members (s.sourceOf (nsid, ext)) (!coarse) s.fls.readOnly (if coarse then 4096 else us.length) s = some s1 →
    exec (.destage nsid ext group members) s = .next
      ((startProgram group { key := (nsid, ext), coarse, at_ := ((s1.group? group).map (·.used)).getD 0,
                             units := if coarse then List.range 4096 else us, cached := true }
          (if coarse then 4096 else us.length) s1).modFls fun x =>
        { x with dirty := x.dirty.filter fun u => !(u.1 == nsid && u.2 / 4096 == ext), dirtyExt := x.dirtyExt.erase (nsid, ext),
                 inFlight := x.inFlight ++ if whole then [] else us.map fun u => (nsid, ext * 4096 + u) })) ∧
  (∀ (group target : Nat) (members : List Nat) (s s1 : State), 
    s.victimGroup = some group →
    s.fls.free < 32768 →
    openTarget target members .gc false true 4096 s = some s1 →
    exec (.garbageCollection group target members) s = .next (copyExtents target group (s1.extentsIn group) s1)) ∧
  (∀ (block target : Nat) (members : List Nat) (s s1 : State) (g : Group), 
    s.fls.refreshQ.contains block = true →
    (s.fls.refreshQ.any fun b => (s.block b).reads > (s.block block).reads) = false →
    (s.block block).group.bind s.group? = some g →
    openTarget target members .refresh false true 4096 s = some s1 →
    exec (.refresh block target members) s = .next (ctrAdd .flashBlocksRefreshed 0 1
      ((copyExtents target g.id (s1.extentsIn g.id) s1).modFls fun x => { x with refreshQ := delN block x.refreshQ }))) ∧
  (∀ (block target : Nat) (members : List Nat) (s : State) (g : Group), 
    s.fls.refreshQ.contains block = true →
    (s.fls.refreshQ.any fun b => (s.block b).reads > (s.block block).reads) = false →
    (s.block block).group.bind s.group? = some g →
    (openTarget target members .refresh false true 4096 s).isNone = true ∧ s.fls.free < 48 →
    exec (.refresh block target members) s =
      .next (ctrAdd .flashRefreshBlockedEvents 0 1 (raise 0x006 (BitVec.ofNat 32 (dieOf block)) s))) ∧
  (∀ (group pages : Nat) (s : State) (g : Group), 
    s.group? group = some g →
    g.programming ≠ [] →
    let s1 := g.programming.foldl (fun s p => mapProg group p s) (endProgram g s)
    let s2 := modGroup group (fun x => { x with programming := [], stamp := s.fls.programs + 1 }) (s1.modFls fun x => { x with programs := x.programs + 1 })
    exec (.nandProgramComplete group pages) s = .next (pumpWrites (sweep (closeFull group (countProgram g pages s2))))) ∧
  (∀ (block target : Nat) (members : List Nat) (s s1 : State) (g : Group), 
    (s.block block).group.bind s.group? = some g →
    g.programming ≠ [] ∧ (s.block block).state = .openB →
    openTarget target members g.source g.fine true g.used s = some s1 ∧ target ≠ g.id →
    let d := draw s1
    let at_ := ((s1.group? target).map (·.used)).getD 0
    let s2 := g.programming.foldl (fun s p => startProgram target { p with at_ := at_ + p.at_ } 0 s) d.2
    let move (m : ExtMap) : ExtMap := match m with
      | .coarse h a => if h = g.id then .coarse target (at_ + a) else m
      | .fine us => .fine (us.map fun u => if u.2.1 = g.id then (u.1, target, at_ + u.2.2) else u)
    let s3 := (s1.extentsIn g.id).foldl (fun s e => putExtent { e with map := move e.map } s) s2
    let s4 := modGroup target (fun t => { t with used := t.used + g.used }) s3
    let s5 := modGroup g.id (fun x => { x with members := x.members.erase block, programming := [] }) (endProgram g s4)
    exec (.programFailure block target members) s = .next (reportCor 3 (dieOf block) 0x08
      (growBad block (ctrAdd .flashPagesRebuiltFromParity 0 (d.1.toNat % 3072) s5))))

/-- Where page reads end, and where blocks are queued, erased, verified and spilled -/
def Obligations.FlashBlockEventsComplete : Prop :=
  (∀ (block page iterations : Nat) (r : ReadEnd) (updown : List (Nat × Nat)) (s s0 : State), 
    (s.fls.reads.any fun x => x.waits.contains (block, page)) = true →
    (readFailed r && s.hasSource block) = false →
    serveRead block page s = some s0 →
    let s2 := modDie (dieOf block) (fun d => { d with queued := d.queued.erase (block, page) })
      (modBlock block (fun b => { b with pendingReads := b.pendingReads - 1 }) (countRead block 1 (countClass (dieOf block) 0 4096 s0)))
    let s4 := readBlock block r (noteRead block false r iterations updown (readEnd r s2))
    let s5 := s4.modFls fun x => { x with reads := x.reads.map fun q => if q.waits.contains (block, page) then
      { q with waits := q.waits.erase (block, page), failed := q.failed || readFailed r, begun := true } else q }
    exec (.flashReadComplete block page r iterations updown) s =
      .next ((s5.fls.reads.filter fun q => q.waits.isEmpty).foldl (fun s q => endRead q s) s5)) ∧
  (∀ (block : Nat) (s : State), 
    s.eff.refresh ≤ (s.block block).reads →
    exec (.blockRefreshQueued block) s = .next (queueRefresh block s)) ∧
  (∀ (block : Nat) (s : State), 
    (s.block block).state = .stale ∧ (s.block block).pendingReads = 0 →
    let d := s.die (dieOf block)
    d.busy = none ∧ d.retiring = false ∧ d.retired = false ∧ s.diesMayWork [dieOf block] = true →
    exec (.blockErase block) s = .next (modDie (dieOf block) (fun x => { x with busy := some { block, erase := true } })
      (modBlock block (fun x => { x with state := .erasing }) s))) ∧
  (∀ (block : Nat) (s : State), 
    s.erasing block = true ∧ (s.block block).state = .erasing →
    (s.die (dieOf block)).retiring = false →
    exec (.eraseComplete block) s = .next ((modBlock block (fun x => { x with state := .free, reads := 0, verified := false })
      (idleDie (dieOf block) s)).modFls fun x => { x with free := x.free + 1, peCycles := x.peCycles + 1 })) ∧
  (∀ (block : Nat) (s : State), 
    s.erasing block = true →
    exec (.eraseFailure block) s = .next (reportCor 3 (dieOf block) 0x09 (growBad block (idleDie (dieOf block) s)))) ∧
  (∀ (die : Nat) (s : State) (o : DieOp), 
    (s.die die).busy = some o ∧ o.suspended = true ∧ o.batch = 0 →
    exec (.eraseResume die) s = .next (
      let s1 := modDie die (fun d => { d with busy := some { o with suspended := false } }) s
      if o.erase then modBlock o.block (fun x => { x with state := .erasing }) s1 else s1)) ∧
  (∀ (block : Nat) (s : State) (g : Group), 
    (s.block block).group.bind s.group? = some g →
    (s.block block).state = .closed ∧ (s.block block).verified = false →
    let s1 := modBlock block (fun x => { x with verified := true }) s
    exec (.blockVerify block 0 false) s = .next (
      if g.members.all fun m => (s1.block m).verified then
        sweep (modGroup g.id (fun x => { x with parity := false, spilled := false, sources := [] }) s1)
      else s1)) ∧
  (∀ (group : Nat) (s : State) (g : Group), 
    s.group? group = some g →
    g.open_ = true ∧ g.spilled = false ∧ g.parity = true →
    4294967296 < sumN (s.fls.groups.map Group.parityBytes) + 22 * 16384 →
    (s.fls.groups.any fun h => h.open_ && h.parity && !h.spilled && h.stamp < g.stamp) = false →
    exec (.paritySpill group) s = .next (ctrAdd .flashParitySpills 0 1 (modGroup g.id (fun x => { x with spilled := true })
      (g.members.foldl (fun s b => countClass (dieOf b) 4 (g.parityBytes / Nat.max 1 g.members.length) s) s))))

/-- Where the retirement of a die starts and ends, and what it leaves -/
def Obligations.DieRetirementComplete : Prop :=
  (∀ (a : Admin) (s : State), 
    adminRuns a.src false s = true →
    a.src.fn = 0 ∧ s.granted 10 = true →
    a.cdw10 = 4 ∧ a.cdw12 = 0 ∧ a.cdw13 = 0 ∧ a.cdw14 = 0 ∧ a.cdw15 = 0 →
    a.cdw11.toNat ≤ 511 →
    (s.die a.cdw11.toNat).retired = false →
    s.fls.retire.find? (·.1 == a.cdw11.toNat) = none ∧ s.goodBlocks a.cdw11.toNat ≤ s.fls.spares →
    exec (.retireNandDie a) s = .next (startRetire a.cdw11.toNat (some a.src) (begun a.src 0xC5 0xFFFF s))) ∧
  (∀ (a : Admin) (r : Nat × Option Src × Nat) (s : State), 
    adminRuns a.src false s = true →
    a.src.fn = 0 ∧ s.granted 10 = true →
    a.cdw10 = 4 ∧ a.cdw12 = 0 ∧ a.cdw13 = 0 ∧ a.cdw14 = 0 ∧ a.cdw15 = 0 →
    a.cdw11.toNat ≤ 511 →
    (s.die a.cdw11.toNat).retired = false →
    s.fls.retire.find? (·.1 == a.cdw11.toNat) = some r →
    exec (.retireNandDie a) s = .next ((begun a.src 0xC5 0xFFFF s).modFls fun x => { x with retire := x.retire ++ [(a.cdw11.toNat, some a.src, r.2.2)] })) ∧
  (∀ (die : Nat) (s : State), 
    (s.fls.retire.find? (·.1 == die)).isSome = true →
    let s1 := (s.fls.blocks.filter fun b => dieOf b.id == die && b.state == .closed).foldl (fun s b => substitute b.id s) s
    (s1.fls.blocks.any fun b => dieOf b.id == die && b.state != .retired && b.state != .bad) = false →
    let s2 := reportCor 3 die 0x0E (raise 0x007 (BitVec.ofNat 32 die)
      ((modDie die (fun d => { d with retiring := false, retired := true }) s1).modFls fun x =>
        { x with retire := x.retire.filter (·.1 != die) }))
    exec (.dieRetirementEnd die) s = .next ((s.fls.retire.filter (·.1 == die)).foldl (fun t r => match r.2.1 with
      | some a => ok a r.2.2 0 t
      | none => t) s2)) ∧
  (∀ (die : Nat) (s : State), 
    die ≤ 511 →
    (s.die die).retiring = false ∧ (s.die die).retired = false →
    exec (.dieAutoRetire die) s = .next (
      if s.grownOn die > 1092 then startRetire die none s
      else (s.extentsOn die).foldl (fun s e => loseExtent die e s) (startRetire die none s)))

/-- Where frames are decoded, scrubbed and moved, and what each leaves -/
def Obligations.MemoryIntegrityEventsComplete : Prop :=
  (∀ (d : DecodeFound) (s : State), 
    frameExists d.at_ = true ∧ s.deadFrame d.at_ = false →
    s.poisonOf d.at_ = [] ∧ d.received.length = 129 →
    ((frameWords d.received).2.isEmpty && d.tagOk) = false →
    (d.tagOk && (d.found.any fun f => (decodeOk d.received f ((frameWords d.received).2.map (·.1))).isNone)) = false →
    exec (.strongDecodeEnd d) s = .next (strongDecode d.at_ d.received d.found d.tagOk d.reader s)) ∧
  (∀ (d : DecodeFound) (s : State), 
    frameExists d.at_ = true ∧ s.deadFrame d.at_ = true →
    exec (.strongDecodeEnd d) s =
      .next (uncorrectableRead d.at_ d.reader 0 0 0 (ctrAdd .integUncorrectableFrames (frameIndex d.at_) 1 s))) ∧
  (∀ (d : DecodeFound) (s : State) (w : Nat), 
    frameExists d.at_ = true ∧ s.deadFrame d.at_ = false →
    (s.poisonOf d.at_).head? = some w ∧ d.reader ≠ .scrubber →
    exec (.strongDecodeEnd d) s = .next (uncorrectableRead d.at_ d.reader 1 w 0 s)) ∧
  (∀ (a : FrameAt) (f : FrameBits) (s : State), 
    frameExists a = true ∧ s.scrubs a = true →
    (match a with | .t0 _ f => f | .t1 _ f => f) = (s.scrub a).next →
    f.length = 129 →
    frameWords f = ([], []) →
    let x1 := { s.scrub a with next := (s.scrub a).next + 1 }
    exec (.scrubRead a f none) s = .next (if x1.next ≥ lapFrames a then lapEnd a x1 (putScrub x1 s) else putScrub x1 s)) ∧
  (∀ (g : Nat) (s : State), 
    (s.itg.retiring.find? fun r => r.1 == g && r.2.2).isSome = true →
    let d := draw s
    let s1 := groupGone g (ctrAdd .integMigratedMiB 0 (d.1.toNat % 91393) d.2)
    exec (.dramMigrationEnd g) s = .next ((s.itg.retiring.filter fun r => r.1 == g && r.2.2).foldl (fun t r => match r.2.1 with
      | none => t
      | some x => ok x (d.1.toNat % 91393) 0 t) s1)) ∧
  (∀ (p : Nat) (s : State), 
    p ≤ 31 ∧ s.itg.deadPkgs.contains p = false ∧ s.itg.retired.contains (p / 4) = false →
    s.leaving (p / 4) = false →
    exec (.packageStopsResponding p) s = .next ((s.modItg fun t => { t with deadPkgs := insN p t.deadPkgs }).modItg fun t =>
      { t with retiring := t.retiring ++ [(p / 4, none, false)] })) ∧
  (∀ (a : Admin) (s : State), 
    adminRuns a.src false s = true →
    a.src.fn = 0 ∧ s.granted 10 = true →
    a.cdw10 = 3 ∧ a.cdw12 = 0 ∧ a.cdw13 = 0 ∧ a.cdw14 = 0 ∧ a.cdw15 = 0 →
    a.cdw11.toNat ≤ 7 ∧ s.itg.retired.contains a.cdw11.toNat = false →
    1 < ((List.range 8).filter fun g => !s.itg.retired.contains g).length →
    exec (.retireDramChannelGroup a) s = .next ((begun a.src 0xC5 0xFFFF s).modItg fun t => { t with retiring := t.retiring ++ [(a.cdw11.toNat, some a.src, false)] }))

/-- Where the I/O queues are created and deleted, and what each command leaves -/
def Obligations.QueueAdminCommandsComplete : Prop :=
  (∀ (a : Admin) (s : State), 
    adminRuns a.src false s = true →
    s.queueIdOk a.src.fn (bits a.cdw10.toNat 15 0) false = true ∧ (s.cq? a.src.fn (bits a.cdw10.toNat 15 0)).isSome = false →
    1 ≤ bits a.cdw10.toNat 31 16 ∧ bit a.cdw11.toNat 0 = true →
    (bit a.cdw11.toNat 1 = true → bits a.cdw11.toNat 31 16 < (if a.src.fn = 0 then 2048 else 64)) →
    exec (.createIoCompletionQueue a) s = .next (ok a.src 0 0 ((begun a.src 0x05 0xFFFF s).modQ fun q =>
      { q with cqs := q.cqs ++ [{ id := bits a.cdw10.toNat 15 0, fn := a.src.fn, size := bits a.cdw10.toNat 31 16 + 1,
                                  vector := bits a.cdw11.toNat 31 16, ien := bit a.cdw11.toNat 1, base := a.dptr.toNat }] }))) ∧
  (∀ (a : Admin) (s : State), 
    adminRuns a.src false s = true →
    s.queueIdOk a.src.fn (bits a.cdw10.toNat 15 0) true = true ∧ (s.sq? a.src.fn (bits a.cdw10.toNat 15 0)).isSome = false →
    bits a.cdw11.toNat 31 16 ≠ 0 ∧ (s.cq? a.src.fn (bits a.cdw11.toNat 31 16)).isNone = false →
    1 ≤ bits a.cdw10.toNat 31 16 ∧ bit a.cdw11.toNat 0 = true →
    exec (.createIoSubmissionQueue a) s = .next (ok a.src 0 0 ((begun a.src 0x01 0xFFFF s).modQ fun q =>
      { q with sqs := q.sqs ++ [{ id := bits a.cdw10.toNat 15 0, fn := a.src.fn, size := bits a.cdw10.toNat 31 16 + 1,
                                  cq := bits a.cdw11.toNat 31 16, base := a.dptr.toNat }] }))) ∧
  (∀ (a : Admin) (s : State), 
    adminRuns a.src false s = true →
    bits a.cdw10.toNat 15 0 ≠ 0 ∧ (s.cq? a.src.fn (bits a.cdw10.toNat 15 0)).isNone = false →
    (s.q.sqs.any fun q => q.fn == a.src.fn && q.cq == bits a.cdw10.toNat 15 0 && q.id != 0) = false →
    exec (.deleteIoCompletionQueue a) s = .next (ok a.src 0 0 ((begun a.src 0x04 0xFFFF s).modQ fun q =>
      { q with cqs := q.cqs.filter fun c => !(c.fn == a.src.fn && c.id == bits a.cdw10.toNat 15 0) }))) ∧
  (∀ (a : Admin) (s : State), 
    adminRuns a.src false s = true →
    bits a.cdw10.toNat 15 0 ≠ 0 ∧ (s.sq? a.src.fn (bits a.cdw10.toNat 15 0)).any (·.deleting.isNone) = true →
    let id := bits a.cdw10.toNat 15 0
    let s1 := abortNvm a.src.fn id (modSq a.src.fn id (fun q => { q with deleting := some a.src }) (begun a.src 0x00 0xFFFF s))
    let mine := (s.sch.cmds.filter fun c => c.src.fn == a.src.fn && c.src.sq == id).map (·.src)
    let s2 := mine.foldl (fun s x => modCmd x (fun c => { c with deleting := true }) s) s1
    exec (.deleteIoSubmissionQueue a) s = .next (deleteCheck a.src.fn id (mine.foldl (fun s x => settle x s) s2)))

/-- Where Get Log Page, Identify, the features, Abort, the event request and Virtualization Management complete -/
def Obligations.InformationCommandsComplete : Prop :=
  (∀ (a : Admin) (s s1 : State) (p : List Byte), 
    adminRuns a.src true s = true →
    a.cdw12.toNat % 4 = 0 →
    logPage (bits a.cdw10.toNat 7 0) a.src.fn (a.cdw12.toNat + 2 ^ 32 * a.cdw13.toNat) (begun a.src 0x02 0xFFFF s) = some (p, s1) →
    let s2 := writeT2 a.dptr.toNat (logBytes p (a.cdw12.toNat + 2 ^ 32 * a.cdw13.toNat)
      (4 * (bits a.cdw10.toNat 31 16 + 65536 * bits a.cdw11.toNat 15 0 + 1))) s1
    let s3 := if bits a.cdw10.toNat 7 0 = 0xC0 ∧ bit a.cdw10.toNat 8 then clearRing s2 else s2
    exec (.getLogPage a) s =
      .next (ok a.src 0 0 (if bit a.cdw10.toNat 15 then s3 else unmaskEvents a.src.fn (bits a.cdw10.toNat 7 0) s3))) ∧
  (∀ (a : Admin) (s : State) (d : List Byte), 
    adminRuns a.src true s = true →
    identifyData a.src.fn (bits a.cdw10.toNat 7 0) (bits a.cdw10.toNat 31 16) (bits a.cdw11.toNat 31 24) a.nsid.toNat (begun a.src 0x06 0xFFFF s) = .ok d →
    exec (.identify a) s = .next (ok a.src 0 0 (writeT2 a.dptr.toNat d (begun a.src 0x06 0xFFFF s)))) ∧
  (∀ (a : Admin) (f : Func) (s t : State), 
    adminRuns a.src false s = true →
    [0x02, 0xD0, 0xD1].contains (featureId a) = false ∧ bit a.cdw10.toNat 31 = false →
    s.fn? a.src.fn = some f →
    setStandard a f (begun a.src 0x09 0xFFFF s) = .ok t →
    exec (.setFeatures a) s = .next t) ∧
  (∀ (a : Admin) (s : State), 
    adminRuns a.src false s = true →
    featureId a = 0xD0 ∧ bit a.cdw10.toNat 31 = false →
    bits a.cdw11.toNat 31 16 = 0 ∧ bits a.cdw12.toNat 30 20 = 0 ∧ bits a.cdw11.toNat 15 0 ≠ 0 →
    (s.sq? a.src.fn (bits a.cdw11.toNat 15 0)).isNone = false →
    exec (.setFeaturesPasidBinding a) s = .next (ok a.src 0 0 (modSq a.src.fn (bits a.cdw11.toNat 15 0)
      (fun q => { q with pasid := if bit a.cdw12.toNat 31 then some (bits a.cdw12.toNat 19 0) else none }) (begun a.src 0x09 0xFFFF s)))) ∧
  (∀ (a : Admin) (s : State), 
    adminRuns a.src false s = true →
    featureId a = 0xD1 ∧ bit a.cdw10.toNat 31 = false →
    a.src.fn = 0 ∧ bits a.cdw11.toNat 31 8 = 0 ∧ a.cdw11.toNat ≤ 100 →
    exec (.setFeaturesSpareThreshold a) s = .next (ok a.src 0 0 ((begun a.src 0x09 0xFFFF s).modQ fun q => { q with spareThreshold := a.cdw11.toNat }))) ∧
  (∀ (a : Admin) (s : State), 
    adminRuns a.src false s = true →
    featureId a = 0x02 ∧ bit a.cdw10.toNat 31 = false →
    bits a.cdw11.toNat 4 0 ≤ 2 →
    exec (.setFeaturesPowerManagement a) s = .next (ok a.src 0 0 ((begun a.src 0x09 0xFFFF s).modPwr fun p => { p with psNext := some (bits a.cdw11.toNat 4 0) }))) ∧
  (∀ (a : Admin) (f : Func) (v : Nat) (bs : List Byte) (s : State), 
    adminRuns a.src true s = true →
    bits a.cdw10.toNat 10 8 = 0 ∧ s.fn? a.src.fn = some f →
    (begun a.src 0x0A 0xFFFF s).feature f (featureId a) a.cdw11.toNat = some (v, bs) →
    exec (.getFeatures a) s = .next (ok a.src v 0 (if bs.isEmpty then (begun a.src 0x0A 0xFFFF s) else writeT2 a.dptr.toNat bs (begun a.src 0x0A 0xFFFF s)))) ∧
  (∀ (a : Admin) (s : State), 
    adminRuns a.src false s = true →
    (s.fls.writes.any fun w => w.n.src == { fn := a.src.fn, sq := bits a.cdw10.toNat 15 0, cid := bits a.cdw10.toNat 31 16 } && !w.programmed) = false →
    (s.fls.reads.any fun r => r.src == { fn := a.src.fn, sq := bits a.cdw10.toNat 15 0, cid := bits a.cdw10.toNat 31 16 } && !r.begun && r.waits.all s.stillQueued) = false →
    exec (.abort a) s = .next (ok a.src 1 0 (begun a.src 0x08 0xFFFF s))) ∧
  (∀ (a : Admin) (s : State), 
    let x : Src := { fn := a.src.fn, sq := bits a.cdw10.toNat 15 0, cid := bits a.cdw10.toNat 31 16 }
    adminRuns a.src false s = true →
    (s.fls.writes.any fun w => w.n.src == x && !w.programmed) = true →
    exec (.abort a) s = .next (ok a.src 0 0 (refuse x St.aborted ((begun a.src 0x08 0xFFFF s).modFls fun f => { f with writes := f.writes.filter fun w => w.n.src != x })))) ∧
  (∀ (a : Admin) (s : State), 
    let x : Src := { fn := a.src.fn, sq := bits a.cdw10.toNat 15 0, cid := bits a.cdw10.toNat 31 16 }
    adminRuns a.src false s = true →
    (s.fls.writes.any fun w => w.n.src == x && !w.programmed) = false →
    (s.fls.reads.any fun r => r.src == x && !r.begun && r.waits.all s.stillQueued) = true →
    exec (.abort a) s = .next (ok a.src 0 0 (refuse x St.aborted (dropReads (fun r => r.src == x) (begun a.src 0x08 0xFFFF s))))) ∧
  (∀ (a : Admin) (s : State), 
    adminRuns a.src false s = true →
    exec (.asynchronousEventRequest a) s = .next (aenPump ((begun a.src 0x0C 0xFFFF s).modQ fun q => { q with aerHeld := q.aerHeld ++ [a.src] }))) ∧
  (∀ (a : Admin) (f : Func) (s : State), 
    adminRuns a.src false s = true →
    a.src.fn = 0 ∧ bits a.cdw10.toNat 3 0 = 9 →
    (s.fns.filter (·.id != 0)).find? (·.id == bits a.cdw10.toNat 31 16) = some f →
    f.queues ≠ 0 ∧ f.enabled = true →
    exec (.virtualizationManagement a) s =
      .next (ok a.src 0 0 (modFn (bits a.cdw10.toNat 31 16) (fun x => { x with online := true }) (begun a.src 0x1C 0xFFFF s))))

/-- What Firmware Image Download and each Firmware Commit leave. -/
def Obligations.FirmwareCommandsComplete : Prop :=
  (∀ (a : Admin) (s : State), 
    adminRuns a.src false s = true →
    (a.cdw10.toNat + 1) * 4 % 4096 = 0 ∧ a.cdw11.toNat * 4 % 4096 = 0 →
    a.cdw11.toNat * 4 + (a.cdw10.toNat + 1) * 4 ≤ imageMax →
    (s.fw.pieces.any fun p => a.cdw11.toNat * 4 < p.1 + p.2 && p.1 < a.cdw11.toNat * 4 + (a.cdw10.toNat + 1) * 4) = false →
    let n := (a.cdw10.toNat + 1) * 4
    exec (.firmwareImageDownload a) s = .next (ok a.src 0 0 ((begun a.src 0x11 0xFFFF s).modFw fun f =>
      { f with pieces := f.pieces ++ [(a.cdw11.toNat * 4, n)],
               staged := memPut (memClear f.staged (a.cdw11.toNat * 4) n) (a.cdw11.toNat * 4) (padTo a.input n) }))) ∧
  (∀ (a : Admin) (s : State), 
    adminRuns a.src false s = true →
    commitAction a = 0 →
    s.commitSlot a ≤ 2 ∧ s.commitSlot a ≠ s.running_ ∧ s.flashBusy = false →
    exec (.firmwareCommitProgram a) s = .next (if imageSound s.fw.staged s.sec.revoked then
        (if s.sec.floor ≤ imageSecurity s.fw.staged ∧ s.lastSequence + 1 ≤ 0xFFFFFFFE then
          modSlotAt (s.commitSlot a) (fun x => { x with image := [], length := 0 }) ((dropStaging (begun a.src 0x10 0xFFFF s)).modFw fun f =>
            { f with commit := some { src := a.src, slot := s.commitSlot a, action := 0, image := s.fw.staged,
                                      length := memLE s.fw.staged 8 4 } })
        else refuse a.src prohibited (dropStaging (begun a.src 0x10 0xFFFF s)))
      else refuse a.src invalidImage (dropStaging (begun a.src 0x10 0xFFFF s)))) ∧
  (∀ (a : Admin) (s : State), 
    adminRuns a.src false s = true →
    commitAction a = 1 →
    s.commitSlot a ≤ 2 ∧ s.commitSlot a ≠ s.running_ ∧ s.flashBusy = false →
    exec (.firmwareCommitNextReset a) s = .next (if imageSound s.fw.staged s.sec.revoked then
        (if s.sec.floor ≤ imageSecurity s.fw.staged ∧ s.lastSequence + 1 ≤ 0xFFFFFFFE then
          modSlotAt (s.commitSlot a) (fun x => { x with image := [], length := 0 }) ((dropStaging (begun a.src 0x10 0xFFFF s)).modFw fun f =>
            { f with commit := some { src := a.src, slot := s.commitSlot a, action := 1, image := s.fw.staged,
                                      length := memLE s.fw.staged 8 4 } })
        else refuse a.src prohibited (dropStaging (begun a.src 0x10 0xFFFF s)))
      else refuse a.src invalidImage (dropStaging (begun a.src 0x10 0xFFFF s)))) ∧
  (∀ (a : Admin) (s : State), 
    adminRuns a.src false s = true →
    commitAction a = 3 →
    s.commitSlot a ≤ 2 ∧ s.commitSlot a ≠ s.running_ ∧ s.flashBusy = false →
    exec (.firmwareCommitLive a) s = .next (if imageSound s.fw.staged s.sec.revoked then
        (if s.sec.floor ≤ imageSecurity s.fw.staged ∧ s.lastSequence + 1 ≤ 0xFFFFFFFE then
          modSlotAt (s.commitSlot a) (fun x => { x with image := [], length := 0 }) ((dropStaging (begun a.src 0x10 0xFFFF s)).modFw fun f =>
            { f with commit := some { src := a.src, slot := s.commitSlot a, action := 3, image := s.fw.staged,
                                      length := memLE s.fw.staged 8 4 } })
        else refuse a.src prohibited (dropStaging (begun a.src 0x10 0xFFFF s)))
      else refuse a.src invalidImage (dropStaging (begun a.src 0x10 0xFFFF s)))) ∧
  (∀ (a : Admin) (s : State), 
    adminRuns a.src false s = true →
    commitAction a = 2 →
    s.commitSlot a = s.running_ ∧ s.running_ ≤ 2 ∧ s.flashBusy = false →
    exec (.firmwareCommitActivateExisting a) s = .next (ok a.src 0 0 (dropStaging (begun a.src 0x10 0xFFFF s)))) ∧
  (∀ (a : Admin) (s : State), 
    adminRuns a.src false s = true →
    commitAction a = 2 →
    s.commitSlot a ≤ 2 ∧ s.commitSlot a ≠ s.running_ ∧ s.flashBusy = false →
    let m := (s.slotAt (s.commitSlot a)).image
    exec (.firmwareCommitActivateExisting a) s = .next (if imageSound m s.sec.revoked then
        (if s.sec.floor ≤ imageSecurity m ∧ s.lastSequence + 1 ≤ 0xFFFFFFFE then
          ok a.src 0 0 ((modSlotAt (s.commitSlot a) (fun x => { x with record := some (newRecord (s.lastSequence + 1) false m) })
            (dropStaging (begun a.src 0x10 0xFFFF s))).modFw fun f => { f with pendingNext := true })
        else refuse a.src prohibited (dropStaging (begun a.src 0x10 0xFFFF s)))
      else refuse a.src invalidImage (dropStaging (begun a.src 0x10 0xFFFF s)))) ∧
  (∀ (a : Admin) (s : State), 
    adminRuns a.src false s = true →
    commitAction a = 6 ∨ commitAction a = 7 →
    exec (.firmwareCommitBootPartition a) s = .next (refuse a.src St.invalidField (dropStaging (begun a.src 0x10 0xFFFF s))))

/-- What the end of a code flash program leaves: the slot's record, and completion or the live activation -/
def Obligations.CodeFlashProgramEndCompletes : Prop :=
  (∀ (c : Commit) (s : State), 
    s.fw.commit = some c ∧ c.action ≠ 3 →
    exec (.codeFlashProgramEnd true) s = .next (ok c.src 0 0 ((modSlotAt c.slot (fun _ =>
        { record := some (newRecord (s.lastSequence + 1) (c.action == 0) c.image), image := c.image, length := c.length })
        (s.modFw fun f => { f with commit := none })).modFw fun f => { f with pendingNext := f.pendingNext || c.action == 1 }))) ∧
  (∀ (c : Commit) (s : State), 
    s.fw.commit = some c ∧ c.action = 3 →
    let s2 := modSlotAt c.slot (fun _ => { record := some (newRecord (s.lastSequence + 1) (c.action == 0) c.image), image := c.image, length := c.length })
      (s.modFw fun f => { f with commit := none })
    s2.liveOk c.image = true →
    exec (.codeFlashProgramEnd true) s = .next (beginActivation c.slot (some c.src) s2)) ∧
  (∀ (c : Commit) (s : State), 
    s.fw.commit = some c ∧ c.action = 3 →
    let s2 := modSlotAt c.slot (fun _ => { record := some (newRecord (s.lastSequence + 1) (c.action == 0) c.image), image := c.image, length := c.length })
      (s.modFw fun f => { f with commit := none })
    s2.liveOk c.image = false →
    exec (.codeFlashProgramEnd true) s = .next (refuse c.src needsReset s2))

/-- Where the cores of a live activation are swapped, and what each swap leaves -/
def Obligations.ActivationEventsComplete : Prop :=
  (∀ (slot b t : Nat) (src : Option Src) (s : State), 
    s.fw.activation = some (slot, .band b (some t), false, src) →
    t < s.tick.toNat ∧ s.bandBusy b = false →
    exec .activationBandSwap s = .next (nextCore (if b < 24 then .band (b + 1) (some s.tick.toNat) else .scheduler s.tick.toNat)
      (if (s.domain b).state == .on then bandTakes b slot s else modDomain b (fun d => { d with newImage := true }) s))) ∧
  (∀ (slot t us : Nat) (src : Option Src) (s : State), 
    s.fw.activation = some (slot, .scheduler t, false, src) →
    t < s.tick.toNat ∧ us ≤ 150 →
    s.noSwitch = true →
    exec (.schedulerCoreSwap us) s = .next (nextCore (.keep s.tick.toNat) (raise 0x016 0x1000
      ((s.modSch fun k => { k with ptrs := k.ptrs.map fun p =>
          if p.saving.isEmpty && p.restoring.isEmpty && p.late.isEmpty then p else { p with debt := p.debt + us } }).modFw fun f => { f with scheduler := slot })))) ∧
  (∀ (slot t : Nat) (src : Option Src) (s : State), 
    s.fw.activation = some (slot, .keep t, false, src) →
    t < s.tick.toNat →
    exec .keepSwap s = .next (nextCore (.vane s.tick.toNat) (raise 0x016 0x2000 (s.modFw fun f => { f with keep := slot })))) ∧
  (∀ (slot t : Nat) (src : Option Src) (s : State), 
    s.fw.activation = some (slot, .vane t, false, src) →
    t < s.tick.toNat ∧ s.emergency = false →
    let s1 := raise 0x016 0x3000 (s.modFw fun f => { f with vane := slot, booted := slot, activation := none, pendingNext := false })
    exec .vaneSwap s = .next (match src with | some x => ok x 0 0 s1 | none => initRdy s1)) ∧
  (∀ (slot : Nat) (core : SwapCore) (src : Option Src) (s : State), 
    s.fw.activation = some (slot, core, true, src) →
    s.calmTick = true →
    exec .activationResume s = .next (s.modFw fun f => { f with activation := some (slot, (match core with
      | .band b _ => .band b (some s.tick.toNat)
      | .scheduler t => .scheduler t
      | .keep t => .keep t
      | .vane t => .vane t), false, src) }))

/-- What each SPDM request of Table 18-1 answers, and the state it leaves -/
def Obligations.SpdmRequestsComplete : Prop :=
  (∀ (d : DoeReq) (s : State), 
    s.doeUp = true →
    let i := (byteAt d.payload 0).toNat
    exec (.doeDiscovery d) s = .next (doeSend (if i > 2 then [0xFF, 0xFF, 0, 0] else [0x01, 0x00, BitVec.ofNat 8 i, BitVec.ofNat 8 ((i + 1) % 3)]) s)) ∧
  (∀ (d : DoeReq) (s : State), 
    s.doeUp = true ∧ DoeReqCode d = 0x84 ∧ byteAt d.payload 0 = 0x10 →
    let r : List Byte := [0x10, 0x04, 0, 0, 0, 1, 0x00, 0x13]
    exec (.getVersion d) s = .next (doeSend r (s.modSec fun x => { x with spdm := 1, vca := d.payload ++ r, transcript := [], measured := [] }))) ∧
  (∀ (d : DoeReq) (s : State), 
    spdmRuns 0xE1 d s = true ∧ s.sec.spdm = 1 →
    let r : List Byte := [0x13, 0x61, 0, 0, 0, 14, 0, 0] ++ toLE 4 spdmFlags ++ toLE 4 4096 ++ toLE 4 65536
    exec (.getCapabilities d) s = .next (doeSend r (s.modSec fun x => { x with spdm := 2, vca := x.vca ++ d.payload ++ r }))) ∧
  (∀ (d : DoeReq) (s : State), 
    spdmRuns 0xE3 d s = true ∧ s.sec.spdm = 2 →
    ((extOffered d.payload).contains falconEntry || (extOffered d.payload).contains shakeEntry) = true →
    exec (.negotiateAlgorithms d) s = .next (doeSend algorithms (s.modSec fun x => { x with spdm := 3, vca := x.vca ++ d.payload ++ algorithms }))) ∧
  (∀ (d : DoeReq) (s : State), 
    spdmRuns 0x81 d s = true ∧ s.sec.spdm = 3 →
    let r : List Byte := [0x13, 0x01, 0x01, 0x01] ++ Config.shake256 s.chainBytes
    exec (.getDigests d) s = .next (doeSend r (s.modSec fun x => { x with transcript := x.transcript ++ d.payload ++ r }))) ∧
  (∀ (d : DoeReq) (s : State), 
    spdmRuns 0x82 d s = true ∧ s.sec.spdm = 3 →
    byteAt d.payload 2 = 0 ∧ le d.payload 4 2 < s.chainBytes.length →
    let off := le d.payload 4 2
    let n := Nat.min (Nat.min (le d.payload 6 2) 4088) (s.chainBytes.length - off)
    let r : List Byte := [0x13, 0x02, 0, 0] ++ toLE 2 n ++ toLE 2 (s.chainBytes.length - off - n) ++ slice s.chainBytes off n
    exec (.getCertificate d) s = .next (doeSend r (s.modSec fun x => { x with transcript := x.transcript ++ d.payload ++ r }))) ∧
  (∀ (d : DoeReq) (s : State), 
    spdmRuns 0x83 d s = true ∧ s.sec.spdm = 3 →
    byteAt d.payload 2 = 0 ∧ [0, 1, 0xFF].contains (byteAt d.payload 3) = true →
    let n := randomBytes 4 s
    let r : List Byte := [0x13, 0x03, 0, 1] ++ Config.shake256 s.chainBytes ++ n.1 ++ s.summary (byteAt d.payload 3) ++ toLE 2 0 ++
      padTo (slice d.payload 36 8) 8
    let g := signed (s.sec.vca ++ s.sec.transcript ++ d.payload ++ r) n.2
    exec (.challenge d) s = .next (doeSend (r ++ g.1) (g.2.modSec fun x => { x with transcript := [] }))) ∧
  (∀ (d : DoeReq) (s : State), 
    spdmRuns 0xE0 d s = true ∧ s.sec.spdm = 3 →
    byteAt d.payload 3 = 0xFF →
    let body := (s.blocks.map blockBytes).flatten
    let n := randomBytes 4 s
    let r : List Byte := [0x13, 0x60, 0, 0] ++ toLE 1 s.blocks.length ++ toLE 3 body.length ++ body ++ n.1 ++ toLE 2 0 ++
      padTo (slice d.payload (if bit (byteAt d.payload 2).toNat 0 then 37 else 4) 8) 8
    let g := signed (s.sec.vca ++ s.sec.measured ++ d.payload ++ r) n.2
    exec (.getMeasurements d) s = .next (doeSend (r ++ g.1) (g.2.modSec fun x => { x with measured := [] }))) ∧
  (∀ (d : DoeReq) (s : State), 
    spdmRuns 0xE4 d s = true ∧ s.sec.spdm = 3 →
    byteAt d.payload 3 = 0 ∧ [0, 1, 0xFF].contains (byteAt d.payload 2) = true ∧ s.sec.sessions.length < 2 →
    let n := (s.sec.opened + 1) % 65536
    let x := randomBytes 16 s
    let r : List Byte := [0x13, 0x64, 0, 0] ++ toLE 2 n ++ [0, 0] ++ x.1 ++ s.summary (byteAt d.payload 2) ++ toLE 2 0
    let g := signed (s.sec.vca ++ Config.shake256 s.chainBytes ++ d.payload ++ r) x.2
    let v := randomBytes 8 g.2
    exec (.keyExchange d) s = .next (doeSend (r ++ g.1 ++ v.1) (v.2.modSec fun y =>
      { y with sessions := y.sessions ++ [(le d.payload 4 2 + 65536 * n, false)], opened := n }))) ∧
  (∀ (d : DoeReq) (n : Nat) (s : State), 
    spdmRuns 0xE5 d s = true ∧ d.session = some n →
    s.sec.sessions.contains (n, true) = false →
    exec (.finish d) s = .next (doeSend [0x13, 0x65, 0, 0] (s.modSec fun x => { x with sessions := updIf (·.1 == n) (fun _ => (n, true)) x.sessions }))) ∧
  (∀ (d : DoeReq) (n : Nat) (s : State), 
    spdmRuns 0xEC d s = true ∧ d.session = some n →
    s.sec.sessions.contains (n, true) = true →
    exec (.endSession d) s = .next (doeSend [0x13, 0x6C, 0, 0] (s.modSec fun x => { x with sessions := x.sessions.filter (·.1 ≠ n) })))

/-- What the key messages of Table 18-3, the observation fuse and IDE_KM leave -/
def Obligations.KeyMessagesComplete : Prop :=
  (∀ (d : DoeReq) (s : State), 
    vendorRuns d s = true ∧ vendorOp d = 1 →
    (vendorBody d).length = 36 ∧ le (vendorBody d) 0 2 ≤ 0xFFF ∧ le (vendorBody d) 2 2 ≠ 0 ∧ le (vendorBody d) 2 2 ≤ 0xFFF →
    s.key? (le (vendorBody d) 0 2) = none →
    exec (.loadTenantKey d) s = .next (vendorAnswer 0 (s.modSec fun x => { x with keys := x.keys ++
      [{ tenant := le (vendorBody d) 0 2, part := le (vendorBody d) 2 2, key := BitVec.ofNat 256 (le (vendorBody d) 4 32) }] }))) ∧
  (∀ (d : DoeReq) (s : State), 
    vendorRuns d s = true ∧ vendorOp d = 2 →
    (vendorBody d).length = 2 ∧ le (vendorBody d) 0 2 ≤ 0xFFF →
    (s.key? (le (vendorBody d) 0 2)).isNone = false →
    exec (.unloadTenantKey d) s = .next (vendorAnswer 0 (s.modSec fun x => { x with keys := x.keys.filter (·.tenant ≠ le (vendorBody d) 0 2) }))) ∧
  (∀ (d : DoeReq) (s : State), 
    vendorRuns d s = true ∧ vendorOp d = 3 →
    (vendorBody d).length = 4 ∧ le (vendorBody d) 0 4 = 0x46464F4C →
    s.sec.obsOff = false →
    exec (.fuseObservationOff d) s = .next (vendorAnswer 0 (lanternDark (s.modSec fun x => { x with obsOff := true })))) ∧
  (∀ (n : Option Nat) (k : IdeKey) (s : State), 
    s.doeUp = true ∧ s.established n = true →
    k.stream ≤ 8 ∧ k.keySet ≤ 1 ∧ k.substream ≤ 2 →
    exec (.keyProg n k) s = .next (ideAck 3 0 k (putIde
      { s.ideStream k.stream with keys := k :: (s.ideStream k.stream).keys.filter fun y => !IdeKey_same y k } s))) ∧
  (∀ (n : Option Nat) (k : IdeKey) (s : State), 
    s.doeUp = true ∧ s.established n = true →
    k.stream ≤ 8 ∧ k.keySet ≤ 1 ∧ k.substream ≤ 2 →
    ((s.ideStream k.stream).keys.any fun y => IdeKey_same y k) = true →
    let s1 := ideAck 6 0 k (putIde { s.ideStream k.stream with active := some k.keySet, insecure := false } s)
    exec (.kSetGo n k) s = .next (if k.stream = 0 ∧ (s.ideStream k.stream).insecure then postHeld s1 else s1)) ∧
  (∀ (n : Option Nat) (k : IdeKey) (s : State), 
    s.doeUp = true ∧ s.established n = true →
    k.stream ≤ 8 ∧ k.keySet ≤ 1 ∧ k.substream ≤ 2 →
    exec (.kSetStop n k) s = .next (ideAck 6 0 k (putIde { s.ideStream k.stream with
      active := if (s.ideStream k.stream).active = some k.keySet then none else (s.ideStream k.stream).active } s))) ∧
  (∀ (n : Nat) (s : State), 
    n ≤ 8 ∧ (s.ideStream n).active.isNone = false ∧ (s.ideStream n).insecure = false →
    exec (.ideStreamInsecure n) s = .next (reportAer 1 (putIde { s.ideStream n with insecure := true } s)))

/-- What the requests over SMBus answer -/
def Obligations.ManagementRequestsComplete : Prop :=
  (∀ (s : State), 
    exec .smbusTimeoutReset s = .next (s.modMgt fun m => { m with busy := false })) ∧
  (∀ (m : MiReq) (s : State), 
    m.addr = 0x6A ∧ s.smbusUp = true →
    exec (.basicManagementCommand m) s =
      .next (smbusSend ([6] ++ toLE 1 s.statusFlags ++ toLE 1 s.smartWarnings ++ toLE 1 s.tempByte ++ toLE 1 s.percentUsed ++ [0, 0]) s)) ∧
  (∀ (m : MiReq) (s : State), 
    m.addr = 0x53 ∧ s.smbusUp = true →
    exec (.vpdRead m) s = .next (smbusSend (vpdBytes (le m.payload 0 2) (le m.payload 2 2)) s)) ∧
  (∀ (m : MiReq) (s : State), 
    m.addr = 0x1D ∧ s.mctpUp = true ∧ m.opcode = 0 ∧ le m.payload 3 1 = 0 →
    exec (.readNvmeMiDataStructure m) s = .next (miAnswer 0 (padTo [1, 2, 0] 32) s)) ∧
  (∀ (m : MiReq) (s : State), 
    m.addr = 0x1D ∧ s.mctpUp = true ∧ m.opcode = 1 →
    exec (.nvmSubsystemHealthStatusPoll m) s = .next (miAnswer 0 ([0, 0, 0] ++ toLE 1 (s.statusFlags % 64) ++ toLE 1 s.smartWarnings ++
      toLE 1 s.tempByte ++ toLE 1 s.percentUsed ++ toLE 2 (b2n (s.fns.any (·.rdy)) + 2 * b2n s.life.cfs) ++ [0, 0]) s)) ∧
  (∀ (m : MiReq) (s : State), 
    m.addr = 0x1D ∧ s.mctpUp = true ∧ m.opcode = 2 →
    let fs := s.fns.filter fun f => f.enabled && f.id ≥ le m.payload 0 2
    exec (.controllerHealthStatusPoll m) s = .next (miAnswer 0 ([0, 0, 0] ++ toLE 1 fs.length ++ fs.flatMap (healthEntry s)) s)) ∧
  (∀ (m : MiReq) (s : State), 
    m.addr = 0x1D ∧ s.mctpUp = true ∧ m.opcode = 4 ∧ le m.payload 0 1 = 1 →
    exec (.configurationGet m) s = .next (miAnswer 0 [if s.mgt.freq = 400 then 2 else 1, 0, 0] s)) ∧
  (∀ (m : MiReq) (s : State), 
    m.addr = 0x1D ∧ s.mctpUp = true ∧ m.opcode = 3 ∧ le m.payload 0 1 = 1 →
    le m.payload 1 1 = 1 ∨ le m.payload 1 1 = 2 →
    exec (.configurationSet m) s = .next (miAnswer 0 [] (s.modMgt fun x => { x with freq := if le m.payload 1 1 = 1 then 100 else 400 }))) ∧
  (∀ (m : MiReq) (f : Func) (v : Nat) (d : List Byte) (s : State), 
    m.addr = 0x1D ∧ s.mctpUp = true ∧ m.opcode = 0x0A →
    s.fn? (le m.payload 0 2) = some f ∧ bits (le m.payload 8 4) 10 8 = 0 →
    s.feature f (bits (le m.payload 8 4) 7 0) (le m.payload 12 4) = some (v, d) →
    exec (.tunnelledAdminCommand m) s = .next (miAnswer 0 (toLE 4 v ++ toLE 4 0 ++ toLE 2 0 ++ toLE 2 0 ++ d) s))

/-- Where tile passes, quantised rows, selections, watch windows and recalibrations act, and what each leaves. -/
def Obligations.ComputingEventsComplete : Prop :=
  (∀ (t : TaskRef) (op rb lb : Nat) (misses : List Nat) (s s1 : State) (k : OpCtx) (r : Run) (x y z : Tensor) (g : Grant) (u : Tile), 
    let p : Product := { at_ := k, x, y, z }
    let s2 := claim t s1
    s.atOperator t op [0x01, 0x07, 0x14] = some (k, r, x, z, s1) →
    k.o.code = 1 ∧ s2.arr.grants.find? (·.task == t) = some g →
    k.tensor k.o.in1 = some y →
    rb < p.rowBlocks ∧ lb < p.laneBlocks ∧ (rb = 0 ∨ s2.blockDone p (rb - 1) = true) →
    ((s2.tile? k.t k.op rb lb).orElse fun _ => startTile s2 p rb lb (if Apw.chainIn p.w then k.tensor k.o.in2 else none)) = some u →
    u.written = false →
    exec (.tilePassEnd t op rb lb misses) s = .next (resumeWalks (tilePass p g u misses s2))) ∧
  (∀ (t : TaskRef) (op row : Nat) (misses : List Nat) (s s1 : State) (k : OpCtx) (r : Run) (x z : Tensor) (g : Grant), 
    s.atOperator t op [0x01, 0x07, 0x14] = some (k, r, x, z, s1) →
    k.o.code ≠ 1 ∧ (claim t s1).arr.grants.find? (·.task == t) = some g →
    row < x.rows ∧ r.rows.contains row = false →
    exec (.tilePassEnd t op row 0 misses) s = .next (resumeWalks (attendPass k g x z row misses (claim t s1)))) ∧
  (∀ (t : TaskRef) (op row : Nat) (s s1 : State) (k : OpCtx) (r : Run) (x z : Tensor), 
    s.atOperator t op [0x0B] = some (k, r, x, z, s1) →
    row < x.rows ∧ r.rows.contains row = false →
    exec (.quantiseRow t op row) s = .next (rowDone t row x.rows (quantise k r x z row s1))) ∧
  (∀ (t : TaskRef) (op row : Nat) (s s1 : State) (k : OpCtx) (r : Run) (x z : Tensor), 
    s.atOperator t op [0x08, 0x0C] = some (k, r, x, z, s1) →
    row < x.rows ∧ r.rows.contains row = false ∧ x.len ≤ 1048576 →
    exec (.selection t op row) s = .next (rowDone t row x.rows
      (if k.o.code = 0x08 then routeRow k r.cluster x z row s1 else sampleRow k r.cluster x z row s1))) ∧
  (∀ (t : TaskRef) (op row : Nat) (s s1 : State) (k : OpCtx) (r : Run) (x z : Tensor), 
    s.atOperator t op [0x08, 0x0C] = some (k, r, x, z, s1) →
    row < x.rows ∧ r.rows.contains row = false ∧ 1048576 < x.len →
    exec (.selection t op row) s = .next (rowDone t row x.rows
      (failTask t { St.rowTooLong with detail := sat 0xFFFFFFFF x.len } (ctrPart .selRowsTooLong k.c.dome 1 s1)))) ∧
  (∀ (slot : Nat) (s : State) (w : Watch), 
    s.qnt.slots.find? (·.slot == slot) = some w →
    Qw.window w.qword.toNat ≠ 0 ∧ s.tick.toNat % Qw.window w.qword.toNat = 0 ∧ w.evaluated ≠ some s.tick.toNat →
    let q := w.qword.toNat
    let clip := Qw.clip q * w.wElems < 65536 * w.wClip
    let nan := w.wNan > 0
    let s1 := ctrSet .quantClipAndNANFlagsLastWindow slot (b2n clip + 2 * b2n nan) s
    let s2 := if clip ∧ Qw.clip q ≠ 0 then raisePart w.dome 7 (slotDetail w) s1 else s1
    let s3 := if nan ∧ Qw.nanEvent q then raisePart w.dome 8 (slotDetail w) s2 else s2
    exec (.watchWindowEnd slot) s =
      .next (modSlot slot (fun w => { w with wElems := 0, wClip := 0, wNan := 0, evaluated := some s.tick.toNat }) (evalHistogram w clip s3))) ∧
  (∀ (a : Admin) (s : State), 
    adminRuns a.src false s = true →
    a.src.fn = 0 ∧ s.granted 10 = true ∧ s.granted 8 = true →
    a.cdw10 = 5 ∧ a.cdw12 = 0 ∧ a.cdw13 = 0 ∧ a.cdw14 = 0 ∧ a.cdw15 = 0 →
    a.cdw11.toNat ≠ 0 ∧ a.cdw11.toNat ≤ 0xFFF ∧ (s.dome? a.cdw11.toNat).isNone = false →
    let mine := s.qnt.slots.filter fun w =>
      s.under w.dome a.cdw11.toNat && Qw.livecal w.qword.toNat && w.pending.isNone && sumN w.hist > 0
    let s1 := mine.foldl (fun s w => derive w s) (begun a.src 0xC5 0xFFFF s)
    let set (s : State) : Nat := (s.qnt.slots.filter (·.pending.isSome)).length
    exec (.recalibrateScales a) s = .next (ok a.src (set s1 - set s) 0 s1))

/-- Where stream chunks, transfer chunks, page answers and paging act, and what each leaves -/
def Obligations.StreamAndTransferEventsComplete : Prop :=
  (∀ (t : TaskRef) (n : Nat) (bs : List Byte) (s : State) (c : Cmd) (h : Chain) (r : Run) (x : Stream), 
    s.flight? t = some (c, h, r) ∧ s.stream? n = some x →
    x.decl.producer = c.dome ∧ bs ≠ [] ∧ bs.length ≤ 4096 ∧ r.wait = .none →
    x.halted = false ∧ s.slotFree x = true →
    exec (.streamChunkWrite t n bs) s = .next (if x.buffer.length ≥ x.credits then
        streamPacket 0 x.decl.id c.dome r.cluster 0 0 (setWait t (.streamOut x.decl.id) s)
      else wake (.streamIn n) (modStream n (fun x => { x with buffer := x.buffer ++ [bs], moved := true, written := x.written + 1 }) (endWait t s)))) ∧
  (∀ (t : TaskRef) (n : Nat) (s : State) (c : Cmd) (h : Chain) (r : Run) (x : Stream), 
    s.flight? t = some (c, h, r) ∧ s.stream? n = some x →
    x.decl.consumer = c.dome ∧ r.wait = .none →
    x.halted = false →
    exec (.streamChunkRead t n) s = .next (match x.spilled, x.buffer with
      | _ :: rest, _ => endWait t (modStream x.decl.id (fun x => { x with spilled := rest, moved := true }) s)
      | [], _ :: rest => endWait t (wake (.streamOut x.decl.id) (modStream x.decl.id (fun x => { x with buffer := rest, moved := true }) s))
      | [], [] => streamPacket 1 x.decl.id c.dome r.cluster x.credits 0 (setWait t (.streamIn x.decl.id) s))) ∧
  (∀ (t : TaskRef) (d : List Byte) (ends : XferEnds) (tenths : Nat) (s : State) (c : Cmd) (h : Chain) (r : Run) (x : Transfer), 
    let a := XferEnd.source d ends x.next
    let z := XferEnd.dest d ends x.next
    let classes := (s.classOf a.space a.id false).toList ++ (s.classOf z.space z.id true).toList
    let flits := ceilDiv a.at_.length 64
    s.flight? t = some (c, h, r) ∧ s.channelFor t c d ends = some x →
    (x.desc = d ∧ x.ends = ends ∧ x.task = t ∧ (x.next = 0 → (Xd.bad c.scratch d).isNone = true)) →
    r.wait.moves = true ∧ s.endOk c a false = true ∧ s.endOk c z true = true ∧ (s.hb.quiesced && s.inT2 z.space z.id) = false →
    (s.outside c a).isNone = true ∧ (s.outside c z).isNone = true →
    (s.endUndeclared h a).isNone = true ∧ (s.endUndeclared h z).isNone = true →
    z.space ≠ 4 ∨ ((s.stream? z.id).bind fun y => chunkRoom t c r y s).isNone = true →
    (s.shareSpent r.cluster c.dome (s.window tenths) flits classes).isNone = true →
    let s1 := spendShare r.cluster c.dome (s.window tenths) flits classes s
    exec (.transferChunkDelivered t d ends .present tenths) s =
      .next (moveChunk x c r a z (if s.usesT2 d ends then wakePath c.dome r.cluster s1 else s1))) ∧
  (∀ (t : TaskRef) (s : State) (x : Transfer) (a : Nat), 
    s.channel? t = some x ∧ x.request = some a →
    exec (.pageRequestResponse t .success) s = .next (endWait t (setChannel { x with request := none }
      (modFn t.src.fn (fun f => { f with priOut := f.priOut - 1 }) s)))) ∧
  (∀ (t : TaskRef) (s u : State) (c : Cmd) (h : Chain), 
    s.cmd? t.src = some c ∧ s.chain? t = some h →
    h.run = none ∧ h.finished = false ∧ c.failed = none ∧ (s.missing h.task.pages).all (fun p => s.pagingIn p.1 p.2) = false →
    takePages h.task.pages (s.missing h.task.pages) s = .ok u →
    exec (.pagingStart t) s = .next u) ∧
  (∀ (object page : Nat) (s : State), 
    s.pagingIn object page = true →
    let n := stamp s
    exec (.pageInComplete object page .ok) s = .next (ctrPart .tierPagesPagedIn (((s.obj? object).map (·.dome)).getD 0) 1
      (startWaitingFills (modOne object (fun o => { o with resident := o.resident ++ [(page, n.1)] }) n.2)))) ∧
  (∀ (t : TaskRef) (addr : Nat) (s : State) (c : Cmd) (h : Chain) (r : Run) (x : Transfer), 
    (s.merge? t.src).isNone = true ∧ s.flight? t = some (c, h, r) →
    s.channel? t = some x ∧ x.halted = false →
    (s.t2Addresses (XferEnd.source x.desc x.ends x.next) ++ s.t2Addresses (XferEnd.dest x.desc x.ends x.next)).head? = some addr →
    exec (.completionTimeout t) s = .next (reportAer 0 (transferFault t x addr s)))

/-- RUN PLAN, EMBED, GENERATE and TUNE whose plans and objects pass the checks become outstanding; an arm is set and removed -/
def Obligations.PlanCommandsComplete : Prop :=
  (∀ (e : Entry) (s : State) (p : Plan), 
    milrisRuns shapeRunPlan e s = true →
    loadPlan .run (Fe.obj1 e) 0 (Fe.dome e) (begun e.src 0x85 (Fe.dome e) s) = .ok p →
    exec (.runPlan e) s = .next (beginFirstFill e.src (enrol
      { (cmdOf e 0x85 [Fe.obj1 e]) with plan := some p, objs := nubN ((cmdOf e 0x85 [Fe.obj1 e]).objs ++ p.objs),
                                         writes := nubN ((cmdOf e 0x85 [Fe.obj1 e]).writes ++ p.writes), args := e.input, scratch := memOf e.input,
                                         chains := [{ tasks := p.tasks }] } (begun e.src 0x85 (Fe.dome e) s)))) ∧
  (∀ (e : Entry) (s : State) (p : Plan), 
    milrisRuns shapeEmbed e s = true →
    Ef.arm e = false ∧ Ef.disarm e = false →
    checkEmbed e (begun e.src 0x89 (Fe.dome e) s) = .ok () →
    loadPlan .embed (Fe.obj1 e) 64 (Fe.dome e) (begun e.src 0x89 (Fe.dome e) s) = .ok p →
    exec (.embed e) s = .next (admitEmbed e p (begun e.src 0x89 (Fe.dome e) s))) ∧
  (∀ (e : Entry) (s : State) (p : Plan) (n : Nat), 
    milrisRuns shapeEmbed e s = true →
    Ef.arm e = true ∧ Ef.disarm e = false →
    e.inLen = 16 ∧ le e.input 6 2 = 0 ∧ Fe.obj2 e ≠ 0 ∧ (Ef.writeIndex e && s.readOnly) = false →
    checkEmbedHeader (Fe.obj1 e) (s.part (Fe.dome e)) (begun e.src 0x89 (Fe.dome e) s) = .ok () →
    checkEmbedIndex (Fe.obj2 e) (Fe.obj1 e) (s.part (Fe.dome e)) (begun e.src 0x89 (Fe.dome e) s) = .ok () →
    inputFail (le e.input 0 6) (s.part (Fe.dome e)) (begun e.src 0x89 (Fe.dome e) s) = none →
    loadPlan .embed (Fe.obj1 e) 64 (Fe.dome e) (begun e.src 0x89 (Fe.dome e) s) = .ok p →
    ((List.range 16).map (· + 1)).find? (fun n => !(s.armsOf (s.part (Fe.dome e))).any (·.number == n)) = some n →
    exec (.embedArm e) s = .next (ok e.src n 0 ((begun e.src 0x89 (Fe.dome e) s).modInf fun x => { x with arms := x.arms ++
      [{ part := s.part (Fe.dome e), number := n, dome := Fe.dome e, tenant := Fe.tenant e, fn := e.src.fn, source := le e.input 0 6, plan := Fe.obj1 e,
         index := Fe.obj2 e, cursor := le e.input 8 8 }] }))) ∧
  (∀ (e : Entry) (s : State), 
    milrisRuns shapeEmbed e s = true →
    Ef.disarm e = true ∧ Ef.arm e = false →
    (Ef.writeIndex e && s.readOnly) = false →
    (s.armsOf (s.part (Fe.dome e))).any (·.number == Ef.count e) = true →
    exec (.embedDisarm e) s = .next (ok e.src 0 0 ((begun e.src 0x89 (Fe.dome e) s).modInf fun x =>
      { x with arms := x.arms.filter fun a => !(a.part == s.part (Fe.dome e) && a.number == Ef.count e) }))) ∧
  (∀ (e : Entry) (s : State) (pre dec : Plan), 
    milrisRuns shapeGenerate e s = true →
    checkGenerate e (begun e.src 0x8C (Fe.dome e) s) = .ok () →
    loadPlan .prefill (s.model (Fe.obj1 e)).prefill 0 (Fe.dome e) (begun e.src 0x8C (Fe.dome e) s) = .ok pre →
    loadPlan .decode (s.model (Fe.obj1 e)).decode 0 (Fe.dome e) (begun e.src 0x8C (Fe.dome e) s) = .ok dec →
    exec (.generate e) s = .next (admitGenerate e pre dec (begun e.src 0x8C (Fe.dome e) s))) ∧
  (∀ (e : Entry) (s s1 : State) (p : Plan), 
    milrisRuns shapeTune e s = true →
    checkTune e (begun e.src 0x8D (Fe.dome e) s) = .ok () →
    loadPlan .tune (s.model (Fe.obj1 e)).prefill 0 (Fe.dome e) (begun e.src 0x8D (Fe.dome e) s) = .ok p →
    take (.tuneState e.src) 1 (Fe.dome e) (tuneBytes e s) (begun e.src 0x8D (Fe.dome e) s) = .ok s1 →
    exec (.tune e) s = .next (admitTune e p (begun e.src 0x8D (Fe.dome e) s) s1))

/-- Where sequences are admitted, decode, pause, resume and fail, where ingests and tunes commit, and the random source -/
def Obligations.InferenceEventsComplete : Prop :=
  (∀ (dome : Nat) (s : State) (q : Seq), 
    s.admittedIn dome < 4096 →
    s.inf.seqs.find? (fun q => !q.admitted && q.dome == dome) = some q →
    exec (.sequenceAdmission dome) s = .next (admitSeq q.src s)) ∧
  (∀ (dome model : Nat) (s : State) (q : Seq) (rest : List Seq), 
    let ids := lastTokens (s.joiners dome model) s
    let c := stepCmd dome model q (s.joiners dome model) ids.1 (((s.cmd? q.src).map (·.tenant)).getD 0)
    s.hb.quiesced = false ∧ s.life.phase = .up ∧ (s.cmd? (stepSrc dome model)).isSome = false →
    s.joiners dome model = q :: rest →
    exec (.decodeStep dome model) s =
      .next (beginFirstFill c.src (feedPass c.src (passIds q.decode.capacity 0 ids.1) (enrol c ids.2)))) ∧
  (∀ (pool : Nat) (s : State) (q : Seq) (bs : List Nat), 
    leastSeq (fun q => (s.lacking q).isSome) (s.pausedIn pool) = some q →
    s.seq? q.src = some q ∧ q.blocks.length < q.needs →
    s.lacking q = some bs →
    exec (.kvBlockFreed pool) s = .next (modCmd q.src (fun c => { c with waiting := false })
      (modSeq q.src (fun q => { q with blocks := q.blocks ++ bs, paused := false })
        (bs.zipIdx.foldl (fun s b => startBlock (s.shapeOf q) q.pool b.1 (256 * (q.blocks.length + b.2)) s) s)))) ∧
  (∀ (pool : Nat) (s : State) (q : Seq), 
    s.poolSeqs pool ≠ [] →
    (∀ x ∈ s.poolSeqs pool, x.paused = true ∧ x.pausedAt + 2 ≤ s.tick.toNat) →
    latestSeq (s.poolSeqs pool) = some q →
    exec (.kvPoolFailure pool) s = .next (failWhole q.src (St.quotaExceeded 1 q.dome) (ctrPart .genKvPoolFailures q.dome 1 s))) ∧
  (∀ (part arm : Nat) (s : State) (a : Arm) (p : Plan), 
    let rs := ingestRecords s a.source a.limit (a.limit - a.cursor) a.cursor
    s.inf.arms.find? (fun a => a.part == part && a.number == arm) = some a →
    a.due = true ∧ s.readOnly = false ∧ rs.1 ≠ [] ∧ s.hb.quiesced = false ∧ s.life.phase = .up ∧ (s.cmd? (armSrc a)).isSome = false →
    checkIngest a rs.1 s = .ok () →
    loadPlan .embed a.plan 64 a.dome s = .ok p →
    exec (.ingestTrigger part arm) s = .next (admitIngest a p rs.1 rs.2 s)) ∧
  (∀ (src : Src) (s : State) (r : TuneRun), 
    s.sch.step = 5 ∧ s.tuneDue src = true →
    s.tune? src = some r →
    (s.readOnly && (s.obj? r.adapter).any (·.flag 5)) = false →
    let a := s.adapter r.adapter
    exec (.tuneCommit src) s = .next (tuneStep (settle src
      (modCmd src (fun c => { c with chains := updAt 1 (fun h => { h with finished := true }) c.chains })
        ((commitWrites a r).foldl (fun s w => writeObj r.adapter w.1 w.2 s) (keepVersion r.adapter a s)))))) ∧
  (∀ (s : State), 
    s.inf.rngOk = true →
    exec .randomSourceHealthFailure s = .next
      (ctrAdd .genRandomSourceHealthFailures 0 1 (raise 0x013 0 (reportCor 5 0 0x0D (s.modInf fun x => { x with rngOk := false }))))) ∧
  (∀ (s : State), 
    exec .randomSourceReseed s = .next (s.modInf fun x => { x with rngOk := true }))

/-- SEARCH, INSERT, DELETE, COMPACT and FILTER SCAN that pass their checks become outstanding -/
def Obligations.SearchAndScanCommandsComplete : Prop :=
  (∀ (e : Entry) (s : State), 
    milrisRuns shapeSearch e s = true →
    searchBad e = false →
    indexFail (Fe.obj1 e) (s.part (Fe.dome e)) false (begun e.src 0x8A (Fe.dome e) s) = none →
    checkSearchInput (s.ix (Fe.obj1 e)) e = .ok () →
    exec (.search e) s = .next (admitSearch e (begun e.src 0x8A (Fe.dome e) s))) ∧
  (∀ (e : Entry) (s : State), 
    milrisRuns shapeInsert e s = true →
    s.readOnly = false →
    indexFail (Fe.obj1 e) (s.part (Fe.dome e)) true (begun e.src 0x91 (Fe.dome e) s) = none →
    0 < bits e.dw14.toNat 15 0 ∧ e.inLen.toNat = bits e.dw14.toNat 15 0 * nodeBytes (s.ix (Fe.obj1 e)) →
    (∀ i < bits e.dw14.toNat 15 0, let b := slice e.input (i * nodeBytes (s.ix (Fe.obj1 e))) (nodeBytes (s.ix (Fe.obj1 e))); le b 5 3 = 0 ∧ le b 10 6 = 0) →
    Ix.nodes (s.ix (Fe.obj1 e)) + bits e.dw14.toNat 15 0 ≤ Ix.capacity (s.ix (Fe.obj1 e)) →
    let m := s.ix (Fe.obj1 e)
    exec (.insert e) s = .next (admitJob e 0x91
      (.insert ((List.range (bits e.dw14.toNat 15 0)).map fun i => nodeOf m (slice e.input (i * nodeBytes m) (nodeBytes m)))) (begun e.src 0x91 (Fe.dome e) s))) ∧
  (∀ (e : Entry) (s : State), 
    milrisRuns shapeDelete e s = true →
    s.readOnly = false →
    indexFail (Fe.obj1 e) (s.part (Fe.dome e)) true (begun e.src 0x92 (Fe.dome e) s) = none →
    0 < bits e.dw14.toNat 15 0 ∧ e.inLen.toNat = 8 * bits e.dw14.toNat 15 0 →
    (∀ i < bits e.dw14.toNat 15 0, le e.input (8 * i + 5) 3 = 0) →
    exec (.delete e) s = .next (admitJob e 0x92 (.delete ((List.range (bits e.dw14.toNat 15 0)).map fun i => le e.input (8 * i) 5)) (begun e.src 0x92 (Fe.dome e) s))) ∧
  (∀ (e : Entry) (s : State), 
    milrisRuns shapeCompact e s = true →
    s.readOnly = false →
    indexFail (Fe.obj1 e) (s.part (Fe.dome e)) true (begun e.src 0x93 (Fe.dome e) s) = none →
    exec (.compact e) s = .next (admitJob e 0x93
      (.compact (if e.dw14.toNat = 0 then Ix.capacity (s.ix (Fe.obj1 e)) else e.dw14.toNat)) (begun e.src 0x93 (Fe.dome e) s))) ∧
  (∀ (e : Entry) (s : State), 
    milrisRuns shapeScan e s = true →
    bits e.dw13.toNat 17 16 ≠ 3 →
    inputFail (Fe.obj1 e) (s.part (Fe.dome e)) (begun e.src 0x88 (Fe.dome e) s) = none →
    (s.obj? (Fe.obj1 e)).any (·.flag 5) = true →
    recordSetBad (((s.durable? (Fe.obj1 e)).map (·.data)).getD []) (((s.obj? (Fe.obj1 e)).map (·.size)).getD 0) = false →
    checkScan (bits e.dw13.toNat 17 16) (((s.durable? (Fe.obj1 e)).map (·.data)).getD []) e.inLen.toNat e.input = .ok () →
    exec (.filterScan e) s = .next (admitScan e (((s.durable? (Fe.obj1 e)).map (·.data)).getD []) (begun e.src 0x88 (Fe.dome e) s)))

/-- Where a record arrives at a walk, a batch of an index job commits, a scan takes an engine and an engine reads a page -/
def Obligations.SearchAndScanEventsComplete : Prop :=
  (∀ (src : Src) (walk slot block us : Nat) (r : ReadEnd) (misses : List Nat) (s : State) (q : SearchRun) (c : Cmd) (h : Chain) (rn : Run) (w : Walk) (e : QEntry), 
    s.search? src = some q ∧ s.flight? { src, chain := walk } = some (c, h, rn) →
    s.walk? src walk = some w ∧ (w.queue ++ w.pushed).find? (fun e => e.slot == slot && e.inFlight) = some e →
    s.ranFor rn us < 360 →
    let failed := !e.hit && readFailed r
    let free := !slotUsed (s.ix q.index) slot
    let x := s.expansion q w e
    let land (s : State) : State := modWalk src walk (Walk.landed slot failed free)
      (if e.hit then s else recordRead q.index slot block c.dome (!q.program.isEmpty) r s)
    exec (.walkRecordArrival src walk slot block us r misses) s = .next (endBuild { src, chain := walk } (
      if failed then goOn q walk c.dome (land s)
      else if free then goOn q walk c.dome (ctrPart .searchFreeSlotsMet c.dome 1 (land s))
      else walkTiles { src, chain := walk } rn.cluster c.dome x.runs misses
        (fun s => goOn q walk c.dome (expand q walk rn.cluster c.dome x (land s))) s))) ∧
  (∀ (src : Src) (s : State) (j : IndexJob) (c : Cmd), 
    s.idx.jobs.find? (·.src == src) = some j ∧ s.cmd? src = some c →
    s.jobTurn j = true ∧ c.inFlight = true ∧ c.failed = none ∧ s.batchReady j = true ∧ s.readOnly = false →
    let r := applyBatch j s
    let s1 := ctrPart .searchIndexCommits (((s.obj? j.index).map (·.dome)).getD 0) 1
      (syncStore j.index (bumpIx j.index 84 1 (modJob src (fun _ => r.1) r.2)))
    exec (.indexCommit src) s = .next (if r.1.over then endJob r.1 s1 else match s1.cmd? src with
      | some c => kickWalk c.flying s1
      | none => s1)) ∧
  (∀ (group : Nat) (s : State) (x : Scan), 
    s.engineWaits group = some x ∧ s.engineFree group x = true →
    exec (.scanEngineSlotFree group) s = .next (modScan x.src (fun x => { x with parts := updIf (·.group == group) (fun p => { p with loaded := true }) x.parts }) s)) ∧
  (∀ (src : Src) (group page block : Nat) (r : ReadEnd) (s : State) (x : Scan) (c : Cmd) (h : Chain) (rn : Run) (p : EnginePart), 
    s.scan? src = some x ∧ s.flight? { src, chain := group } = some (c, h, rn) →
    x.parts.find? (fun p => p.group == group && p.loaded) = some p →
    x.stopped = false ∧ x.pages.contains page = false ∧ x.range.contains page = true ∧ c.failed = none →
    readFailed r = false →
    let s1 := ctrPart .scanScanPagesRead c.dome 1 (countClass (dieOf block) 2 16384 (readBlock block r (readEnd r (countRead block 1 s))))
    let s2 := countEngine group (x.records page).length (modScan src (fun x => { x with pages := x.pages ++ [page] }) s1)
    let read (i : Nat) : List Byte := memRead (((s.durable? x.object).map (·.data)).getD []) (x.recOff + i * x.recBytes) x.recBytes
    let hits := (x.records page).filter fun i => matchesProgram x.program (slice (read i) x.attrOff 64)
    let out := rowsOf x hits s2
    let p1 := { p with scanned := p.scanned + (x.records page).length, matched := p.matched + hits.length }
    let p2 := if x.mode = 2 then hits.foldl (fun p i => aggregateRecord x (read i) p) p1 else p1
    let rows := x.rows + out.1.length
    let s3 := modScan src (fun x => { x with rows, stopped := x.mode != 2 && x.limit != 0 && rows ≥ x.limit }) out.2
    let s4 := modCmd src (fun c => { c with out := c.out ++ out.1.flatMap fun i => x.row i (read i) }) (modPart src group (fun _ => p2) s3)
    exec (.filterEnginePage src group page block r) s = .next
      (ctrPart .scanRecordsScanned c.dome (x.records page).length (ctrPart .scanRecordsMatched c.dome hits.length
        (ctrPart .scanGroupKeysOutOfRange c.dome (p2.outKeys - p.outKeys) s4)))) ∧
  (∀ (src : Src) (group page block : Nat) (r : ReadEnd) (s : State) (x : Scan) (c : Cmd) (h : Chain) (rn : Run) (p : EnginePart), 
    s.scan? src = some x ∧ s.flight? { src, chain := group } = some (c, h, rn) →
    x.parts.find? (fun p => p.group == group && p.loaded) = some p →
    x.stopped = false ∧ x.pages.contains page = false ∧ x.range.contains page = true ∧ c.failed = none →
    readFailed r = true →
    let s1 := ctrPart .scanScanPagesRead c.dome 1 (countClass (dieOf block) 2 16384 (readBlock block r (readEnd r (countRead block 1 s))))
    let s2 := countEngine group 0 (modScan src (fun x => { x with pages := x.pages ++ [page] }) s1)
    exec (.filterEnginePage src group page block r) s = .next
      (ctrPart .scanScanPagesSkipped c.dome 1 (modPart src group (fun p => { p with skipped := p.skipped + 1 }) s2)))

/-- A MERGE in order becomes outstanding; a later member of its chain arms its inbox and writes its ready notice -/
def Obligations.MergeCommandsComplete : Prop :=
  (∀ (e : Entry) (s : State), 
    milrisRuns (shapeMerge 0) e s = true →
    Mf.kind e = 0 ∧ mergeBad 0 e = false ∧ Mf.pos e < Mf.len e ∧ chainBadField e = false ∧ s.chainBusy e = false →
    inputFail (Fe.obj1 e) (s.part (Fe.dome e)) (begun e.src 0x90 (Fe.dome e) s) = none ∧ (s.obj? (Fe.obj1 e)).any (·.size < Mf.payload e) = false →
    partialBad 0 (Mf.k e) (Mf.payload e) (s.objBytes (Fe.obj1 e) 0 (Mf.payload e)) = none →
    Mf.pos e = 0 →
    exec (.mergeTopK e) s = .next (startMerge e (mergeOf 0 e (s.objBytes (Fe.obj1 e) 0 (Mf.payload e))) (begun e.src 0x90 (Fe.dome e) s))) ∧
  (∀ (e : Entry) (s t : State) (kind : Nat), 
    kind < 3 ∧ milrisRuns (shapeMerge kind) e s = true →
    Mf.kind e = kind ∧ mergeBad kind e = false ∧ Mf.pos e < Mf.len e ∧ chainBadField e = false ∧ s.chainBusy e = false →
    inputFail (Fe.obj1 e) (s.part (Fe.dome e)) (begun e.src 0x90 (Fe.dome e) s) = none ∧ (s.obj? (Fe.obj1 e)).any (·.size < Mf.payload e) = false →
    partialBad kind (Mf.k e) (Mf.payload e) (s.objBytes (Fe.obj1 e) 0 (Mf.payload e)) = none →
    Mf.pos e ≠ 0 →
    fit (s.part (Fe.dome e)) 1 (ceilDiv (Mf.payload e) 4096 * 4096) (begun e.src 0x90 (Fe.dome e) s) = .ok t →
    let m := mergeOf kind e (s.objBytes (Fe.obj1 e) 0 (Mf.payload e))
    let s1 := armInbox m (s.part (Fe.dome e)) (startMerge e m t)
    let u := match s.peerFault e.src.fn with
      | none => sendPeer (m.predBase + 64 * m.predSlot) (readyNotice m.id m.ownInbox (Mf.payload e)) s1
      | some x => mergeFails m x s1
    exec (if kind = 0 then .mergeTopK e else if kind = 1 then .mergeAggregates e else .mergeReductionSum e) s = .next u) ∧
  (∀ (e : Entry) (s : State), 
    milrisRuns (shapeMerge 1) e s = true →
    Mf.kind e = 1 ∧ mergeBad 1 e = false ∧ Mf.pos e < Mf.len e ∧ chainBadField e = false ∧ s.chainBusy e = false →
    inputFail (Fe.obj1 e) (s.part (Fe.dome e)) (begun e.src 0x90 (Fe.dome e) s) = none ∧ (s.obj? (Fe.obj1 e)).any (·.size < Mf.payload e) = false →
    aggSize (s.objBytes (Fe.obj1 e) 0 (Mf.payload e)) = Mf.payload e ∧ aggReserved (s.objBytes (Fe.obj1 e) 0 (Mf.payload e)) = false →
    Mf.pos e = 0 →
    exec (.mergeAggregates e) s = .next (startMerge e (mergeOf 1 e (s.objBytes (Fe.obj1 e) 0 (Mf.payload e))) (begun e.src 0x90 (Fe.dome e) s))) ∧
  (∀ (e : Entry) (s : State), 
    milrisRuns (shapeMerge 2) e s = true →
    Mf.kind e = 2 ∧ mergeBad 2 e = false ∧ Mf.pos e < Mf.len e ∧ chainBadField e = false ∧ s.chainBusy e = false →
    inputFail (Fe.obj1 e) (s.part (Fe.dome e)) (begun e.src 0x90 (Fe.dome e) s) = none ∧ (s.obj? (Fe.obj1 e)).any (·.size < Mf.payload e) = false →
    (let own := s.objBytes (Fe.obj1 e) 0 (Mf.payload e); 16 + 4 * le own 2 2 * le own 4 4 = Mf.payload e ∧ recordBad (le own 2 2) (le own 4 4) own = false) →
    Mf.pos e = 0 →
    exec (.mergeReductionSum e) s = .next (startMerge e (mergeOf 2 e (s.objBytes (Fe.obj1 e) 0 (Mf.payload e))) (begun e.src 0x90 (Fe.dome e) s)))

/-- Where a chain of MERGEs sends, receives and ends, and where a peer write is taken -/
def Obligations.MergeEventsComplete : Prop :=
  (∀ (src : Src) (s : State) (m : Merge), 
    s.merge? src = some m ∧ m.merged = true ∧ m.sent = false ∧ m.position + 1 ≠ m.length →
    s.noticed m.ownSlot m.id = true ∧ s.hb.quiesced = false ∧ (s.cmd? src).any (·.failed.isSome) = false →
    s.peerFault src.fn = none →
    let base := m.succBase + m.succInbox * 0x1000000
    exec (.mergeReadyNoticeFound src) s = .next (ctrAdd .searchPeerPayloadsSent 0 1 (modMerge src (fun m => { m with sent := true })
      (sendPeer base (inboxHeader m.id m.position m.kind m.local_.length (crc32c m.local_).toNat m.queries) (sendPeer (base + 0x1000) m.local_ s))))) ∧
  (∀ (src : Src) (s s1 : State) (m : Merge) (c : Cmd) (b : List Byte) (dups : Nat), 
    s.merge? src = some m ∧ s.cmd? src = some c ∧ c.failed = none ∧ m.position ≠ 0 ∧ m.merged = false →
    (let at_ (o n : Nat) : Nat := memLE s.mrg.window (m.ownInbox * 0x1000000 + o) n; at_ 60 4 = 1 ∧ at_ 0 2 = m.id ∧ at_ 4 4 = m.payload ∧ at_ 3 1 = m.kind ∧ at_ 12 4 = m.queries ∧ at_ 8 4 = (crc32c (memRead s.mrg.window (m.ownInbox * 0x1000000 + 0x1000) m.payload)).toNat) →
    mergedPayload m c.dome (memRead s.mrg.window (m.ownInbox * 0x1000000 + 0x1000) m.payload) s = .ok (b, dups, s1) →
    let n : Merge := { m with local_ := b, merged := true, removed := dups }
    let s2 := ctrAdd .searchPeerPayloadsReceived 0 1 (disarm m.ownInbox (modMerge src (fun _ => n) s1))
    exec (.mergePayloadReceived src) s = .next (if m.position + 1 = m.length then
      endMerge n (lastOutput n b) (ctrPart .arrayOutputSaturations c.dome (lastSaturations n b) s2) else s2)) ∧
  (∀ (src : Src) (s : State) (m : Merge) (c : Cmd), 
    s.merge? src = some m ∧ s.cmd? src = some c ∧ c.failed = none ∧ m.position ≠ 0 ∧ m.merged = false →
    (let at_ (o n : Nat) : Nat := memLE s.mrg.window (m.ownInbox * 0x1000000 + o) n; at_ 60 4 = 1 ∧ at_ 0 2 = m.id ∧ (at_ 4 4 ≠ m.payload ∨ at_ 3 1 ≠ m.kind ∨ at_ 12 4 ≠ m.queries ∨ at_ 8 4 ≠ (crc32c (memRead s.mrg.window (m.ownInbox * 0x1000000 + 0x1000) m.payload)).toNat)) →
    exec (.mergePayloadReceived src) s = .next (peerFailed m.id (failWhole m.src { St.peerUnreachable with detail := 0xA21 } s))) ∧
  (∀ (src : Src) (s : State) (m : Merge), 
    s.merge? src = some m ∧ m.sent = true ∧ (s.cmd? src).any (·.failed.isSome) = false →
    exec (.mergeReadbackComplete src .ok) s = .next (endMerge m [] (s.modMrg fun x => { x with window := memClear x.window (64 * m.ownSlot) 64 }))) ∧
  (∀ (w : PeerWrite) (s : State), 
    s.windowOpen = true ∧ w.bytes ≠ [] ∧ w.offset + w.bytes.length ≤ 0x1000 →
    exec (.peerWindowWrite w) s = .next (s.modMrg fun m => { m with window := memPut m.window w.offset w.bytes })) ∧
  (∀ (w : PeerWrite) (s : State) (id size : Nat), 
    s.windowOpen = true ∧ w.bytes ≠ [] ∧ w.offset + w.bytes.length ≤ 0x40000000 ∧ 0x1000000 ≤ w.offset →
    s.mrg.armed.find? (·.1 == w.offset / 0x1000000) = some (w.offset / 0x1000000, id, size) →
    0x1000 ≤ w.offset % 0x1000000 ∧ w.offset % 0x1000000 + w.bytes.length ≤ 0x1000 + size ∧ w.offset % 0x1000000 + w.bytes.length ≤ 0x1000000 →
    exec (.peerWindowWrite w) s = .next (s.modMrg fun m => { m with window := memPut m.window w.offset w.bytes })) ∧
  (∀ (w : PeerWrite) (s : State), 
    s.windowOpen = true ∧ w.bytes ≠ [] ∧ w.offset + w.bytes.length ≤ 0x40000000 ∧ 0x1000 < w.offset + w.bytes.length →
    s.mrg.armed.find? (·.1 == w.offset / 0x1000000) = none →
    exec (.peerWindowWrite w) s = .next
      (ctrAdd .searchPeerWritesDiscarded 0 1 (raise 0x012 (BitVec.ofNat 32 (w.offset / 0x1000000)) s)))

/-- Every command goes on, and none undoes what the spec says is for ever: `Onward` says each clause (12 R374; 18 R487, R488, R505). That a command whose condition does not hold goes on without effect is the model's choice (log 1). -/
def Obligations.NothingIsUndone : Prop :=
  ∀ (c : Instr) (s : State), 
    ∃ t, exec c s = .next t ∧ Onward s t

/-- Every step keeps the queue well formed, the floor within its fuses and flash without spares read-only -/
def Obligations.StepKeepsInvariant : Prop :=
  ∀ (s : State), 
    StateInv s →
    ∃ t, step s = .next t ∧ StateInv t

/-- The state after reset has the invariant, and the values that the spec gives for reset -/
def Obligations.ResetHasInvariant : Prop :=
  
    StateInv State.reset ∧ State.reset.pending = [] ∧ State.reset.hb.epoch = 0 ∧ State.reset.evt.pend = [] ∧ State.reset.evt.unmasked = [] ∧
    State.reset.applied = 0 ∧ State.reset.sch.cmds = []

/-- Every code of every narrow format decodes to a level; a zero level is written as SKIP or as 0, never with a sign -/
def Obligations.CodesDecodeToLevels : Prop :=
  (
    (∀ c < 16, level 5 c = (BitVec.ofNat 4 c).toInt ∧ isSkip 5 c = false) ∧
    (∀ c < 256, level 6 c = (BitVec.ofNat 8 c).toInt ∧ isSkip 6 c = false)) ∧
  (
    ∀ f ∈ [2, 3, 4, 5, 6], ∀ c < 2 ^ codeBits f, ∀ z : Bool, codeOf f z (level f c) < 2 ^ codeBits f ∧ level f (codeOf f z (level f c)) = level f c) ∧
  (∀ (f x s : Nat), 
    f ∈ [2, 3, 4] →
    (quantElem f x s).level = 0 →
    f32.nan x = false →
    (quantRow f true [x] fun _ => s).2 = packRow f [2 ^ (codeBits f - 1)] ∧ (quantRow f false [x] fun _ => s).2 = packRow f [0])

/-- Code j of a packed row stands at bits b × j of its run of 32 -/
def Obligations.PackedCodesReadBack : Prop :=
  (
    runBytes 2 = 16 ∧ runBytes 5 = 16 ∧ runBytes 3 = 12 ∧ runBytes 4 = 8 ∧ runBytes 6 = 32) ∧
  (∀ (f : Nat) (cs : List Nat), 
    f ∈ [2, 3, 4, 5, 6] →
    (∀ c ∈ cs, c < 2 ^ codeBits f) →
    (packRow f cs).length = (cs.length + 31) / 32 * runBytes f ∧
    ∀ (j : Nat) (h : j < cs.length),
      ofLE (((packRow f cs).drop (j / 32 * runBytes f)).take (runBytes f)) / 2 ^ (codeBits f * (j % 32)) % 2 ^ codeBits f = cs[j])

/-- The quantiser takes the grid level nearest to t, the smaller magnitude at a midpoint, and clips only beyond the bound. `int32 t` is t in units of 2^-149, and the bounds of Table 6-2 stand here doubled: 30 for |t| > 15, 12 for 6, and 15, 17, 255 and 257 for 7.5, 8.5, 127.5 and 128.5. -/
def Obligations.QuantiserTakesTheNearestLevel : Prop :=
  ∀ (f x s : Nat), 
    f ∈ [2, 3, 4, 5, 6] →
    f32.fin x = true →
    (scaleUse s).1 ≠ 0 →
    let t : Int := int32 (quantT x s)
    let one : Int := 2 ^ 149
    let hi : Int := if f = 4 then 12 else if f = 5 then 15 else if f = 6 then 255 else 30
    let lo : Int := if f = 4 then 12 else if f = 5 then 17 else if f = 6 then 257 else 30
    let r := quantElem f x s
    (2 * t > hi * one → r.level = topPos f ∧ r.clip = true) ∧
    (2 * t < -(lo * one) → r.level = -(topNeg f : Int) ∧ r.clip = true) ∧
    (-(lo * one) ≤ 2 * t → 2 * t ≤ hi * one → r.clip = false ∧ (∃ c < 2 ^ codeBits f, level f c = r.level) ∧
      ∀ c < 2 ^ codeBits f, (t - r.level * one).natAbs < (t - level f c * one).natAbs ∨
        ((t - r.level * one).natAbs = (t - level f c * one).natAbs ∧ r.level.natAbs ≤ (level f c).natAbs))

/-- A row-dynamic scale is +0 or a normal number, and under it the row's maximum does not go beyond the top level unless it is 65,504 -/
def Obligations.RowScaleFitsTheRow : Prop :=
  ∀ (f : Nat) (xs : List Nat), 
    f ∈ [2, 3, 4, 5, 6] →
    (dynScale f xs = 0 ↔ ∀ x ∈ xs, f32.fin x = true → f32.mag x = 0) ∧
    (dynScale f xs ≠ 0 → 0x0400 ≤ dynScale f xs ∧ dynScale f xs ≤ 0x7BFF ∧
      (int32 (quantT (rowMax xs) (dynScale f xs)) ≤ (if f = 4 then 6 else if f = 5 then 7 else if f = 6 then 127 else 15) * 2 ^ 149 ∨
        dynScale f xs = 0x7BFF))

/-- The rank keys are those of R271; entries stand by rank key, then by tie key; the keys order the values as numbers. `int32` gives a value in units of 2^-149, an infinity beyond every number. -/
def Obligations.RankKeysOrderTheValues : Prop :=
  (∀ (f : DWord), 
    rankKey true f.toNat = (if f32.nan f.toNat then 0xFFFFFFFF else if f = 0x80000000#32 then 0x80000000
      else if f.msb then (~~~f).toNat else (f ||| 0x80000000#32).toNat) ∧
    rankKey false f.toNat = (if f32.nan f.toNat then 0 else (~~~ BitVec.ofNat 32 (rankKey true f.toNat)).toNat)) ∧
  (∀ (a b : Nat × Nat × Nat), 
    before a b = true ↔ b.1 < a.1 ∨ (a.1 = b.1 ∧ a.2.1 ≤ b.2.1)) ∧
  (∀ (x y : DWord), 
    f32.nan x.toNat = false →
    f32.nan y.toNat = false →
    (rankKey true x.toNat < rankKey true y.toNat ↔ int32 x.toNat < int32 y.toNat) ∧
    (rankKey false x.toNat < rankKey false y.toNat ↔ int32 y.toNat < int32 x.toNat) ∧
    rankKey true x.toNat < 0xFFFFFFFF ∧ 0 < rankKey false x.toNat)

/-- A selection of up to 64 places, and any exact one, returns the best k entries in rank order -/
def Obligations.SelectionHoldsTheBestK : Prop :=
  ∀ (apx : Bool) (k : Nat) (l : List (Nat × Nat × Nat)), 
    1 ≤ k →
    k ≤ 64 ∨ apx = false →
    ∃ rest, List.Perm ((select apx k l).entries ++ rest) l ∧
    List.Pairwise (fun a b => before a b = true) ((select apx k l).entries ++ rest) ∧
    (select apx k l).entries.length = min k l.length ∧ (select apx k l).population = 0 ∧ (select apx k l).approx = false ∧
    ((select apx k l).tie = true ↔ ∃ a ∈ (select apx k l).entries, ∃ b ∈ rest, a.1 = b.1) ∧
    (k ≤ 64 → (select apx k l).passes = 1)

/-- A term of type F compares numbers exactly; a field that is a NaN fails EQ and RANGE; a constant that is a NaN fails the check. `int32` gives a value in units of 2^-149: 0 for either zero, and an infinity beyond every number. -/
def Obligations.TypeFComparesExactly : Prop :=
  (∀ (p w : List Byte) (i : Nat), 
    (Prg.term p i).ty = 2 →
    f32.nan (le w (Prg.term p i).off (Prg.term p i).width) = true →
    ((Prg.term p i).op = 0 ∨ (Prg.term p i).op = 2 → evalTerm p w i = false) ∧
    ((Prg.term p i).op = 1 ∨ (Prg.term p i).op = 3 → evalTerm p w i = true)) ∧
  (∀ (p w : List Byte) (i : Nat), 
    (Prg.term p i).ty = 2 →
    f32.nan (le w (Prg.term p i).off (Prg.term p i).width) = false →
    let v : Int := int32 (le w (Prg.term p i).off (Prg.term p i).width)
    let a : Int := int32 (Prg.term p i).a
    let b : Int := int32 (Prg.term p i).b
    ((Prg.term p i).op = 0 → (evalTerm p w i = true ↔ v = a)) ∧ ((Prg.term p i).op = 1 → (evalTerm p w i = true ↔ v ≠ a)) ∧
    ((Prg.term p i).op = 2 → (evalTerm p w i = true ↔ a ≤ v ∧ v ≤ b)) ∧ ((Prg.term p i).op = 3 → (evalTerm p w i = true ↔ ¬ (a ≤ v ∧ v ≤ b)))) ∧
  (
    int32 0x80000000 = int32 0 ∧ ∀ x : Nat, f32.fin x = true → int32 x < int32 0x7F800000 ∧ int32 0xFF800000 < int32 x) ∧
  (∀ (p : List Byte) (i length : Nat), 
    i < Prg.terms p →
    (Prg.term p i).ty = 2 →
    (Prg.term p i).op ≤ 3 →
    f32.nan (Prg.term p i).a = true ∨ f32.nan (Prg.term p i).b = true →
    ∃ f, checkProgram p length = .error f)

/-- An allocation that is not blocked is charged to the dome and every ancestor, and leaves each within its quota -/
def Obligations.QuotasHoldOnThePath : Prop :=
  (∀ (owner : Owner) (tier d bytes : Nat) (s : State), 
    s.blocked d tier bytes = none →
    (∀ a ∈ s.path d, (charge owner tier d bytes s).used a tier = s.used a tier + bytes ∧
      ∀ q, s.quota a tier = some q → (charge owner tier d bytes s).used a tier ≤ q) ∧
    (∀ a, a ∉ s.path d → (charge owner tier d bytes s).used a tier = s.used a tier) ∧
    ∀ a n, n ≠ tier → (charge owner tier d bytes s).used a n = s.used a n) ∧
  (∀ (tier d bytes a : Nat) (s : State), 
    s.blocked d tier bytes = some a →
    (a ∈ s.path d ∧ ∃ q, s.quota a tier = some q ∧ q < s.used a tier + bytes) ∨
    (tier = 1 ∧ a = s.part d ∧ s.obj.t1Alloc < sumN ((s.obj.charges.filter (·.tier == 1)).map (·.bytes)) + bytes))

/-- A full ring drops its oldest correctable entry for a new one, or else the new entry, and never an uncorrectable one -/
def Obligations.FullRingKeepsUncorrectableEntries : Prop :=
  (∀ (e old : DevEntry) (s : State), 
    256 ≤ s.itg.ring.length →
    s.itg.ring.find? (fun x => !x.uncorrectable) = some old →
    (ringAdd e s).itg.ring = s.itg.ring.erase old ++ [{ e with seq := (s.itg.seq + 1).toNat }] ∧
    (ringAdd e s).itg.lost = sat 0xFFFFFFFF (s.itg.lost + old.merged)) ∧
  (∀ (e : DevEntry) (s : State), 
    256 ≤ s.itg.ring.length →
    s.itg.ring.find? (fun x => !x.uncorrectable) = none →
    let s1 := s.modItg fun t => { t with lost := sat 0xFFFFFFFF (t.lost + e.merged), dropped := true }
    ringAdd e s = if s.itg.dropped then s1 else raise 0x003 (BitVec.ofNat 32 s1.itg.lost) s1) ∧
  (∀ (e : DevEntry) (s : State), 
    (∀ x ∈ s.itg.ring, x.uncorrectable = true → x ∈ (ringAdd e s).itg.ring) ∧
    (s.itg.ring.length ≤ 256 → (ringAdd e s).itg.ring.length ≤ 256))

/-- At applied level n each band takes no task in n of any 16 ticks, and no task goes to a band that is held -/
def Obligations.ThrottlingHoldsEachBandAsTold : Prop :=
  (∀ (s : State) (b : Nat), 
    s.applied ≤ 15 →
    ((List.range 16).filter fun i => ({ s with tick := s.tick + BitVec.ofNat 64 i } : State).throttled b).length = s.applied) ∧
  (∀ (us d : Nat) (s : State), 
    ∀ t cl lent, s.firstOf us d = some (t, cl, lent) → s.throttled (cl / 32) = false)

/-- Shedding goes in its order and stops as soon as the rest of the demand fits the budget -/
def Obligations.SheddingStopsAsSoonAsTheRestFits : Prop :=
  ∀ (base trace cal : Nat), 
    let left (n : Nat) : Nat := base + (if n < 3 then cal else 0) + (if n < 2 then 60000 else 0) + (if n < 1 then trace else 0)
    ∃ n ≤ 4, shedFor base trace cal = BitVec.ofNat 4 (2 ^ n - 1) ∧ (n ≤ 3 → left n ≤ 900000) ∧ ∀ m < n, left m > 900000

/-- On a virtual function every vendor admin command but QUEUE RESUME completes with Invalid Opcode -/
def Obligations.VirtualFunctionsRunNoVendorCommands : Prop :=
  (∀ (c : Instr) (op us : Nat) (a : Admin) (s : State), 
    adminRuns a.src false s = true →
    a.src.fn ≠ 0 →
    (c = .loadStructure a ∧ op = 0xC0) ∨
    (c = .domeDissolve a ∧ op = 0xC1 ∧ bits a.cdw10.toNat 3 0 ≠ 1 ∧ bits a.cdw10.toNat 3 0 ≠ 2) ∨
    (c = .domeBind a ∧ op = 0xC1 ∧ bits a.cdw10.toNat 3 0 = 1) ∨ (c = .domeUnbind a ∧ op = 0xC1 ∧ bits a.cdw10.toNat 3 0 = 2) ∨
    (c = .negotiate a us ∧ op = 0xC3) ∨
    (c = .reattachAdopt a us ∧ op = 0xC4 ∧ bit a.cdw11.toNat 0 = false) ∨ (c = .reattachDiscard a us ∧ op = 0xC4 ∧ bit a.cdw11.toNat 0 = true) ∨
    (c = .serviceFence a ∧ op = 0xC5 ∧ ¬ (2 ≤ bits a.cdw10.toNat 7 0 ∧ bits a.cdw10.toNat 7 0 ≤ 7)) ∨
    (c = .serviceUnfence a ∧ op = 0xC5 ∧ bits a.cdw10.toNat 7 0 = 2) ∨
    (c = .retireDramChannelGroup a ∧ op = 0xC5 ∧ bits a.cdw10.toNat 7 0 = 3) ∨
    (c = .retireNandDie a ∧ op = 0xC5 ∧ bits a.cdw10.toNat 7 0 = 4) ∨
    (c = .recalibrateScales a ∧ op = 0xC5 ∧ bits a.cdw10.toNat 7 0 = 5) ∨
    (c = .recalibrateReadLevels a ∧ op = 0xC5 ∧ bits a.cdw10.toNat 7 0 = 6) ∨
    (c = .testButtressBank a ∧ op = 0xC5 ∧ bits a.cdw10.toNat 7 0 = 7) ∨
    (c = .lanternDisable a ∧ op = 0xC6 ∧ bits a.cdw10.toNat 1 0 = 0) ∨ (c = .lanternEnable a ∧ op = 0xC6 ∧ bits a.cdw10.toNat 1 0 = 1) ∨
    (c = .lanternSetSources a ∧ op = 0xC6 ∧ 2 ≤ bits a.cdw10.toNat 1 0) →
    exec c s = .next (refuse a.src St.invalidOpcode (begun a.src op 0xFFFF s))) ∧
  (∀ (a : Admin) (s t : State), 
    exec (.queueResume a) s = .next t →
    ∀ q ∈ s.q.sqs, q.fn ≠ a.src.fn → q ∈ t.q.sqs)

/-- The epoch is 0 after reset, rises with every successful NEGOTIATE outside quiesce and every REATTACH, and goes from 0xFFFF_FFFF to 1 -/
def Obligations.EpochCountsAttachments : Prop :=
  (
    State.reset.hb.epoch = 0 ∧ nextEpoch 0 = 1 ∧ ∀ e : DWord, nextEpoch e = if e = 0xFFFFFFFF#32 then 1 else e + 1) ∧
  (∀ (a : Admin) (us : Nat) (s : State), 
    adminRuns a.src true s = true →
    a.src.fn = 0 →
    a.cdw13 = 0 ∧ a.cdw14 = 0 ∧ a.cdw15 = 0 →
    (a.cdw11 ++ a.cdw10 : QWord).getLsbD 0 = true →
    ∃ t, exec (.negotiate a us) s = .next t ∧ t.hb.epoch = if s.hb.quiesced then s.hb.epoch else nextEpoch s.hb.epoch) ∧
  (∀ (a : Admin) (us : Nat) (s : State), 
    adminRuns a.src true s = true →
    a.src.fn = 0 →
    (bit a.cdw11.toNat 0 || s.granted 11) = true →
    bits a.cdw11.toNat 31 1 = 0 ∧ tailSet a = false →
    s.hb.quiesced = true →
    a.cdw10 = s.hb.qEpoch →
    ∃ t, exec (if bit a.cdw11.toNat 0 then .reattachDiscard a us else .reattachAdopt a us) s = .next t ∧ t.hb.epoch = nextEpoch s.hb.epoch) ∧
  (∀ (s : State), 
    bar2Read s 0 0x1018 4 = s.hb.epoch.toNat)

/-- Traffic takes the dome's route, its parent's where it has none, and else the path of the fewest hops through the lower-numbered quadrant. A path is the list of the quadrants crossed, its first and its last included. -/
def Obligations.TrafficTakesItsRouteOrTheFewestHops : Prop :=
  (∀ (a b : Nat), 
    a < 4 ∧ b < 4 →
    let p := defaultPath a b
    p.head? = some a ∧ p.getLast? = some b ∧ (p.zip p.tail).all (fun x => adjacent x.1 x.2) = true ∧
    ∀ l : List Nat, l.head? = some a → l.getLast? = some b → (l.zip l.tail).all (fun x => adjacent x.1 x.2) = true →
      p.length ≤ l.length ∧ (p.length = l.length → ∀ x ∈ p.zip l, x.1 ≤ x.2)) ∧
  (∀ (s : State) (d dest : Nat) (r : Route), 
    s.str.routes.find? (fun r => r.dome == d && r.dest == dest) = some r →
    (s.dome? d).isSome = true →
    s.routeOf d dest = some r) ∧
  (∀ (s : State) (d p dest : Nat), 
    s.path d = d :: s.path p →
    s.str.routes.find? (fun r => r.dome == d && r.dest == dest) = none →
    s.routeOf d dest = s.routeOf p dest) ∧
  (∀ (s : State) (d c dest q : Nat), 
    (∀ r ∈ s.str.routes, r.dome ∈ s.path d → r.dest ≠ dest) →
    destQuadrant dest = some q →
    s.trafficPath d c dest = defaultPath (Config.quadrant c) q)
end

