-- ==== Sys2Proof/Laws/Basic.lean ====
section
/-! SUPPORT. The small facts: lists that stand for sets and tables, and a memory, whose every operation keeps its canonical form. -/

namespace Sys2Proof.Machine

open Sys2Proof

@[simp] theorem mem_insN {a b : Nat} {l : List Nat} : a ∈ insN b l ↔ a = b ∨ a ∈ l := by
  induction l with
  | nil => simp [insN]
  | cons c r ih =>
    simp only [insN]
    split
    · simp
    · split
      · subst_vars; simp
      · simp [ih, or_left_comm]

@[simp] theorem mem_delN {a b : Nat} {l : List Nat} : a ∈ delN b l ↔ a ≠ b ∧ a ∈ l := by
  simp [delN, and_comm]

@[simp] theorem lookN_putN_self {α : Type} (k : Nat) (v : α) (l : List (Nat × α)) : lookN k (putN k v l) = some v := by
  simp [lookN, putN]

theorem lookN_putN_of_ne {α : Type} {j k : Nat} (h : j ≠ k) (v : α) (l : List (Nat × α)) : lookN j (putN k v l) = lookN j l := by
  have key : ∀ l : List (Nat × α), (l.filter fun x => decide (x.1 ≠ k)).find? (fun x => x.1 == j) = l.find? fun x => x.1 == j := by
    intro l
    induction l with
    | nil => rfl
    | cons x r ih =>
      by_cases hx : x.1 = k
      · have hj : (x.1 == j) = false := by simp; omega
        rw [List.filter_cons_of_neg (by simp [hx]), List.find?_cons, hj]; exact ih
      · rw [List.filter_cons_of_pos (by simp [hx]), List.find?_cons, List.find?_cons]
        split
        · rfl
        · exact ih
  have hk : (k == j) = false := by simp; omega
  simp only [lookN, putN, List.find?_cons, hk, key]

theorem sat_le (m v : Nat) : sat m v ≤ m := by unfold sat; split <;> omega

/-! ### Memory (log 6) -/

@[simp] theorem memGet_nil (a : Nat) : memGet [] a = 0 := rfl

theorem memGet_of_lt {m : Mem} {a : Nat} (h : ∀ c ∈ m, a < c.1) : memGet m a = 0 := by
  induction m with
  | nil => rfl
  | cons c r ih =>
    have h1 := h c (by simp)
    simp only [memGet]
    rw [if_neg (by omega)]
    exact ih fun d hd => h d (by simp [hd])

/-- What a byte reads as after a write: the byte written at its address, and the byte before elsewhere. -/
theorem memGet_memSet {m : Mem} (h : Memory.wf m) (a b : Nat) (v : Byte) :
    memGet (memSet m a v) b = if b = a then v else memGet m b := by
  induction m with
  | nil =>
    simp only [memSet]
    split
    · subst_vars; simp
    · by_cases e : a = b
      · subst e; simp [memGet]
      · simp [memGet, e, Ne.symm e]
  | cons c r ih =>
    obtain ⟨k, w⟩ := c
    have hp := h.1
    rw [List.pairwise_cons] at hp
    have hr : Memory.wf r := ⟨hp.2, fun d hd => h.2 d (by simp [hd])⟩
    simp only [memSet]
    split
    · next hak =>
      split
      · next hv =>
        by_cases e : b = a
        · subst e hv
          rw [if_pos rfl]
          exact memGet_of_lt fun d hd => by
            rcases List.mem_cons.mp hd with rfl | hd
            · exact hak
            · exact Nat.lt_trans hak (hp.1 d hd)
        · rw [if_neg e]
      · by_cases e : b = a
        · subst e; simp [memGet]
        · rw [if_neg e]; simp only [memGet]; rw [if_neg (Ne.symm e)]
    · split
      · next hak he =>
        subst he
        split
        · next hv =>
          subst hv
          by_cases e : b = a
          · subst e
            rw [if_pos rfl]
            exact memGet_of_lt fun d hd => hp.1 d hd
          · rw [if_neg e]; simp only [memGet]; rw [if_neg (Ne.symm e)]
        · by_cases e : b = a
          · subst e; simp [memGet]
          · rw [if_neg e]; simp only [memGet]; rw [if_neg (Ne.symm e), if_neg (Ne.symm e)]
      · next hak he =>
        simp only [memGet, ih hr]
        by_cases e : k = b
        · subst e; rw [if_pos rfl, if_neg (fun q => he q.symm)]; simp
        · rw [if_neg e, if_neg e]

/-- A write keeps the canonical form. -/
theorem memSet_wf {m : Mem} (h : Memory.wf m) (a : Nat) (v : Byte) : Memory.wf (memSet m a v) := by
  have key : ∀ m : Mem, Memory.wf m → Memory.wf (memSet m a v) ∧ ∀ c ∈ memSet m a v, c ∈ m ∨ c.1 = a := by
    intro m
    induction m with
    | nil =>
      intro _
      simp only [memSet]
      split
      · exact ⟨⟨by simp, by simp⟩, by simp⟩
      · next hv => exact ⟨⟨by simp, by simpa using hv⟩, by simp⟩
    | cons c r ih =>
      intro h
      obtain ⟨k, w⟩ := c
      have hp := h.1
      rw [List.pairwise_cons] at hp
      have hr : Memory.wf r := ⟨hp.2, fun d hd => h.2 d (by simp [hd])⟩
      have hw : w ≠ 0 := h.2 (k, w) (by simp)
      simp only [memSet]
      split
      · next hak =>
        split
        · exact ⟨h, fun d hd => .inl hd⟩
        · next hv =>
          refine ⟨⟨?_, ?_⟩, ?_⟩
          · rw [List.pairwise_cons]
            refine ⟨fun d hd => ?_, h.1⟩
            rcases List.mem_cons.mp hd with rfl | hd
            · exact hak
            · exact Nat.lt_trans hak (hp.1 d hd)
          · intro d hd
            rcases List.mem_cons.mp hd with rfl | hd
            · exact hv
            · exact h.2 d hd
          · intro d hd
            rcases List.mem_cons.mp hd with rfl | hd
            · exact .inr rfl
            · exact .inl hd
      · split
        · next he =>
          subst he
          split
          · exact ⟨hr, fun d hd => .inl (by simp [hd])⟩
          · next hv =>
            refine ⟨⟨?_, ?_⟩, ?_⟩
            · rw [List.pairwise_cons]; exact ⟨hp.1, hp.2⟩
            · intro d hd
              rcases List.mem_cons.mp hd with rfl | hd
              · exact hv
              · exact hr.2 d hd
            · intro d hd
              rcases List.mem_cons.mp hd with rfl | hd
              · exact .inr rfl
              · exact .inl (by simp [hd])
        · next hak he =>
          obtain ⟨g1, g2⟩ := ih hr
          refine ⟨⟨?_, ?_⟩, ?_⟩
          · rw [List.pairwise_cons]
            refine ⟨fun d hd => ?_, g1.1⟩
            rcases g2 d hd with g | g
            · exact hp.1 d g
            · omega
          · intro d hd
            rcases List.mem_cons.mp hd with rfl | hd
            · exact hw
            · exact g1.2 d hd
          · intro d hd
            rcases List.mem_cons.mp hd with rfl | hd
            · exact .inl (by simp)
            · rcases g2 d hd with g | g
              · exact .inl (by simp [g])
              · exact .inr g
  exact (key m h).1

theorem memPut_wf {m : Mem} (h : Memory.wf m) (a : Nat) (bs : List Byte) : Memory.wf (memPut m a bs) := by
  induction bs generalizing m a with
  | nil => exact h
  | cons b r ih => exact ih (memSet_wf h a b) (a + 1)

theorem memClear_wf {m : Mem} (h : Memory.wf m) (a n : Nat) : Memory.wf (memClear m a n) :=
  ⟨h.1.filter _, fun c hc => h.2 c (List.mem_filter.mp hc).1⟩

theorem nil_wf : Memory.wf [] := ⟨by simp, by simp⟩

theorem memOf_wf (bs : List Byte) : Memory.wf (memOf bs) := memPut_wf nil_wf 0 bs

/-- Outside the bytes written, a memory reads as before. -/
theorem memGet_memPut_of_out {m : Mem} (h : Memory.wf m) (a : Nat) (bs : List Byte) (b : Nat) (hb : b < a ∨ a + bs.length ≤ b) :
    memGet (memPut m a bs) b = memGet m b := by
  induction bs generalizing m a with
  | nil => rfl
  | cons v r ih =>
    simp only [List.length_cons] at hb
    simp only [memPut]
    rw [ih (memSet_wf h a v) (a + 1) (by omega), memGet_memSet h, if_neg (by omega)]

/-- Inside the bytes written, a memory reads as they say. -/
theorem memGet_memPut_of_in {m : Mem} (h : Memory.wf m) (a : Nat) (bs : List Byte) (i : Nat) (hi : i < bs.length) :
    memGet (memPut m a bs) (a + i) = bs[i] := by
  induction bs generalizing m a i with
  | nil => simp at hi
  | cons v r ih =>
    simp only [memPut]
    cases i with
    | zero =>
      rw [memGet_memPut_of_out (memSet_wf h a v) (a + 1) r (a + 0) (by omega), memGet_memSet h]; simp
    | succ n =>
      have := ih (memSet_wf h a v) (a + 1) n (by simpa using hi)
      rw [show a + (n + 1) = a + 1 + n by omega]; simpa using this

/-- A read of bytes within those written gives them. -/
theorem memRead_memPut {m : Mem} (h : Memory.wf m) (a : Nat) (bs : List Byte) (i n : Nat) (hi : i + n ≤ bs.length) :
    memRead (memPut m a bs) (a + i) n = slice bs i n := by
  induction n generalizing i with
  | zero => simp [memRead, slice]
  | succ n ih =>
    have hl : i < bs.length := by omega
    have := ih (i + 1) (by omega)
    rw [show a + (i + 1) = a + i + 1 from by omega] at this
    rw [memRead, this, memGet_memPut_of_in h a bs i hl]
    simp only [slice]
    rw [List.drop_eq_getElem_cons hl, List.take_succ_cons]

theorem memRead_memOf (bs : List Byte) (a n : Nat) (h : a + n ≤ bs.length) : memRead (memOf bs) a n = slice bs a n := by
  have := memRead_memPut nil_wf 0 bs a n h
  rwa [Nat.zero_add] at this

/-- A read within a read. -/
theorem memRead_slice (m : Mem) (a k j n : Nat) (h : j + n ≤ k) : memRead m (a + j) n = slice (memRead m a k) j n := by
  induction j generalizing a k with
  | zero =>
    induction n generalizing a k with
    | zero => simp [memRead, slice]
    | succ n ih =>
      obtain ⟨k, rfl⟩ : ∃ d, k = d + 1 := ⟨k - 1, by omega⟩
      have := ih (a + 1) k (by omega)
      simp only [slice, List.drop_zero, Nat.add_zero] at this ⊢
      simp [memRead, this]
  | succ j ih =>
    obtain ⟨k, rfl⟩ : ∃ d, k = d + 1 := ⟨k - 1, by omega⟩
    rw [show a + (j + 1) = a + 1 + j by omega, ih (a + 1) k (by omega)]
    simp [memRead, slice]

/-- The parts of a concatenation. -/
theorem slice_append_left (a b : List Byte) (i n : Nat) (h : i + n ≤ a.length) : slice (a ++ b) i n = slice a i n := by
  rw [slice, slice, List.drop_append_of_le_length (by omega), List.take_append_of_le_length (by simp; omega)]
theorem slice_append_right (a b : List Byte) (i n : Nat) : slice (a ++ b) (a.length + i) n = slice b i n := by
  rw [slice, slice, List.drop_length_add_append]

/-- A table of entries of one size. -/
theorem flatMap_range_length (f : Nat → List Byte) (k : Nat) (hf : ∀ i, (f i).length = k) (n : Nat) :
    ((List.range n).flatMap f).length = k * n := by
  induction n with
  | zero => simp
  | succ n ih => rw [List.range_succ, List.flatMap_append, List.length_append, ih]; simp [hf, Nat.mul_succ]
theorem slice_flatMap_range (f : Nat → List Byte) (k : Nat) (hf : ∀ i, (f i).length = k) (n i : Nat) (hi : i < n) :
    slice ((List.range n).flatMap f) (k * i) k = f i := by
  obtain ⟨d, rfl⟩ : ∃ d, n = i + (d + 1) := ⟨n - i - 1, by omega⟩
  rw [List.range_add, List.flatMap_append, slice, ← flatMap_range_length f k hf i, List.drop_append_of_le_length (Nat.le_refl _), List.drop_length,
    List.range_succ_eq_map]
  simp [← hf i]

/-! ### Host memory: what the host put there, and what the module wrote over it -/

theorem hostPut_wf {m : Mem} (h : Memory.wf m) (k : Nat) (bs : List Byte) : Memory.wf (hostPut m k bs) := memPut_wf h _ _

/-- Outside the bytes written, host memory reads as before. -/
theorem hostGet_hostPut_of_out {m : Mem} (h : Memory.wf m) (k : Nat) (bs : List Byte) (b : Nat) (hb : b < k ∨ k + bs.length ≤ b) :
    hostGet (hostPut m k bs) b = hostGet m b := by
  rw [hostGet, hostPut, memGet_memPut_of_out h _ _ _ (by simpa using hb), hostGet]

/-- Inside the bytes written, host memory reads as they say. -/
theorem hostGet_hostPut_of_in {m : Mem} (h : Memory.wf m) (k : Nat) (bs : List Byte) (i : Nat) (hi : i < bs.length) :
    hostGet (hostPut m k bs) (k + i) = bs[i] := by
  rw [hostGet, hostPut, memGet_memPut_of_in h _ _ _ (by simpa using hi)]
  simp [BitVec.xor_assoc]

/-- Every module's quadrants hold 176 to 208 clusters each (02 R569), whatever its fuses. -/
theorem quadrants_fit : Config.quadrantsFit Config.quadrants = true := by
  unfold Config.quadrants
  dsimp only
  split
  · assumption
  · decide +kernel

/-- There are four quadrants. -/
theorem quadrant_lt (c : Nat) : Config.quadrant c < 4 := by
  unfold Config.quadrant
  cases h : Config.quadrants[c]? with
  | none => simp
  | some q =>
    have hq := List.mem_of_getElem? h
    unfold Config.quadrants at hq
    dsimp only at hq
    split at hq
    · obtain ⟨x, -, rfl⟩ := List.mem_map.mp hq
      simpa using Nat.mod_lt _ (by decide)
    · obtain ⟨x, hx, rfl⟩ := List.mem_map.mp hq
      have := List.mem_range.mp hx
      simp; omega
/-- Nothing is listed at reset: each memory has its canonical form. -/
theorem reset_memories_wf : Memory.wf State.reset.obj.t2 ∧ Memory.wf State.reset.mrg.window ∧ State.reset.obj.list = [] ∧
    State.reset.obj.store = [] ∧ State.reset.fls.nss = [] ∧ Memory.wf State.reset.fw.staged :=
  ⟨nil_wf, nil_wf, rfl, rfl, rfl, nil_wf⟩

end Sys2Proof.Machine
end

