-- ==== Sys2Proof/Laws/Onward.lean ====
section
/-! SUPPORT. What no operation undoes: for each operation over the state, that the state goes onward (Safety.lean). A later proof cites
the lemma of an operation in place of unfolding it. -/

namespace Sys2Proof.Machine

open Sys2Proof

theorem Onward.rfl {s : State} : Onward s s := ⟨by rfl, id, id, Nat.le_refl _, id, fun _ => id, id⟩

theorem Onward.trans {s t u : State} (h : Onward s t) (g : Onward t u) : Onward s u :=
  ⟨g.1.trans h.1, g.2.1 ∘ h.2.1, g.2.2.1 ∘ h.2.2.1, Nat.le_trans h.2.2.2.1 g.2.2.2.1, g.2.2.2.2.1 ∘ h.2.2.2.2.1,
    fun i => g.2.2.2.2.2.1 i ∘ h.2.2.2.2.2.1 i, g.2.2.2.2.2.2 ∘ h.2.2.2.2.2.2⟩

/-- A state that differs in other fields goes as far. -/
theorem Onward.same {σ s t : State} (h : Onward σ s) (hp : t.pending = s.pending) (hr : t.fls.readOnly = s.fls.readOnly)
    (hs : t.fls.spares = s.fls.spares) (ho : t.sec.obsOff = s.sec.obsOff) (hf : t.sec.floor = s.sec.floor)
    (hv : t.sec.revoked = s.sec.revoked) : Onward σ t :=
  h.trans ⟨hp, hr ▸ id, ho ▸ id, Nat.le_of_eq hf.symm, hf ▸ id, fun _ => hv ▸ id, hs ▸ hr ▸ id⟩

/-- An answer, if it is in order, goes onward from a state: a state itself, or one inside it. -/
def OnwardE {ε : Type} (s : State) (r : Except ε State) : Prop := ∀ t, r = .ok t → Onward s t
def OnwardEP {ε α : Type} (p : α → State) (s : State) (r : Except ε α) : Prop := ∀ t, r = .ok t → Onward s (p t)
def OnwardO (s : State) (r : Option State) : Prop := ∀ t, r = some t → Onward s t
def OnwardOP {α : Type} (p : α → State) (s : State) (r : Option α) : Prop := ∀ t, r = some t → Onward s (p t)

theorem OnwardE.error {ε : Type} {s : State} {e : ε} : OnwardE s (.error e) := fun _ h => by cases h
theorem OnwardE.ok {ε : Type} {s t : State} (h : Onward s t) : OnwardE (ε := ε) s (.ok t) := fun _ e => by cases e; exact h
theorem OnwardE.get {ε : Type} {s t : State} {r : Except ε State} (h : OnwardE s r) (e : r = .ok t) : Onward s t := h t e
theorem OnwardEP.error {ε α : Type} {p : α → State} {s : State} {e : ε} : OnwardEP p s (.error e) := fun _ h => by cases h
theorem OnwardEP.ok {ε α : Type} {p : α → State} {s : State} {t : α} (h : Onward s (p t)) : OnwardEP (ε := ε) p s (.ok t) :=
  fun _ e => by cases e; exact h
theorem OnwardEP.get {ε α : Type} {p : α → State} {s : State} {t : α} {r : Except ε α} (h : OnwardEP p s r) (e : r = .ok t) :
    Onward s (p t) := h t e
theorem OnwardO.none {s : State} : OnwardO s none := fun _ h => by cases h
theorem OnwardO.some {s t : State} (h : Onward s t) : OnwardO s (some t) := fun _ e => by cases e; exact h
theorem OnwardO.get {s t : State} {r : Option State} (h : OnwardO s r) (e : r = Option.some t) : Onward s t := h t e
theorem OnwardOP.none {α : Type} {p : α → State} {s : State} : OnwardOP p s none := fun _ h => by cases h
theorem OnwardOP.some {α : Type} {p : α → State} {s : State} {t : α} (h : Onward s (p t)) : OnwardOP p s (some t) :=
  fun _ e => by cases e; exact h
theorem OnwardOP.get {α : Type} {p : α → State} {s : State} {t : α} {r : Option α} (h : OnwardOP p s r) (e : r = Option.some t) :
    Onward s (p t) := h t e
theorem foldlE_on {α ε : Type} {σ : State} {r : Except ε State} {f : Except ε State → α → Except ε State} {l : List α}
    (h : OnwardE σ r) (g : ∀ x a, OnwardE σ x → OnwardE σ (f x a)) : OnwardE σ (l.foldl f r) := by
  induction l generalizing r with
  | nil => exact h
  | cons a l ih => exact ih (g r a h)

theorem mapE_on {ε : Type} {σ : State} {r : Except ε State} {f : State → State} (h : OnwardE σ r) (g : ∀ t, Onward σ t → Onward σ (f t)) :
    OnwardE σ (r.map f) := by
  cases r with
  | error e => exact OnwardE.error
  | ok t => exact OnwardE.ok (g t (h.get (by rfl)))

/-- A command goes on, and onward. -/
def Runs (s : State) (a : Ans) : Prop := ∃ t, a = .next t ∧ Onward s t
theorem Runs.next {s t : State} (h : Onward s t) : Runs s (.next t) := ⟨t, by rfl, h⟩

theorem ite_on {σ a b : State} {c : Prop} [Decidable c] (h : Onward σ a) (g : Onward σ b) : Onward σ (if c then a else b) := by
  split <;> assumption
theorem iteE_on {ε : Type} {σ : State} {a b : Except ε State} {c : Prop} [Decidable c] (h : OnwardE σ a) (g : OnwardE σ b) :
    OnwardE σ (if c then a else b) := by
  split <;> assumption
theorem iteR_on {σ : State} {a b : Ans} {c : Prop} [Decidable c] (h : Runs σ a) (g : Runs σ b) : Runs σ (if c then a else b) := by
  split <;> assumption

theorem foldl_on {α : Type} {σ s : State} {f : State → α → State} {l : List α} (h : Onward σ s)
    (g : ∀ x a, Onward σ x → Onward σ (f x a)) : Onward σ (l.foldl f s) := by
  induction l generalizing s with
  | nil => exact h
  | cons a r ih => exact ih (g s a h)
theorem foldl_on_fst {α β : Type} {σ : State} {s : State × β} {f : State × β → α → State × β} {l : List α} (h : Onward σ s.1)
    (g : ∀ x a, Onward σ x.1 → Onward σ (f x a).1) : Onward σ (l.foldl f s).1 := by
  induction l generalizing s with
  | nil => exact h
  | cons a r ih => exact ih (g s a h)
theorem foldl_on_snd {α β : Type} {σ : State} {s : β × State} {f : β × State → α → β × State} {l : List α} (h : Onward σ s.2)
    (g : ∀ x a, Onward σ x.2 → Onward σ (f x a).2) : Onward σ (l.foldl f s).2 := by
  induction l generalizing s with
  | nil => exact h
  | cons a r ih => exact ih (g s a h)

theorem modFls_on {σ s : State} {f : Fls → Fls} (h : Onward σ s) (hr : (f s.fls).readOnly = s.fls.readOnly)
    (hs : (f s.fls).spares = s.fls.spares) : Onward σ (s.modFls f) := h.same (by rfl) hr hs (by rfl) (by rfl) (by rfl)
theorem modSec_on {σ s : State} {f : Sec → Sec} (h : Onward σ s) (ho : (f s.sec).obsOff = s.sec.obsOff)
    (hf : (f s.sec).floor = s.sec.floor) (hv : (f s.sec).revoked = s.sec.revoked) : Onward σ (s.modSec f) :=
  h.same (by rfl) (by rfl) (by rfl) ho hf hv

theorem modLife_on {σ s : State} {f} (h : Onward σ s) : Onward σ (s.modLife f) := h.same (by rfl) (by rfl) (by rfl) (by rfl) (by rfl) (by
    rfl)
theorem modFns_on {σ s : State} {f} (h : Onward σ s) : Onward σ (s.modFns f) := h.same (by rfl) (by rfl) (by rfl) (by rfl) (by rfl) (by
    rfl)
theorem modQ_on {σ s : State} {f} (h : Onward σ s) : Onward σ (s.modQ f) := h.same (by rfl) (by rfl) (by rfl) (by rfl) (by rfl) (by rfl)
theorem modStr_on {σ s : State} {f} (h : Onward σ s) : Onward σ (s.modStr f) := h.same (by rfl) (by rfl) (by rfl) (by rfl) (by rfl) (by
    rfl)
theorem modObj_on {σ s : State} {f} (h : Onward σ s) : Onward σ (s.modObj f) := h.same (by rfl) (by rfl) (by rfl) (by rfl) (by rfl) (by
    rfl)
theorem modSch_on {σ s : State} {f} (h : Onward σ s) : Onward σ (s.modSch f) := h.same (by rfl) (by rfl) (by rfl) (by rfl) (by rfl) (by
    rfl)
theorem modHb_on {σ s : State} {f} (h : Onward σ s) : Onward σ (s.modHb f) := h.same (by rfl) (by rfl) (by rfl) (by rfl) (by rfl) (by rfl)
theorem modReg_on {σ s : State} {f} (h : Onward σ s) : Onward σ (s.modReg f) := h.same (by rfl) (by rfl) (by rfl) (by rfl) (by rfl) (by
    rfl)
theorem modEff_on {σ s : State} {f} (h : Onward σ s) : Onward σ (s.modEff f) := h.same (by rfl) (by rfl) (by rfl) (by rfl) (by rfl) (by
    rfl)
theorem modStrm_on {σ s : State} {f} (h : Onward σ s) : Onward σ (s.modStrm f) := h.same (by rfl) (by rfl) (by rfl) (by rfl) (by rfl) (by
    rfl)
theorem modXfer_on {σ s : State} {f} (h : Onward σ s) : Onward σ (s.modXfer f) := h.same (by rfl) (by rfl) (by rfl) (by rfl) (by rfl) (by
    rfl)
theorem modQnt_on {σ s : State} {f} (h : Onward σ s) : Onward σ (s.modQnt f) := h.same (by rfl) (by rfl) (by rfl) (by rfl) (by rfl) (by
    rfl)
theorem modArr_on {σ s : State} {f} (h : Onward σ s) : Onward σ (s.modArr f) := h.same (by rfl) (by rfl) (by rfl) (by rfl) (by rfl) (by
    rfl)
theorem modInf_on {σ s : State} {f} (h : Onward σ s) : Onward σ (s.modInf f) := h.same (by rfl) (by rfl) (by rfl) (by rfl) (by rfl) (by
    rfl)
theorem modIdx_on {σ s : State} {f} (h : Onward σ s) : Onward σ (s.modIdx f) := h.same (by rfl) (by rfl) (by rfl) (by rfl) (by rfl) (by
    rfl)
theorem modMrg_on {σ s : State} {f} (h : Onward σ s) : Onward σ (s.modMrg f) := h.same (by rfl) (by rfl) (by rfl) (by rfl) (by rfl) (by
    rfl)
theorem modScn_on {σ s : State} {f} (h : Onward σ s) : Onward σ (s.modScn f) := h.same (by rfl) (by rfl) (by rfl) (by rfl) (by rfl) (by
    rfl)
theorem modItg_on {σ s : State} {f} (h : Onward σ s) : Onward σ (s.modItg f) := h.same (by rfl) (by rfl) (by rfl) (by rfl) (by rfl) (by
    rfl)
theorem modCal_on {σ s : State} {f} (h : Onward σ s) : Onward σ (s.modCal f) := h.same (by rfl) (by rfl) (by rfl) (by rfl) (by rfl) (by
    rfl)
theorem modEvt_on {σ s : State} {f} (h : Onward σ s) : Onward σ (s.modEvt f) := h.same (by rfl) (by rfl) (by rfl) (by rfl) (by rfl) (by
    rfl)
theorem modPwr_on {σ s : State} {f} (h : Onward σ s) : Onward σ (s.modPwr f) := h.same (by rfl) (by rfl) (by rfl) (by rfl) (by rfl) (by
    rfl)
theorem modFw_on {σ s : State} {f} (h : Onward σ s) : Onward σ (s.modFw f) := h.same (by rfl) (by rfl) (by rfl) (by rfl) (by rfl) (by rfl)
theorem modLan_on {σ s : State} {f} (h : Onward σ s) : Onward σ (s.modLan f) := h.same (by rfl) (by rfl) (by rfl) (by rfl) (by rfl) (by
    rfl)
theorem modMgt_on {σ s : State} {f} (h : Onward σ s) : Onward σ (s.modMgt f) := h.same (by rfl) (by rfl) (by rfl) (by rfl) (by rfl) (by
    rfl)
theorem modCtr_on {σ s : State} {f} (h : Onward σ s) : Onward σ (s.modCtr f) := h.same (by rfl) (by rfl) (by rfl) (by rfl) (by rfl) (by
    rfl)
theorem modOut_on {σ s : State} {f} (h : Onward σ s) : Onward σ (s.modOut f) := h.same (by rfl) (by rfl) (by rfl) (by rfl) (by rfl) (by
    rfl)

/-! ### Accumulator -/

end Sys2Proof.Machine
end

