-- ==== Sys2Proof/Laws/OnwardWork.lean ====
section
/-! SUPPORT. What no operation undoes, for the operations of the files of Machine that the headings name: each goes onward
(Safety.lean). A proof about a command cites these in place of unfolding the operations. -/

namespace Sys2Proof.Machine

open Sys2Proof

/-! ### Trace -/

theorem ctrSet_on {σ : State} {c : Ctr} {i : Nat} {v : Nat} {s : State} (hon : Onward σ s) : Onward σ (ctrSet c i v s) := by
  unfold ctrSet
  repeat' (first | with_reducible assumption | with_reducible apply modCtr_on)
theorem ctrAdd_on {σ : State} {c : Ctr} {i : Nat} {n : Nat} {s : State} (hon : Onward σ s) : Onward σ (ctrAdd c i n s) := by
  unfold ctrAdd
  repeat' (first | with_reducible assumption | with_reducible apply ctrSet_on)
theorem draw_on {σ : State} {s : State} (hon : Onward σ s) : Onward σ (draw s).2 := by
  unfold draw
  repeat' (first | dsimp only | assumption)
theorem draws_on {σ : State} {n : Nat} {s : State} (h : Onward σ s) : Onward σ (draws n s).2 := by
  induction n generalizing s with
  | zero => exact h
  | succ n ih => exact ih (draw_on h)
theorem putPacket_on {σ : State} {ty : Nat} {src : Nat} {payload : List Byte} {s : State} (hon : Onward σ s) : Onward σ (putPacket ty src
    payload s) := by
  unfold putPacket
  repeat' (first | with_reducible assumption | with_reducible apply modLan_on | with_reducible apply draw_on)
theorem record_on {σ : State} {src : Nat} {ty : Nat} {payload : List Byte} {s : State} (hon : Onward σ s) : Onward σ (record src ty
    payload s) := by
  unfold record
  repeat' (first
      | with_reducible assumption | with_reducible apply modLan_on | with_reducible apply ctrAdd_on | with_reducible apply draw_on
      | with_reducible apply putPacket_on | with_reducible apply ite_on | split)
theorem queuePacket_on {σ : State} {kind : Nat} {src : Src} {opcode : Nat} {sct : Nat} {sc : Nat} {dome : Nat} {s : State} (hon : Onward σ
    s) : Onward σ (queuePacket kind src opcode sct sc dome s) := by
  unfold queuePacket
  repeat' (first | with_reducible assumption | with_reducible apply record_on)
theorem eventPacket_on {σ : State} {kind : Nat} {group : Nat} {source : Nat} {s : State} (hon : Onward σ s) : Onward σ (eventPacket kind
    group source s) := by
  unfold eventPacket
  repeat' (first | with_reducible assumption | with_reducible apply record_on)

/-! ### Ops -/

theorem taskPacket_on {σ : State} {kind : Nat} {src : Src} {opcode : Nat} {dome : Nat} {cluster : Nat} {sct : Nat} {sc : Nat} {cycles :
    Nat} {s : State} (hon : Onward σ s) : Onward σ (taskPacket kind src opcode dome cluster sct sc cycles s) := by
  unfold taskPacket
  repeat' (first | with_reducible assumption | with_reducible apply record_on)
theorem switchPacket_on {σ : State} {kind : Nat} {part : Nat} {outgoing : Nat} {incoming : Nat} {cluster : Nat} {cycles : Nat} {s : State}
    (hon : Onward σ s) : Onward σ (switchPacket kind part outgoing incoming cluster cycles s) := by
  unfold switchPacket
  repeat' (first | with_reducible assumption | with_reducible apply record_on)
theorem semPacket_on {σ : State} {kind : Nat} {id : Nat} {dome : Nat} {cluster : Nat} {cycles : Nat} {s : State} (hon : Onward σ s) :
    Onward σ (semPacket kind id dome cluster cycles s) := by
  unfold semPacket
  repeat' (first | with_reducible assumption | with_reducible apply record_on)
theorem streamPacket_on {σ : State} {kind : Nat} {id : Nat} {dome : Nat} {cluster : Nat} {credits : Nat} {cycles : Nat} {s : State} (hon :
    Onward σ s) : Onward σ (streamPacket kind id dome cluster credits cycles s) := by
  unfold streamPacket
  repeat' (first | with_reducible assumption | with_reducible apply record_on)
theorem structurePacket_on {σ : State} {kind : Nat} {dome : Nat} {cluster : Nat} {s : State} (hon : Onward σ s) : Onward σ
    (structurePacket kind dome cluster s) := by
  unfold structurePacket
  repeat' (first | with_reducible assumption | with_reducible apply record_on)
theorem ctrPart_on {σ : State} {c : Ctr} {d : Nat} {n : Nat} {s : State} (hon : Onward σ s) : Onward σ (ctrPart c d n s) := by
  unfold ctrPart
  repeat' (first | with_reducible assumption | with_reducible apply ctrAdd_on | split)
theorem setNew_on {σ : State} {src : Nat} {s : State} (hon : Onward σ s) : Onward σ (setNew src s) := by
  unfold setNew
  repeat' (first | with_reducible assumption | with_reducible apply modEvt_on)
theorem raise_on {σ : State} {src : Nat} {detail : DWord} {s : State} (hon : Onward σ s) : Onward σ (raise src detail s) := by
  unfold raise
  repeat' (first
      | with_reducible assumption | with_reducible apply modEvt_on | with_reducible apply eventPacket_on | with_reducible apply setNew_on
      | with_reducible apply ite_on)
theorem lineUp_on {σ : State} {src : Nat} {detail : DWord} {s : State} (hon : Onward σ s) : Onward σ (lineUp src detail s) := by
  unfold lineUp
  repeat' (first
      | with_reducible assumption | with_reducible apply modEvt_on | with_reducible apply raise_on | with_reducible apply ite_on)
theorem lineDown_on {σ : State} {src : Nat} {s : State} (hon : Onward σ s) : Onward σ (lineDown src s) := by
  unfold lineDown
  repeat' (first | with_reducible assumption | with_reducible apply modEvt_on)
theorem raisePart_on {σ : State} {d : Nat} {kind : Nat} {detail : DWord} {s : State} (hon : Onward σ s) : Onward σ (raisePart d kind
    detail s) := by
  unfold raisePart
  repeat' (first | with_reducible assumption | with_reducible apply raise_on | split)
theorem modFn_on {σ : State} {f : Nat} {g : Func → Func} {s : State} (hon : Onward σ s) : Onward σ (modFn f g s) := by
  unfold modFn
  repeat' (first | with_reducible assumption | with_reducible apply modFns_on)
theorem sendMsix_on {σ : State} {f : Nat} {vec : Nat} {s : State} (hon : Onward σ s) : Onward σ (sendMsix f vec s) := by
  unfold sendMsix
  repeat' (first
      | with_reducible assumption | with_reducible apply modOut_on | with_reducible apply modFn_on | with_reducible apply ite_on | split)
theorem modSq_on {σ : State} {f : Nat} {q : Nat} {g : Sq → Sq} {s : State} (hon : Onward σ s) : Onward σ (modSq f q g s) := by
  unfold modSq
  repeat' (first | with_reducible assumption | with_reducible apply modQ_on)
theorem modCq_on {σ : State} {f : Nat} {q : Nat} {g : Cq → Cq} {s : State} (hon : Onward σ s) : Onward σ (modCq f q g s) := by
  unfold modCq
  repeat' (first | with_reducible assumption | with_reducible apply modQ_on)
theorem postNow_on {σ : State} {c : Completion} {s : State} (hon : Onward σ s) : Onward σ (postNow c s) := by
  unfold postNow
  repeat' (first
      | with_reducible assumption | with_reducible apply modQ_on | with_reducible apply modOut_on | with_reducible apply queuePacket_on
      | with_reducible apply sendMsix_on | with_reducible apply modCq_on | with_reducible apply ite_on | split)
theorem post_on {σ : State} {c : Completion} {s : State} (hon : Onward σ s) : Onward σ (post c s) := by
  unfold post
  repeat' (first
      | with_reducible assumption | with_reducible apply modHb_on | with_reducible apply postNow_on | with_reducible apply ite_on)
theorem ok_on {σ : State} {src : Src} {dw0 : Nat} {dw1 : Nat} {s : State} (hon : Onward σ s) : Onward σ (ok src dw0 dw1 s) := by
  unfold ok
  repeat' (first | with_reducible assumption | with_reducible apply post_on)
theorem status_on {σ : State} {src : Src} {sct : Nat} {sc : Nat} {s : State} (hon : Onward σ s) : Onward σ (status src sct sc s) := by
  unfold status
  repeat' (first | with_reducible assumption | with_reducible apply post_on)
theorem invalidField_on {σ : State} {src : Src} {s : State} (hon : Onward σ s) : Onward σ (invalidField src s) := by
  unfold invalidField
  repeat' (first | with_reducible assumption | with_reducible apply status_on)
theorem invalidOpcode_on {σ : State} {src : Src} {s : State} (hon : Onward σ s) : Onward σ (invalidOpcode src s) := by
  unfold invalidOpcode
  repeat' (first | with_reducible assumption | with_reducible apply status_on)
theorem sequenceError_on {σ : State} {src : Src} {s : State} (hon : Onward σ s) : Onward σ (sequenceError src s) := by
  unfold sequenceError
  repeat' (first | with_reducible assumption | with_reducible apply status_on)
theorem aenPump_on {σ : State} {s : State} (hon : Onward σ s) : Onward σ (aenPump s) := by
  unfold aenPump
  repeat' (first | with_reducible assumption | with_reducible apply modQ_on | with_reducible apply ok_on | split)
theorem aen_on {σ : State} {f : Nat} {ty : Nat} {info : Nat} {page : Nat} {s : State} (hon : Onward σ s) : Onward σ (aen f ty info page s)
    := by
  unfold aen
  repeat' (first
      | with_reducible assumption | with_reducible apply modQ_on | with_reducible apply aenPump_on | with_reducible apply ite_on)
theorem vendorNotice_on {σ : State} {f : Nat} {page : Nat} {s : State} (hon : Onward σ s) : Onward σ (vendorNotice f page s) := by
  unfold vendorNotice
  repeat' (first | with_reducible assumption | with_reducible apply aen_on | with_reducible apply ite_on | split)
theorem logCmp_on {σ : State} {e : CmpEntry} {s : State} (hon : Onward σ s) : Onward σ (logCmp e s) := by
  unfold logCmp
  repeat' (first | with_reducible assumption | with_reducible apply modItg_on | with_reducible apply vendorNotice_on)
theorem failMilris_on {σ : State} {src : Src} {opcode : Nat} {dome : Nat} {tenant : Nat} {f : Fail} {s : State} (hon : Onward σ s) :
    Onward σ (failMilris src opcode dome tenant f s) := by
  unfold failMilris
  repeat' (first
      | with_reducible assumption | with_reducible apply queuePacket_on | with_reducible apply modSq_on | with_reducible apply post_on
      | with_reducible apply logCmp_on | with_reducible apply ite_on)
theorem ringAdd_on {σ : State} {e : DevEntry} {s : State} (hon : Onward σ s) : Onward σ (ringAdd e s) := by
  unfold ringAdd
  repeat' (first
      | with_reducible assumption | with_reducible apply modItg_on | with_reducible apply ctrAdd_on | with_reducible apply raise_on
      | with_reducible apply vendorNotice_on | with_reducible apply ite_on | split)
theorem reportUnc_on {σ : State} {e : DevEntry} {s : State} (hon : Onward σ s) : Onward σ (reportUnc e s) := by
  unfold reportUnc
  repeat' (first | with_reducible assumption | with_reducible apply ringAdd_on)
theorem reportAt_on {σ : State} {e : DevEntry} {s : State} (hon : Onward σ s) : Onward σ (reportAt e s) := by
  unfold reportAt
  repeat' (first | with_reducible assumption | with_reducible apply modItg_on | with_reducible apply ite_on)
theorem reportCor_on {σ : State} {kind : Nat} {index : Nat} {cls : Nat} {s : State} (hon : Onward σ s) : Onward σ (reportCor kind index
    cls s) := by
  unfold reportCor
  repeat' (first | with_reducible assumption | with_reducible apply reportAt_on)
theorem closeWindow_on {σ : State} {s : State} (hon : Onward σ s) : Onward σ (closeWindow s) := by
  unfold closeWindow
  repeat' (first
      | with_reducible assumption | with_reducible intro _ | with_reducible apply modItg_on | with_reducible apply ctrAdd_on
      | with_reducible apply ringAdd_on | with_reducible apply foldl_on)
theorem charge_on {σ : State} {owner : Owner} {tier : Nat} {dome : Nat} {bytes : Nat} {s : State} (hon : Onward σ s) : Onward σ (charge
    owner tier dome bytes s) := by
  unfold charge
  repeat' (first | with_reducible assumption | with_reducible apply modObj_on | with_reducible apply ite_on)
theorem uncharge_on {σ : State} {owner : Owner} {s : State} (hon : Onward σ s) : Onward σ (uncharge owner s) := by
  unfold uncharge
  repeat' (first | with_reducible assumption | with_reducible apply modObj_on)
theorem modOne_on {σ : State} {id : Nat} {f : Obj → Obj} {s : State} (hon : Onward σ s) : Onward σ (modOne id f s) := by
  unfold modOne
  repeat' (first | with_reducible assumption | with_reducible apply modObj_on)
theorem dropPage_on {σ : State} {id : Nat} {page : Nat} {s : State} (hon : Onward σ s) : Onward σ (dropPage id page s) := by
  unfold dropPage
  repeat' (first | with_reducible assumption | with_reducible apply modObj_on | with_reducible apply uncharge_on)
theorem freeFor_on {σ : State} {keep : List (Nat × Nat)} {n d b : Nat} {s : State} (h : Onward σ s) : OnwardO σ (freeFor keep n d b s) :=
    by
  induction n generalizing s with
  | zero =>
    unfold freeFor
    split
    · exact OnwardO.some h
    · exact OnwardO.none
  | succ n ih =>
    unfold freeFor
    split
    · exact OnwardO.some h
    · split
      · contradiction
      · next e =>
        cases e
        split
        · exact OnwardO.none
        · exact ih (ctrPart_on (dropPage_on h))
theorem fitKeeping_on {σ : State} {keep : List (Nat × Nat)} {d : Nat} {tier : Nat} {bytes : Nat} {s : State} (hon : Onward σ s) : OnwardE
    σ (fitKeeping keep d tier bytes s) := by
  unfold fitKeeping
  repeat' (first
      | with_reducible assumption | exact OnwardE.error | with_reducible apply OnwardE.ok
      | refine OnwardO.get (freeFor_on ?_) (by assumption) | with_reducible apply iteE_on | split)
theorem fit_on {σ : State} {d : Nat} {tier : Nat} {bytes : Nat} {s : State} (hon : Onward σ s) : OnwardE σ (fit d tier bytes s) := by
  unfold fit
  repeat' (first | with_reducible assumption | with_reducible apply fitKeeping_on)
theorem freeSlots_on {σ : State} {p : Watch → Bool} {s : State} (hon : Onward σ s) : Onward σ (freeSlots p s) := by
  unfold freeSlots
  repeat' (first | with_reducible assumption | with_reducible apply modQnt_on | with_reducible apply modCtr_on)
theorem freedOn_on {σ : State} {cs : List Nat} {s : State} (hon : Onward σ s) : Onward σ (freedOn cs s) := by
  unfold freedOn
  repeat' (first | with_reducible assumption | with_reducible apply modSch_on)
theorem writeT2_on {σ : State} {a : Nat} {bs : List Byte} {s : State} (hon : Onward σ s) : Onward σ (writeT2 a bs s) := by
  unfold writeT2
  repeat' (first | with_reducible assumption | with_reducible apply modObj_on)
theorem sendT2_on {σ : State} {l : List (Nat × List Byte)} {s : State} (hon : Onward σ s) : Onward σ (sendT2 l s) := by
  unfold sendT2
  repeat' (first
      | with_reducible assumption | with_reducible apply modObj_on | with_reducible apply modHb_on | with_reducible apply ite_on)
theorem writeObj_on {σ : State} {id : Nat} {off : Nat} {bs : List Byte} {s : State} (hon : Onward σ s) : Onward σ (writeObj id off bs s)
    := by
  unfold writeObj
  repeat' (first
      | with_reducible assumption | with_reducible apply modOne_on | with_reducible apply sendT2_on | with_reducible apply ite_on
      | split)

/-! ### Flags -/

theorem refuse_on {σ : State} {src : Src} {f : Fail} {s : State} (hon : Onward σ s) : Onward σ (refuse src f s) := by
  unfold refuse
  repeat' (first | with_reducible assumption | with_reducible apply status_on)

/-! ### Operands -/

theorem begun_on {σ : State} {src : Src} {opcode : Nat} {dome : Nat} {s : State} (hon : Onward σ s) : Onward σ (begun src opcode dome s)
    := by
  unfold begun
  repeat' (first | with_reducible assumption | with_reducible apply modQ_on | with_reducible apply queuePacket_on)
theorem taken_on {σ : State} {src : Src} {opcode dome : Nat} {f : State → State} {s : State} (h : Onward σ s)
    (g : ∀ x, Onward σ x → Onward σ (f x)) : Runs σ (taken src opcode dome f s) := by
  unfold taken
  split
  · exact Runs.next (g _ (begun_on h))
  · exact Runs.next h
theorem orFail_on {σ : State} {f : Option Fail} {k : Unit → Except Fail State} (g : OnwardE σ (k ())) : OnwardE σ (orFail f k) := by
  unfold orFail
  split
  · exact OnwardE.error
  · exact g
theorem runMilris_on {σ : State} {sh : Shape} {e : Entry} {own : State → Except Fail State} {s : State} (h : Onward σ s)
    (g : ∀ x, Onward σ x → OnwardE σ (own x)) : Runs σ (runMilris sh e own s) := by
  unfold runMilris
  split
  · exact Runs.next h
  · refine taken_on h fun x hx => ?_
    dsimp only
    split
    · exact invalidOpcode_on hx
    · split
      · exact failMilris_on hx
      · split
        · exact (g x hx).get (by assumption)
        · exact failMilris_on hx
theorem runAdmin_on {σ : State} {op : Nat} {src : Src} {q : Bool} {own : State → Except Fail State} {s : State} (h : Onward σ s)
    (g : ∀ x, Onward σ x → OnwardE σ (own x)) : Runs σ (runAdmin op src q own s) := by
  unfold runAdmin
  split
  · exact Runs.next h
  · refine taken_on h fun x hx => ?_
    split
    · exact refuse_on hx
    · split
      · exact (g x hx).get (by assumption)
      · exact refuse_on hx

/-! ### Media -/

theorem modBlock_on {σ : State} {b : Nat} {f : Block → Block} {s : State} (hon : Onward σ s) : Onward σ (modBlock b f s) := by
  unfold modBlock
  repeat' (first | with_reducible assumption | with_reducible apply modFls_on | split | with_reducible rfl)
theorem countRead_on {σ : State} {b : Nat} {n : Nat} {s : State} (hon : Onward σ s) : Onward σ (countRead b n s) := by
  unfold countRead
  repeat' (first | with_reducible assumption | with_reducible apply modBlock_on)
theorem modDie_on {σ : State} {d : Nat} {f : Die → Die} {s : State} (hon : Onward σ s) : Onward σ (modDie d f s) := by
  unfold modDie
  repeat' (first | with_reducible assumption | with_reducible apply modFls_on | split | with_reducible rfl)
theorem dropReads_on {σ : State} {gone : NvmRead → Bool} {s : State} (hon : Onward σ s) : Onward σ (dropReads gone s) := by
  unfold dropReads
  repeat' (first
      | with_reducible assumption | with_reducible intro _ | with_reducible apply modFls_on | with_reducible apply modBlock_on
      | with_reducible apply modDie_on | with_reducible apply foldl_on | with_reducible apply ite_on | with_reducible rfl)
theorem countClass_on {σ : State} {die : Nat} {cls : Nat} {bytes : Nat} {s : State} (hon : Onward σ s) : Onward σ (countClass die cls
    bytes s) := by
  unfold countClass
  repeat' (first | with_reducible assumption | with_reducible apply ctrAdd_on)
theorem unrecovered_on {σ : State} {die : Nat} {s : State} (hon : Onward σ s) : Onward σ (unrecovered die s) := by
  unfold unrecovered
  repeat' (first | with_reducible assumption | with_reducible apply modFls_on | with_reducible apply reportUnc_on | with_reducible rfl)
theorem guarded_on {σ : State} {die : Nat} {s : State} (hon : Onward σ s) : Onward σ (guarded die s) := by
  unfold guarded
  repeat' (first
      | with_reducible assumption | with_reducible apply ctrAdd_on | with_reducible apply raise_on | with_reducible apply reportUnc_on)
theorem readEnd_on {σ : State} {r : ReadEnd} {s : State} (hon : Onward σ s) : Onward σ (readEnd r s) := by
  unfold readEnd
  repeat' (first
      | with_reducible assumption | with_reducible apply ctrAdd_on | with_reducible apply unrecovered_on
      | with_reducible apply guarded_on | with_reducible apply ite_on | split)
theorem queueRefresh_on {σ : State} {b : Nat} {s : State} (hon : Onward σ s) : Onward σ (queueRefresh b s) := by
  unfold queueRefresh
  repeat' (first | with_reducible assumption | with_reducible apply modFls_on | with_reducible apply ite_on | with_reducible rfl)
theorem readBlock_on {σ : State} {b : Nat} {r : ReadEnd} {s : State} (hon : Onward σ s) : Onward σ (readBlock b r s) := by
  unfold readBlock
  repeat' (first
      | with_reducible assumption | with_reducible apply modBlock_on | with_reducible apply queueRefresh_on | with_reducible apply ite_on
      | split)
theorem countEngine_on {σ : State} {group : Nat} {records : Nat} {s : State} (hon : Onward σ s) : Onward σ (countEngine group records s)
    := by
  unfold countEngine
  repeat' (first | with_reducible assumption | with_reducible apply ctrAdd_on)

/-! ### Stripe -/

theorem modGroup_on {σ : State} {g : Nat} {f : Group → Group} {s : State} (hon : Onward σ s) : Onward σ (modGroup g f s) := by
  unfold modGroup
  repeat' (first | with_reducible assumption | with_reducible apply modFls_on | with_reducible rfl)
theorem putExtent_on {σ : State} {e : Extent} {s : State} (hon : Onward σ s) : Onward σ (putExtent e s) := by
  unfold putExtent
  repeat' (first | with_reducible assumption | with_reducible apply modFls_on | with_reducible rfl)
theorem unmapExtent_on {σ : State} {k : ExtKey} {s : State} (hon : Onward σ s) : Onward σ (unmapExtent k s) := by
  unfold unmapExtent
  repeat' (first | with_reducible assumption | with_reducible apply modFls_on | with_reducible rfl)
/-- Spares that are spent, and then checked. -/
theorem spendSpares_on {σ s : State} {f : Fls → Fls} (h : Onward σ s) (hr : (f s.fls).readOnly = s.fls.readOnly) :
    Onward σ (checkSpares (s.modFls f)) := by
  unfold checkSpares
  split
  · next c =>
    refine h.trans ⟨by rfl, fun e => hr.trans e, id, Nat.le_refl _, id, fun _ => id, fun _ e => ?_⟩
    rcases c with c | c
    · exact absurd e c
    · exact c
  · refine foldl_on (lineUp_on (h.trans ⟨by rfl, fun _ => by rfl, id, Nat.le_refl _, id, fun _ => id, fun _ _ => by rfl⟩)) fun x a hx
      => aen_on hx
theorem checkSpares_on {σ s : State} (h : Onward σ s) : Onward σ (checkSpares s) := spendSpares_on (f := id) h (by rfl)
theorem growBad_on {σ : State} {b : Nat} {s : State} (h : Onward σ s) : Onward σ (growBad b s) := spendSpares_on (modBlock_on h) (by rfl)
theorem leaveBlock_on {σ : State} {b : Nat} {s : State} (hon : Onward σ s) : Onward σ (leaveBlock b s) := by
  unfold leaveBlock
  repeat' (first
      | with_reducible assumption | with_reducible apply modBlock_on | with_reducible apply growBad_on | with_reducible apply ite_on)
theorem sweep_on {σ : State} {s : State} (hon : Onward σ s) : Onward σ (sweep s) := by
  unfold sweep
  repeat' (first
      | with_reducible assumption | with_reducible intro _ | with_reducible apply modFls_on | with_reducible apply leaveBlock_on
      | with_reducible apply foldl_on | with_reducible rfl)
theorem spillParity_on {σ : State} {g : Group} {s : State} (hon : Onward σ s) : Onward σ (spillParity g s) := by
  unfold spillParity
  repeat' (first
      | with_reducible assumption | with_reducible intro _ | with_reducible apply ctrAdd_on | with_reducible apply countClass_on
      | with_reducible apply modGroup_on | with_reducible apply foldl_on)
theorem spillOpen_on {σ : State} {s : State} (hon : Onward σ s) : Onward σ (spillOpen s) := by
  unfold spillOpen
  repeat' (first
      | with_reducible assumption | with_reducible intro _ | with_reducible apply spillParity_on | with_reducible apply foldl_on)
theorem reinstateParity_on {σ : State} {s : State} (hon : Onward σ s) : Onward σ (reinstateParity s) := by
  unfold reinstateParity
  repeat' (first | with_reducible assumption | with_reducible apply modFls_on | with_reducible rfl)
theorem closeGroup_on {σ : State} {g : Group} {s : State} (hon : Onward σ s) : Onward σ (closeGroup g s) := by
  unfold closeGroup
  repeat' (first
      | with_reducible assumption | with_reducible intro _ | with_reducible apply modBlock_on | with_reducible apply modGroup_on
      | with_reducible apply foldl_on)
theorem closeBare_on {σ : State} {p : Group → Bool} {s : State} (hon : Onward σ s) : Onward σ (closeBare p s) := by
  unfold closeBare
  repeat' (first
      | with_reducible assumption | with_reducible intro _ | with_reducible apply modGroup_on | with_reducible apply closeGroup_on
      | with_reducible apply foldl_on)
theorem dropSpace_on {σ : State} {n : Nat} {s : State} (hon : Onward σ s) : Onward σ (dropSpace n s) := by
  unfold dropSpace
  repeat' (first | with_reducible assumption | with_reducible apply modFls_on | with_reducible apply sweep_on | with_reducible rfl)
theorem backExtents_on {σ : State} {id : Nat} {pages : List Nat} {s : State} (hon : Onward σ s) : Onward σ (backExtents id pages s) := by
  unfold backExtents
  repeat' (first | with_reducible assumption | with_reducible apply modFls_on | with_reducible rfl)

/-! ### Tasks -/

theorem modCmd_on {σ : State} {src : Src} {f : Cmd → Cmd} {s : State} (hon : Onward σ s) : Onward σ (modCmd src f s) := by
  unfold modCmd
  repeat' (first | with_reducible assumption | with_reducible apply modSch_on)
theorem modChain_on {σ : State} {t : TaskRef} {f : Chain → Chain} {s : State} (hon : Onward σ s) : Onward σ (modChain t f s) := by
  unfold modChain
  repeat' (first | with_reducible assumption | with_reducible apply modCmd_on)
theorem wakeJobs_on {σ : State} {s : State} (hon : Onward σ s) : Onward σ (wakeJobs s) := by
  unfold wakeJobs
  repeat' (first | with_reducible assumption | with_reducible apply modSch_on)
theorem modSem_on {σ : State} {i : Nat} {f : Sem → Sem} {s : State} (hon : Onward σ s) : Onward σ (modSem i f s) := by
  unfold modSem
  repeat' (first | with_reducible assumption | with_reducible apply modSch_on)
theorem starveEnd_on {σ : State} {cl : Nat} {s : State} (hon : Onward σ s) : Onward σ (starveEnd cl s) := by
  unfold starveEnd
  repeat' (first
      | with_reducible assumption | with_reducible apply ctrAdd_on | with_reducible apply draw_on | with_reducible apply ite_on)
theorem endWait_on {σ : State} {t : TaskRef} {s : State} (hon : Onward σ s) : Onward σ (endWait t s) := by
  unfold endWait
  repeat' (first
      | with_reducible assumption | with_reducible apply modChain_on | with_reducible apply starveEnd_on | with_reducible apply ite_on
      | split)
theorem grantArrays_on {σ : State} {k : ArrayAsk} {as : List Nat} {s : State} (hon : Onward σ s) : Onward σ (grantArrays k as s) := by
  unfold grantArrays
  repeat' (first | with_reducible assumption | with_reducible apply modArr_on | with_reducible apply ctrAdd_on)
theorem serveArrays_on {σ : State} {n : Nat} {s : State} (h : Onward σ s) : Onward σ (serveArrays n s) := by
  induction n generalizing s with
  | zero => exact h
  | succ n ih =>
    unfold serveArrays
    split
    · exact h
    · exact ih (endWait_on (grantArrays_on (modArr_on h)))
theorem askArrays_on {σ : State} {k : ArrayAsk} {s : State} (hon : Onward σ s) : Onward σ (askArrays k s) := by
  unfold askArrays
  repeat' (first
      | with_reducible assumption | with_reducible apply modArr_on | with_reducible apply modChain_on
      | with_reducible apply grantArrays_on | split)
theorem freeGrants_on {σ : State} {p : Grant → Bool} {s : State} (hon : Onward σ s) : Onward σ (freeGrants p s) := by
  unfold freeGrants
  repeat' (first | with_reducible assumption | with_reducible apply modArr_on | with_reducible apply serveArrays_on)
theorem dropArrays_on {σ : State} {p : TaskRef → Bool} {s : State} (hon : Onward σ s) : Onward σ (dropArrays p s) := by
  unfold dropArrays
  repeat' (first | with_reducible assumption | with_reducible apply modArr_on | with_reducible apply freeGrants_on)
theorem giveUnit_on {σ : State} {i : Nat} {s : State} (hon : Onward σ s) : Onward σ (giveUnit i s) := by
  unfold giveUnit
  repeat' (first
      | with_reducible assumption | with_reducible apply semPacket_on | with_reducible apply modSem_on | with_reducible apply endWait_on
      | with_reducible apply ite_on | split)
theorem giveUnits_on {σ : State} {i n : Nat} {s : State} (h : Onward σ s) : Onward σ (giveUnits i n s) := by
  induction n generalizing s with
  | zero => exact h
  | succ n ih => exact ih (giveUnit_on h)
theorem remark_on {σ : State} {s : State} (hon : Onward σ s) : Onward σ (remark s) := by
  unfold remark
  repeat' (first | with_reducible assumption | with_reducible apply modSch_on)
theorem moveSaved_on {σ : State} {c : Cmd} {out : Bool} {s : State} (hon : Onward σ s) : Onward σ (moveSaved c out s) := by
  unfold moveSaved
  repeat' (first
      | with_reducible assumption | with_reducible intro _ | with_reducible apply modSch_on | with_reducible apply foldl_on | split)
theorem endLending_on {σ : State} {i : Nat} {at_ : Nat} {s : State} (hon : Onward σ s) : Onward σ (endLending i at_ s) := by
  unfold endLending
  repeat' (first
      | with_reducible assumption | with_reducible apply semPacket_on | with_reducible apply ctrPart_on | with_reducible apply modSem_on
      | with_reducible apply moveSaved_on | with_reducible apply ite_on | split)
theorem endLendings_on {σ : State} {src : Src} {at_ : Nat} {s : State} (hon : Onward σ s) : Onward σ (endLendings src at_ s) := by
  unfold endLendings
  repeat' (first
      | with_reducible assumption | with_reducible intro _ | with_reducible apply endLending_on | with_reducible apply foldl_on
      | with_reducible apply ite_on)
theorem releaseHeld_on {σ : State} {src : Src} {s : State} {i : Nat} (hon : Onward σ s) : Onward σ (releaseHeld src s i) := by
  unfold releaseHeld
  repeat' (first
      | with_reducible assumption | with_reducible apply semPacket_on | with_reducible apply raisePart_on
      | with_reducible apply modSem_on | with_reducible apply giveUnits_on | with_reducible apply ite_on | split)
theorem releaseSems_on {σ : State} {src : Src} {s0 : State} (hon : Onward σ s0) : Onward σ (releaseSems src s0) := by
  unfold releaseSems
  repeat' (first
      | with_reducible assumption | with_reducible intro _ | with_reducible apply remark_on | with_reducible apply endLendings_on
      | with_reducible apply releaseHeld_on | with_reducible apply foldl_on)
theorem endSems_on {σ : State} {src : Src} {s : State} (hon : Onward σ s) : Onward σ (endSems src s) := by
  unfold endSems
  repeat' (first | with_reducible assumption | with_reducible apply modSch_on | with_reducible apply remark_on)
theorem dropVersions_on {σ : State} {s : State} (hon : Onward σ s) : Onward σ (dropVersions s) := by
  unfold dropVersions
  repeat' (first
      | with_reducible assumption | with_reducible intro _ | with_reducible apply modInf_on | with_reducible apply uncharge_on
      | with_reducible apply foldl_on)
theorem disarm_on {σ : State} {n : Nat} {s : State} (hon : Onward σ s) : Onward σ (disarm n s) := by
  unfold disarm
  repeat' (first | with_reducible assumption | with_reducible apply modMrg_on | with_reducible apply uncharge_on)
theorem forget_on {σ : State} {src : Src} {s : State} (hon : Onward σ s) : Onward σ (forget src s) := by
  unfold forget
  repeat' (first
      | with_reducible assumption | with_reducible intro _ | with_reducible apply modObj_on | with_reducible apply modSch_on
      | with_reducible apply modXfer_on | with_reducible apply modInf_on | with_reducible apply modIdx_on
      | with_reducible apply modMrg_on | with_reducible apply modScn_on | with_reducible apply freeSlots_on
      | with_reducible apply wakeJobs_on | with_reducible apply dropArrays_on | with_reducible apply dropVersions_on
      | with_reducible apply disarm_on | with_reducible apply foldl_on)
theorem deleteCheck_on {σ : State} {f : Nat} {q : Nat} {s : State} (hon : Onward σ s) : Onward σ (deleteCheck f q s) := by
  unfold deleteCheck
  repeat' (first
      | with_reducible assumption | with_reducible apply modQ_on | with_reducible apply ok_on | with_reducible apply ite_on | split)
theorem writeBack_on {σ : State} {id : Nat} {s : State} (hon : Onward σ s) : Onward σ (writeBack id s) := by
  unfold writeBack
  repeat' (first
      | with_reducible assumption | with_reducible apply modObj_on | with_reducible apply ctrPart_on | with_reducible apply modOne_on
      | with_reducible apply backExtents_on | with_reducible apply ite_on | split)
theorem deliver_on {σ : State} {outObj : Bool} {addr : Nat} {out : List Byte} {s : State} (hon : Onward σ s) : Onward σ (deliver outObj
    addr out s) := by
  unfold deliver
  repeat' (first
      | with_reducible assumption | with_reducible apply writeT2_on | with_reducible apply writeObj_on
      | with_reducible apply writeBack_on | with_reducible apply ite_on)
theorem park_on {σ : State} {c : Cmd} {part : Nat} {out : List Byte} {s : State} (hon : Onward σ s) : Onward σ (park c part out s) := by
  unfold park
  repeat' (first
      | with_reducible assumption | with_reducible apply modHb_on | with_reducible apply ctrAdd_on | with_reducible apply charge_on
      | refine OnwardE.get (fit_on ?_) (by assumption) | split)
theorem writeBackAll_on {σ : State} {c : Cmd} {s : State} (hon : Onward σ s) : Onward σ (writeBackAll c s) := by
  unfold writeBackAll
  repeat' (first
      | with_reducible assumption | with_reducible intro _ | with_reducible apply writeBack_on | with_reducible apply foldl_on
      | with_reducible apply ite_on)
theorem endWith_on {σ : State} {src : Src} {out : List Byte} {f : Fail} {s0 : State} (hon : Onward σ s0) : Onward σ (endWith src out f s0)
    := by
  unfold endWith
  repeat' (first
      | with_reducible assumption | with_reducible apply failMilris_on | with_reducible apply modCmd_on
      | with_reducible apply releaseSems_on | with_reducible apply forget_on | with_reducible apply deleteCheck_on
      | with_reducible apply deliver_on | with_reducible apply park_on | with_reducible apply writeBackAll_on
      | with_reducible apply ite_on | split)
theorem dropCmd_on {σ : State} {src : Src} {s : State} (hon : Onward σ s) : Onward σ (dropCmd src s) := by
  unfold dropCmd
  repeat' (first
      | with_reducible assumption | with_reducible apply modQ_on | with_reducible apply releaseSems_on | with_reducible apply forget_on)
theorem discardCmd_on {σ : State} {src : Src} {s : State} (hon : Onward σ s) : Onward σ (discardCmd src s) := by
  unfold discardCmd
  repeat' (first
      | with_reducible assumption | with_reducible apply modCmd_on | with_reducible apply dropCmd_on | with_reducible apply ite_on)
theorem noteWrite_on {σ : State} {src : Src} {id : Nat} {stop : Nat} {s : State} (hon : Onward σ s) : Onward σ (noteWrite src id stop s)
    := by
  unfold noteWrite
  repeat' (first | with_reducible assumption | with_reducible apply modCmd_on)
theorem markArms_on {σ : State} {c : Cmd} {wrote : List (Nat × Nat)} {s : State} (hon : Onward σ s) : Onward σ (markArms c wrote s) := by
  unfold markArms
  repeat' (first | with_reducible assumption | with_reducible apply modInf_on)
theorem finish_on {σ : State} {c : Cmd} {s0 : State} (hon : Onward σ s0) : Onward σ (finish c s0) := by
  unfold finish
  repeat' (first
      | with_reducible assumption | with_reducible apply post_on | with_reducible apply ok_on | with_reducible apply writeObj_on
      | with_reducible apply endSems_on | with_reducible apply forget_on | with_reducible apply deleteCheck_on
      | with_reducible apply deliver_on | with_reducible apply park_on | with_reducible apply writeBackAll_on
      | with_reducible apply endWith_on | with_reducible apply markArms_on | with_reducible apply ite_on)
theorem keepAnswer_on {σ : State} {src : Src} {s : State} (hon : Onward σ s) : Onward σ (keepAnswer src s) := by
  unfold keepAnswer
  repeat' (first | with_reducible assumption | with_reducible apply modCmd_on)
theorem settleHost_on {σ : State} {src : Src} {s : State} (hon : Onward σ s) : Onward σ (settleHost src s) := by
  unfold settleHost
  repeat' (first
      | with_reducible assumption | with_reducible apply endWith_on | with_reducible apply dropCmd_on | with_reducible apply finish_on
      | with_reducible apply keepAnswer_on | with_reducible apply ite_on | split)
theorem ingestFailed_on {σ : State} {a : Arm} {f : Failure} {s : State} (hon : Onward σ s) : Onward σ (ingestFailed a f s) := by
  unfold ingestFailed
  repeat' (first
      | with_reducible assumption | with_reducible apply modInf_on | with_reducible apply ctrPart_on | with_reducible apply raisePart_on
      | with_reducible apply logCmp_on | with_reducible apply ite_on)
theorem endOwn_on {σ : State} {src : Src} {s : State} (hon : Onward σ s) : Onward σ (endOwn src s) := by
  unfold endOwn
  repeat' (first
      | with_reducible assumption | with_reducible apply releaseSems_on | with_reducible apply forget_on
      | with_reducible apply writeBackAll_on | split)
theorem failMember_on {σ : State} {f : Failure} {s : State} {src : Src} (hon : Onward σ s) : Onward σ (failMember f s src) := by
  unfold failMember
  repeat' (first | with_reducible assumption | with_reducible apply modCmd_on | with_reducible apply settleHost_on)
theorem failOwn_on {σ : State} {src : Src} {f : Failure} {s : State} (hon : Onward σ s) : Onward σ (failOwn src f s) := by
  unfold failOwn
  repeat' (first
      | with_reducible assumption | with_reducible intro _ | with_reducible apply ingestFailed_on | with_reducible apply endOwn_on
      | with_reducible apply failMember_on | with_reducible apply foldl_on | with_reducible apply ite_on | split)
theorem moveCursor_on {σ : State} {src : Src} {stop : Nat} {s : State} (hon : Onward σ s) : Onward σ (moveCursor src stop s) := by
  unfold moveCursor
  repeat' (first | with_reducible assumption | with_reducible apply modInf_on)
theorem finishOwn_on {σ : State} {c : Cmd} {s : State} (hon : Onward σ s) : Onward σ (finishOwn c s) := by
  unfold finishOwn
  repeat' (first
      | with_reducible assumption | with_reducible intro _ | with_reducible apply settleHost_on | with_reducible apply endOwn_on
      | with_reducible apply failOwn_on | with_reducible apply moveCursor_on | with_reducible apply foldl_on
      | with_reducible apply ite_on)
theorem settleBatch_on {σ : State} {c : Cmd} {s : State} (hon : Onward σ s) : Onward σ (settleBatch c s) := by
  unfold settleBatch
  repeat' (first
      | with_reducible assumption | with_reducible intro _ | with_reducible apply settleHost_on | with_reducible apply endOwn_on
      | with_reducible apply foldl_on | with_reducible apply ite_on)
theorem settleOwn_on {σ : State} {src : Src} {s : State} (hon : Onward σ s) : Onward σ (settleOwn src s) := by
  unfold settleOwn
  repeat' (first
      | with_reducible assumption | with_reducible apply endOwn_on | with_reducible apply failOwn_on | with_reducible apply finishOwn_on
      | with_reducible apply settleBatch_on | with_reducible apply ite_on | split)
theorem settle_on {σ : State} {src : Src} {s : State} (hon : Onward σ s) : Onward σ (settle src s) := by
  unfold settle
  repeat' (first
      | with_reducible assumption | with_reducible apply settleHost_on | with_reducible apply settleOwn_on | with_reducible apply ite_on)
theorem endFailed_on {σ : State} {src : Src} {f : Fail} {s : State} (hon : Onward σ s) : Onward σ (endFailed src f s) := by
  unfold endFailed
  repeat' (first
      | with_reducible assumption | with_reducible apply endWith_on | with_reducible apply failOwn_on | with_reducible apply ite_on)
theorem failCmd_on {σ : State} {src : Src} {x : Failure} {task : Nat} {cluster : Nat} {s : State} (hon : Onward σ s) : Onward σ (failCmd
    src x task cluster s) := by
  unfold failCmd
  repeat' (first | with_reducible assumption | with_reducible apply modCmd_on | with_reducible apply settle_on)
theorem leaveCluster_on {σ : State} {t : TaskRef} {s : State} (hon : Onward σ s) : Onward σ (leaveCluster t s) := by
  unfold leaveCluster
  repeat' (first
      | with_reducible assumption | with_reducible apply modSch_on | with_reducible apply modXfer_on | with_reducible apply modChain_on
      | with_reducible apply endWait_on | with_reducible apply dropArrays_on)
theorem failTask_on {σ : State} {t : TaskRef} {f : Fail} {s : State} (hon : Onward σ s) : Onward σ (failTask t f s) := by
  unfold failTask
  repeat' (first
      | with_reducible assumption | with_reducible apply taskPacket_on | with_reducible apply failCmd_on
      | with_reducible apply leaveCluster_on | split)
theorem failWhole_on {σ : State} {src : Src} {f : Fail} {s : State} (hon : Onward σ s) : Onward σ (failWhole src f s) := by
  unfold failWhole
  repeat' (first | with_reducible assumption | with_reducible apply failCmd_on)
theorem enrol_on {σ : State} {c : Cmd} {s : State} (hon : Onward σ s) : Onward σ (enrol c s) := by
  unfold enrol
  repeat' (first | with_reducible assumption | with_reducible apply modSch_on)

/-! ### Objects -/

theorem takeT0_on {σ : State} {owner : Owner} {dome : Nat} {first : Nat} {chunks : Nat} {s : State} (hon : Onward σ s) : OnwardE σ (takeT0
    owner dome first chunks s) := by
  unfold takeT0
  repeat' (first
      | with_reducible assumption | exact OnwardE.error | with_reducible apply OnwardE.ok | with_reducible apply modObj_on
      | with_reducible apply iteE_on)
theorem take_on {σ : State} {owner : Owner} {tier : Nat} {dome : Nat} {bytes : Nat} {s : State} {keep : List (Nat × Nat)} (hon : Onward σ
    s) : OnwardE σ (take owner tier dome bytes s keep) := by
  unfold take
  repeat' (first
      | with_reducible assumption | exact OnwardE.error | with_reducible apply OnwardE.ok | with_reducible apply charge_on
      | refine OnwardE.get (fitKeeping_on ?_) (by assumption) | with_reducible apply takeT0_on | with_reducible apply iteE_on | split)
theorem quotaOr_on {σ : State} {tier : Nat} {r : Except Nat State} (h : OnwardE σ r) : OnwardE σ (quotaOr tier r) := by
  unfold quotaOr
  split
  · exact OnwardE.ok (h.get (by rfl))
  · exact OnwardE.error
theorem takeResident_on {σ : State} {o : Obj} {page : Nat} {s : State} {keep : List (Nat × Nat)} (hon : Onward σ s) : OnwardE σ
    (takeResident o page s keep) := by
  unfold takeResident
  repeat' (first
      | with_reducible assumption | with_reducible apply takeT0_on | with_reducible apply take_on | with_reducible apply quotaOr_on
      | with_reducible apply iteE_on)
theorem takeHome_on {σ : State} {o : Obj} {s : State} (hon : Onward σ s) : OnwardE σ (takeHome o s) := by
  unfold takeHome
  repeat' (first
      | with_reducible assumption | with_reducible intro _ | exact OnwardE.error | with_reducible apply OnwardE.ok
      | with_reducible apply take_on | with_reducible apply quotaOr_on | with_reducible apply takeResident_on
      | exact OnwardE.get (by assumption) (by rfl) | with_reducible apply foldlE_on | with_reducible apply iteE_on | split)
theorem stamp_on {σ : State} {s : State} (hon : Onward σ s) : Onward σ (stamp s).2 := by
  unfold stamp
  repeat' (first | with_reducible assumption | with_reducible apply modObj_on)
theorem dropObject_on {σ : State} {id : Nat} {s : State} (hon : Onward σ s) : Onward σ (dropObject id s) := by
  unfold dropObject
  repeat' (first
      | with_reducible assumption | with_reducible apply modObj_on | with_reducible apply modQnt_on | with_reducible apply modIdx_on
      | with_reducible apply freeSlots_on | with_reducible apply freedOn_on)
theorem destroy_on {σ : State} {id : Nat} {s : State} (hon : Onward σ s) : Onward σ (destroy id s) := by
  unfold destroy
  repeat' (first
      | with_reducible assumption | with_reducible apply modObj_on | with_reducible apply modIdx_on | with_reducible apply dropSpace_on)
theorem takeExtents_on {σ : State} {id : Nat} {dome : Nat} {size : Nat} {s : State} (hon : Onward σ s) : OnwardE σ (takeExtents id dome
    size s) := by
  unfold takeExtents
  repeat' (first
      | with_reducible assumption | with_reducible apply modObj_on | with_reducible apply take_on | with_reducible apply quotaOr_on)
theorem placeFresh_on {σ : State} {e : Entry} {id size : Nat} {base : Obj} {f : BitVec 8} {s : State} (h : Onward σ s) :
    OnwardE σ (placeNew.placeFresh e id size base f s) := by
  unfold placeNew.placeFresh
  split
  · split
    · exact OnwardE.error
    · extract_lets o
      split
      · exact OnwardE.error
      · exact OnwardE.ok (ok_on (modObj_on ((takeHome_on h).get (by assumption))))
  · split
    · exact OnwardE.error
    · extract_lets o
      split
      · exact OnwardE.error
      · next t e =>
        have ht : Onward σ t := (takeHome_on h).get e
        split
        · split
          · exact OnwardE.error
          · next e => exact OnwardE.ok (ok_on (backExtents_on (modObj_on ((takeExtents_on ht).get e))))
        · exact OnwardE.ok (ok_on (modObj_on ht))
theorem bindE_on {ε : Type} {σ : State} {r : Except ε State} {f : State → Except ε State} (h : OnwardE σ r)
    (g : ∀ t, Onward σ t → OnwardE σ (f t)) : OnwardE σ (r.bind f) := by
  cases r with
  | error e => exact OnwardE.error
  | ok t => exact g t (h.get (by rfl))
theorem placeNew_on {σ : State} {e : Entry} {id size : Nat} {f : BitVec 8} {s : State} (h : Onward σ s) : OnwardE σ (placeNew e id size f
    s) := by
  unfold placeNew
  extract_lets dome part key base
  clear_value dome part key base
  split
  · split
    · split
      · exact OnwardE.error
      · split
        · exact OnwardE.error
        · split
          · exact OnwardE.error
          · next e => exact OnwardE.ok (ok_on (modObj_on (OnwardE.get (bindE_on (takeHome_on h) fun t ht => takeExtents_on ht) e)))
    · exact placeFresh_on h
  · exact placeFresh_on h
theorem moveAway_on {σ : State} {o : Obj} {extents : Bool} {s : State} (hon : Onward σ s) : Onward σ (moveAway o extents s) := by
  unfold moveAway
  repeat' (first | with_reducible assumption | with_reducible apply modObj_on)
theorem movedAway_on {σ : State} {id : Nat} {s : State} (hon : Onward σ s) : Onward σ (movedAway id s) := by
  unfold movedAway
  repeat' (first | with_reducible assumption | with_reducible apply modObj_on | with_reducible apply freedOn_on)
theorem dropHome_on {σ : State} {id : Nat} {s : State} (hon : Onward σ s) : Onward σ (dropHome id s) := by
  unfold dropHome
  repeat' (first | with_reducible assumption | with_reducible apply modObj_on | with_reducible apply freedOn_on)
theorem placeAgain_on {σ : State} {e : Entry} {o : Obj} {size : Nat} {f : BitVec 8} {s : State} (h : Onward σ s) :
    OnwardE σ (placeAgain e o size f s) := by
  unfold placeAgain
  split
  · exact OnwardE.error
  split
  · exact OnwardE.error
  split
  · exact OnwardE.error
  extract_lets dome adds removes same key n s0
  have h0 : Onward σ s0 := ite_on h (ite_on (dropHome_on h) (moveAway_on h))
  clear_value dome adds removes same key n s0
  split
  · exact OnwardE.error
  next t e1 =>
  have ht : Onward σ t := OnwardE.get (iteE_on (OnwardE.ok h) (takeHome_on h0)) e1
  extract_lets absent
  clear_value absent
  split
  · exact OnwardE.error
  next u e2 =>
  have hu : Onward σ u := OnwardE.get (iteE_on (mapE_on (takeExtents_on ht) fun t h => backExtents_on (modObj_on h))
    (iteE_on (OnwardE.ok (ctrPart_on (destroy_on ht))) (iteE_on (takeExtents_on ht) (OnwardE.ok ht)))) e2
  extract_lets u1 left
  have h1 : Onward σ u1 := ite_on hu (modIdx_on (uncharge_on hu))
  clear_value u1
  exact OnwardE.ok (ok_on (movedAway_on (modObj_on h1)))
theorem takePage_on {σ : State} {keep : List (Nat × Nat)} {p : Nat × Nat} {s : State} (hon : Onward σ s) : OnwardE σ (takePage keep p s)
    := by
  unfold takePage
  repeat' (first
      | with_reducible assumption | exact OnwardE.error | with_reducible apply OnwardE.ok | with_reducible apply takeResident_on
      | with_reducible apply iteE_on | split)
theorem takePages_on {σ : State} {keep l : List (Nat × Nat)} {s : State} (h : Onward σ s) : OnwardE σ (takePages keep l s) := by
  induction l generalizing s with
  | nil => exact OnwardE.ok h
  | cons p r ih =>
    unfold takePages
    split
    · exact OnwardE.error
    · exact ih ((takePage_on h).get (by assumption))
theorem startWaitingFills_on {σ : State} {s : State} (hon : Onward σ s) : Onward σ (startWaitingFills s) := by
  unfold startWaitingFills
  repeat' (first | with_reducible assumption | with_reducible apply modSch_on)

/-! ### Plans -/

theorem admitPlan_on {σ : State} {c : Cmd} {p : Plan} {e : Entry} {s : State} (hon : Onward σ s) : Onward σ (admitPlan c p e s) := by
  unfold admitPlan
  repeat' (first | with_reducible assumption | with_reducible apply enrol_on)
theorem beginFirstFill_on {σ : State} {src : Src} {s : State} (hon : Onward σ s) : Onward σ (beginFirstFill src s) := by
  unfold beginFirstFill
  repeat' (first | with_reducible assumption | with_reducible apply modChain_on | with_reducible apply ite_on | split)

/-! ### Sequences -/

theorem modSeq_on {σ : State} {src : Src} {f : Seq → Seq} {s : State} (hon : Onward σ s) : Onward σ (modSeq src f s) := by
  unfold modSeq
  repeat' (first | with_reducible assumption | with_reducible apply modInf_on)
theorem startBlock_on {σ : State} {k : KvShape} {pool : Nat} {block : Nat} {first : Nat} {s : State} (hon : Onward σ s) : Onward σ
    (startBlock k pool block first s) := by
  unfold startBlock
  repeat' (first
      | with_reducible assumption | with_reducible intro _ | with_reducible apply writeObj_on | with_reducible apply foldl_on
      | with_reducible apply ite_on)
theorem takeBlocks_on {σ : State} {src : Src} {s : State} (hon : Onward σ s) : Onward σ (takeBlocks src s) := by
  unfold takeBlocks
  repeat' (first
      | with_reducible assumption | with_reducible intro _ | with_reducible apply ctrPart_on | with_reducible apply modCmd_on
      | with_reducible apply modSeq_on | with_reducible apply startBlock_on | with_reducible apply foldl_on | with_reducible apply ite_on
      | split)
theorem markRow_on {σ : State} {k : KvShape} {a : KvAt} {slot : Option Nat} {s : State} (hon : Onward σ s) : Onward σ (markRow k a slot s)
    := by
  unfold markRow
  repeat' (first | with_reducible assumption | with_reducible apply writeObj_on | split)
theorem putKv_on {σ : State} {k : KvShape} {a : KvAt} {slot : Option Nat} {off : Nat} {codes : List Byte} {scale : Option Nat} {s : State}
    (hon : Onward σ s) : Onward σ (putKv k a slot off codes scale s) := by
  unfold putKv
  repeat' (first
      | with_reducible assumption | with_reducible apply writeObj_on | with_reducible apply markRow_on | with_reducible apply ite_on
      | split)

/-! ### Structure -/

theorem countChanges_on {σ : State} {old : State} {s : State} (hon : Onward σ s) : Onward σ (countChanges old s) := by
  unfold countChanges
  repeat' (first | with_reducible assumption | with_reducible apply modStr_on)
theorem clearDomeCounters_on {σ : State} {gone : List Nat} {s : State} (hon : Onward σ s) : Onward σ (clearDomeCounters gone s) := by
  unfold clearDomeCounters
  repeat' (first | with_reducible assumption | with_reducible apply modCtr_on)
theorem removalEvents_on {σ : State} {d : Nat} {s : State} (hon : Onward σ s) : Onward σ (removalEvents d s) := by
  unfold removalEvents
  repeat' (first | with_reducible assumption | with_reducible intro _ | with_reducible apply raise_on | with_reducible apply foldl_on)
theorem removeDomes_on {σ : State} {gone : List Nat} {s : State} (hon : Onward σ s) : Onward σ (removeDomes gone s) := by
  unfold removeDomes
  repeat' (first
      | with_reducible assumption | with_reducible intro _ | with_reducible apply modSch_on | with_reducible apply modInf_on
      | with_reducible apply freeSlots_on | with_reducible apply endFailed_on | with_reducible apply dropObject_on
      | with_reducible apply clearDomeCounters_on | with_reducible apply removalEvents_on | with_reducible apply foldl_on)
theorem settleStreams_on {σ : State} {decls : List StreamDecl} {redeclared : Nat → Bool} {s : State} (hon : Onward σ s) : Onward σ
    (settleStreams decls redeclared s) := by
  unfold settleStreams
  repeat' (first
      | with_reducible assumption | with_reducible intro _ | with_reducible apply modStrm_on | with_reducible apply endFailed_on
      | with_reducible apply foldl_on)
theorem chargeStructure_on {σ : State} {s : State} (hon : Onward σ s) : Onward σ (chargeStructure s) := by
  unfold chargeStructure
  repeat' (first
      | with_reducible assumption | with_reducible intro _ | with_reducible apply modObj_on | with_reducible apply charge_on
      | with_reducible apply foldl_on)
theorem freeForImage_on {σ : State} {img : Image} {old : State} {s : State} (hon : Onward σ s) : Onward σ (freeForImage img old s) := by
  unfold freeForImage
  repeat' (first
      | with_reducible assumption | with_reducible intro _ | refine OnwardE.get (fit_on ?_) (by assumption)
      | with_reducible apply foldl_on | split)
theorem failUnlisted_on {σ : State} {s : State} (hon : Onward σ s) : Onward σ (failUnlisted s) := by
  unfold failUnlisted
  repeat' (first | with_reducible assumption | with_reducible intro _ | with_reducible apply failTask_on | with_reducible apply foldl_on)
theorem routeEvents_on {σ : State} {gs : List EvGroupDef × List (Nat × Nat)} {s : State} (hon : Onward σ s) : Onward σ (routeEvents gs s)
    := by
  unfold routeEvents
  repeat' (first
      | with_reducible assumption | with_reducible intro _ | with_reducible apply modEvt_on | with_reducible apply setNew_on
      | with_reducible apply foldl_on)
theorem clearSlotSources_on {σ : State} {s : State} (hon : Onward σ s) : Onward σ (clearSlotSources s) := by
  unfold clearSlotSources
  repeat' (first | with_reducible assumption | with_reducible apply modEvt_on | with_reducible apply modCtr_on)
theorem applyImage_on {σ : State} {img : Image} {src : Src} {s : State} (hon : Onward σ s) : Onward σ (applyImage img src s) := by
  unfold applyImage
  repeat' (first
      | with_reducible assumption | with_reducible apply modStr_on | with_reducible apply modSch_on | with_reducible apply ok_on
      | with_reducible apply countChanges_on | with_reducible apply removeDomes_on | with_reducible apply settleStreams_on
      | with_reducible apply chargeStructure_on | with_reducible apply freeForImage_on | with_reducible apply failUnlisted_on
      | with_reducible apply routeEvents_on | with_reducible apply clearSlotSources_on | with_reducible apply ite_on | split)
theorem dissolveNow_on {σ : State} {dome : Nat} {s : State} (hon : Onward σ s) : Onward σ (dissolveNow dome s) := by
  unfold dissolveNow
  repeat' (first
      | with_reducible assumption | with_reducible apply modStr_on | with_reducible apply modSch_on
      | with_reducible apply structurePacket_on | with_reducible apply countChanges_on | with_reducible apply removeDomes_on
      | with_reducible apply settleStreams_on | with_reducible apply chargeStructure_on)
theorem applyDissolve_on {σ : State} {dome : Nat} {src : Src} {s : State} (hon : Onward σ s) : Onward σ (applyDissolve dome src s) := by
  unfold applyDissolve
  repeat' (first
      | with_reducible assumption | with_reducible apply modStr_on | with_reducible apply ok_on | with_reducible apply dissolveNow_on)
theorem changeNow_on {σ : State} {s : State} (hon : Onward σ s) : Onward σ (changeNow s) := by
  unfold changeNow
  repeat' (first
      | with_reducible assumption | with_reducible apply structurePacket_on | with_reducible apply applyImage_on
      | with_reducible apply applyDissolve_on | split)
theorem reserve_on {σ : State} {img : Image} {s : State} (hon : Onward σ s) : Onward σ (reserve img s) := by
  unfold reserve
  repeat' (first
      | with_reducible assumption | with_reducible intro _ | with_reducible apply modObj_on | with_reducible apply charge_on
      | refine OnwardE.get (fit_on ?_) (by assumption) | with_reducible apply foldl_on | with_reducible apply ite_on | split)
theorem markDissolving_on {σ : State} {gone : Nat → Bool} {s : State} (hon : Onward σ s) : Onward σ (markDissolving gone s) := by
  unfold markDissolving
  repeat' (first | with_reducible assumption | with_reducible apply modStr_on)
theorem setBindings_on {σ : State} {f : List (Nat × Nat) → List (Nat × Nat)} {s : State} (hon : Onward σ s) : Onward σ (setBindings f s)
    := by
  unfold setBindings
  repeat' (first | with_reducible assumption | with_reducible apply modStr_on)
theorem spillToT1_on {σ : State} {o : Obj} {s : State} (hon : Onward σ s) : OnwardO σ (spillToT1 o s) := by
  unfold spillToT1
  repeat' (first
      | with_reducible assumption | exact OnwardO.none | with_reducible apply OnwardO.some | with_reducible apply modObj_on
      | with_reducible apply modOne_on | with_reducible apply freedOn_on | refine OnwardE.get (takeHome_on ?_) (by assumption) | split
      | dsimp only)
theorem retire_on {σ : State} {id : Nat} {s : State} (hon : Onward σ s) : Onward σ (retire id s) := by
  unfold retire
  repeat' (first | with_reducible assumption | with_reducible apply modObj_on | with_reducible apply dropObject_on)
theorem fenceRelease_on {σ : State} {id : Nat} {s : State} (hon : Onward σ s) : Onward σ (fenceRelease id s) := by
  unfold fenceRelease
  repeat' (first
      | with_reducible assumption | with_reducible intro _ | with_reducible apply modSch_on | with_reducible apply modOne_on
      | with_reducible apply failWhole_on | with_reducible apply dropObject_on | with_reducible apply retire_on
      | with_reducible apply foldl_on | with_reducible apply ite_on)
theorem loseT0_on {σ : State} {c : Nat} {s : State} (hon : Onward σ s) : Onward σ (loseT0 c s) := by
  unfold loseT0
  repeat' (first
      | with_reducible assumption | with_reducible intro _ | with_reducible apply modObj_on | with_reducible apply modSch_on
      | refine OnwardO.get (spillToT1_on ?_) (by assumption) | with_reducible apply fenceRelease_on | with_reducible apply foldl_on
      | with_reducible apply ite_on | split)
theorem moveT0_on {σ : State} {c : Nat} {r : Nat} {s : State} (hon : Onward σ s) : Onward σ (moveT0 c r s) := by
  unfold moveT0
  repeat' (first | with_reducible assumption | with_reducible apply modObj_on | with_reducible apply modSch_on)
theorem applyFence_on {σ : State} {c : Nat} {repl : Option Nat} {fault : Bool} {s : State} (hon : Onward σ s) : Onward σ (applyFence c
    repl fault s) := by
  unfold applyFence
  repeat' (first
      | with_reducible assumption | with_reducible intro _ | with_reducible apply modStr_on | with_reducible apply structurePacket_on
      | with_reducible apply raise_on | with_reducible apply raisePart_on | with_reducible apply freedOn_on
      | with_reducible apply countChanges_on | with_reducible apply loseT0_on | with_reducible apply moveT0_on
      | with_reducible apply foldl_on | with_reducible apply ite_on | split)
theorem faultFence_on {σ : State} {c : Nat} {s : State} (hon : Onward σ s) : Onward σ (faultFence c s) := by
  unfold faultFence
  repeat' (first
      | with_reducible assumption | with_reducible intro _ | with_reducible apply failTask_on | with_reducible apply applyFence_on
      | with_reducible apply foldl_on | with_reducible apply ite_on)
theorem fenceNow_on {σ : State} {r : FenceReq} {s0 : State} (hon : Onward σ s0) : Onward σ (fenceNow r s0) := by
  unfold fenceNow
  repeat' (first
      | with_reducible assumption | with_reducible apply modStr_on | with_reducible apply ok_on | with_reducible apply refuse_on
      | with_reducible apply applyFence_on | with_reducible apply ite_on)
theorem unfenceNow_on {σ : State} {r : FenceReq} {s0 : State} (hon : Onward σ s0) : Onward σ (unfenceNow r s0) := by
  unfold unfenceNow
  repeat' (first
      | with_reducible assumption | with_reducible apply modStr_on | with_reducible apply structurePacket_on | with_reducible apply ok_on
      | with_reducible apply refuse_on | with_reducible apply ite_on)

/-! ### Levels -/

theorem modRd_on {σ : State} {g : Nat} {f : RdGroup → RdGroup} {s : State} (hon : Onward σ s) : Onward σ (modRd g f s) := by
  unfold modRd
  repeat' (first | with_reducible assumption | with_reducible apply modCal_on)
theorem noteRead_on {σ : State} {block : Nat} {sampled : Bool} {r : ReadEnd} {iterations : Nat} {updown : List (Nat × Nat)} {s : State}
    (hon : Onward σ s) : Onward σ (noteRead block sampled r iterations updown s) := by
  unfold noteRead
  repeat' (first | with_reducible assumption | with_reducible apply modRd_on | with_reducible apply ite_on)
theorem evalGroup_on {σ : State} {g : Nat} {x : RdStats} {s : State} (hon : Onward σ s) : Onward σ (evalGroup g x s).1 := by
  unfold evalGroup
  repeat' (first
      | with_reducible assumption | with_reducible apply ctrAdd_on | with_reducible apply modRd_on | with_reducible apply ite_on)
theorem recalStep_on {σ : State} {g : Nat} {changed : Bool} {s : State} (hon : Onward σ s) : Onward σ (recalStep g changed s) := by
  unfold recalStep
  repeat' (first
      | with_reducible assumption | with_reducible intro _ | with_reducible apply modCal_on | with_reducible apply ok_on
      | with_reducible apply foldl_on)

/-! ### Flash -/

theorem formGroup_on {σ : State} {members : List Nat} {source : WriteSource} {fine : Bool} {s : State} (hon : Onward σ s) : Onward σ
    (formGroup members source fine s) := by
  unfold formGroup
  repeat' (first
      | with_reducible assumption | with_reducible intro _ | with_reducible apply modFls_on | with_reducible apply modBlock_on
      | with_reducible apply foldl_on | with_reducible rfl)
theorem openTarget_on {σ : State} {group : Nat} {members : List Nat} {source : WriteSource} {fine : Bool} {floor : Bool} {need : Nat} {s :
    State} (hon : Onward σ s) : OnwardO σ (openTarget group members source fine floor need s) := by
  unfold openTarget
  repeat' (first
      | with_reducible assumption | exact OnwardO.none | with_reducible apply OnwardO.some | with_reducible apply formGroup_on | split)
theorem startProgram_on {σ : State} {group : Nat} {p : Prog} {need : Nat} {s : State} (hon : Onward σ s) : Onward σ (startProgram group p
    need s) := by
  unfold startProgram
  repeat' (first
      | with_reducible assumption | with_reducible intro _ | with_reducible apply modDie_on | with_reducible apply modGroup_on
      | with_reducible apply foldl_on | split)
theorem endProgram_on {σ : State} {g : Group} {s : State} (hon : Onward σ s) : Onward σ (endProgram g s) := by
  unfold endProgram
  repeat' (first | with_reducible assumption | with_reducible intro _ | with_reducible apply modDie_on | with_reducible apply foldl_on)
theorem mapProg_on {σ : State} {group : Nat} {p : Prog} {s : State} (hon : Onward σ s) : Onward σ (mapProg group p s) := by
  unfold mapProg
  repeat' (first
      | with_reducible assumption | with_reducible apply modFls_on | with_reducible apply putExtent_on | with_reducible apply ite_on
      | split | with_reducible rfl)
theorem closeFull_on {σ : State} {group : Nat} {s : State} (hon : Onward σ s) : Onward σ (closeFull group s) := by
  unfold closeFull
  repeat' (first
      | with_reducible assumption | with_reducible intro _ | with_reducible apply modBlock_on | with_reducible apply modGroup_on
      | with_reducible apply foldl_on | with_reducible apply ite_on | split)
theorem countProgram_on {σ : State} {g : Group} {pages : Nat} {s : State} (hon : Onward σ s) : Onward σ (countProgram g pages s) := by
  unfold countProgram
  repeat' (first
      | with_reducible assumption | with_reducible intro _ | with_reducible apply countClass_on | with_reducible apply foldl_on)
theorem copyExtents_on {σ : State} {target src : Nat} {l : List Extent} {s : State} (h : Onward σ s) :
    Onward σ (copyExtents target src l s) := by
  induction l generalizing s with
  | nil => exact h
  | cons e r ih =>
    unfold copyExtents
    split
    · exact h
    · split
      · exact h
      · exact ih (ctrAdd_on (modGroup_on (startProgram_on h)))
theorem idleDie_on {σ : State} {d : Nat} {s : State} (hon : Onward σ s) : Onward σ (idleDie d s) := by
  unfold idleDie
  repeat' (first | with_reducible assumption | with_reducible apply modDie_on)
theorem startRetire_on {σ : State} {die : Nat} {src : Option Src} {s : State} (h : Onward σ s) : Onward σ (startRetire die src s) := by
  unfold startRetire
  dsimp only
  refine spendSpares_on (modFls_on (foldl_on (modDie_on h) fun x g hx => ?_) (by rfl) (by rfl)) (by rfl)
  exact foldl_on (modGroup_on hx) fun x b hx => modBlock_on hx
theorem substitute_on {σ : State} {b : Nat} {s : State} (h : Onward σ s) : Onward σ (substitute b s) := by
  unfold substitute
  split
  · exact h
  · split
    · exact h
    · extract_lets g s0 s1 s2
      have h2 : Onward σ s2 := modBlock_on (modBlock_on (countClass_on (countClass_on h)))
      clear_value s2
      exact modFls_on h2 (by rfl) (by rfl)
theorem loseExtent_on {σ : State} {die : Nat} {e : Extent} {s : State} (hon : Onward σ s) : Onward σ (loseExtent die e s) := by
  unfold loseExtent
  repeat' (first
      | with_reducible assumption | with_reducible apply modFls_on | with_reducible apply reportUnc_on
      | with_reducible apply putExtent_on | with_reducible rfl)

/-! ### Nvm -/

theorem modNs_on {σ : State} {n : Nat} {f : Ns → Ns} {s : State} (hon : Onward σ s) : Onward σ (modNs n f s) := by
  unfold modNs
  repeat' (first | with_reducible assumption | with_reducible apply modFls_on | with_reducible rfl)
theorem runNvm_on {σ : State} {op : Nat} {n : Nvm} {own : State → Except Fail State} {s : State} (h : Onward σ s)
    (g : ∀ x, Onward σ x → OnwardE σ (own x)) : Runs σ (runNvm op n own s) := by
  unfold runNvm
  split
  · exact Runs.next h
  · refine taken_on h fun x hx => ?_
    split
    · exact (g x hx).get (by assumption)
    · exact refuse_on hx
theorem suspendOp_on {σ : State} {die : Nat} {o : DieOp} {s : State} (hon : Onward σ s) : Onward σ (suspendOp die o s) := by
  unfold suspendOp
  repeat' (first
      | with_reducible assumption | with_reducible apply ctrAdd_on | with_reducible apply modBlock_on | with_reducible apply modDie_on
      | with_reducible apply ite_on)
theorem sendRead_on {σ : State} {block : Nat} {page : Nat} {s : State} (hon : Onward σ s) : Onward σ (sendRead block page s) := by
  unfold sendRead
  repeat' (first
      | with_reducible assumption | with_reducible apply ctrAdd_on | with_reducible apply modBlock_on | with_reducible apply modDie_on
      | with_reducible apply suspendOp_on | with_reducible apply ite_on | split)
theorem endRead_on {σ : State} {r : NvmRead} {s : State} (hon : Onward σ s) : Onward σ (endRead r s) := by
  unfold endRead
  repeat' (first
      | with_reducible assumption | with_reducible apply modHb_on | with_reducible apply modFls_on | with_reducible apply ctrAdd_on
      | with_reducible apply ok_on | with_reducible apply writeT2_on | with_reducible apply refuse_on | with_reducible apply ite_on
      | with_reducible rfl)
theorem beginRead_on {σ : State} {n : Nvm} {x : Ns} {verify : Bool} {s : State} (hon : Onward σ s) : Onward σ (beginRead n x verify s) :=
    by
  unfold beginRead
  repeat' (first
      | with_reducible assumption | with_reducible intro _ | with_reducible apply modFls_on | with_reducible apply guarded_on
      | with_reducible apply sendRead_on | with_reducible apply endRead_on | with_reducible apply foldl_on | with_reducible apply ite_on
      | with_reducible rfl)
theorem serveRead_on {σ : State} {block : Nat} {page : Nat} {s : State} (hon : Onward σ s) : OnwardO σ (serveRead block page s) := by
  unfold serveRead
  repeat' (first
      | with_reducible assumption | exact OnwardO.none | with_reducible apply OnwardO.some | with_reducible apply modDie_on
      | with_reducible apply suspendOp_on | split | dsimp only)
theorem cacheWrite_on {σ : State} {nsid : Nat} {off : Nat} {bs : List Byte} {us : List Nat} {s : State} (hon : Onward σ s) : Onward σ
    (cacheWrite nsid off bs us s) := by
  unfold cacheWrite
  repeat' (first | with_reducible assumption | with_reducible apply modFls_on | with_reducible apply modNs_on | with_reducible rfl)
theorem readRest_on {σ : State} {n : Nvm} {x : Ns} {s : State} (hon : Onward σ s) : Onward σ (readRest n x s) := by
  unfold readRest
  repeat' (first
      | with_reducible assumption | with_reducible intro _ | with_reducible apply countRead_on | with_reducible apply countClass_on
      | with_reducible apply foldl_on)
theorem takeWrite_on {σ : State} {n : Nvm} {x : Ns} {s0 : State} (hon : Onward σ s0) : OnwardO σ (takeWrite n x s0) := by
  unfold takeWrite
  repeat' (first
      | with_reducible assumption | exact OnwardO.none | with_reducible apply OnwardO.some | with_reducible apply modFls_on
      | with_reducible apply ok_on | with_reducible apply cacheWrite_on | with_reducible apply readRest_on | split | with_reducible rfl
      | dsimp only)
theorem pumpOne_on {σ : State} {w : WriteWait} {s : State} (hon : Onward σ s) : Onward σ (pumpOne w s) := by
  unfold pumpOne
  repeat' (first
      | with_reducible assumption | with_reducible apply modFls_on | with_reducible apply ok_on | with_reducible apply refuse_on
      | refine OnwardO.get (takeWrite_on ?_) (by assumption) | with_reducible apply ite_on | split | with_reducible rfl)
theorem pumpWrites_on {σ : State} {s : State} (hon : Onward σ s) : Onward σ (pumpWrites s) := by
  unfold pumpWrites
  repeat' (first | with_reducible assumption | with_reducible intro _ | with_reducible apply pumpOne_on | with_reducible apply foldl_on)
theorem unmapUnits_on {σ : State} {k : ExtKey} {us : List Nat} {s : State} (hon : Onward σ s) : Onward σ (unmapUnits k us s) := by
  unfold unmapUnits
  repeat' (first
      | with_reducible assumption | with_reducible apply putExtent_on | with_reducible apply unmapExtent_on | with_reducible apply ite_on
      | split)
theorem deallocate_on {σ : State} {x : Ns} {slba : Nat} {count : Nat} {s : State} (hon : Onward σ s) : Onward σ (deallocate x slba count
    s) := by
  unfold deallocate
  repeat' (first
      | with_reducible assumption | with_reducible intro _ | with_reducible apply modFls_on | with_reducible apply sweep_on
      | with_reducible apply modNs_on | with_reducible apply unmapUnits_on | with_reducible apply foldl_on | with_reducible apply ite_on
      | with_reducible rfl)

/-! ### Training -/

theorem modTune_on {σ : State} {src : Src} {f : TuneRun → TuneRun} {s : State} (hon : Onward σ s) : Onward σ (modTune src f s) := by
  unfold modTune
  repeat' (first | with_reducible assumption | with_reducible apply modInf_on)

/-! ### Select -/

theorem countCut_on {σ : State} {dome : Nat} {r : Sel α} {s : State} (hon : Onward σ s) : Onward σ (countCut dome r s) := by
  unfold countCut
  repeat' (first | with_reducible assumption | with_reducible apply ctrPart_on | with_reducible apply ite_on)
theorem countShort_on {σ : State} {dome : Nat} {k : Nat} {count : Nat} {s : State} (hon : Onward σ s) : Onward σ (countShort dome k count
    s) := by
  unfold countShort
  repeat' (first | with_reducible assumption | with_reducible apply ctrPart_on | with_reducible apply ite_on)
theorem countSel_on {σ : State} {cluster : Nat} {dome : Nat} {k : Nat} {r : Sel α} {s : State} (hon : Onward σ s) : Onward σ (countSel
    cluster dome k r s) := by
  unfold countSel
  repeat' (first
      | with_reducible assumption | with_reducible apply ctrAdd_on | with_reducible apply countCut_on
      | with_reducible apply countShort_on)

/-! ### Operators -/

theorem setRowScale_on {σ : State} {src : Src} {x : Tensor} {r : Nat} {f : Nat} {sc : Nat} {s : State} (hon : Onward σ s) : Onward σ
    (setRowScale src x r f sc s) := by
  unfold setRowScale
  repeat' (first
      | with_reducible assumption | with_reducible apply modQnt_on | with_reducible apply modCmd_on | with_reducible apply ite_on)
theorem touch_on {σ : State} {id : Nat} {off : Nat} {n : Nat} {s : State} (hon : Onward σ s) : Onward σ (touch id off n s) := by
  unfold touch
  repeat' (first
      | with_reducible assumption | with_reducible apply modObj_on | with_reducible apply modOne_on | with_reducible apply ite_on)
theorem putPart_on {σ : State} {k : OpCtx} {z : Tensor} {r : Nat} {off : Nat} {bs : List Byte} {s : State} (hon : Onward σ s) : Onward σ
    (putPart k z r off bs s) := by
  unfold putPart
  repeat' (first
      | with_reducible assumption | with_reducible apply writeObj_on | with_reducible apply modCmd_on | with_reducible apply noteWrite_on
      | with_reducible apply putKv_on | with_reducible apply ite_on | split)
theorem putFlat_on {σ : State} {k : OpCtx} {z : Tensor} {off : Nat} {bs : List Byte} {s : State} (hon : Onward σ s) : Onward σ (putFlat k
    z off bs s) := by
  unfold putFlat
  repeat' (first | with_reducible assumption | with_reducible apply putPart_on)
theorem putVals_on {σ : State} {k : OpCtx} {z : Tensor} {r : Nat} {xs : List Nat} {s : State} (hon : Onward σ s) : Onward σ (putVals k z r
    xs s) := by
  unfold putVals
  repeat' (first | with_reducible assumption | with_reducible apply ctrPart_on | with_reducible apply putPart_on)
theorem getVals_on {σ : State} {k : OpCtx} {i : Nat} {x : Tensor} {r : Nat} {s : State} (hon : Onward σ s) : Onward σ (getVals k i x r
    s).2 := by
  unfold getVals
  repeat' (first | with_reducible assumption | with_reducible apply ctrPart_on | with_reducible apply ite_on)
theorem getRows_on {σ : State} {k : OpCtx} {i : Nat} {x : Tensor} {rs : List Nat} {s : State} (hon : Onward σ s) : Onward σ (getRows k i x
    rs s).2 := by
  unfold getRows
  repeat' (first
      | with_reducible assumption | with_reducible intro _ | with_reducible apply getVals_on | with_reducible apply foldl_on_snd)
theorem getOpt_on {σ : State} {k : OpCtx} {i : Nat} {r : Nat} {s : State} (hon : Onward σ s) : Onward σ (getOpt k i r s).2 := by
  unfold getOpt
  repeat' (first | with_reducible assumption | with_reducible apply getVals_on | split)
theorem overRows_on {σ : State} {n : Nat} {f : Nat → State → State} {s : State} (h : Onward σ s)
    (g : ∀ r x, Onward σ x → Onward σ (f r x)) : Onward σ (overRows n f s) := foldl_on h fun x r hx => g r x hx
theorem freeRow_on {σ : State} {k : OpCtx} {z : Tensor} {r : Nat} {s : State} (hon : Onward σ s) : Onward σ (freeRow k z r s) := by
  unfold freeRow
  repeat' (first | with_reducible assumption | with_reducible apply draws_on | with_reducible apply putPart_on)
theorem xentRow_on {σ : State} {k : OpCtx} {x : Tensor} {z : Tensor} {targets : Tensor} {r : Nat} {s : State} (hon : Onward σ s) : Onward
    σ (xentRow k x z targets r s) := by
  unfold xentRow
  repeat' (first
      | with_reducible assumption | with_reducible apply modTune_on | with_reducible apply putVals_on | with_reducible apply getVals_on
      | with_reducible apply ite_on | split)
theorem adapterStep_on {σ : State} {k : OpCtx} {s : State} (hon : Onward σ s) : Onward σ (adapterStep k s) := by
  unfold adapterStep
  repeat' (first | with_reducible assumption | with_reducible apply modTune_on | with_reducible apply ite_on | split)
theorem runOp_on {σ : State} {k0 : OpCtx} {s : State} (hon : Onward σ s) : OnwardE σ (runOp k0 s) := by
  unfold runOp
  repeat' (first
      | with_reducible assumption | with_reducible intro _ | exact OnwardE.error | with_reducible apply OnwardE.ok
      | with_reducible apply ctrPart_on | with_reducible apply putFlat_on | with_reducible apply putVals_on
      | with_reducible apply getVals_on | with_reducible apply getRows_on | with_reducible apply getOpt_on
      | with_reducible apply overRows_on | with_reducible apply xentRow_on | with_reducible apply adapterStep_on
      | with_reducible apply foldl_on | with_reducible apply ite_on | with_reducible apply iteE_on | split | dsimp only)
theorem nextOp_on {σ : State} {t : TaskRef} {s : State} (hon : Onward σ s) : Onward σ (nextOp t s) := by
  unfold nextOp
  repeat' (first | with_reducible assumption | with_reducible apply modChain_on)
theorem runTo_on {σ : State} {t : TaskRef} {stop n : Nat} {s : State} (h : Onward σ s) : OnwardE σ (runTo t stop n s) := by
  induction n generalizing s with
  | zero => exact OnwardE.ok h
  | succ n ih =>
    unfold runTo
    repeat' (first | exact OnwardE.ok h | exact OnwardE.error | split)
    next e => exact ih (nextOp_on ((runOp_on (foldl_on h fun x g hx => touch_on hx)).get e))
theorem advance_on {σ : State} {t : TaskRef} {stop : Nat} {s : State} (hon : Onward σ s) : Onward σ (advance t stop s) := by
  unfold advance
  repeat' (first
      | with_reducible assumption | with_reducible apply failTask_on | refine OnwardE.get (runTo_on ?_) (by assumption) | split)
theorem claim_on {σ : State} {t : TaskRef} {s : State} (hon : Onward σ s) : Onward σ (claim t s) := by
  unfold claim
  repeat' (first | with_reducible assumption | with_reducible apply askArrays_on | with_reducible apply ite_on | split)
theorem opDone_on {σ : State} {t : TaskRef} {s : State} (hon : Onward σ s) : Onward σ (opDone t s) := by
  unfold opDone
  repeat' (first
      | with_reducible assumption | with_reducible apply freeGrants_on | with_reducible apply nextOp_on | with_reducible apply claim_on)
theorem rowDone_on {σ : State} {t : TaskRef} {row : Nat} {rows : Nat} {s : State} (hon : Onward σ s) : Onward σ (rowDone t row rows s) :=
    by
  unfold rowDone
  repeat' (first
      | with_reducible assumption | with_reducible apply modChain_on | with_reducible apply opDone_on | with_reducible apply ite_on
      | split | dsimp only)
theorem onOperator_on {σ : State} {t : TaskRef} {op : Nat} {codes : List Nat} {f : OpCtx → Run → Tensor → Tensor → State → State} {s :
    State}
    (h : Onward σ s) (g : ∀ k r x z u, Onward σ u → Onward σ (f k r x z u)) : Onward σ (onOperator t op codes f s) := by
  unfold onOperator
  split
  · exact h
  · split
    · exact h
    · extract_lets s1
      have h1 : Onward σ s1 := advance_on h
      clear_value s1
      split
      · exact h1
      · split
        · split
          · exact h1
          · split
            · exact failTask_on h1
            · exact g _ _ _ _ _ (foldl_on h1 fun x g hx => touch_on hx)
        · exact h1
theorem onRow_on {σ : State} {t : TaskRef} {op row : Nat} {codes : List Nat} {f : OpCtx → Run → Tensor → Tensor → State → State} {s :
    State}
    (h : Onward σ s) (g : ∀ k r x z u, Onward σ u → Onward σ (f k r x z u)) : Onward σ (onRow t op row codes f s) :=
  onOperator_on h fun _ _ _ _ _ hu => ite_on hu (rowDone_on (g _ _ _ _ _ hu))

/-! ### Quant -/

theorem modSlot_on {σ : State} {n : Nat} {f : Watch → Watch} {s : State} (hon : Onward σ s) : Onward σ (modSlot n f s) := by
  unfold modSlot
  repeat' (first | with_reducible assumption | with_reducible apply modQnt_on)
theorem takeWatch_on {σ : State} {t : TaskRef} {c : Cmd} {r : Run} {i : Nat} {x : Tensor} {s : State} (hon : Onward σ s) : Onward σ
    (takeWatch t c r i x s).2 := by
  unfold takeWatch
  repeat' (first
      | with_reducible assumption | with_reducible apply modQnt_on | with_reducible apply ctrPart_on | with_reducible apply modChain_on
      | split | dsimp only)
theorem countRow_on {σ : State} {n q : Nat} {xs : List Nat} {es : List QElem} {s : State} (h : Onward σ s) :
    Onward σ (countRow n q xs es s) := modSlot_on (ctrAdd_on (ctrAdd_on (ctrAdd_on (ctrAdd_on h))))
theorem quantiseKv_on {σ : State} {k : OpCtx} {z : Tensor} {row : Nat} {xs : List Nat} {s : State} (hon : Onward σ s) : Onward σ
    (quantiseKv k z row xs s).2 := by
  unfold quantiseKv
  repeat' (first
      | with_reducible assumption | with_reducible apply ctrPart_on | with_reducible apply putKv_on | with_reducible apply ite_on
      | split)
theorem quantise_on {σ : State} {k : OpCtx} {r : Run} {x : Tensor} {z : Tensor} {row : Nat} {s : State} (hon : Onward σ s) : Onward σ
    (quantise k r x z row s) := by
  unfold quantise
  repeat' (first
      | with_reducible assumption | with_reducible apply setRowScale_on | with_reducible apply putPart_on
      | with_reducible apply takeWatch_on | with_reducible apply countRow_on | with_reducible apply quantiseKv_on
      | with_reducible apply ite_on | split)
theorem derive_on {σ : State} {w : Watch} {s : State} (hon : Onward σ s) : Onward σ (derive w s) := by
  unfold derive
  repeat' (first
      | with_reducible assumption | with_reducible apply ctrPart_on | with_reducible apply modSlot_on | with_reducible apply ite_on)
theorem evalHistogram_on {σ : State} {w : Watch} {clip : Bool} {s : State} (hon : Onward σ s) : Onward σ (evalHistogram w clip s) := by
  unfold evalHistogram
  repeat' (first
      | with_reducible assumption | with_reducible apply modSlot_on | with_reducible apply derive_on | with_reducible apply ite_on)

/-! ### Calibration -/

theorem bankAtPowerUp_on {σ : State} {s : State} (hon : Onward σ s) : Onward σ (bankAtPowerUp s) := by
  unfold bankAtPowerUp
  repeat' (first | with_reducible assumption | with_reducible apply modCal_on | with_reducible apply draw_on)
theorem setCache_on {σ : State} {mib : Nat} {s : State} (hon : Onward σ s) : Onward σ (setCache mib s) := by
  unfold setCache
  repeat' (first
      | with_reducible assumption | with_reducible apply modFls_on | with_reducible apply ctrAdd_on | with_reducible apply raise_on
      | with_reducible apply pumpWrites_on | with_reducible rfl)
theorem resizeCache_on {σ : State} {mib : Nat} {s : State} (hon : Onward σ s) : Onward σ (resizeCache mib s) := by
  unfold resizeCache
  repeat' (first
      | with_reducible assumption | with_reducible apply modFls_on | with_reducible apply pumpWrites_on
      | with_reducible apply setCache_on | with_reducible apply ite_on | with_reducible rfl)
theorem bankRamp_on {σ : State} {s : State} (hon : Onward σ s) : Onward σ (bankRamp s) := by
  unfold bankRamp
  repeat' (first
      | with_reducible assumption | with_reducible apply modCal_on | with_reducible apply draw_on | with_reducible apply resizeCache_on
      | with_reducible apply ite_on)
theorem bankAnswer_on {σ : State} {s : State} (hon : Onward σ s) : Onward σ (bankAnswer s) := by
  unfold bankAnswer
  repeat' (first
      | with_reducible assumption | with_reducible intro _ | with_reducible apply modCal_on | with_reducible apply ok_on
      | with_reducible apply foldl_on)
theorem bankSag_on {σ : State} {s : State} (hon : Onward σ s) : Onward σ (bankSag s) := by
  unfold bankSag
  repeat' (first
      | with_reducible assumption | with_reducible apply modCal_on | with_reducible apply ctrAdd_on | with_reducible apply bankAnswer_on
      | with_reducible apply ite_on)

/-! ### Passes -/

theorem busy_on {σ : State} {g : Grant} {cycles : Nat} {s : State} (hon : Onward σ s) : Onward σ (busy g cycles s) := by
  unfold busy
  repeat' (first
      | with_reducible assumption | with_reducible intro _ | with_reducible apply modArr_on | with_reducible apply ctrAdd_on
      | with_reducible apply foldl_on | with_reducible apply ite_on)
theorem countPasses_on {σ : State} {g : Grant} {dome : Nat} {t : Timing} {s : State} (hon : Onward σ s) : Onward σ (countPasses g dome t
    s) := by
  unfold countPasses
  repeat' (first
      | with_reducible assumption | with_reducible intro _ | with_reducible apply modArr_on | with_reducible apply ctrAdd_on
      | with_reducible apply ctrPart_on | with_reducible apply reportCor_on | with_reducible apply busy_on
      | with_reducible apply foldl_on)
theorem countOverflows_on {σ : State} {dome : Nat} {runs : List ArrayRun} {s : State} (hon : Onward σ s) : Onward σ (countOverflows dome
    runs s) := by
  unfold countOverflows
  repeat' (first | with_reducible assumption | with_reducible apply ctrPart_on)
theorem runPasses_on {σ : State} {g : Grant} {dome : Nat} {runs : List ArrayRun} {misses : List Nat} {commit : State → State} {s : State}
    (h : Onward σ s) (c : ∀ u, Onward σ u → Onward σ (commit u)) : Onward σ (runPasses g dome runs misses commit s) := by
  unfold runPasses
  extract_lets t s1
  have h1 : Onward σ s1 := countPasses_on h
  clear_value t s1
  exact ite_on (reportUnc_on (faultFence_on h1)) (c _ (countOverflows_on h1))

/-! ### Arrays -/

theorem putTile_on {σ : State} {x : Tile} {s : State} (hon : Onward σ s) : Onward σ (putTile x s) := by
  unfold putTile
  repeat' (first | with_reducible assumption | with_reducible apply modArr_on)
theorem writeTile_on {σ : State} {p : Product} {x : Tile} {s : State} (hon : Onward σ s) : Onward σ (writeTile p x s) := by
  unfold writeTile
  repeat' (first
      | with_reducible assumption | with_reducible intro _ | with_reducible apply ctrPart_on | with_reducible apply putPart_on
      | with_reducible apply putFlat_on | with_reducible apply foldl_on | with_reducible apply ite_on)
theorem tuneBlock_on {σ : State} {p : Product} {rb : Nat} {s u : State} (h : Onward σ u) : Onward σ ((tuneBlock p rb s).2 u) := by
  unfold tuneBlock
  split
  · exact h
  · split
    · exact h
    · split
      · exact h
      · split
        · exact modTune_on h
        · exact modTune_on h
theorem tilePass_on {σ : State} {p : Product} {g : Grant} {x : Tile} {misses : List Nat} {s : State} (h : Onward σ s) :
    Onward σ (tilePass p g x misses s) := by
  unfold tilePass
  extract_lets pass base main done_ fin tune src y
  have ht : ∀ u, Onward σ u → Onward σ (tune.2 u) := fun u hu => by
    change Onward σ ((if done_ then tuneBlock p x.rowBlock s else ([], id)).2 u)
    split
    · exact tuneBlock_on hu
    · exact hu
  clear_value y src tune fin
  refine runPasses_on h fun u hu => ?_
  extract_lets s1
  have h1 : Onward σ s1 := ht _ (putTile_on (ite_on (writeTile_on hu) hu))
  clear_value s1
  exact ite_on (opDone_on h1) h1
theorem matmulPass_on {σ : State} {k : OpCtx} {g : Grant} {x : Tensor} {z : Tensor} {rb : Nat} {lb : Nat} {misses : List Nat} {s : State}
    (hon : Onward σ s) : Onward σ (matmulPass k g x z rb lb misses s) := by
  unfold matmulPass
  repeat' (first
      | with_reducible assumption | with_reducible apply failTask_on | with_reducible apply tilePass_on | with_reducible apply ite_on
      | split)
theorem attendPass_on {σ : State} {k : OpCtx} {g : Grant} {x z : Tensor} {row : Nat} {misses : List Nat} {s : State} (h : Onward σ s) :
    Onward σ (attendPass k g x z row misses s) := by
  unfold attendPass
  extract_lets p qf
  clear_value p qf
  split
  · exact rowDone_on (freeRow_on h)
  · next v _ =>
    have hx : Onward σ (getVals k k.o.in0 x row s).2 := getVals_on h
    exact ite_on (rowDone_on (putVals_on hx)) (runPasses_on hx fun u hu => rowDone_on (ctrPart_on (putPart_on hu)))
theorem tilePassEnd_on {σ : State} {t : TaskRef} {op rowBlock laneBlock : Nat} {misses : List Nat} {s : State} (h : Onward σ s) :
    Onward σ (tilePassEnd t op rowBlock laneBlock misses s) := by
  refine onOperator_on h fun k r x z u hu => ?_
  extract_lets s1
  have h1 : Onward σ s1 := claim_on hu
  clear_value s1
  split
  · exact h1
  · exact ite_on (matmulPass_on h1) (ite_on h1 (attendPass_on h1))

/-! ### Index -/

theorem modIxRt_on {σ : State} {id : Nat} {f : IndexRt → IndexRt} {s : State} (hon : Onward σ s) : Onward σ (modIxRt id f s) := by
  unfold modIxRt
  repeat' (first | with_reducible assumption | with_reducible apply modIdx_on)
theorem cacheFit_on {σ s : State} {dome n : Nat} (h : Onward σ s) : Onward σ (cacheFit s dome n).2 := by
  induction n with
  | zero => exact h
  | succ n ih =>
    unfold cacheFit
    split
    · next e => exact (fit_on h).get e
    · exact ih
theorem useIndex_on {σ : State} {id : Nat} {s : State} (h : Onward σ s) : Onward σ (useIndex id s) := by
  unfold useIndex
  split
  · extract_lets want got s1
    exact ctrPart_on (charge_on (modIdx_on (cacheFit_on h)))
  · exact h
theorem setPass_on {σ : State} {id : Nat} {l : List Nat} {s : State} (hon : Onward σ s) : Onward σ (setPass id l s) := by
  unfold setPass
  repeat' (first | with_reducible assumption | with_reducible apply modIdx_on)
theorem cacheHit_on {σ : State} {id : Nat} {slot : Nat} {s : State} (hon : Onward σ s) : Onward σ (cacheHit id slot s) := by
  unfold cacheHit
  repeat' (first | with_reducible assumption | with_reducible apply modIxRt_on)
theorem promote_on {σ : State} {id : Nat} {slot : Nat} {block : Nat} {dome : Nat} {s : State} (hon : Onward σ s) : Onward σ (promote id
    slot block dome s) := by
  unfold promote
  repeat' (first
      | with_reducible assumption | with_reducible apply ctrPart_on | with_reducible apply modIxRt_on | with_reducible apply ite_on
      | split)
theorem putUpper_on {σ : State} {id : Nat} {layer : Nat} {slot : Nat} {l : List Nat} {s : State} (hon : Onward σ s) : Onward σ (putUpper
    id layer slot l s) := by
  unfold putUpper
  repeat' (first | with_reducible assumption | with_reducible apply modIdx_on)
theorem putIx_on {σ : State} {id : Nat} {off : Nat} {bs : List Byte} {s : State} (hon : Onward σ s) : Onward σ (putIx id off bs s) := by
  unfold putIx
  repeat' (first | with_reducible assumption | with_reducible apply writeObj_on)
theorem bumpIx_on {σ : State} {id : Nat} {off : Nat} {n : Int} {s : State} (hon : Onward σ s) : Onward σ (bumpIx id off n s) := by
  unfold bumpIx
  repeat' (first | with_reducible assumption | with_reducible apply putIx_on)
theorem putList_on {σ : State} {id : Nat} {slot : Nat} {l : List Nat} {s : State} (hon : Onward σ s) : Onward σ (putList id slot l s) :=
    by
  unfold putList
  repeat' (first | with_reducible assumption | with_reducible apply putIx_on)
theorem joinList_on {σ : State} {id : Nat} {x : Nat} {s : State} {n : Nat} (hon : Onward σ s) : Onward σ (joinList id x s n) := by
  unfold joinList
  repeat' (first | with_reducible assumption | with_reducible apply putList_on | with_reducible apply ite_on)
theorem joinUpper_on {σ : State} {id : Nat} {layer : Nat} {x : Nat} {s : State} {n : Nat} (hon : Onward σ s) : Onward σ (joinUpper id
    layer x s n) := by
  unfold joinUpper
  repeat' (first | with_reducible assumption | with_reducible apply putUpper_on | with_reducible apply ite_on)
theorem enterPoint_on {σ : State} {id : Nat} {slot : Nat} {level : Nat} {s : State} (hon : Onward σ s) : Onward σ (enterPoint id slot
    level s) := by
  unfold enterPoint
  repeat' (first | with_reducible assumption | with_reducible apply putIx_on | with_reducible apply ite_on | split)
theorem placeUpper_on {σ : State} {id slot nid : Nat} {links : List Relink} {s : State} (h : Onward σ s) :
    Onward σ (placeUpper id slot nid links s) := by
  refine ite_on (enterPoint_on h) (ite_on (ctrPart_on (enterPoint_on h)) (enterPoint_on (foldl_on h fun x a hx => ?_)))
  exact foldl_on (putUpper_on hx) fun y b hy => joinUpper_on hy
theorem writeNode_on {σ : State} {id : Nat} {slot : Nat} {n : NodeIn} {s : State} (hon : Onward σ s) : Onward σ (writeNode id slot n s) :=
    by
  unfold writeNode
  repeat' (first | with_reducible assumption | with_reducible apply putIx_on)
theorem linkNode_on {σ : State} {id : Nat} {slot : Nat} {nid : Nat} {links : List Relink} {s : State} (hon : Onward σ s) : Onward σ
    (linkNode id slot nid links s) := by
  unfold linkNode
  repeat' (first
      | with_reducible assumption | with_reducible intro _ | with_reducible apply putList_on | with_reducible apply joinList_on
      | with_reducible apply foldl_on)
theorem firstEntry_on {σ : State} {id : Nat} {s : State} (hon : Onward σ s) : Onward σ (firstEntry id s) := by
  unfold firstEntry
  repeat' (first | with_reducible assumption | with_reducible apply putIx_on | with_reducible apply ite_on)
theorem insertNode_on {σ : State} {id : Nat} {links : List Relink} {n : NodeIn} {s : State} (h : Onward σ s) :
    Onward σ (insertNode id links n s).1 := by
  unfold insertNode
  extract_lets m old
  clear_value m old
  split
  · exact h
  · next slot _ =>
    have h1 : Onward σ (linkNode id slot n.id links (writeNode id slot n (firstEntry id s))) := linkNode_on (writeNode_on
        (firstEntry_on h))
    extract_lets s1 s2 s3
    have g : Onward σ s3 := setPass_on (ite_on (bumpIx_on h1) h1)
    clear_value s3
    split
    · exact g
    · exact placeUpper_on (bumpIx_on g)
theorem deleteNode_on {σ : State} {id : Nat} {nid : Nat} {s : State} (hon : Onward σ s) : Onward σ (deleteNode id nid s).1 := by
  unfold deleteNode
  repeat' (first
      | with_reducible assumption | with_reducible apply setPass_on | with_reducible apply putIx_on | with_reducible apply bumpIx_on
      | split | dsimp only)
theorem rewriteList_on {σ : State} {id : Nat} {slot : Nat} {s : State} (hon : Onward σ s) : Onward σ (rewriteList id slot s) := by
  unfold rewriteList
  repeat' (first | with_reducible assumption | with_reducible apply putList_on)
theorem reclaim_on {σ : State} {id : Nat} {slot : Nat} {s : State} (hon : Onward σ s) : Onward σ (reclaim id slot s) := by
  unfold reclaim
  repeat' (first
      | with_reducible assumption | with_reducible apply modIdx_on | with_reducible apply putIx_on | with_reducible apply bumpIx_on
      | with_reducible apply ite_on)
theorem compactBatch_on {σ : State} {id : Nat}  {n left lists freed : Nat} {s : State} (h : Onward σ s) :
    Onward σ (compactBatch id n left lists freed s).1 := by
  induction n generalizing left lists freed s with
  | zero => exact h
  | succ n ih =>
    unfold compactBatch
    split
    · exact h
    · extract_lets m slot s0 stale s1 wrap s2 gone s3 s4
      have h0 : Onward σ s0 := ite_on (setPass_on h) h
      have h1 : Onward σ s1 := ite_on (rewriteList_on h0) h0
      have h3 : Onward σ s3 := foldl_on (putIx_on h1) fun _ _ hx => reclaim_on hx
      exact ih (ite_on (setPass_on h3) h3)
theorem syncStore_on {σ : State} {id : Nat} {s : State} (hon : Onward σ s) : Onward σ (syncStore id s) := by
  unfold syncStore
  repeat' (first
      | with_reducible assumption | with_reducible apply modObj_on | with_reducible apply modOne_on | with_reducible apply backExtents_on
      | split)
theorem applyBatch_on {σ : State} {j : IndexJob} {s : State} (h : Onward σ s) : Onward σ (applyBatch j s).2 := by
  unfold applyBatch
  split
  · exact foldl_on_fst h fun x a hx => insertNode_on hx
  · exact foldl_on_fst h fun x a hx => deleteNode_on hx
  · exact compactBatch_on h

/-! ### Search -/

theorem modWalk_on {σ : State} {src : Src} {i : Nat} {f : Walk → Walk} {s : State} (hon : Onward σ s) : Onward σ (modWalk src i f s) := by
  unfold modWalk
  repeat' (first | with_reducible assumption | with_reducible apply modIdx_on)
theorem issue_on {σ : State} {r : SearchRun} {i dome n : Nat} {s : State} (h : Onward σ s) : Onward σ (issue r i dome n s) := by
  induction n generalizing s with
  | zero => exact h
  | succ n ih =>
    unfold issue
    dsimp only
    split
    · exact h
    · split
      · exact h
      · split
        · exact h
        · refine ih ?_
          repeat' (first
              | with_reducible assumption | with_reducible intro _ | with_reducible apply ctrPart_on | with_reducible apply modWalk_on
              | with_reducible apply cacheHit_on | with_reducible apply ite_on)
theorem stopLast_on {σ : State} {src : Src} {i : Nat} {s : State} (hon : Onward σ s) : Onward σ (stopLast src i s) := by
  unfold stopLast
  repeat' (first | with_reducible assumption | with_reducible apply modIdx_on)
theorem goOn_on {σ : State} {r : SearchRun} {i : Nat} {dome : Nat} {s : State} (hon : Onward σ s) : Onward σ (goOn r i dome s) := by
  unfold goOn
  repeat' (first
      | with_reducible assumption | with_reducible apply ctrPart_on | with_reducible apply modWalk_on | with_reducible apply issue_on
      | with_reducible apply stopLast_on | with_reducible apply ite_on | split | dsimp only)
theorem askWalk_on {σ : State} {t : TaskRef} {cluster : Nat} {s : State} (hon : Onward σ s) : Onward σ (askWalk t cluster s) := by
  unfold askWalk
  repeat' (first | with_reducible assumption | with_reducible apply askArrays_on | with_reducible apply ite_on)
theorem walkTiles_on {σ : State} {t : TaskRef} {cluster dome : Nat} {runs : List ArrayRun} {misses : List Nat} {commit : State → State}
    {s : State} (h : Onward σ s) (c : ∀ u, Onward σ u → Onward σ (commit u)) :
    Onward σ (walkTiles t cluster dome runs misses commit s) := by
  unfold walkTiles
  split
  · exact c _ h
  · extract_lets s1
    have h1 : Onward σ s1 := askWalk_on h
    clear_value s1
    split
    · exact h1
    · exact runPasses_on h1 fun u hu => c _ (freeGrants_on hu)
theorem newWalk_on {σ : State} {r : SearchRun} {t : TaskRef} {cluster dome : Nat} {s : State} (h : Onward σ s) :
    Onward σ (newWalk r t cluster dome s) := by
  unfold newWalk
  extract_lets q
  clear_value q
  split
  · exact h
  · exact walkTiles_on h fun u hu => goOn_on (ctrPart_on (modIdx_on hu))
theorem modJob_on {σ : State} {src : Src} {f : IndexJob → IndexJob} {s : State} (hon : Onward σ s) : Onward σ (modJob src f s) := by
  unfold modJob
  repeat' (first | with_reducible assumption | with_reducible apply modIdx_on)
theorem beginBuild_on {σ : State} {src : Src} {s : State} (hon : Onward σ s) : Onward σ (beginBuild src s) := by
  unfold beginBuild
  repeat' (first | with_reducible assumption | with_reducible apply modIdx_on | with_reducible apply ite_on | split)
theorem kickWalk_on {σ : State} {t : TaskRef} {s0 : State} (hon : Onward σ s0) : Onward σ (kickWalk t s0) := by
  unfold kickWalk
  repeat' (first
      | with_reducible assumption | with_reducible apply goOn_on | with_reducible apply newWalk_on | with_reducible apply beginBuild_on
      | with_reducible apply ite_on | split | dsimp only)
theorem endBuild_on {σ : State} {t : TaskRef} {s : State} (hon : Onward σ s) : Onward σ (endBuild t s) := by
  unfold endBuild
  repeat' (first
      | with_reducible assumption | with_reducible apply modIdx_on | with_reducible apply modJob_on | with_reducible apply kickWalk_on
      | split)
theorem resumeWalks_on {σ : State} {s : State} (hon : Onward σ s) : Onward σ (resumeWalks s) := by
  unfold resumeWalks
  repeat' (first | with_reducible assumption | with_reducible intro _ | with_reducible apply kickWalk_on | with_reducible apply foldl_on)
theorem countDups_on {σ : State} {dome : Nat} {n : Nat} {s : State} (hon : Onward σ s) : Onward σ (countDups dome n s) := by
  unfold countDups
  repeat' (first | with_reducible assumption | with_reducible apply ctrPart_on)
theorem offer_on {σ : State} {src : Src} {i : Nat} {k : Nat} {cluster : Nat} {dome : Nat} {e : ListEntry} {s : State} (hon : Onward σ s) :
    Onward σ (offer src i k cluster dome e s) := by
  unfold offer
  repeat' (first
      | with_reducible assumption | with_reducible apply countSel_on | with_reducible apply modWalk_on
      | with_reducible apply countDups_on | with_reducible apply ite_on | split)
theorem expand_on {σ : State} {r : SearchRun} {i : Nat} {cluster : Nat} {dome : Nat} {x : Expansion} {s : State} (hon : Onward σ s) :
    Onward σ (expand r i cluster dome x s) := by
  unfold expand
  repeat' (first
      | with_reducible assumption | with_reducible apply ctrPart_on | with_reducible apply modWalk_on | with_reducible apply offer_on
      | with_reducible apply ite_on | split)
theorem recordRead_on {σ : State} {index : Nat} {slot : Nat} {block : Nat} {dome : Nat} {filtered : Bool} {r : ReadEnd} {s : State} (hon :
    Onward σ s) : Onward σ (recordRead index slot block dome filtered r s) := by
  unfold recordRead
  repeat' (first
      | with_reducible assumption | with_reducible apply countRead_on | with_reducible apply countClass_on
      | with_reducible apply readEnd_on | with_reducible apply readBlock_on | with_reducible apply countEngine_on
      | with_reducible apply promote_on | with_reducible apply ite_on)
theorem cancelReads_on {σ : State} {domes : List Nat} {cluster : Nat} {s : State} (hon : Onward σ s) : Onward σ (cancelReads domes cluster
    s) := by
  unfold cancelReads
  repeat' (first | with_reducible assumption | with_reducible apply modIdx_on)
theorem finishSearch_on {σ : State} {src : Src} {s : State} (hon : Onward σ s) : Onward σ (finishSearch src s) := by
  unfold finishSearch
  repeat' (first
      | with_reducible assumption | with_reducible intro _ | with_reducible apply ctrAdd_on | with_reducible apply ctrPart_on
      | with_reducible apply modCmd_on | with_reducible apply countCut_on | with_reducible apply countShort_on
      | with_reducible apply countDups_on | with_reducible apply foldl_on | split)
theorem admitSearch_on {σ : State} {e : Entry} {s : State} (hon : Onward σ s) : Onward σ (admitSearch e s) := by
  unfold admitSearch
  repeat' (first
      | with_reducible assumption | with_reducible apply modIdx_on | with_reducible apply settle_on | with_reducible apply enrol_on
      | with_reducible apply useIndex_on | with_reducible apply finishSearch_on | with_reducible apply ite_on)
theorem addJob_on {σ : State} {j : IndexJob} {s : State} (hon : Onward σ s) : Onward σ (addJob j s) := by
  unfold addJob
  repeat' (first
      | with_reducible assumption | with_reducible apply modIdx_on | with_reducible apply modCmd_on | with_reducible apply ite_on)
theorem admitJob_on {σ : State} {e : Entry} {opcode : Nat} {op : IndexOp} {s : State} (hon : Onward σ s) : Onward σ (admitJob e opcode op
    s) := by
  unfold admitJob
  repeat' (first
      | with_reducible assumption | with_reducible apply enrol_on | with_reducible apply useIndex_on | with_reducible apply addJob_on)
theorem endJob_on {σ : State} {j : IndexJob} {s : State} (hon : Onward σ s) : Onward σ (endJob j s) := by
  unfold endJob
  repeat' (first
      | with_reducible assumption | with_reducible apply modIdx_on | with_reducible apply ctrPart_on | with_reducible apply modCmd_on
      | with_reducible apply wakeJobs_on | with_reducible apply settle_on | split | dsimp only)

/-! ### Schedule -/

theorem modDomain_on {σ : State} {n : Nat} {f : Domain → Domain} {s : State} (hon : Onward σ s) : Onward σ (modDomain n f s) := by
  unfold modDomain
  repeat' (first | with_reducible assumption | with_reducible apply modPwr_on)
theorem modPtr_on {σ : State} {part : Nat} {f : SlicePtr → SlicePtr} {s : State} (hon : Onward σ s) : Onward σ (modPtr part f s) := by
  unfold modPtr
  repeat' (first | with_reducible assumption | with_reducible apply modSch_on)
theorem spend_on {σ : State} {n : Nat} {s : State} (hon : Onward σ s) : Onward σ (spend n s) := by
  unfold spend
  repeat' (first | with_reducible assumption | with_reducible apply modSch_on)
theorem stretch_on {σ : State} {part : Nat} {s : State} (hon : Onward σ s) : Onward σ (stretch part s) := by
  unfold stretch
  repeat' (first
      | with_reducible assumption | with_reducible apply ctrPart_on | with_reducible apply modPtr_on | with_reducible apply ite_on
      | split)
theorem startFill_on {σ : State} {t : TaskRef} {c : Cmd} {h : Chain} {s : State} (hon : Onward σ s) : Onward σ (startFill t c h s) := by
  unfold startFill
  repeat' (first | with_reducible assumption | with_reducible apply modChain_on | with_reducible apply ite_on)
theorem startTask_on {σ : State} {t : TaskRef} {cl : Nat} {lent : Option Nat} {us : Nat} {s : State} (hon : Onward σ s) : Onward σ
    (startTask t cl lent us s) := by
  unfold startTask
  repeat' (first
      | with_reducible assumption | with_reducible apply modSch_on | with_reducible apply taskPacket_on
      | with_reducible apply modChain_on | with_reducible apply startFill_on | split)
theorem yieldRequests_on {σ : State} {outs : List Nat} {s : State} (hon : Onward σ s) : Onward σ (yieldRequests outs s) := by
  unfold yieldRequests
  repeat' (first | with_reducible assumption | with_reducible intro _ | with_reducible apply semPacket_on | with_reducible apply foldl_on)
theorem suspendHolders_on {σ : State} {outs : List Nat} {s : State} (hon : Onward σ s) : Onward σ (suspendHolders outs s) := by
  unfold suspendHolders
  repeat' (first
      | with_reducible assumption | with_reducible intro _ | with_reducible apply semPacket_on | with_reducible apply ctrPart_on
      | with_reducible apply raisePart_on | with_reducible apply modCmd_on | with_reducible apply modSem_on
      | with_reducible apply foldl_on | with_reducible apply ite_on | split)
theorem startSave_on {σ : State} {part : Nat} {us : Nat} {s : State} (hon : Onward σ s) : Onward σ (startSave part us s) := by
  unfold startSave
  repeat' (first
      | with_reducible assumption | with_reducible apply switchPacket_on | with_reducible apply modPtr_on
      | with_reducible apply suspendHolders_on | split)
theorem startSavesOn_on {σ : State} {c : Nat} {s : State} (hon : Onward σ s) : Onward σ (startSavesOn c s) := by
  unfold startSavesOn
  repeat' (first | with_reducible assumption | with_reducible apply modSch_on)
theorem switchDone_on {σ : State} {part : Nat} {us : Nat} {s : State} (hon : Onward σ s) : Onward σ (switchDone part us s) := by
  have hs : Onward σ (s.modSch fun k => { k with switchEnd := some (s.now us) }) := by
    with_reducible apply modSch_on; exact hon
  unfold switchDone
  generalize (s.modSch fun k => { k with switchEnd := some (s.now us) }) = u at hs ⊢
  clear hon
  dsimp only
  repeat' (first
      | with_reducible assumption | with_reducible intro _ | with_reducible apply switchPacket_on | with_reducible apply ctrPart_on
      | with_reducible apply modPtr_on | with_reducible apply foldl_on | with_reducible apply ite_on | split)
theorem setWait_on {σ : State} {t : TaskRef} {w : Wait} {s : State} (hon : Onward σ s) : Onward σ (setWait t w s) := by
  unfold setWait
  repeat' (first | with_reducible assumption | with_reducible apply modChain_on)
theorem ensureSem_on {σ : State} {dome : Nat} {id : Nat} {s : State} (hon : Onward σ s) : Onward σ (ensureSem dome id s) := by
  unfold ensureSem
  repeat' (first | with_reducible assumption | with_reducible apply modSch_on | split)
theorem resumeEligible_on {σ : State} {s : State} (hon : Onward σ s) : Onward σ (resumeEligible s) := by
  unfold resumeEligible
  repeat' (first
      | with_reducible assumption | with_reducible intro _ | with_reducible apply modCmd_on | with_reducible apply remark_on
      | with_reducible apply foldl_on)
theorem lendingCheck_on {σ : State} {src : Src} {at_ : Nat} {s : State} (hon : Onward σ s) : Onward σ (lendingCheck src at_ s) := by
  unfold lendingCheck
  repeat' (first
      | with_reducible assumption | with_reducible intro _ | with_reducible apply endLending_on | with_reducible apply resumeEligible_on
      | with_reducible apply foldl_on | with_reducible apply ite_on | split)

end Sys2Proof.Machine
end

