-- ==== Sys2Proof/Laws/OnwardBlock.lean ====
section
/-! SUPPORT. What no operation undoes, for the operations of the files of Machine that the headings name: each goes onward
(Safety.lean). A proof about a command cites these in place of unfolding the operations. -/

namespace Sys2Proof.Machine

open Sys2Proof

/-! ### Power -/

theorem initRdy_on {σ : State} {s : State} (hon : Onward σ s) : Onward σ (initRdy s) := by
  unfold initRdy
  repeat' (first
      | with_reducible assumption | with_reducible apply modLife_on | with_reducible apply modFns_on | with_reducible apply ite_on)
theorem holdActivation_on {σ : State} {s : State} (hon : Onward σ s) : Onward σ (holdActivation s) := by
  unfold holdActivation
  repeat' (first
      | with_reducible assumption | with_reducible apply modFw_on | with_reducible apply raise_on | with_reducible apply initRdy_on
      | split)
theorem bandTakes_on {σ : State} {b slot : Nat} {s : State} (h : Onward σ s) : Onward σ (bandTakes b slot s) :=
  foldl_on (modDomain_on (modFw_on h)) fun _ _ hx => raise_on hx
theorem beginCause_on {σ : State} {n : Nat} {s : State} (hon : Onward σ s) : Onward σ (beginCause n s) := by
  unfold beginCause
  repeat' (first
      | with_reducible assumption | with_reducible apply modPwr_on | with_reducible apply ctrAdd_on | with_reducible apply lineUp_on
      | with_reducible apply holdActivation_on | with_reducible apply ite_on)
theorem calm_on {σ : State} {at_ : Nat} {s : State} (hon : Onward σ s) : Onward σ (calm at_ s) := by
  unfold calm
  repeat' (first | with_reducible assumption | with_reducible apply modPwr_on | with_reducible apply ite_on)
theorem endCause_on {σ : State} {n : Nat} {s : State} (hon : Onward σ s) : Onward σ (endCause n s) := by
  unfold endCause
  repeat' (first
      | with_reducible assumption | with_reducible apply modPwr_on | with_reducible apply lineDown_on | with_reducible apply calm_on
      | with_reducible apply ite_on)
theorem throttleLine_on {σ : State} {temp : Int} {s : State} (hon : Onward σ s) : Onward σ (throttleLine temp s) := by
  unfold throttleLine
  repeat' (first
      | with_reducible assumption | with_reducible apply lineUp_on | with_reducible apply lineDown_on | with_reducible apply ite_on)
theorem abandon_on {σ : State} {s : State} (hon : Onward σ s) : Onward σ (abandon s) := by
  unfold abandon
  repeat' (first
      | with_reducible assumption | with_reducible apply modLife_on | with_reducible apply modQ_on | with_reducible apply modSch_on
      | with_reducible apply modHb_on | with_reducible apply modXfer_on | with_reducible apply modArr_on | with_reducible apply modInf_on
      | with_reducible apply modIdx_on | with_reducible apply modMrg_on | with_reducible apply modScn_on | with_reducible apply modFls_on
      | with_reducible apply modCal_on | with_reducible apply modFw_on | with_reducible rfl)
theorem domainsOff_on {σ : State} {ns : List Nat} {s : State} (hon : Onward σ s) : Onward σ (domainsOff ns s) := by
  unfold domainsOff
  repeat' (first
      | with_reducible assumption | with_reducible intro _ | with_reducible apply modLan_on | with_reducible apply modDomain_on
      | with_reducible apply foldl_on | with_reducible apply ite_on)
theorem linkDown_on {σ : State} {s : State} (hon : Onward σ s) : Onward σ (linkDown s) := by
  unfold linkDown
  repeat' (first | with_reducible assumption | with_reducible apply modLife_on | with_reducible apply modFns_on)

/-! ### Lantern -/

theorem markPacket_on {σ : State} {kind : Nat} {s : State} (hon : Onward σ s) : Onward σ (markPacket kind s) := by
  unfold markPacket
  repeat' (first | with_reducible assumption | with_reducible apply putPacket_on)
theorem lanternStart_on {σ s : State} (h : Onward σ s) : Onward σ (lanternStart s) :=
  ctrAdd_on (ctrAdd_on (markPacket_on (modLan_on (modDomain_on h))))
theorem lanternTry_on {σ s : State} (h : Onward σ s) : Onward σ (lanternTry s) := ite_on (lanternStart_on h) h
theorem lanternStop_on {σ : State} {s : State} (hon : Onward σ s) : Onward σ (lanternStop s) := by
  unfold lanternStop
  repeat' (first
      | with_reducible assumption | with_reducible apply modLan_on | with_reducible apply markPacket_on | with_reducible apply ite_on)
theorem lanternDark_on {σ : State} {s : State} (hon : Onward σ s) : Onward σ (lanternDark s) := by
  unfold lanternDark
  repeat' (first | with_reducible assumption | with_reducible apply domainsOff_on)
theorem lanternControl_on {σ : State} {a : Admin} {action : Nat} {mask : QWord} {s : State} (hon : Onward σ s) : OnwardE σ (lanternControl
    a action mask s) := by
  unfold lanternControl
  repeat' (first
      | with_reducible assumption | exact OnwardE.error | with_reducible apply OnwardE.ok | with_reducible apply modLan_on
      | with_reducible apply ok_on | with_reducible apply orFail_on | with_reducible apply iteE_on)
theorem lanternPending_on {σ : State} {s : State} (hon : Onward σ s) : Onward σ (lanternPending s) := by
  unfold lanternPending
  repeat' (first
      | with_reducible assumption | with_reducible intro _ | with_reducible apply modLan_on | with_reducible apply markPacket_on
      | with_reducible apply lanternTry_on | with_reducible apply lanternStop_on | with_reducible apply foldl_on
      | with_reducible apply ite_on)
theorem lanternDrained_on {σ : State} {s : State} (hon : Onward σ s) : Onward σ (lanternDrained s) := by
  unfold lanternDrained
  repeat' (first
      | with_reducible assumption | with_reducible apply lanternTry_on | with_reducible apply lanternDark_on
      | with_reducible apply ite_on)

/-! ### Attach -/

theorem stopLending_on {σ : State} {at_ : Nat} {s : State} (hon : Onward σ s) : Onward σ (stopLending at_ s) := by
  unfold stopLending
  repeat' (first
      | with_reducible assumption | with_reducible intro _ | with_reducible apply endLending_on | with_reducible apply foldl_on
      | with_reducible apply ite_on | split)
theorem quiesceNow_on {σ : State} {s : State} (hon : Onward σ s) : Onward σ (quiesceNow s) := by
  unfold quiesceNow
  repeat' (first
      | with_reducible assumption | with_reducible apply modHb_on | with_reducible apply ctrAdd_on | with_reducible apply raise_on
      | with_reducible apply stopLending_on)
theorem deleteIoQueues_on {σ : State} {s : State} (hon : Onward σ s) : Onward σ (deleteIoQueues s) := by
  unfold deleteIoQueues
  repeat' (first
      | with_reducible assumption | with_reducible intro _ | with_reducible apply modQ_on | with_reducible apply ok_on
      | with_reducible apply foldl_on)
theorem dropWork_on {σ : State} {s : State} (hon : Onward σ s) : Onward σ (dropWork s) := by
  unfold dropWork
  repeat' (first
      | with_reducible assumption | with_reducible intro _ | with_reducible apply modHb_on | with_reducible apply uncharge_on
      | with_reducible apply discardCmd_on | with_reducible apply foldl_on)
theorem holdNow_on {σ : State} {s : State} (hon : Onward σ s) : Onward σ (holdNow s) := by
  unfold holdNow
  repeat' (first
      | with_reducible assumption | with_reducible intro _ | with_reducible apply modHb_on | with_reducible apply dissolveNow_on
      | with_reducible apply deleteIoQueues_on | with_reducible apply dropWork_on | with_reducible apply foldl_on
      | with_reducible apply ite_on)
theorem endQuiesce_on {σ : State} {us : Nat} {s : State} (hon : Onward σ s) : Onward σ (endQuiesce us s) := by
  unfold endQuiesce
  repeat' (first | with_reducible assumption | with_reducible apply modHb_on)
theorem releaseDma_on {σ : State} {s : State} (hon : Onward σ s) : Onward σ (releaseDma s) := by
  unfold releaseDma
  repeat' (first
      | with_reducible assumption | with_reducible apply modObj_on | with_reducible apply modHb_on | with_reducible apply modMrg_on)
theorem postHeld_on {σ : State} {s : State} (hon : Onward σ s) : Onward σ (postHeld s) := by
  unfold postHeld
  repeat' (first
      | with_reducible assumption | with_reducible intro _ | with_reducible apply modHb_on | with_reducible apply post_on
      | with_reducible apply foldl_on)
theorem settleKept_on {σ : State} {s : State} (hon : Onward σ s) : Onward σ (settleKept s) := by
  unfold settleKept
  repeat' (first
      | with_reducible assumption | with_reducible intro _ | with_reducible apply deleteCheck_on | with_reducible apply settle_on
      | with_reducible apply foldl_on)
theorem heartbeat_on {σ : State} {v : DWord} {us : Nat} {s : State} (hon : Onward σ s) : Onward σ (heartbeat v us s) := by
  unfold heartbeat
  repeat' (first | with_reducible assumption | with_reducible apply modHb_on | with_reducible apply ite_on)

/-! ### Belfry -/

theorem clearPending_on {σ : State} {f : Nat} {srcs : List Nat} {s : State} (hon : Onward σ s) : Onward σ (clearPending f srcs s) := by
  unfold clearPending
  repeat' (first | with_reducible assumption | with_reducible apply modEvt_on)
theorem writeMask_on {σ : State} {f : Nat} {off : Nat} {v : DWord} {s : State} (hon : Onward σ s) : Onward σ (writeMask f off v s) := by
  unfold writeMask
  repeat' (first
      | with_reducible assumption | with_reducible intro _ | with_reducible apply modEvt_on | with_reducible apply setNew_on
      | with_reducible apply foldl_on | with_reducible apply ite_on)
theorem writeGrpctl_on {σ : State} {g : Nat} {v : DWord} {s : State} (hon : Onward σ s) : Onward σ (writeGrpctl g v s) := by
  unfold writeGrpctl
  repeat' (first | with_reducible assumption | with_reducible apply modEvt_on)
theorem writeGrpvec_on {σ : State} {f : Nat} {g : Nat} {v : DWord} {s : State} (hon : Onward σ s) : Onward σ (writeGrpvec f g v s) := by
  unfold writeGrpvec
  repeat' (first | with_reducible assumption | with_reducible apply modEvt_on | with_reducible apply ite_on)
theorem writeEvent_on {σ : State} {f : Nat} {d : Nat × DWord} {s : State} (hon : Onward σ s) : Onward σ (writeEvent f d s) := by
  unfold writeEvent
  repeat' (first
      | with_reducible assumption | with_reducible apply modEvt_on | with_reducible apply clearPending_on
      | with_reducible apply writeMask_on | with_reducible apply writeGrpctl_on | with_reducible apply writeGrpvec_on
      | with_reducible apply ite_on)
theorem writeEvents_on {σ : State} {w : RegWrite} {s : State} (hon : Onward σ s) : Onward σ (writeEvents w s) := by
  unfold writeEvents
  repeat' (first
      | with_reducible assumption | with_reducible intro _ | with_reducible apply writeEvent_on | with_reducible apply foldl_on)
theorem flushPba_on {σ : State} {f : Nat} {s : State} (hon : Onward σ s) : Onward σ (flushPba f s) := by
  unfold flushPba
  repeat' (first
      | with_reducible assumption | with_reducible apply modOut_on | with_reducible apply modFn_on | with_reducible apply ite_on | split)

/-! ### Firmware -/

theorem modSlotAt_on {σ : State} {n : Nat} {f : Slot → Slot} {s : State} (hon : Onward σ s) : Onward σ (modSlotAt n f s) := by
  unfold modSlotAt
  repeat' (first | with_reducible assumption | with_reducible apply modFw_on)
theorem dropStaging_on {σ : State} {s : State} (hon : Onward σ s) : Onward σ (dropStaging s) := by
  unfold dropStaging
  repeat' (first | with_reducible assumption | with_reducible apply modFw_on)
theorem commitProgram_on {σ : State} {a : Admin} {action : Nat} {s0 : State} (hon : Onward σ s0) : OnwardE σ (commitProgram a action s0)
    := by
  unfold commitProgram
  repeat' (first
      | with_reducible assumption | with_reducible apply OnwardE.ok | with_reducible apply modFw_on | with_reducible apply refuse_on
      | with_reducible apply modSlotAt_on | with_reducible apply dropStaging_on | with_reducible apply iteE_on)
theorem beginActivation_on {σ : State} {slot : Nat} {src : Option Src} {s : State} (hon : Onward σ s) : Onward σ (beginActivation slot src
    s) := by
  unfold beginActivation
  repeat' (first
      | with_reducible assumption | with_reducible apply modFw_on | with_reducible apply raise_on | with_reducible apply ite_on)
theorem nextCore_on {σ : State} {c : SwapCore} {s : State} (hon : Onward σ s) : Onward σ (nextCore c s) := by
  unfold nextCore
  repeat' (first | with_reducible assumption | with_reducible apply modFw_on)
theorem stopBand_on {σ : State} {s : State} (hon : Onward σ s) : Onward σ (stopBand s) := by
  unfold stopBand
  repeat' (first | with_reducible assumption | with_reducible apply nextCore_on | split)

/-! ### Integrity -/

theorem wordCorrected_on {σ : State} {a : FrameAt} {w : Nat × Nat} {s : State} (hon : Onward σ s) : Onward σ (wordCorrected a w s) := by
  unfold wordCorrected
  repeat' (first | with_reducible assumption | with_reducible apply ctrAdd_on | with_reducible apply reportAt_on | split)
theorem moveFrame_on {σ : State} {a : FrameAt} {s : State} (hon : Onward σ s) : Onward σ (moveFrame a s).2 := by
  unfold moveFrame
  repeat' (first | with_reducible assumption | with_reducible apply modItg_on | with_reducible apply raise_on | split)
theorem areaLost_on {σ : State} {src : Src} {s : State} (hon : Onward σ s) : Onward σ (areaLost src s) := by
  unfold areaLost
  repeat' (first
      | with_reducible assumption | with_reducible apply modHb_on | with_reducible apply failMilris_on | with_reducible apply refuse_on
      | with_reducible apply failWhole_on | with_reducible apply ite_on | split)
theorem readerOutcome_on {σ : State} {r : Reader} {s : State} (hon : Onward σ s) : Onward σ (readerOutcome r s) := by
  unfold readerOutcome
  repeat' (first
      | with_reducible assumption | with_reducible apply modLife_on | with_reducible apply modXfer_on | with_reducible apply modFls_on
      | with_reducible apply modOne_on | with_reducible apply putExtent_on | with_reducible apply closeBare_on
      | with_reducible apply failTask_on | with_reducible apply faultFence_on | with_reducible apply areaLost_on
      | with_reducible apply ite_on | split | with_reducible rfl)
theorem uncorrectableRead_on {σ : State} {a : FrameAt} {r : Reader} {flags : Nat} {word : Nat} {syn : Nat} {s : State} (hon : Onward σ s)
    : Onward σ (uncorrectableRead a r flags word syn s) := by
  unfold uncorrectableRead
  repeat' (first
      | with_reducible assumption | with_reducible apply raise_on | with_reducible apply reportUnc_on | with_reducible apply reportAt_on
      | with_reducible apply readerOutcome_on | split)
theorem countBadFrame_on {σ : State} {a : FrameAt} {s : State} (hon : Onward σ s) : Onward σ (countBadFrame a s) := by
  unfold countBadFrame
  repeat' (first
      | with_reducible assumption | with_reducible apply modItg_on | with_reducible apply faultFence_on | with_reducible apply ite_on
      | split)
theorem decodeFailed_on {σ : State} {a : FrameAt} {r : Reader} {bad : List (Nat × Nat)} {s : State} (hon : Onward σ s) : Onward σ
    (decodeFailed a r bad s) := by
  unfold decodeFailed
  repeat' (first
      | with_reducible assumption | with_reducible apply modItg_on | with_reducible apply ctrAdd_on | with_reducible apply moveFrame_on
      | with_reducible apply uncorrectableRead_on | with_reducible apply countBadFrame_on)
theorem strongDecode_on {σ : State} {a : FrameAt} {got : FrameBits} {found : Option FrameBits} {tagOk : Bool} {r : Reader} {s : State}
    (hon : Onward σ s) : Onward σ (strongDecode a got found tagOk r s) := by
  unfold strongDecode
  repeat' (first
      | with_reducible assumption | with_reducible intro _ | with_reducible apply ctrAdd_on | with_reducible apply reportAt_on
      | with_reducible apply wordCorrected_on | with_reducible apply decodeFailed_on | with_reducible apply foldl_on | split
      | dsimp only)
theorem putScrub_on {σ : State} {x : Scrub} {s : State} (hon : Onward σ s) : Onward σ (putScrub x s) := by
  unfold putScrub
  repeat' (first | with_reducible assumption | with_reducible apply modItg_on)
theorem lapEnd_on {σ : State} {a : FrameAt} {x : Scrub} {s : State} (h : Onward σ s) : Onward σ (lapEnd a x s) := by
  unfold lapEnd
  extract_lets s1
  have h1 : Onward σ s1 := putScrub_on h
  clear_value s1
  cases a with
  | t0 c f =>
    have h2 : Onward σ (ctrAdd .integScrubLapsT0 c 1 s1) := ctrAdd_on h1
    exact ite_on (modItg_on (draw_on h2)) h2
  | t1 p f =>
    have h2 : Onward σ (ctrAdd .integScrubLapsT1 p 1 s1) := ctrAdd_on h1
    exact ite_on (modItg_on (draw_on h2)) h2
theorem freeDownTo_on {σ : State} {n limit : Nat} {s : State} (h : Onward σ s) : Onward σ (freeDownTo n limit s) := by
  induction n generalizing s with
  | zero => exact h
  | succ n ih =>
    unfold freeDownTo
    dsimp only
    split
    · exact h
    · split
      · exact h
      · exact ih (dropPage_on h)
theorem lowerGroup_on {σ : State} {r : Nat × Option Src × Bool} {s : State} (hon : Onward σ s) : Onward σ (lowerGroup r s) := by
  unfold lowerGroup
  repeat' (first
      | with_reducible assumption | with_reducible apply modObj_on | with_reducible apply modItg_on | with_reducible apply refuse_on
      | with_reducible apply freeDownTo_on | with_reducible apply ite_on | split)
theorem groupGone_on {σ : State} {g : Nat} {s : State} (hon : Onward σ s) : Onward σ (groupGone g s) := by
  unfold groupGone
  repeat' (first
      | with_reducible assumption | with_reducible apply modItg_on | with_reducible apply raise_on | with_reducible apply reportCor_on
      | with_reducible apply modDomain_on)

/-! ### Boot -/

theorem loseStructure_on {σ : State} {keep} {s : State} (h : Onward σ s) : Onward σ (loseStructure keep s) :=
  h.same (by rfl) (by rfl) (by rfl) (by rfl) (by rfl) (by rfl)
theorem progressCut_on {σ : State} {s : State} (hon : Onward σ s) : Onward σ (progressCut s) := by
  unfold progressCut
  repeat' (first | with_reducible assumption | with_reducible apply modFls_on | with_reducible rfl)
theorem or_bit {w : Nat} {a b : BitVec w} {i : Nat} (h : a.getLsbD i = true) : (a ||| b).getLsbD i = true := by simp [h]
theorem coldStart_on {σ s : State} (h : Onward σ s) : Onward σ (coldStart s) := by
  refine h.trans ⟨by rfl, id, ?_, ?_, ?_, ?_, id⟩
  all_goals
    simp only [coldStart, burnFuses, loseStructure]
    split
  · exact id
  · exact id
  · exact Nat.le_max_left _ _
  · exact Nat.le_refl _
  · intro e; exact Nat.max_le.mpr ⟨e, Nat.min_le_right _ _⟩
  · exact id
  · exact fun i => or_bit
  · exact fun i => id
theorem failCluster_on {σ : State} {c : Nat} {s : State} (hon : Onward σ s) : Onward σ (failCluster c s) := by
  unfold failCluster
  repeat' (first
      | with_reducible assumption | with_reducible apply modStr_on | with_reducible apply reportUnc_on | with_reducible apply ite_on)
theorem failPackage_on {σ : State} {p : Nat} {s : State} (h : Onward σ s) : Onward σ (failPackage p s) :=
  ite_on h (groupGone_on (modObj_on h))
theorem applyTests_on {σ : State} {t : BootTest} {s : State} (hon : Onward σ s) : Onward σ (applyTests t s) := by
  unfold applyTests
  repeat' (first
      | with_reducible assumption | with_reducible intro _ | with_reducible apply failCluster_on | with_reducible apply failPackage_on
      | with_reducible apply foldl_on)
theorem bootFail_on {σ : State} {code : BitVec 8} {s : State} (hon : Onward σ s) : Onward σ (bootFail code s) := by
  unfold bootFail
  repeat' (first | with_reducible assumption | with_reducible apply modLife_on)
theorem powerLossEntries_on {σ : State} {s : State} (hon : Onward σ s) : Onward σ (powerLossEntries s) := by
  unfold powerLossEntries
  repeat' (first | with_reducible assumption | with_reducible intro _ | with_reducible apply logCmp_on | with_reducible apply foldl_on)
theorem loseUnits_on {σ : State} {k : ExtKey} {s : State} (hon : Onward σ s) : Onward σ (loseUnits k s) := by
  unfold loseUnits
  repeat' (first
      | with_reducible assumption | with_reducible apply modFls_on | with_reducible apply reportUnc_on
      | with_reducible apply putExtent_on | split | with_reducible rfl)
theorem lostByFlush_on {σ : State} {n : Nat} {s : State} (hon : Onward σ s) : Onward σ (lostByFlush n s) := by
  unfold lostByFlush
  repeat' (first
      | with_reducible assumption | with_reducible intro _ | with_reducible apply modLife_on | with_reducible apply modFls_on
      | with_reducible apply modItg_on | with_reducible apply closeBare_on | with_reducible apply loseUnits_on
      | with_reducible apply foldl_on | with_reducible apply ite_on | split | with_reducible rfl)
theorem restore_on {σ : State} {s : State} (hon : Onward σ s) : Onward σ (restore s) := by
  unfold restore
  repeat' (first
      | with_reducible assumption | with_reducible apply modLife_on | with_reducible apply closeWindow_on
      | with_reducible apply reinstateParity_on | with_reducible apply powerLossEntries_on | with_reducible apply lostByFlush_on
      | with_reducible apply ite_on | split)
theorem dropQueues_on {σ : State} {f : Nat} {s : State} (hon : Onward σ s) : Onward σ (dropQueues f s) := by
  unfold dropQueues
  repeat' (first
      | with_reducible assumption | with_reducible intro _ | with_reducible apply modQ_on | with_reducible apply modHb_on
      | with_reducible apply modFls_on | with_reducible apply dropReads_on | with_reducible apply modCmd_on
      | with_reducible apply dropCmd_on | with_reducible apply foldl_on | with_reducible apply ite_on | with_reducible rfl)
theorem resetFeatures_on {σ : State} {f : Nat} {s : State} (hon : Onward σ s) : Onward σ (resetFeatures f s) := by
  unfold resetFeatures
  repeat' (first | with_reducible assumption | with_reducible apply modFn_on)
theorem unparkFn_on {σ : State} {f : Nat} {s : State} (hon : Onward σ s) : Onward σ (unparkFn f s) := by
  unfold unparkFn
  repeat' (first | with_reducible assumption | with_reducible intro _ | with_reducible apply uncharge_on | with_reducible apply foldl_on)
theorem stopController_on {σ : State} {f : Nat} {cc : DWord} {s : State} (hon : Onward σ s) : Onward σ (stopController f cc s) := by
  unfold stopController
  repeat' (first
      | with_reducible assumption | with_reducible apply modFn_on | with_reducible apply dropQueues_on
      | with_reducible apply resetFeatures_on | with_reducible apply unparkFn_on)
theorem adminQueues_on {σ : State} {f : Func} {s : State} (hon : Onward σ s) : Onward σ (adminQueues f s) := by
  unfold adminQueues
  repeat' (first | with_reducible assumption | with_reducible apply modQ_on)
theorem trapReset_on {σ : State} {s : State} (hon : Onward σ s) : Onward σ (trapReset s) := by
  unfold trapReset
  repeat' (first
      | with_reducible assumption | with_reducible apply modLife_on | with_reducible apply domainsOff_on
      | with_reducible apply loseStructure_on)
theorem activatePending_on {σ : State} {s : State} (hon : Onward σ s) : Onward σ (activatePending s) := by
  unfold activatePending
  repeat' (first | with_reducible assumption | with_reducible apply beginActivation_on | with_reducible apply ite_on | split)
theorem shutdownDone_on {σ : State} {s : State} (hon : Onward σ s) : Onward σ (shutdownDone s) := by
  unfold shutdownDone
  repeat' (first
      | with_reducible assumption | with_reducible apply modLife_on | with_reducible apply modFls_on | with_reducible apply modCal_on
      | with_reducible apply modFn_on | with_reducible apply ite_on | with_reducible rfl)

/-! ### Logs -/

theorem freeFields_on {σ : State} {n : Nat} {s : State} (h : Onward σ s) : Onward σ (freeFields n s).2 := by
  induction n generalizing s with
  | zero => exact h
  | succ n ih => exact ih (draw_on h)
theorem smartPage_on {σ : State} {f : Nat} {s : State} (h : Onward σ s) : Onward σ (smartPage f s).2 := draw_on (freeFields_on h)
theorem logPage_on {σ : State} {id f off : Nat} {s : State} (h : Onward σ s) : OnwardOP (·.2) σ (logPage id f off s) := by
  have some {p : List Byte} : OnwardOP (·.2) σ (Option.some (p, s)) := OnwardOP.some h
  have iteOP {c : Prop} [Decidable c] {a b : Option (List Byte × State)} (x : OnwardOP (·.2) σ a) (y : OnwardOP (·.2) σ b) :
      OnwardOP (·.2) σ (if c then a else b) := by split <;> assumption
  exact iteOP some (iteOP (OnwardOP.some (smartPage_on h)) (iteOP some (iteOP some (iteOP some (iteOP some (iteOP
    (OnwardOP.some (modCal_on h)) (iteOP some OnwardOP.none)))))))
theorem clearRing_on {σ : State} {s : State} (hon : Onward σ s) : Onward σ (clearRing s) := by
  unfold clearRing
  repeat' (first | with_reducible assumption | with_reducible apply modItg_on)
theorem unmaskEvents_on {σ : State} {f : Nat} {id : Nat} {s : State} (hon : Onward σ s) : Onward σ (unmaskEvents f id s) := by
  unfold unmaskEvents
  repeat' (first | with_reducible assumption | with_reducible apply modQ_on | with_reducible apply aenPump_on | split)

/-! ### Namespaces -/

theorem dropNs_on {σ : State} {n : Nat} {s : State} (hon : Onward σ s) : Onward σ (dropNs n s) := by
  unfold dropNs
  repeat' (first | with_reducible assumption | with_reducible apply modFls_on | with_reducible apply dropSpace_on | with_reducible rfl)
theorem putProgress_on {σ : State} {p : Progress} {s : State} (hon : Onward σ s) : Onward σ (putProgress p s) := by
  unfold putProgress
  repeat' (first | with_reducible assumption | with_reducible apply modFls_on | with_reducible rfl)
theorem beginSanitize_on {σ : State} {a : Admin} {op : Nat} {s : State} (hon : Onward σ s) : OnwardE σ (beginSanitize a op s) := by
  unfold beginSanitize
  repeat' (first
      | with_reducible assumption | exact OnwardE.error | with_reducible apply OnwardE.ok | with_reducible apply ok_on
      | with_reducible apply putProgress_on | with_reducible apply iteE_on)
theorem eraseNs_on {σ : State} {n : Nat} {s : State} (hon : Onward σ s) : Onward σ (eraseNs n s) := by
  unfold eraseNs
  repeat' (first | with_reducible assumption | with_reducible apply dropSpace_on | with_reducible apply modNs_on)
theorem rekeyNs_on {σ : State} {n : Nat} {s : State} (hon : Onward σ s) : Onward σ (rekeyNs n s) := by
  unfold rekeyNs
  repeat' (first | with_reducible assumption | with_reducible apply modSec_on | with_reducible apply modNs_on | with_reducible rfl)
theorem sanitizeAll_on {σ : State} {s : State} (hon : Onward σ s) : Onward σ (sanitizeAll s) := by
  unfold sanitizeAll
  repeat' (first
      | with_reducible assumption | with_reducible intro _ | with_reducible apply modObj_on | with_reducible apply dropSpace_on
      | with_reducible apply dropObject_on | with_reducible apply destroy_on | with_reducible apply eraseNs_on
      | with_reducible apply foldl_on)
theorem newKeys_on {σ : State} {s : State} (hon : Onward σ s) : Onward σ (newKeys s) := by
  unfold newKeys
  repeat' (first
      | with_reducible assumption | with_reducible intro _ | with_reducible apply modSec_on | with_reducible apply rekeyNs_on
      | with_reducible apply foldl_on | with_reducible rfl)
theorem endFormat_on {σ : State} {p : Progress} {s : State} (hon : Onward σ s) : Onward σ (endFormat p s) := by
  unfold endFormat
  repeat' (first
      | with_reducible assumption | with_reducible intro _ | with_reducible apply modNs_on | with_reducible apply eraseNs_on
      | with_reducible apply rekeyNs_on | with_reducible apply foldl_on | with_reducible apply ite_on)

/-! ### Admin -/

theorem abortNvm_on {σ : State} {f : Nat} {q : Nat} {s : State} (hon : Onward σ s) : Onward σ (abortNvm f q s) := by
  unfold abortNvm
  repeat' (first
      | with_reducible assumption | with_reducible intro _ | with_reducible apply modFls_on | with_reducible apply refuse_on
      | with_reducible apply dropReads_on | with_reducible apply foldl_on | with_reducible rfl)
theorem modFeat_on {σ : State} {f : Nat} {g : Features → Features} {s : State} (hon : Onward σ s) : Onward σ (modFeat f g s) := by
  unfold modFeat
  repeat' (first | with_reducible assumption | with_reducible apply modFn_on)
theorem setStandard_on {σ : State} {a : Admin} {f : Func} {s : State} (hon : Onward σ s) : OnwardE σ (setStandard a f s) := by
  unfold setStandard
  repeat' (first
      | with_reducible assumption | exact OnwardE.error | with_reducible apply OnwardE.ok | with_reducible apply ok_on
      | with_reducible apply aenPump_on | with_reducible apply modFeat_on | with_reducible apply iteE_on)
theorem assignResources_on {σ : State} {src : Src} {f : Func} {rt : Nat} {nr : Nat} {s : State} (hon : Onward σ s) : OnwardE σ
    (assignResources src f rt nr s) := by
  unfold assignResources
  repeat' (first
      | with_reducible assumption | exact OnwardE.error | with_reducible apply OnwardE.ok | with_reducible apply modFn_on
      | with_reducible apply ok_on | with_reducible apply iteE_on)

/-! ### Generate -/

theorem admitSeq_on {σ : State} {src : Src} {s : State} (hon : Onward σ s) : Onward σ (admitSeq src s) := by
  unfold admitSeq
  repeat' (first
      | with_reducible assumption | with_reducible apply modInf_on | with_reducible apply modCmd_on | with_reducible apply modSeq_on
      | with_reducible apply takeBlocks_on)
theorem feedPass_on {σ : State} {src : Src} {ids : List Nat} {s : State} (hon : Onward σ s) : Onward σ (feedPass src ids s) := by
  unfold feedPass
  repeat' (first | with_reducible assumption | with_reducible apply modCmd_on)
theorem admitGenerate_on {σ : State} {e : Entry} {pre : Plan} {dec : Plan} {s : State} (hon : Onward σ s) : Onward σ (admitGenerate e pre
    dec s) := by
  unfold admitGenerate
  repeat' (first
      | with_reducible assumption | with_reducible apply modInf_on | with_reducible apply enrol_on
      | with_reducible apply beginFirstFill_on | with_reducible apply admitSeq_on | with_reducible apply feedPass_on
      | with_reducible apply ite_on)
theorem prefillEnd_on {σ : State} {src : Src} {s : State} (hon : Onward σ s) : Onward σ (prefillEnd src s) := by
  unfold prefillEnd
  repeat' (first
      | with_reducible assumption | with_reducible apply ctrPart_on | with_reducible apply modSeq_on | with_reducible apply takeBlocks_on
      | split)
theorem sample_on {σ : State} {cluster : Nat} {q : Seq} {logits : List Nat} {s : State} (hon : Onward σ s) : Onward σ (sample cluster q
    logits s).2 := by
  unfold sample
  repeat' (first
      | with_reducible assumption | with_reducible apply draw_on | with_reducible apply ctrPart_on | with_reducible apply countSel_on
      | split | dsimp only)
theorem stopSeq_on {σ : State} {q : Seq} {reason : Nat} {s : State} (hon : Onward σ s) : Onward σ (stopSeq q reason s) := by
  unfold stopSeq
  repeat' (first | with_reducible assumption | with_reducible apply modCmd_on | with_reducible apply settle_on)
theorem stepSeq_on {σ : State} {cluster : Nat} {q : Seq} {logits : List Nat} {s : State} (hon : Onward σ s) : Onward σ (stepSeq cluster q
    logits s).2 := by
  unfold stepSeq
  repeat' (first
      | with_reducible assumption | with_reducible apply ctrPart_on | with_reducible apply modSeq_on | with_reducible apply takeBlocks_on
      | with_reducible apply sample_on | with_reducible apply stopSeq_on | split | dsimp only)
theorem routeRow_on {σ : State} {k : OpCtx} {cluster : Nat} {x : Tensor} {z : Tensor} {row : Nat} {s : State} (hon : Onward σ s) : Onward
    σ (routeRow k cluster x z row s) := by
  unfold routeRow
  repeat' (first
      | with_reducible assumption | with_reducible apply ctrPart_on | with_reducible apply countSel_on | with_reducible apply putPart_on
      | with_reducible apply getVals_on | with_reducible apply ite_on)
theorem sampleRow_on {σ : State} {k : OpCtx} {cluster : Nat} {x : Tensor} {z : Tensor} {row : Nat} {s : State} (hon : Onward σ s) : Onward
    σ (sampleRow k cluster x z row s) := by
  unfold sampleRow
  repeat' (first
      | with_reducible assumption | with_reducible apply putPart_on | with_reducible apply getVals_on | with_reducible apply stepSeq_on
      | with_reducible apply ite_on | split)
theorem lastTokens_on {σ : State} {l : List Seq} {s : State} (hon : Onward σ s) : Onward σ (lastTokens l s).2 := by
  unfold lastTokens
  repeat' (first
      | with_reducible assumption | with_reducible intro _ | with_reducible apply draw_on | with_reducible apply foldl_on_snd | split)

/-! ### Streams -/

theorem modStream_on {σ : State} {id : Nat} {f : Stream → Stream} {s : State} (hon : Onward σ s) : Onward σ (modStream id f s) := by
  unfold modStream
  repeat' (first | with_reducible assumption | with_reducible apply modStrm_on)
theorem wake_on {σ : State} {w : Wait} {s : State} (hon : Onward σ s) : Onward σ (wake w s) := by
  unfold wake
  repeat' (first | with_reducible assumption | with_reducible apply streamPacket_on | with_reducible apply endWait_on | split)
theorem wakeN_on {σ : State} {w : Wait} {n : Nat} {s : State} (h : Onward σ s) : Onward σ (wakeN w n s) := by
  induction n generalizing s with
  | zero => exact h
  | succ n ih => exact ih (wake_on h)
theorem chunkRoom_on {σ : State} {t : TaskRef} {c : Cmd} {r : Run} {x : Stream} {s : State} (hon : Onward σ s) : OnwardO σ (chunkRoom t c
    r x s) := by
  unfold chunkRoom
  repeat' (first
      | with_reducible assumption | exact OnwardO.none | with_reducible apply OnwardO.some | with_reducible apply streamPacket_on
      | with_reducible apply failTask_on | with_reducible apply setWait_on | split)
theorem putStream_on {σ : State} {id : Nat} {bytes : List Byte} {s : State} (hon : Onward σ s) : Onward σ (putStream id bytes s) := by
  unfold putStream
  repeat' (first | with_reducible assumption | with_reducible apply modStream_on | with_reducible apply wake_on)
theorem takeChunk_error {σ : State} {t : TaskRef} {c : Cmd} {r : Run} {x : Stream} {s u : State} (h : Onward σ s)
    (e : takeChunk t c r x s = .error u) : Onward σ u := by
  unfold takeChunk at e
  extract_lets id at e
  split at e
  · cases e; exact failTask_on h
  · split at e
    · cases e
    · cases e
    · cases e; exact streamPacket_on (setWait_on h)
theorem takeChunk_ok {σ : State} {t : TaskRef} {c : Cmd} {r : Run} {x : Stream} {s : State} {v : List Byte × State} (h : Onward σ s)
    (e : takeChunk t c r x s = .ok v) : Onward σ v.2 := by
  unfold takeChunk at e
  extract_lets id at e
  split at e
  · cases e
  · split at e
    · cases e; exact modStream_on h
    · cases e; exact wake_on (modStream_on h)
    · cases e
theorem setChannel_on {σ : State} {x : Transfer} {s : State} (hon : Onward σ s) : Onward σ (setChannel x s) := by
  unfold setChannel
  repeat' (first | with_reducible assumption | with_reducible apply modXfer_on)
theorem chunkFrom_on {σ : State} {c : Cmd} {x : XferEnd} {s : State} (hon : Onward σ s) : Onward σ (chunkFrom c x s).2 := by
  unfold chunkFrom
  repeat' (first
      | with_reducible assumption | with_reducible intro _ | with_reducible apply draws_on | with_reducible apply touch_on
      | with_reducible apply foldl_on | split)
theorem chunkTo_on {σ : State} {c : Cmd} {x : XferEnd} {bs : List Byte} {s : State} (hon : Onward σ s) : Onward σ (chunkTo c x bs s) := by
  unfold chunkTo
  repeat' (first
      | with_reducible assumption | with_reducible intro _ | with_reducible apply sendT2_on | with_reducible apply writeObj_on
      | with_reducible apply modCmd_on | with_reducible apply noteWrite_on | with_reducible apply putStream_on
      | with_reducible apply foldl_on | with_reducible apply ite_on)
theorem fillChunk_on {σ : State} {n : Nat} {bs : List Byte} {s : State} (hon : Onward σ s) : Onward σ (fillChunk n bs s).2 := by
  unfold fillChunk
  repeat' (first | with_reducible assumption | with_reducible apply draws_on)
theorem spendShare_on {σ : State} {cl : Nat} {d : Nat} {window : Nat} {flits : Nat} {classes : List Nat} {s : State} (hon : Onward σ s) :
    Onward σ (spendShare cl d window flits classes s) := by
  unfold spendShare
  repeat' (first | with_reducible assumption | with_reducible apply modSch_on)
theorem wakePath_on {σ : State} {d : Nat} {cl : Nat} {s : State} (hon : Onward σ s) : Onward σ (wakePath d cl s) := by
  unfold wakePath
  repeat' (first | with_reducible assumption | with_reducible intro _ | with_reducible apply modDomain_on | with_reducible apply foldl_on)
theorem transferFault_on {σ : State} {t : TaskRef} {x : Transfer} {addr : Nat} {s : State} (hon : Onward σ s) : Onward σ (transferFault t
    x addr s) := by
  unfold transferFault
  repeat' (first
      | with_reducible assumption | with_reducible apply ctrAdd_on | with_reducible apply failTask_on
      | with_reducible apply setChannel_on)
theorem pageMissing_on {σ : State} {t : TaskRef} {x : Transfer} {addr : Nat} {s : State} (hon : Onward σ s) : Onward σ (pageMissing t x
    addr s) := by
  unfold pageMissing
  repeat' (first
      | with_reducible assumption | with_reducible apply modOut_on | with_reducible apply ctrAdd_on | with_reducible apply modFn_on
      | with_reducible apply setWait_on | with_reducible apply setChannel_on | with_reducible apply transferFault_on
      | with_reducible apply ite_on | split)
theorem chunkDone_on {σ : State} {x : Transfer} {s : State} (hon : Onward σ s) : Onward σ (chunkDone x s) := by
  unfold chunkDone
  repeat' (first
      | with_reducible assumption | with_reducible apply modXfer_on | with_reducible apply setChannel_on | with_reducible apply ite_on)
theorem unpoison_on {σ : State} {cl : Nat} {at_ : List Nat} {s : State} (hon : Onward σ s) : Onward σ (unpoison cl at_ s) := by
  unfold unpoison
  repeat' (first | with_reducible assumption | with_reducible apply modItg_on)
theorem moveChunk_on {σ : State} {x : Transfer} {c : Cmd} {r : Run} {a z : XferEnd} {s : State} (h : Onward σ s) :
    Onward σ (moveChunk x c r a z s) := by
  unfold moveChunk
  extract_lets land
  have hl : ∀ bs u, Onward σ u → Onward σ (land bs u) := fun bs u hu => chunkDone_on (chunkTo_on (unpoison_on (endWait_on hu)))
  clear_value land
  split
  · split
    · exact h
    · split
      · next e => exact takeChunk_error h e
      · next e => exact hl _ _ (fillChunk_on (takeChunk_ok h e))
  · exact hl _ _ (chunkFrom_on h)
theorem sendChunk_on {σ : State} {x : Transfer} {c : Cmd} {r : Run} {a z : XferEnd} {window : Nat} {s : State} (h : Onward σ s) :
    Onward σ (sendChunk x c r a z window s) := by
  unfold sendChunk
  extract_lets classes flits
  clear_value classes flits
  split
  · next u e =>
    refine OnwardO.get (r := _) ?_ e
    split
    · cases s.stream? z.id with
      | none => exact OnwardO.none
      | some y => exact chunkRoom_on h
    · exact OnwardO.none
  · split
    · exact ite_on h (ctrAdd_on (setWait_on h))
    · exact moveChunk_on (ite_on (wakePath_on (spendShare_on h)) (spendShare_on h))
theorem reportAer_on {σ : State} {n : Nat} {s : State} (hon : Onward σ s) : Onward σ (reportAer n s) := by
  unfold reportAer
  repeat' (first | with_reducible assumption | with_reducible apply modLife_on)
theorem breakCycle_on {σ : State} {streams : List Nat} {s : State} (h : Onward σ s) : Onward σ (breakCycle streams s) := by
  unfold breakCycle
  split
  · exact h
  split
  · exact h
  refine ite_on ?_ ?_
  · exact streamPacket_on (raisePart_on (ctrPart_on (wakeN_on (modStream_on h))))
  · exact streamPacket_on (raisePart_on (ctrPart_on (foldl_on (foldl_on h fun _ _ hx => modStream_on hx) fun _ _ hx => failTask_on hx)))
theorem foundCycle_on {σ : State} {streams : List Nat} {s : State} (hon : Onward σ s) : Onward σ (foundCycle streams s) := by
  unfold foundCycle
  repeat' (first
      | with_reducible assumption | with_reducible intro _ | with_reducible apply modStream_on | with_reducible apply breakCycle_on
      | with_reducible apply foldl_on | with_reducible apply ite_on)
theorem streamCycles_on {σ : State} {s : State} (hon : Onward σ s) : Onward σ (streamCycles s) := by
  unfold streamCycles
  repeat' (first
      | with_reducible assumption | with_reducible intro _ | with_reducible apply modSch_on | with_reducible apply modStrm_on
      | with_reducible apply foundCycle_on | with_reducible apply foldl_on)

/-! ### Security -/

theorem doeSend_on {σ : State} {r : List Byte} {s : State} (hon : Onward σ s) : Onward σ (doeSend r s) := by
  unfold doeSend
  repeat' (first | with_reducible assumption | with_reducible apply modOut_on)
theorem spdmError_on {σ : State} {code : Nat} {s : State} (hon : Onward σ s) : Onward σ (spdmError code s) := by
  unfold spdmError
  repeat' (first | with_reducible assumption | with_reducible apply doeSend_on)
theorem spdm_on {σ : State} {code : Nat} {d : DoeReq} {own : State → State} {s : State} (h : Onward σ s) (g : Onward σ (own s)) :
    Runs σ (spdm code d own s) := by
  unfold spdm
  exact Runs.next (ite_on h (ite_on (spdmError_on h) (ite_on (spdmError_on h) g)))
theorem staged_on {σ : State} {n : Nat} {own : State → State} {s : State} (h : Onward σ s) (g : Onward σ (own s)) :
    Onward σ (staged n own s) := ite_on g (spdmError_on h)
theorem randomBytes_on {σ : State} {n : Nat} {s : State} (h : Onward σ s) : Onward σ (randomBytes n s).2 := by
  induction n generalizing s with
  | zero => exact h
  | succ n ih => exact ih (draw_on h)
theorem signed_on {σ : State} {transcript : List Byte} {s : State} (hon : Onward σ s) : Onward σ (signed transcript s).2 := by
  unfold signed
  repeat' (first | with_reducible assumption | with_reducible apply draw_on)
theorem vendorAnswer_on {σ : State} {status : Nat} {s : State} (hon : Onward σ s) : Onward σ (vendorAnswer status s) := by
  unfold vendorAnswer
  repeat' (first | with_reducible assumption | with_reducible apply doeSend_on)
theorem vendorMessage_on {σ : State} {d : DoeReq} {op : Nat → Bool} {own : State → State} {s : State} (h : Onward σ s)
    (g : Onward σ (own s)) : Runs σ (vendorMessage d op own s) := by
  unfold vendorMessage
  exact iteR_on (Runs.next h) (spdm_on h (ite_on (spdmError_on h) (ite_on (spdmError_on h) g)))
theorem putIde_on {σ : State} {x : IdeStream} {s : State} (hon : Onward σ s) : Onward σ (putIde x s) := by
  unfold putIde
  repeat' (first | with_reducible assumption | with_reducible apply modSec_on | with_reducible rfl)
theorem ideAck_on {σ : State} {object : Nat} {status : Nat} {k : IdeKey} {s : State} (hon : Onward σ s) : Onward σ (ideAck object status k
    s) := by
  unfold ideAck
  repeat' (first | with_reducible assumption | with_reducible apply doeSend_on)
theorem ideKm_on {σ : State} {x : Option Nat} {object : Nat} {k : IdeKey} {own : State → State} {s : State} (h : Onward σ s)
    (g : Onward σ (own s)) : Runs σ (ideKm x object k own s) := by
  unfold ideKm
  exact Runs.next (ite_on h (ite_on (spdmError_on h) (ite_on (ideAck_on h) g)))

/-! ### Registers -/

theorem badDoorbell_on {σ : State} {f : Nat} {info : Nat} {s : State} (hon : Onward σ s) : Onward σ (badDoorbell f info s) := by
  unfold badDoorbell
  repeat' (first | with_reducible assumption | with_reducible apply aen_on)
theorem fetch_on {σ : State} {fn : Nat} {sq : Nat} {s : State} (hon : Onward σ s) : Onward σ (fetch fn sq s) := by
  unfold fetch
  repeat' (first | with_reducible assumption | with_reducible apply modQ_on | with_reducible apply modSq_on)
theorem writeBeat_on {σ : State} {d : Nat × DWord} {us : Nat} {s : State} (hon : Onward σ s) : Onward σ (writeBeat d us s) := by
  unfold writeBeat
  repeat' (first
      | with_reducible assumption | with_reducible apply modReg_on | with_reducible apply heartbeat_on | with_reducible apply ite_on)
theorem writeBar2_on {σ : State} {f : Nat} {d : Nat × DWord} {s : State} (hon : Onward σ s) : Onward σ (writeBar2 f d s) := by
  unfold writeBar2
  repeat' (first
      | with_reducible assumption | with_reducible apply modReg_on | with_reducible apply writeEvent_on
      | with_reducible apply writeBeat_on | with_reducible apply ite_on)
theorem writeBar0_on {σ : State} {f : Nat} {d : Nat × DWord} {s : State} (hon : Onward σ s) : Onward σ (writeBar0 f d s) := by
  unfold writeBar0
  repeat' (first | with_reducible assumption | with_reducible apply modFn_on)
theorem writeCc_on {σ : State} {w : RegWrite} {s : State} (hon : Onward σ s) : Onward σ (writeCc w s) := by
  unfold writeCc
  repeat' (first | with_reducible assumption | with_reducible apply modFn_on | with_reducible apply ite_on | split)
theorem setVfs_on {σ : State} {n : Nat} {s : State} (hon : Onward σ s) : Onward σ (setVfs n s) := by
  unfold setVfs
  repeat' (first
      | with_reducible assumption | with_reducible intro _ | with_reducible apply modFns_on | with_reducible apply stopController_on
      | with_reducible apply foldl_on)
theorem writeConfig_on {σ : State} {f : Nat} {off : Nat} {v : DWord} {s : State} (hon : Onward σ s) : Onward σ (writeConfig f off v s) :=
    by
  unfold writeConfig
  repeat' (first
      | with_reducible assumption | with_reducible apply modFn_on | with_reducible apply flushPba_on | with_reducible apply setVfs_on
      | with_reducible apply ite_on)

/-! ### Tune -/

theorem startTunePass_on {σ : State} {src : Src} {p : Plan} {pass : Nat} {s : State} (hon : Onward σ s) : Onward σ (startTunePass src p
    pass s) := by
  unfold startTunePass
  repeat' (first | with_reducible assumption | with_reducible apply feedPass_on | split)
theorem admitTune_on {σ : State} {e : Entry} {p : Plan} {s : State} {s1 : State} (hon : Onward σ s1) : Onward σ (admitTune e p s s1) := by
  unfold admitTune
  repeat' (first
      | with_reducible assumption | with_reducible apply modInf_on | with_reducible apply enrol_on
      | with_reducible apply beginFirstFill_on | with_reducible apply startTunePass_on)
theorem tuneStepEnd_on {σ : State} {src : Src} {r : TuneRun} {s : State} (hon : Onward σ s) : Onward σ (tuneStepEnd src r s) := by
  unfold tuneStepEnd
  repeat' (first
      | with_reducible assumption | with_reducible apply ctrPart_on | with_reducible apply modCmd_on | with_reducible apply modTune_on)
theorem tunePassEnd_on {σ : State} {src : Src} {h : Chain} {s : State} (hon : Onward σ s) : Onward σ (tunePassEnd src h s) := by
  unfold tunePassEnd
  repeat' (first
      | with_reducible assumption | with_reducible apply startTunePass_on | with_reducible apply tuneStepEnd_on
      | with_reducible apply ite_on | split)
theorem keepVersion_on {σ : State} {id : Nat} {a : Adapter} {s : State} (hon : Onward σ s) : Onward σ (keepVersion id a s) := by
  unfold keepVersion
  repeat' (first
      | with_reducible assumption | with_reducible apply modInf_on | with_reducible apply charge_on | with_reducible apply ite_on)
theorem tuneCommitNow_on {σ : State} {src : Src} {s : State} (hon : Onward σ s) : Onward σ (tuneCommitNow src s) := by
  unfold tuneCommitNow
  repeat' (first
      | with_reducible assumption | with_reducible intro _ | with_reducible apply writeObj_on | with_reducible apply modCmd_on
      | with_reducible apply settle_on | with_reducible apply failWhole_on | with_reducible apply keepVersion_on
      | with_reducible apply foldl_on | with_reducible apply ite_on | split)

/-! ### Boundary -/

theorem stopDispatch_on {σ : State} {s : State} (hon : Onward σ s) : Onward σ (stopDispatch s) := by
  unfold stopDispatch
  repeat' (first | with_reducible assumption | with_reducible apply modStr_on)
theorem stepPtr_on {σ : State} {part : Nat} {s0 : State} (hon : Onward σ s0) : Onward σ (stepPtr part s0) := by
  unfold stepPtr
  repeat' (first
      | with_reducible assumption | with_reducible apply modPtr_on | with_reducible apply startSave_on | with_reducible apply ite_on
      | split | dsimp only)
theorem overrunCheck_on {σ : State} {part : Nat} {s : State} (hon : Onward σ s) : Onward σ (overrunCheck part s) := by
  unfold overrunCheck
  repeat' (first
      | with_reducible assumption | with_reducible apply switchPacket_on | with_reducible apply ctrPart_on
      | with_reducible apply raisePart_on | with_reducible apply modPtr_on | with_reducible apply yieldRequests_on
      | with_reducible apply startSave_on | with_reducible apply ite_on | split)
theorem leadStep_on {σ : State} {part : Nat} {s : State} (hon : Onward σ s) : Onward σ (leadStep part s) := by
  unfold leadStep
  repeat' (first | with_reducible assumption | with_reducible apply modPtr_on | with_reducible apply ite_on | split)
theorem lendingsStep_on {σ : State} {s : State} (hon : Onward σ s) : Onward σ (lendingsStep s) := by
  unfold lendingsStep
  repeat' (first
      | with_reducible assumption | with_reducible intro _ | with_reducible apply lendingCheck_on | with_reducible apply foldl_on
      | with_reducible apply ite_on | split)
theorem slicesStep_on {σ : State} {s : State} (hon : Onward σ s) : Onward σ (slicesStep s) := by
  unfold slicesStep
  repeat' (first
      | with_reducible assumption | with_reducible intro _ | with_reducible apply resumeEligible_on | with_reducible apply stepPtr_on
      | with_reducible apply overrunCheck_on | with_reducible apply leadStep_on | with_reducible apply lendingsStep_on
      | with_reducible apply foldl_on)
theorem applyScale_on {σ : State} {w : Watch} {s : State} (hon : Onward σ s) : Onward σ (applyScale w s) := by
  unfold applyScale
  repeat' (first | with_reducible assumption | with_reducible apply ctrPart_on | with_reducible apply modSlot_on)
theorem applyScales_on {σ : State} {s : State} (hon : Onward σ s) : Onward σ (applyScales s) := by
  unfold applyScales
  repeat' (first
      | with_reducible assumption | with_reducible intro _ | with_reducible apply raisePart_on | with_reducible apply applyScale_on
      | with_reducible apply foldl_on)
theorem applyLevels_on {σ : State} {s : State} (hon : Onward σ s) : Onward σ (applyLevels s) := by
  unfold applyLevels
  repeat' (first | with_reducible assumption | with_reducible apply modCal_on)
theorem deferCalibration_on {σ : State} {s : State} (hon : Onward σ s) : Onward σ (deferCalibration s) := by
  unfold deferCalibration
  repeat' (first
      | with_reducible assumption | with_reducible intro _ | with_reducible apply ctrAdd_on | with_reducible apply modSlot_on
      | with_reducible apply stretch_on | with_reducible apply foldl_on)
theorem applyTrims_on {σ : State} {s : State} (hon : Onward σ s) : Onward σ (applyTrims s) := by
  unfold applyTrims
  repeat' (first | with_reducible assumption | with_reducible apply modCal_on | with_reducible apply ctrAdd_on | split)
theorem checkpointStep_on {σ : State} {s : State} (hon : Onward σ s) : Onward σ (checkpointStep s) := by
  unfold checkpointStep
  repeat' (first
      | with_reducible assumption | with_reducible apply modFls_on | with_reducible apply modCal_on | with_reducible apply ite_on
      | with_reducible rfl)
theorem settingsStep_on {σ : State} {s : State} (hon : Onward σ s) : Onward σ (settingsStep s) := by
  unfold settingsStep
  repeat' (first
      | with_reducible assumption | with_reducible intro _ | with_reducible apply modQ_on | with_reducible apply modEff_on
      | with_reducible apply queueRefresh_on | with_reducible apply foldl_on | with_reducible apply ite_on)
theorem powerStep_on {σ : State} {avg : Nat} {s : State} (hon : Onward σ s) : Onward σ (powerStep avg s) := by
  unfold powerStep
  repeat' (first | with_reducible assumption | with_reducible apply modPwr_on)
theorem overCause_on {σ : State} {s : State} (hon : Onward σ s) : Onward σ (overCause s) := by
  unfold overCause
  repeat' (first
      | with_reducible assumption | with_reducible apply modPwr_on | with_reducible apply beginCause_on
      | with_reducible apply endCause_on | with_reducible apply ite_on)
theorem bandStep_on {σ : State} {b : Nat} {s : State} (hon : Onward σ s) : Onward σ (bandStep b s) := by
  unfold bandStep
  repeat' (first | with_reducible assumption | with_reducible apply modDomain_on | with_reducible apply ite_on | split)
theorem domainsStep_on {σ s : State} (h : Onward σ s) : Onward σ (domainsStep s) :=
  foldl_on (foldl_on h fun _ _ hx => ctrAdd_on hx) fun _ _ hx => bandStep_on hx
theorem budgetStep_on {σ : State} {p : Nat × Nat × Nat} {extra : Nat} {shed : BitVec 4} {s : State} (hon : Onward σ s) : Onward σ
    (budgetStep p extra shed s) := by
  unfold budgetStep
  repeat' (first
      | with_reducible assumption | with_reducible intro _ | with_reducible apply modSch_on | with_reducible apply ctrAdd_on
      | with_reducible apply stretch_on | with_reducible apply foldl_on | with_reducible apply ite_on)
theorem mirrorStep_on {σ : State} {shed : BitVec 4} {s : State} (hon : Onward σ s) : Onward σ (mirrorStep shed s) := by
  unfold mirrorStep
  repeat' (first | with_reducible assumption | with_reducible apply ite_on | dsimp only | assumption)
theorem counterPackets_on {σ : State} {all : List (Ctr × Nat × Nat)} {b : Nat} {s : State} (hon : Onward σ s) : Onward σ (counterPackets
    all b s) := by
  unfold counterPackets
  repeat' (first
      | with_reducible assumption | with_reducible intro _ | with_reducible apply record_on | with_reducible apply foldl_on | split)
theorem sampleStep_on {σ : State} {s : State} (hon : Onward σ s) : Onward σ (sampleStep s) := by
  unfold sampleStep
  repeat' (first
      | with_reducible assumption | with_reducible intro _ | with_reducible apply counterPackets_on | with_reducible apply foldl_on
      | with_reducible apply ite_on)
theorem tickPacket_on {σ : State} {demand : Nat} {shed : BitVec 4} {carried : Bool} {s : State} (hon : Onward σ s) : Onward σ (tickPacket
    demand shed carried s) := by
  unfold tickPacket
  repeat' (first | with_reducible assumption | with_reducible apply putPacket_on | with_reducible apply ite_on)
theorem lanternTick_on {σ : State} {s : State} (hon : Onward σ s) : Onward σ (lanternTick s) := by
  unfold lanternTick
  repeat' (first
      | with_reducible assumption | with_reducible apply modLan_on | with_reducible apply ctrAdd_on | with_reducible apply ite_on)
theorem warningsStep_on {σ : State} {s : State} (hon : Onward σ s) : Onward σ (warningsStep s) := by
  unfold warningsStep
  repeat' (first
      | with_reducible assumption | with_reducible intro _ | with_reducible apply modFn_on | with_reducible apply aen_on
      | with_reducible apply foldl_on | with_reducible apply ite_on)
theorem progressOne_on {σ : State} {p : Progress} {s : State} (hon : Onward σ s) : Onward σ (progressOne p s) := by
  unfold progressOne
  repeat' (first
      | with_reducible assumption | with_reducible apply modFls_on | with_reducible apply draw_on | with_reducible apply ite_on | split
      | with_reducible rfl)
theorem progressStep_on {σ : State} {s : State} (hon : Onward σ s) : Onward σ (progressStep s) := by
  unfold progressStep
  repeat' (first
      | with_reducible assumption | with_reducible intro _ | with_reducible apply progressOne_on | with_reducible apply foldl_on)
theorem lastSteps_on {σ : State} {s : State} (hon : Onward σ s) : Onward σ (lastSteps s) := by
  unfold lastSteps
  repeat' (first
      | with_reducible assumption | with_reducible intro _ | with_reducible apply modSch_on | with_reducible apply ctrAdd_on
      | with_reducible apply closeWindow_on | with_reducible apply resumeWalks_on | with_reducible apply stopBand_on
      | with_reducible apply lowerGroup_on | with_reducible apply shutdownDone_on | with_reducible apply streamCycles_on
      | with_reducible apply settingsStep_on | with_reducible apply overCause_on | with_reducible apply domainsStep_on
      | with_reducible apply budgetStep_on | with_reducible apply mirrorStep_on | with_reducible apply sampleStep_on
      | with_reducible apply warningsStep_on | with_reducible apply progressStep_on | with_reducible apply foldl_on
      | with_reducible apply ite_on)
theorem tuneStep_on {σ : State} {s : State} (hon : Onward σ s) : Onward σ (tuneStep s) := by
  unfold tuneStep
  repeat' (first
      | with_reducible assumption | with_reducible apply modSch_on | with_reducible apply lastSteps_on | with_reducible apply ite_on)
theorem heartbeatStep_on {σ : State} {s : State} (hon : Onward σ s) : Onward σ (heartbeatStep s) := by
  unfold heartbeatStep
  repeat' (first
      | with_reducible assumption | with_reducible apply modSch_on | with_reducible apply tuneStep_on | with_reducible apply ite_on)
theorem middleSteps_on {σ : State} {s : State} (hon : Onward σ s) : Onward σ (middleSteps s) := by
  unfold middleSteps
  repeat' (first
      | with_reducible assumption | with_reducible apply slicesStep_on | with_reducible apply applyScales_on
      | with_reducible apply applyLevels_on | with_reducible apply deferCalibration_on | with_reducible apply applyTrims_on
      | with_reducible apply checkpointStep_on | with_reducible apply ite_on)
theorem structureStep_on {σ : State} {s0 : State} (hon : Onward σ s0) : Onward σ (structureStep s0) := by
  unfold structureStep
  repeat' (first
      | with_reducible assumption | with_reducible apply modSch_on | with_reducible apply stopDispatch_on
      | with_reducible apply heartbeatStep_on | with_reducible apply middleSteps_on | with_reducible apply ite_on)
theorem structureNow_on {σ : State} {s : State} (hon : Onward σ s) : Onward σ (structureNow s) := by
  unfold structureNow
  repeat' (first
      | with_reducible assumption | with_reducible apply changeNow_on | with_reducible apply fenceNow_on
      | with_reducible apply unfenceNow_on | with_reducible apply ite_on | split)
theorem heartbeatNow_on {σ : State} {s : State} (hon : Onward σ s) : Onward σ (heartbeatNow s) := by
  unfold heartbeatNow
  repeat' (first
      | with_reducible assumption | with_reducible apply quiesceNow_on | with_reducible apply holdNow_on | with_reducible apply ite_on)
theorem boundaryNow_on {σ : State} {powerW : Nat} {extra : Nat} {s : State} (hon : Onward σ s) : Onward σ (boundaryNow powerW extra s) :=
    by
  unfold boundaryNow
  repeat' (first
      | with_reducible assumption | with_reducible apply modSch_on | with_reducible apply bankRamp_on
      | with_reducible apply lanternPending_on | with_reducible apply lanternDrained_on | with_reducible apply powerStep_on
      | with_reducible apply tickPacket_on | with_reducible apply lanternTick_on | with_reducible apply structureStep_on)
theorem finishBoundary_on {σ : State} {s : State} (hon : Onward σ s) : Onward σ (finishBoundary s) := by
  unfold finishBoundary
  repeat' (first | with_reducible assumption | with_reducible apply lastSteps_on | with_reducible apply middleSteps_on | split)
theorem tick_on {σ s : State} {n : BitVec 64} (h : Onward σ s) : Onward σ { s with tick := n } :=
  h.same (by rfl) (by rfl) (by rfl) (by rfl) (by rfl) (by rfl)

/-! ### Embed -/

theorem startText_on {σ : State} {src : Src} {i : Nat} {s : State} (hon : Onward σ s) : Onward σ (startText src i s) := by
  unfold startText
  repeat' (first | with_reducible assumption | with_reducible apply feedPass_on | split)
theorem startEmbed_on {σ : State} {c : Cmd} {r : EmbedRun} {s : State} (hon : Onward σ s) : Onward σ (startEmbed c r s) := by
  unfold startEmbed
  repeat' (first
      | with_reducible assumption | with_reducible apply modInf_on | with_reducible apply enrol_on
      | with_reducible apply beginFirstFill_on | with_reducible apply startText_on)
theorem admitEmbed_on {σ : State} {e : Entry} {p : Plan} {s : State} (hon : Onward σ s) : Onward σ (admitEmbed e p s) := by
  unfold admitEmbed
  repeat' (first | with_reducible assumption | with_reducible apply startEmbed_on)
theorem embedAll_on {σ : State} {r : EmbedRun} {s : State} (hon : Onward σ s) : Onward σ (embedAll r s) := by
  unfold embedAll
  repeat' (first
      | with_reducible assumption | with_reducible apply modCmd_on | with_reducible apply modChain_on | with_reducible apply useIndex_on
      | with_reducible apply addJob_on | split)
theorem textEnd_on {σ : State} {t : TaskRef} {s : State} (hon : Onward σ s) : Onward σ (textEnd t s) := by
  unfold textEnd
  repeat' (first
      | with_reducible assumption | with_reducible apply modInf_on | with_reducible apply ctrPart_on | with_reducible apply modCmd_on
      | with_reducible apply startText_on | with_reducible apply embedAll_on | with_reducible apply ite_on | split)
theorem admitIngest_on {σ : State} {a : Arm} {p : Plan} {rs : List IngestRecord} {stop : Nat} {s : State} (hon : Onward σ s) : Onward σ
    (admitIngest a p rs stop s) := by
  unfold admitIngest
  repeat' (first | with_reducible assumption | with_reducible apply startEmbed_on)

/-! ### Merge -/

theorem peerFailed_on {σ : State} {id : Nat} {s : State} (hon : Onward σ s) : Onward σ (peerFailed id s) := by
  unfold peerFailed
  repeat' (first | with_reducible assumption | with_reducible apply ctrAdd_on | with_reducible apply raise_on)
theorem mergeFails_on {σ : State} {m : Merge} {detail : Nat} {s : State} (hon : Onward σ s) : Onward σ (mergeFails m detail s) := by
  unfold mergeFails
  repeat' (first | with_reducible assumption | with_reducible apply failWhole_on | with_reducible apply peerFailed_on)
theorem sendPeer_on {σ : State} {a : Nat} {bs : List Byte} {s : State} (hon : Onward σ s) : Onward σ (sendPeer a bs s) := by
  unfold sendPeer
  repeat' (first
      | with_reducible assumption | with_reducible apply modHb_on | with_reducible apply modMrg_on | with_reducible apply ite_on)
theorem modMerge_on {σ : State} {src : Src} {f : Merge → Merge} {s : State} (hon : Onward σ s) : Onward σ (modMerge src f s) := by
  unfold modMerge
  repeat' (first | with_reducible assumption | with_reducible apply modMrg_on)
theorem startMerge_on {σ : State} {e : Entry} {m : Merge} {s : State} (hon : Onward σ s) : Onward σ (startMerge e m s) := by
  unfold startMerge
  repeat' (first | with_reducible assumption | with_reducible apply modMrg_on | with_reducible apply enrol_on)
theorem armInbox_on {σ : State} {m : Merge} {part : Nat} {s : State} (hon : Onward σ s) : Onward σ (armInbox m part s) := by
  unfold armInbox
  repeat' (first | with_reducible assumption | with_reducible apply modMrg_on | with_reducible apply charge_on)
theorem runMerge_on {σ : State} {kind : Nat} {e : Entry} {s : State} (hon : Onward σ s) : OnwardE σ (runMerge kind e s) := by
  unfold runMerge
  repeat' (first
      | with_reducible assumption | exact OnwardE.error | with_reducible apply OnwardE.ok
      | refine OnwardE.get (fit_on ?_) (by assumption) | with_reducible apply mergeFails_on | with_reducible apply sendPeer_on
      | with_reducible apply startMerge_on | with_reducible apply armInbox_on | with_reducible apply orFail_on
      | with_reducible apply iteE_on | split)
theorem freeSlotsOf_on {σ : State} {a : List Byte} {s : State} (hon : Onward σ s) : Onward σ (freeSlotsOf a s).2 := by
  unfold freeSlotsOf
  repeat' (first | with_reducible assumption | with_reducible apply draws_on)
theorem mergedPayload_on {σ : State} {m : Merge} {dome : Nat} {rcv : List Byte} {s : State} (hon : Onward σ s) : OnwardEP (·.2.2) σ
    (mergedPayload m dome rcv s) := by
  unfold mergedPayload
  repeat' (first
      | with_reducible assumption | with_reducible intro _ | exact OnwardEP.error | with_reducible apply OnwardEP.ok
      | with_reducible apply ctrAdd_on | with_reducible apply ctrPart_on | with_reducible apply countCut_on
      | with_reducible apply countShort_on | with_reducible apply freeSlotsOf_on | with_reducible apply foldl_on
      | with_reducible apply ite_on | split | dsimp only)
theorem mergeEntries_on {σ : State} {m : Merge} {b : List Byte} {s : State} (hon : Onward σ s) : Onward σ (mergeEntries m b s).2 := by
  unfold mergeEntries
  repeat' (first | with_reducible assumption | with_reducible apply draw_on | split)
theorem endMerge_on {σ : State} {m : Merge} {out : List Byte} {s : State} (hon : Onward σ s) : Onward σ (endMerge m out s) := by
  unfold endMerge
  repeat' (first
      | with_reducible assumption | with_reducible apply modCmd_on | with_reducible apply settle_on
      | with_reducible apply mergeEntries_on)
theorem readBackEnds_on {σ : State} {m : Merge} {r : ReadBack} {s : State} (hon : Onward σ s) : Onward σ (readBackEnds m r s) := by
  unfold readBackEnds
  repeat' (first
      | with_reducible assumption | with_reducible apply modMrg_on | with_reducible apply reportAer_on
      | with_reducible apply mergeFails_on | with_reducible apply endMerge_on | split)
theorem stray_on {σ : State} {inbox : Nat} {s : State} (hon : Onward σ s) : Onward σ (stray inbox s) := by
  unfold stray
  repeat' (first | with_reducible assumption | with_reducible apply ctrAdd_on | with_reducible apply raise_on)

/-! ### Mgmt -/

theorem smbusSend_on {σ : State} {r : List Byte} {s : State} (hon : Onward σ s) : Onward σ (smbusSend r s) := by
  unfold smbusSend
  repeat' (first | with_reducible assumption | with_reducible apply modMgt_on | with_reducible apply modOut_on)
theorem miAnswer_on {σ : State} {status : Nat} {data : List Byte} {s : State} (hon : Onward σ s) : Onward σ (miAnswer status data s) := by
  unfold miAnswer
  repeat' (first | with_reducible assumption | with_reducible apply smbusSend_on)
theorem miCommand_on {σ : State} {op : Nat} {m : MiReq} {own : State → State} {s : State} (h : Onward σ s) (g : Onward σ (own s)) :
    Runs σ (miCommand op m own s) := by
  unfold miCommand
  exact Runs.next (ite_on h g)
theorem tunnelled_on {σ : State} {m : MiReq} {f : Func} {s : State} (h : Onward σ s) : OnwardEP (·.2.2) σ (tunnelled m f s) := by
  unfold tunnelled
  extract_lets nsid dw n off
  clear_value nsid dw
  split
  · cases identifyData f.id (bits (dw 10) 7 0) (bits (dw 10) 31 16) (bits (dw 11) 31 24) nsid s with
    | error e => exact OnwardEP.error
    | ok d => exact OnwardEP.ok h
  · repeat' (first | exact OnwardEP.error | split)
    · next e => exact OnwardEP.ok (OnwardOP.get (p := (·.2)) (logPage_on h) e)
    · exact OnwardEP.ok h

/-! ### Scan -/

theorem modScan_on {σ : State} {src : Src} {f : Scan → Scan} {s : State} (hon : Onward σ s) : Onward σ (modScan src f s) := by
  unfold modScan
  repeat' (first | with_reducible assumption | with_reducible apply modScn_on)
theorem modPart_on {σ : State} {src : Src} {g : Nat} {f : EnginePart → EnginePart} {s : State} (hon : Onward σ s) : Onward σ (modPart src
    g f s) := by
  unfold modPart
  repeat' (first | with_reducible assumption | with_reducible apply modScan_on)
theorem finishScan_on {σ : State} {src : Src} {s : State} (hon : Onward σ s) : Onward σ (finishScan src s) := by
  unfold finishScan
  repeat' (first
      | with_reducible assumption | with_reducible apply ctrPart_on | with_reducible apply modCmd_on | with_reducible apply ite_on
      | split)
theorem rememberLayout_on {σ : State} {x : Scan} {s : State} (hon : Onward σ s) : Onward σ (rememberLayout x s) := by
  unfold rememberLayout
  repeat' (first | with_reducible assumption | with_reducible apply modScn_on | with_reducible apply ite_on)
theorem admitScan_on {σ : State} {e : Entry} {m : Mem} {s : State} (hon : Onward σ s) : Onward σ (admitScan e m s) := by
  unfold admitScan
  repeat' (first
      | with_reducible assumption | with_reducible apply modScn_on | with_reducible apply ctrPart_on | with_reducible apply settle_on
      | with_reducible apply enrol_on | with_reducible apply finishScan_on | with_reducible apply rememberLayout_on
      | with_reducible apply ite_on)
theorem rowsOf_on {σ : State} {x : Scan} {hits : List Nat} {s : State} (hon : Onward σ s) : Onward σ (rowsOf x hits s).2 := by
  unfold rowsOf
  repeat' (first | with_reducible assumption | with_reducible apply draws_on | split)

/-! ### TaskEnd -/

theorem declareRanges_on {σ : State} {t : TaskRef} {c : Cmd} {h : Chain} {s : State} (hon : Onward σ s) : Onward σ (declareRanges t c h s)
    := by
  unfold declareRanges
  repeat' (first | with_reducible assumption | with_reducible apply modChain_on | split | dsimp only)
theorem taskWrites_on {σ : State} {src : Src} {c : Cmd} {ws : List (Nat × Nat × List Byte)} {s : State} (hon : Onward σ s) : Onward σ
    (taskWrites src c ws s) := by
  unfold taskWrites
  repeat' (first
      | with_reducible assumption | with_reducible intro _ | with_reducible apply writeObj_on | with_reducible apply noteWrite_on
      | with_reducible apply foldl_on)
theorem feedNext_on {σ : State} {t : TaskRef} {c : Cmd} {h : Chain} {ids : List Nat} {s : State} (hon : Onward σ s) : Onward σ (feedNext t
    c h ids s) := by
  unfold feedNext
  repeat' (first | with_reducible assumption | with_reducible apply feedPass_on)
theorem passEnd_on {σ : State} {t : TaskRef} {c : Cmd} {h : Chain} {s : State} (hon : Onward σ s) : Onward σ (passEnd t c h s) := by
  unfold passEnd
  repeat' (first
      | with_reducible assumption | with_reducible apply tunePassEnd_on | with_reducible apply textEnd_on
      | with_reducible apply feedNext_on | with_reducible apply ite_on | split)
theorem takeOver_on {σ : State} {t : TaskRef} {c : Cmd} {h : Chain} {r : Run} {us : Nat} {s : State} (hon : Onward σ s) : Onward σ
    (takeOver t c h r us s) := by
  unfold takeOver
  repeat' (first
      | with_reducible assumption | with_reducible apply taskPacket_on | with_reducible apply modChain_on | with_reducible apply spend_on
      | with_reducible apply ite_on)
theorem chainEnd_on {σ : State} {t : TaskRef} {s : State} (hon : Onward σ s) : Onward σ (chainEnd t s) := by
  unfold chainEnd
  repeat' (first
      | with_reducible assumption | with_reducible apply draw_on | with_reducible apply ctrPart_on | with_reducible apply finishSearch_on
      | with_reducible apply prefillEnd_on | with_reducible apply finishScan_on | with_reducible apply ite_on | split)
theorem taskDone_on {σ : State} {t : TaskRef} {c : Cmd} {h : Chain} {r : Run} {us : Nat} {x : TaskEnd} {s : State} (hon : Onward σ s) :
    Onward σ (taskDone t c h r us x s) := by
  unfold taskDone
  repeat' (first
      | with_reducible assumption | with_reducible apply ctrPart_on | with_reducible apply modCmd_on | with_reducible apply modChain_on
      | with_reducible apply leaveCluster_on | with_reducible apply declareRanges_on | with_reducible apply taskWrites_on
      | with_reducible apply passEnd_on | with_reducible apply takeOver_on | with_reducible apply chainEnd_on
      | with_reducible apply ite_on)
theorem taskEnds_on {σ : State} {t : TaskRef} {us : Nat} {x : TaskEnd} {s : State} (hon : Onward σ s) : Onward σ (taskEnds t us x s) := by
  unfold taskEnds
  repeat' (first
      | with_reducible assumption | with_reducible apply taskPacket_on | with_reducible apply ctrPart_on
      | with_reducible apply endLendings_on | with_reducible apply settle_on | with_reducible apply failCmd_on
      | with_reducible apply leaveCluster_on | with_reducible apply failTask_on | with_reducible apply advance_on
      | with_reducible apply claim_on | with_reducible apply spend_on | with_reducible apply startSavesOn_on
      | with_reducible apply lendingCheck_on | with_reducible apply taskDone_on | with_reducible apply ite_on | split | dsimp only)

end Sys2Proof.Machine
end

