-- ==== Sys2Proof/Laws/State.lean ====
section
/-! SUPPORT. What each update of State reads back as, field by field. -/

namespace Sys2Proof.Machine

@[simp] theorem State.modLife_tick (s : State) (f : Life → Life) : (s.modLife f).tick = s.tick := rfl
@[simp] theorem State.modLife_life (s : State) (f : Life → Life) : (s.modLife f).life = f s.life := rfl
@[simp] theorem State.modLife_fns (s : State) (f : Life → Life) : (s.modLife f).fns = s.fns := rfl
@[simp] theorem State.modLife_q (s : State) (f : Life → Life) : (s.modLife f).q = s.q := rfl
@[simp] theorem State.modLife_str (s : State) (f : Life → Life) : (s.modLife f).str = s.str := rfl
@[simp] theorem State.modLife_obj (s : State) (f : Life → Life) : (s.modLife f).obj = s.obj := rfl
@[simp] theorem State.modLife_sch (s : State) (f : Life → Life) : (s.modLife f).sch = s.sch := rfl
@[simp] theorem State.modLife_hb (s : State) (f : Life → Life) : (s.modLife f).hb = s.hb := rfl
@[simp] theorem State.modLife_reg (s : State) (f : Life → Life) : (s.modLife f).reg = s.reg := rfl
@[simp] theorem State.modLife_eff (s : State) (f : Life → Life) : (s.modLife f).eff = s.eff := rfl
@[simp] theorem State.modLife_strm (s : State) (f : Life → Life) : (s.modLife f).strm = s.strm := rfl
@[simp] theorem State.modLife_xfer (s : State) (f : Life → Life) : (s.modLife f).xfer = s.xfer := rfl
@[simp] theorem State.modLife_qnt (s : State) (f : Life → Life) : (s.modLife f).qnt = s.qnt := rfl
@[simp] theorem State.modLife_arr (s : State) (f : Life → Life) : (s.modLife f).arr = s.arr := rfl
@[simp] theorem State.modLife_inf (s : State) (f : Life → Life) : (s.modLife f).inf = s.inf := rfl
@[simp] theorem State.modLife_idx (s : State) (f : Life → Life) : (s.modLife f).idx = s.idx := rfl
@[simp] theorem State.modLife_mrg (s : State) (f : Life → Life) : (s.modLife f).mrg = s.mrg := rfl
@[simp] theorem State.modLife_scn (s : State) (f : Life → Life) : (s.modLife f).scn = s.scn := rfl
@[simp] theorem State.modLife_fls (s : State) (f : Life → Life) : (s.modLife f).fls = s.fls := rfl
@[simp] theorem State.modLife_itg (s : State) (f : Life → Life) : (s.modLife f).itg = s.itg := rfl
@[simp] theorem State.modLife_cal (s : State) (f : Life → Life) : (s.modLife f).cal = s.cal := rfl
@[simp] theorem State.modLife_evt (s : State) (f : Life → Life) : (s.modLife f).evt = s.evt := rfl
@[simp] theorem State.modLife_pwr (s : State) (f : Life → Life) : (s.modLife f).pwr = s.pwr := rfl
@[simp] theorem State.modLife_fw (s : State) (f : Life → Life) : (s.modLife f).fw = s.fw := rfl
@[simp] theorem State.modLife_sec (s : State) (f : Life → Life) : (s.modLife f).sec = s.sec := rfl
@[simp] theorem State.modLife_lan (s : State) (f : Life → Life) : (s.modLife f).lan = s.lan := rfl
@[simp] theorem State.modLife_mgt (s : State) (f : Life → Life) : (s.modLife f).mgt = s.mgt := rfl
@[simp] theorem State.modLife_ctr (s : State) (f : Life → Life) : (s.modLife f).ctr = s.ctr := rfl
@[simp] theorem State.modLife_mirror (s : State) (f : Life → Life) : (s.modLife f).mirror = s.mirror := rfl
@[simp] theorem State.modLife_out (s : State) (f : Life → Life) : (s.modLife f).out = s.out := rfl
@[simp] theorem State.modLife_free (s : State) (f : Life → Life) : (s.modLife f).free = s.free := rfl
@[simp] theorem State.modLife_pending (s : State) (f : Life → Life) : (s.modLife f).pending = s.pending := rfl
@[simp] theorem State.modFns_tick (s : State) (f : List Func → List Func) : (s.modFns f).tick = s.tick := rfl
@[simp] theorem State.modFns_life (s : State) (f : List Func → List Func) : (s.modFns f).life = s.life := rfl
@[simp] theorem State.modFns_fns (s : State) (f : List Func → List Func) : (s.modFns f).fns = f s.fns := rfl
@[simp] theorem State.modFns_q (s : State) (f : List Func → List Func) : (s.modFns f).q = s.q := rfl
@[simp] theorem State.modFns_str (s : State) (f : List Func → List Func) : (s.modFns f).str = s.str := rfl
@[simp] theorem State.modFns_obj (s : State) (f : List Func → List Func) : (s.modFns f).obj = s.obj := rfl
@[simp] theorem State.modFns_sch (s : State) (f : List Func → List Func) : (s.modFns f).sch = s.sch := rfl
@[simp] theorem State.modFns_hb (s : State) (f : List Func → List Func) : (s.modFns f).hb = s.hb := rfl
@[simp] theorem State.modFns_reg (s : State) (f : List Func → List Func) : (s.modFns f).reg = s.reg := rfl
@[simp] theorem State.modFns_eff (s : State) (f : List Func → List Func) : (s.modFns f).eff = s.eff := rfl
@[simp] theorem State.modFns_strm (s : State) (f : List Func → List Func) : (s.modFns f).strm = s.strm := rfl
@[simp] theorem State.modFns_xfer (s : State) (f : List Func → List Func) : (s.modFns f).xfer = s.xfer := rfl
@[simp] theorem State.modFns_qnt (s : State) (f : List Func → List Func) : (s.modFns f).qnt = s.qnt := rfl
@[simp] theorem State.modFns_arr (s : State) (f : List Func → List Func) : (s.modFns f).arr = s.arr := rfl
@[simp] theorem State.modFns_inf (s : State) (f : List Func → List Func) : (s.modFns f).inf = s.inf := rfl
@[simp] theorem State.modFns_idx (s : State) (f : List Func → List Func) : (s.modFns f).idx = s.idx := rfl
@[simp] theorem State.modFns_mrg (s : State) (f : List Func → List Func) : (s.modFns f).mrg = s.mrg := rfl
@[simp] theorem State.modFns_scn (s : State) (f : List Func → List Func) : (s.modFns f).scn = s.scn := rfl
@[simp] theorem State.modFns_fls (s : State) (f : List Func → List Func) : (s.modFns f).fls = s.fls := rfl
@[simp] theorem State.modFns_itg (s : State) (f : List Func → List Func) : (s.modFns f).itg = s.itg := rfl
@[simp] theorem State.modFns_cal (s : State) (f : List Func → List Func) : (s.modFns f).cal = s.cal := rfl
@[simp] theorem State.modFns_evt (s : State) (f : List Func → List Func) : (s.modFns f).evt = s.evt := rfl
@[simp] theorem State.modFns_pwr (s : State) (f : List Func → List Func) : (s.modFns f).pwr = s.pwr := rfl
@[simp] theorem State.modFns_fw (s : State) (f : List Func → List Func) : (s.modFns f).fw = s.fw := rfl
@[simp] theorem State.modFns_sec (s : State) (f : List Func → List Func) : (s.modFns f).sec = s.sec := rfl
@[simp] theorem State.modFns_lan (s : State) (f : List Func → List Func) : (s.modFns f).lan = s.lan := rfl
@[simp] theorem State.modFns_mgt (s : State) (f : List Func → List Func) : (s.modFns f).mgt = s.mgt := rfl
@[simp] theorem State.modFns_ctr (s : State) (f : List Func → List Func) : (s.modFns f).ctr = s.ctr := rfl
@[simp] theorem State.modFns_mirror (s : State) (f : List Func → List Func) : (s.modFns f).mirror = s.mirror := rfl
@[simp] theorem State.modFns_out (s : State) (f : List Func → List Func) : (s.modFns f).out = s.out := rfl
@[simp] theorem State.modFns_free (s : State) (f : List Func → List Func) : (s.modFns f).free = s.free := rfl
@[simp] theorem State.modFns_pending (s : State) (f : List Func → List Func) : (s.modFns f).pending = s.pending := rfl
@[simp] theorem State.modQ_tick (s : State) (f : Queues → Queues) : (s.modQ f).tick = s.tick := rfl
@[simp] theorem State.modQ_life (s : State) (f : Queues → Queues) : (s.modQ f).life = s.life := rfl
@[simp] theorem State.modQ_fns (s : State) (f : Queues → Queues) : (s.modQ f).fns = s.fns := rfl
@[simp] theorem State.modQ_q (s : State) (f : Queues → Queues) : (s.modQ f).q = f s.q := rfl
@[simp] theorem State.modQ_str (s : State) (f : Queues → Queues) : (s.modQ f).str = s.str := rfl
@[simp] theorem State.modQ_obj (s : State) (f : Queues → Queues) : (s.modQ f).obj = s.obj := rfl
@[simp] theorem State.modQ_sch (s : State) (f : Queues → Queues) : (s.modQ f).sch = s.sch := rfl
@[simp] theorem State.modQ_hb (s : State) (f : Queues → Queues) : (s.modQ f).hb = s.hb := rfl
@[simp] theorem State.modQ_reg (s : State) (f : Queues → Queues) : (s.modQ f).reg = s.reg := rfl
@[simp] theorem State.modQ_eff (s : State) (f : Queues → Queues) : (s.modQ f).eff = s.eff := rfl
@[simp] theorem State.modQ_strm (s : State) (f : Queues → Queues) : (s.modQ f).strm = s.strm := rfl
@[simp] theorem State.modQ_xfer (s : State) (f : Queues → Queues) : (s.modQ f).xfer = s.xfer := rfl
@[simp] theorem State.modQ_qnt (s : State) (f : Queues → Queues) : (s.modQ f).qnt = s.qnt := rfl
@[simp] theorem State.modQ_arr (s : State) (f : Queues → Queues) : (s.modQ f).arr = s.arr := rfl
@[simp] theorem State.modQ_inf (s : State) (f : Queues → Queues) : (s.modQ f).inf = s.inf := rfl
@[simp] theorem State.modQ_idx (s : State) (f : Queues → Queues) : (s.modQ f).idx = s.idx := rfl
@[simp] theorem State.modQ_mrg (s : State) (f : Queues → Queues) : (s.modQ f).mrg = s.mrg := rfl
@[simp] theorem State.modQ_scn (s : State) (f : Queues → Queues) : (s.modQ f).scn = s.scn := rfl
@[simp] theorem State.modQ_fls (s : State) (f : Queues → Queues) : (s.modQ f).fls = s.fls := rfl
@[simp] theorem State.modQ_itg (s : State) (f : Queues → Queues) : (s.modQ f).itg = s.itg := rfl
@[simp] theorem State.modQ_cal (s : State) (f : Queues → Queues) : (s.modQ f).cal = s.cal := rfl
@[simp] theorem State.modQ_evt (s : State) (f : Queues → Queues) : (s.modQ f).evt = s.evt := rfl
@[simp] theorem State.modQ_pwr (s : State) (f : Queues → Queues) : (s.modQ f).pwr = s.pwr := rfl
@[simp] theorem State.modQ_fw (s : State) (f : Queues → Queues) : (s.modQ f).fw = s.fw := rfl
@[simp] theorem State.modQ_sec (s : State) (f : Queues → Queues) : (s.modQ f).sec = s.sec := rfl
@[simp] theorem State.modQ_lan (s : State) (f : Queues → Queues) : (s.modQ f).lan = s.lan := rfl
@[simp] theorem State.modQ_mgt (s : State) (f : Queues → Queues) : (s.modQ f).mgt = s.mgt := rfl
@[simp] theorem State.modQ_ctr (s : State) (f : Queues → Queues) : (s.modQ f).ctr = s.ctr := rfl
@[simp] theorem State.modQ_mirror (s : State) (f : Queues → Queues) : (s.modQ f).mirror = s.mirror := rfl
@[simp] theorem State.modQ_out (s : State) (f : Queues → Queues) : (s.modQ f).out = s.out := rfl
@[simp] theorem State.modQ_free (s : State) (f : Queues → Queues) : (s.modQ f).free = s.free := rfl
@[simp] theorem State.modQ_pending (s : State) (f : Queues → Queues) : (s.modQ f).pending = s.pending := rfl
@[simp] theorem State.modStr_tick (s : State) (f : Str → Str) : (s.modStr f).tick = s.tick := rfl
@[simp] theorem State.modStr_life (s : State) (f : Str → Str) : (s.modStr f).life = s.life := rfl
@[simp] theorem State.modStr_fns (s : State) (f : Str → Str) : (s.modStr f).fns = s.fns := rfl
@[simp] theorem State.modStr_q (s : State) (f : Str → Str) : (s.modStr f).q = s.q := rfl
@[simp] theorem State.modStr_str (s : State) (f : Str → Str) : (s.modStr f).str = f s.str := rfl
@[simp] theorem State.modStr_obj (s : State) (f : Str → Str) : (s.modStr f).obj = s.obj := rfl
@[simp] theorem State.modStr_sch (s : State) (f : Str → Str) : (s.modStr f).sch = s.sch := rfl
@[simp] theorem State.modStr_hb (s : State) (f : Str → Str) : (s.modStr f).hb = s.hb := rfl
@[simp] theorem State.modStr_reg (s : State) (f : Str → Str) : (s.modStr f).reg = s.reg := rfl
@[simp] theorem State.modStr_eff (s : State) (f : Str → Str) : (s.modStr f).eff = s.eff := rfl
@[simp] theorem State.modStr_strm (s : State) (f : Str → Str) : (s.modStr f).strm = s.strm := rfl
@[simp] theorem State.modStr_xfer (s : State) (f : Str → Str) : (s.modStr f).xfer = s.xfer := rfl
@[simp] theorem State.modStr_qnt (s : State) (f : Str → Str) : (s.modStr f).qnt = s.qnt := rfl
@[simp] theorem State.modStr_arr (s : State) (f : Str → Str) : (s.modStr f).arr = s.arr := rfl
@[simp] theorem State.modStr_inf (s : State) (f : Str → Str) : (s.modStr f).inf = s.inf := rfl
@[simp] theorem State.modStr_idx (s : State) (f : Str → Str) : (s.modStr f).idx = s.idx := rfl
@[simp] theorem State.modStr_mrg (s : State) (f : Str → Str) : (s.modStr f).mrg = s.mrg := rfl
@[simp] theorem State.modStr_scn (s : State) (f : Str → Str) : (s.modStr f).scn = s.scn := rfl
@[simp] theorem State.modStr_fls (s : State) (f : Str → Str) : (s.modStr f).fls = s.fls := rfl
@[simp] theorem State.modStr_itg (s : State) (f : Str → Str) : (s.modStr f).itg = s.itg := rfl
@[simp] theorem State.modStr_cal (s : State) (f : Str → Str) : (s.modStr f).cal = s.cal := rfl
@[simp] theorem State.modStr_evt (s : State) (f : Str → Str) : (s.modStr f).evt = s.evt := rfl
@[simp] theorem State.modStr_pwr (s : State) (f : Str → Str) : (s.modStr f).pwr = s.pwr := rfl
@[simp] theorem State.modStr_fw (s : State) (f : Str → Str) : (s.modStr f).fw = s.fw := rfl
@[simp] theorem State.modStr_sec (s : State) (f : Str → Str) : (s.modStr f).sec = s.sec := rfl
@[simp] theorem State.modStr_lan (s : State) (f : Str → Str) : (s.modStr f).lan = s.lan := rfl
@[simp] theorem State.modStr_mgt (s : State) (f : Str → Str) : (s.modStr f).mgt = s.mgt := rfl
@[simp] theorem State.modStr_ctr (s : State) (f : Str → Str) : (s.modStr f).ctr = s.ctr := rfl
@[simp] theorem State.modStr_mirror (s : State) (f : Str → Str) : (s.modStr f).mirror = s.mirror := rfl
@[simp] theorem State.modStr_out (s : State) (f : Str → Str) : (s.modStr f).out = s.out := rfl
@[simp] theorem State.modStr_free (s : State) (f : Str → Str) : (s.modStr f).free = s.free := rfl
@[simp] theorem State.modStr_pending (s : State) (f : Str → Str) : (s.modStr f).pending = s.pending := rfl
@[simp] theorem State.modObj_tick (s : State) (f : Objs → Objs) : (s.modObj f).tick = s.tick := rfl
@[simp] theorem State.modObj_life (s : State) (f : Objs → Objs) : (s.modObj f).life = s.life := rfl
@[simp] theorem State.modObj_fns (s : State) (f : Objs → Objs) : (s.modObj f).fns = s.fns := rfl
@[simp] theorem State.modObj_q (s : State) (f : Objs → Objs) : (s.modObj f).q = s.q := rfl
@[simp] theorem State.modObj_str (s : State) (f : Objs → Objs) : (s.modObj f).str = s.str := rfl
@[simp] theorem State.modObj_obj (s : State) (f : Objs → Objs) : (s.modObj f).obj = f s.obj := rfl
@[simp] theorem State.modObj_sch (s : State) (f : Objs → Objs) : (s.modObj f).sch = s.sch := rfl
@[simp] theorem State.modObj_hb (s : State) (f : Objs → Objs) : (s.modObj f).hb = s.hb := rfl
@[simp] theorem State.modObj_reg (s : State) (f : Objs → Objs) : (s.modObj f).reg = s.reg := rfl
@[simp] theorem State.modObj_eff (s : State) (f : Objs → Objs) : (s.modObj f).eff = s.eff := rfl
@[simp] theorem State.modObj_strm (s : State) (f : Objs → Objs) : (s.modObj f).strm = s.strm := rfl
@[simp] theorem State.modObj_xfer (s : State) (f : Objs → Objs) : (s.modObj f).xfer = s.xfer := rfl
@[simp] theorem State.modObj_qnt (s : State) (f : Objs → Objs) : (s.modObj f).qnt = s.qnt := rfl
@[simp] theorem State.modObj_arr (s : State) (f : Objs → Objs) : (s.modObj f).arr = s.arr := rfl
@[simp] theorem State.modObj_inf (s : State) (f : Objs → Objs) : (s.modObj f).inf = s.inf := rfl
@[simp] theorem State.modObj_idx (s : State) (f : Objs → Objs) : (s.modObj f).idx = s.idx := rfl
@[simp] theorem State.modObj_mrg (s : State) (f : Objs → Objs) : (s.modObj f).mrg = s.mrg := rfl
@[simp] theorem State.modObj_scn (s : State) (f : Objs → Objs) : (s.modObj f).scn = s.scn := rfl
@[simp] theorem State.modObj_fls (s : State) (f : Objs → Objs) : (s.modObj f).fls = s.fls := rfl
@[simp] theorem State.modObj_itg (s : State) (f : Objs → Objs) : (s.modObj f).itg = s.itg := rfl
@[simp] theorem State.modObj_cal (s : State) (f : Objs → Objs) : (s.modObj f).cal = s.cal := rfl
@[simp] theorem State.modObj_evt (s : State) (f : Objs → Objs) : (s.modObj f).evt = s.evt := rfl
@[simp] theorem State.modObj_pwr (s : State) (f : Objs → Objs) : (s.modObj f).pwr = s.pwr := rfl
@[simp] theorem State.modObj_fw (s : State) (f : Objs → Objs) : (s.modObj f).fw = s.fw := rfl
@[simp] theorem State.modObj_sec (s : State) (f : Objs → Objs) : (s.modObj f).sec = s.sec := rfl
@[simp] theorem State.modObj_lan (s : State) (f : Objs → Objs) : (s.modObj f).lan = s.lan := rfl
@[simp] theorem State.modObj_mgt (s : State) (f : Objs → Objs) : (s.modObj f).mgt = s.mgt := rfl
@[simp] theorem State.modObj_ctr (s : State) (f : Objs → Objs) : (s.modObj f).ctr = s.ctr := rfl
@[simp] theorem State.modObj_mirror (s : State) (f : Objs → Objs) : (s.modObj f).mirror = s.mirror := rfl
@[simp] theorem State.modObj_out (s : State) (f : Objs → Objs) : (s.modObj f).out = s.out := rfl
@[simp] theorem State.modObj_free (s : State) (f : Objs → Objs) : (s.modObj f).free = s.free := rfl
@[simp] theorem State.modObj_pending (s : State) (f : Objs → Objs) : (s.modObj f).pending = s.pending := rfl
@[simp] theorem State.modSch_tick (s : State) (f : Sch → Sch) : (s.modSch f).tick = s.tick := rfl
@[simp] theorem State.modSch_life (s : State) (f : Sch → Sch) : (s.modSch f).life = s.life := rfl
@[simp] theorem State.modSch_fns (s : State) (f : Sch → Sch) : (s.modSch f).fns = s.fns := rfl
@[simp] theorem State.modSch_q (s : State) (f : Sch → Sch) : (s.modSch f).q = s.q := rfl
@[simp] theorem State.modSch_str (s : State) (f : Sch → Sch) : (s.modSch f).str = s.str := rfl
@[simp] theorem State.modSch_obj (s : State) (f : Sch → Sch) : (s.modSch f).obj = s.obj := rfl
@[simp] theorem State.modSch_sch (s : State) (f : Sch → Sch) : (s.modSch f).sch = f s.sch := rfl
@[simp] theorem State.modSch_hb (s : State) (f : Sch → Sch) : (s.modSch f).hb = s.hb := rfl
@[simp] theorem State.modSch_reg (s : State) (f : Sch → Sch) : (s.modSch f).reg = s.reg := rfl
@[simp] theorem State.modSch_eff (s : State) (f : Sch → Sch) : (s.modSch f).eff = s.eff := rfl
@[simp] theorem State.modSch_strm (s : State) (f : Sch → Sch) : (s.modSch f).strm = s.strm := rfl
@[simp] theorem State.modSch_xfer (s : State) (f : Sch → Sch) : (s.modSch f).xfer = s.xfer := rfl
@[simp] theorem State.modSch_qnt (s : State) (f : Sch → Sch) : (s.modSch f).qnt = s.qnt := rfl
@[simp] theorem State.modSch_arr (s : State) (f : Sch → Sch) : (s.modSch f).arr = s.arr := rfl
@[simp] theorem State.modSch_inf (s : State) (f : Sch → Sch) : (s.modSch f).inf = s.inf := rfl
@[simp] theorem State.modSch_idx (s : State) (f : Sch → Sch) : (s.modSch f).idx = s.idx := rfl
@[simp] theorem State.modSch_mrg (s : State) (f : Sch → Sch) : (s.modSch f).mrg = s.mrg := rfl
@[simp] theorem State.modSch_scn (s : State) (f : Sch → Sch) : (s.modSch f).scn = s.scn := rfl
@[simp] theorem State.modSch_fls (s : State) (f : Sch → Sch) : (s.modSch f).fls = s.fls := rfl
@[simp] theorem State.modSch_itg (s : State) (f : Sch → Sch) : (s.modSch f).itg = s.itg := rfl
@[simp] theorem State.modSch_cal (s : State) (f : Sch → Sch) : (s.modSch f).cal = s.cal := rfl
@[simp] theorem State.modSch_evt (s : State) (f : Sch → Sch) : (s.modSch f).evt = s.evt := rfl
@[simp] theorem State.modSch_pwr (s : State) (f : Sch → Sch) : (s.modSch f).pwr = s.pwr := rfl
@[simp] theorem State.modSch_fw (s : State) (f : Sch → Sch) : (s.modSch f).fw = s.fw := rfl
@[simp] theorem State.modSch_sec (s : State) (f : Sch → Sch) : (s.modSch f).sec = s.sec := rfl
@[simp] theorem State.modSch_lan (s : State) (f : Sch → Sch) : (s.modSch f).lan = s.lan := rfl
@[simp] theorem State.modSch_mgt (s : State) (f : Sch → Sch) : (s.modSch f).mgt = s.mgt := rfl
@[simp] theorem State.modSch_ctr (s : State) (f : Sch → Sch) : (s.modSch f).ctr = s.ctr := rfl
@[simp] theorem State.modSch_mirror (s : State) (f : Sch → Sch) : (s.modSch f).mirror = s.mirror := rfl
@[simp] theorem State.modSch_out (s : State) (f : Sch → Sch) : (s.modSch f).out = s.out := rfl
@[simp] theorem State.modSch_free (s : State) (f : Sch → Sch) : (s.modSch f).free = s.free := rfl
@[simp] theorem State.modSch_pending (s : State) (f : Sch → Sch) : (s.modSch f).pending = s.pending := rfl
@[simp] theorem State.modHb_tick (s : State) (f : Hb → Hb) : (s.modHb f).tick = s.tick := rfl
@[simp] theorem State.modHb_life (s : State) (f : Hb → Hb) : (s.modHb f).life = s.life := rfl
@[simp] theorem State.modHb_fns (s : State) (f : Hb → Hb) : (s.modHb f).fns = s.fns := rfl
@[simp] theorem State.modHb_q (s : State) (f : Hb → Hb) : (s.modHb f).q = s.q := rfl
@[simp] theorem State.modHb_str (s : State) (f : Hb → Hb) : (s.modHb f).str = s.str := rfl
@[simp] theorem State.modHb_obj (s : State) (f : Hb → Hb) : (s.modHb f).obj = s.obj := rfl
@[simp] theorem State.modHb_sch (s : State) (f : Hb → Hb) : (s.modHb f).sch = s.sch := rfl
@[simp] theorem State.modHb_hb (s : State) (f : Hb → Hb) : (s.modHb f).hb = f s.hb := rfl
@[simp] theorem State.modHb_reg (s : State) (f : Hb → Hb) : (s.modHb f).reg = s.reg := rfl
@[simp] theorem State.modHb_eff (s : State) (f : Hb → Hb) : (s.modHb f).eff = s.eff := rfl
@[simp] theorem State.modHb_strm (s : State) (f : Hb → Hb) : (s.modHb f).strm = s.strm := rfl
@[simp] theorem State.modHb_xfer (s : State) (f : Hb → Hb) : (s.modHb f).xfer = s.xfer := rfl
@[simp] theorem State.modHb_qnt (s : State) (f : Hb → Hb) : (s.modHb f).qnt = s.qnt := rfl
@[simp] theorem State.modHb_arr (s : State) (f : Hb → Hb) : (s.modHb f).arr = s.arr := rfl
@[simp] theorem State.modHb_inf (s : State) (f : Hb → Hb) : (s.modHb f).inf = s.inf := rfl
@[simp] theorem State.modHb_idx (s : State) (f : Hb → Hb) : (s.modHb f).idx = s.idx := rfl
@[simp] theorem State.modHb_mrg (s : State) (f : Hb → Hb) : (s.modHb f).mrg = s.mrg := rfl
@[simp] theorem State.modHb_scn (s : State) (f : Hb → Hb) : (s.modHb f).scn = s.scn := rfl
@[simp] theorem State.modHb_fls (s : State) (f : Hb → Hb) : (s.modHb f).fls = s.fls := rfl
@[simp] theorem State.modHb_itg (s : State) (f : Hb → Hb) : (s.modHb f).itg = s.itg := rfl
@[simp] theorem State.modHb_cal (s : State) (f : Hb → Hb) : (s.modHb f).cal = s.cal := rfl
@[simp] theorem State.modHb_evt (s : State) (f : Hb → Hb) : (s.modHb f).evt = s.evt := rfl
@[simp] theorem State.modHb_pwr (s : State) (f : Hb → Hb) : (s.modHb f).pwr = s.pwr := rfl
@[simp] theorem State.modHb_fw (s : State) (f : Hb → Hb) : (s.modHb f).fw = s.fw := rfl
@[simp] theorem State.modHb_sec (s : State) (f : Hb → Hb) : (s.modHb f).sec = s.sec := rfl
@[simp] theorem State.modHb_lan (s : State) (f : Hb → Hb) : (s.modHb f).lan = s.lan := rfl
@[simp] theorem State.modHb_mgt (s : State) (f : Hb → Hb) : (s.modHb f).mgt = s.mgt := rfl
@[simp] theorem State.modHb_ctr (s : State) (f : Hb → Hb) : (s.modHb f).ctr = s.ctr := rfl
@[simp] theorem State.modHb_mirror (s : State) (f : Hb → Hb) : (s.modHb f).mirror = s.mirror := rfl
@[simp] theorem State.modHb_out (s : State) (f : Hb → Hb) : (s.modHb f).out = s.out := rfl
@[simp] theorem State.modHb_free (s : State) (f : Hb → Hb) : (s.modHb f).free = s.free := rfl
@[simp] theorem State.modHb_pending (s : State) (f : Hb → Hb) : (s.modHb f).pending = s.pending := rfl
@[simp] theorem State.modReg_tick (s : State) (f : Settings → Settings) : (s.modReg f).tick = s.tick := rfl
@[simp] theorem State.modReg_life (s : State) (f : Settings → Settings) : (s.modReg f).life = s.life := rfl
@[simp] theorem State.modReg_fns (s : State) (f : Settings → Settings) : (s.modReg f).fns = s.fns := rfl
@[simp] theorem State.modReg_q (s : State) (f : Settings → Settings) : (s.modReg f).q = s.q := rfl
@[simp] theorem State.modReg_str (s : State) (f : Settings → Settings) : (s.modReg f).str = s.str := rfl
@[simp] theorem State.modReg_obj (s : State) (f : Settings → Settings) : (s.modReg f).obj = s.obj := rfl
@[simp] theorem State.modReg_sch (s : State) (f : Settings → Settings) : (s.modReg f).sch = s.sch := rfl
@[simp] theorem State.modReg_hb (s : State) (f : Settings → Settings) : (s.modReg f).hb = s.hb := rfl
@[simp] theorem State.modReg_reg (s : State) (f : Settings → Settings) : (s.modReg f).reg = f s.reg := rfl
@[simp] theorem State.modReg_eff (s : State) (f : Settings → Settings) : (s.modReg f).eff = s.eff := rfl
@[simp] theorem State.modReg_strm (s : State) (f : Settings → Settings) : (s.modReg f).strm = s.strm := rfl
@[simp] theorem State.modReg_xfer (s : State) (f : Settings → Settings) : (s.modReg f).xfer = s.xfer := rfl
@[simp] theorem State.modReg_qnt (s : State) (f : Settings → Settings) : (s.modReg f).qnt = s.qnt := rfl
@[simp] theorem State.modReg_arr (s : State) (f : Settings → Settings) : (s.modReg f).arr = s.arr := rfl
@[simp] theorem State.modReg_inf (s : State) (f : Settings → Settings) : (s.modReg f).inf = s.inf := rfl
@[simp] theorem State.modReg_idx (s : State) (f : Settings → Settings) : (s.modReg f).idx = s.idx := rfl
@[simp] theorem State.modReg_mrg (s : State) (f : Settings → Settings) : (s.modReg f).mrg = s.mrg := rfl
@[simp] theorem State.modReg_scn (s : State) (f : Settings → Settings) : (s.modReg f).scn = s.scn := rfl
@[simp] theorem State.modReg_fls (s : State) (f : Settings → Settings) : (s.modReg f).fls = s.fls := rfl
@[simp] theorem State.modReg_itg (s : State) (f : Settings → Settings) : (s.modReg f).itg = s.itg := rfl
@[simp] theorem State.modReg_cal (s : State) (f : Settings → Settings) : (s.modReg f).cal = s.cal := rfl
@[simp] theorem State.modReg_evt (s : State) (f : Settings → Settings) : (s.modReg f).evt = s.evt := rfl
@[simp] theorem State.modReg_pwr (s : State) (f : Settings → Settings) : (s.modReg f).pwr = s.pwr := rfl
@[simp] theorem State.modReg_fw (s : State) (f : Settings → Settings) : (s.modReg f).fw = s.fw := rfl
@[simp] theorem State.modReg_sec (s : State) (f : Settings → Settings) : (s.modReg f).sec = s.sec := rfl
@[simp] theorem State.modReg_lan (s : State) (f : Settings → Settings) : (s.modReg f).lan = s.lan := rfl
@[simp] theorem State.modReg_mgt (s : State) (f : Settings → Settings) : (s.modReg f).mgt = s.mgt := rfl
@[simp] theorem State.modReg_ctr (s : State) (f : Settings → Settings) : (s.modReg f).ctr = s.ctr := rfl
@[simp] theorem State.modReg_mirror (s : State) (f : Settings → Settings) : (s.modReg f).mirror = s.mirror := rfl
@[simp] theorem State.modReg_out (s : State) (f : Settings → Settings) : (s.modReg f).out = s.out := rfl
@[simp] theorem State.modReg_free (s : State) (f : Settings → Settings) : (s.modReg f).free = s.free := rfl
@[simp] theorem State.modReg_pending (s : State) (f : Settings → Settings) : (s.modReg f).pending = s.pending := rfl
@[simp] theorem State.modEff_tick (s : State) (f : Settings → Settings) : (s.modEff f).tick = s.tick := rfl
@[simp] theorem State.modEff_life (s : State) (f : Settings → Settings) : (s.modEff f).life = s.life := rfl
@[simp] theorem State.modEff_fns (s : State) (f : Settings → Settings) : (s.modEff f).fns = s.fns := rfl
@[simp] theorem State.modEff_q (s : State) (f : Settings → Settings) : (s.modEff f).q = s.q := rfl
@[simp] theorem State.modEff_str (s : State) (f : Settings → Settings) : (s.modEff f).str = s.str := rfl
@[simp] theorem State.modEff_obj (s : State) (f : Settings → Settings) : (s.modEff f).obj = s.obj := rfl
@[simp] theorem State.modEff_sch (s : State) (f : Settings → Settings) : (s.modEff f).sch = s.sch := rfl
@[simp] theorem State.modEff_hb (s : State) (f : Settings → Settings) : (s.modEff f).hb = s.hb := rfl
@[simp] theorem State.modEff_reg (s : State) (f : Settings → Settings) : (s.modEff f).reg = s.reg := rfl
@[simp] theorem State.modEff_eff (s : State) (f : Settings → Settings) : (s.modEff f).eff = f s.eff := rfl
@[simp] theorem State.modEff_strm (s : State) (f : Settings → Settings) : (s.modEff f).strm = s.strm := rfl
@[simp] theorem State.modEff_xfer (s : State) (f : Settings → Settings) : (s.modEff f).xfer = s.xfer := rfl
@[simp] theorem State.modEff_qnt (s : State) (f : Settings → Settings) : (s.modEff f).qnt = s.qnt := rfl
@[simp] theorem State.modEff_arr (s : State) (f : Settings → Settings) : (s.modEff f).arr = s.arr := rfl
@[simp] theorem State.modEff_inf (s : State) (f : Settings → Settings) : (s.modEff f).inf = s.inf := rfl
@[simp] theorem State.modEff_idx (s : State) (f : Settings → Settings) : (s.modEff f).idx = s.idx := rfl
@[simp] theorem State.modEff_mrg (s : State) (f : Settings → Settings) : (s.modEff f).mrg = s.mrg := rfl
@[simp] theorem State.modEff_scn (s : State) (f : Settings → Settings) : (s.modEff f).scn = s.scn := rfl
@[simp] theorem State.modEff_fls (s : State) (f : Settings → Settings) : (s.modEff f).fls = s.fls := rfl
@[simp] theorem State.modEff_itg (s : State) (f : Settings → Settings) : (s.modEff f).itg = s.itg := rfl
@[simp] theorem State.modEff_cal (s : State) (f : Settings → Settings) : (s.modEff f).cal = s.cal := rfl
@[simp] theorem State.modEff_evt (s : State) (f : Settings → Settings) : (s.modEff f).evt = s.evt := rfl
@[simp] theorem State.modEff_pwr (s : State) (f : Settings → Settings) : (s.modEff f).pwr = s.pwr := rfl
@[simp] theorem State.modEff_fw (s : State) (f : Settings → Settings) : (s.modEff f).fw = s.fw := rfl
@[simp] theorem State.modEff_sec (s : State) (f : Settings → Settings) : (s.modEff f).sec = s.sec := rfl
@[simp] theorem State.modEff_lan (s : State) (f : Settings → Settings) : (s.modEff f).lan = s.lan := rfl
@[simp] theorem State.modEff_mgt (s : State) (f : Settings → Settings) : (s.modEff f).mgt = s.mgt := rfl
@[simp] theorem State.modEff_ctr (s : State) (f : Settings → Settings) : (s.modEff f).ctr = s.ctr := rfl
@[simp] theorem State.modEff_mirror (s : State) (f : Settings → Settings) : (s.modEff f).mirror = s.mirror := rfl
@[simp] theorem State.modEff_out (s : State) (f : Settings → Settings) : (s.modEff f).out = s.out := rfl
@[simp] theorem State.modEff_free (s : State) (f : Settings → Settings) : (s.modEff f).free = s.free := rfl
@[simp] theorem State.modEff_pending (s : State) (f : Settings → Settings) : (s.modEff f).pending = s.pending := rfl
@[simp] theorem State.modStrm_tick (s : State) (f : List Stream → List Stream) : (s.modStrm f).tick = s.tick := rfl
@[simp] theorem State.modStrm_life (s : State) (f : List Stream → List Stream) : (s.modStrm f).life = s.life := rfl
@[simp] theorem State.modStrm_fns (s : State) (f : List Stream → List Stream) : (s.modStrm f).fns = s.fns := rfl
@[simp] theorem State.modStrm_q (s : State) (f : List Stream → List Stream) : (s.modStrm f).q = s.q := rfl
@[simp] theorem State.modStrm_str (s : State) (f : List Stream → List Stream) : (s.modStrm f).str = s.str := rfl
@[simp] theorem State.modStrm_obj (s : State) (f : List Stream → List Stream) : (s.modStrm f).obj = s.obj := rfl
@[simp] theorem State.modStrm_sch (s : State) (f : List Stream → List Stream) : (s.modStrm f).sch = s.sch := rfl
@[simp] theorem State.modStrm_hb (s : State) (f : List Stream → List Stream) : (s.modStrm f).hb = s.hb := rfl
@[simp] theorem State.modStrm_reg (s : State) (f : List Stream → List Stream) : (s.modStrm f).reg = s.reg := rfl
@[simp] theorem State.modStrm_eff (s : State) (f : List Stream → List Stream) : (s.modStrm f).eff = s.eff := rfl
@[simp] theorem State.modStrm_strm (s : State) (f : List Stream → List Stream) : (s.modStrm f).strm = f s.strm := rfl
@[simp] theorem State.modStrm_xfer (s : State) (f : List Stream → List Stream) : (s.modStrm f).xfer = s.xfer := rfl
@[simp] theorem State.modStrm_qnt (s : State) (f : List Stream → List Stream) : (s.modStrm f).qnt = s.qnt := rfl
@[simp] theorem State.modStrm_arr (s : State) (f : List Stream → List Stream) : (s.modStrm f).arr = s.arr := rfl
@[simp] theorem State.modStrm_inf (s : State) (f : List Stream → List Stream) : (s.modStrm f).inf = s.inf := rfl
@[simp] theorem State.modStrm_idx (s : State) (f : List Stream → List Stream) : (s.modStrm f).idx = s.idx := rfl
@[simp] theorem State.modStrm_mrg (s : State) (f : List Stream → List Stream) : (s.modStrm f).mrg = s.mrg := rfl
@[simp] theorem State.modStrm_scn (s : State) (f : List Stream → List Stream) : (s.modStrm f).scn = s.scn := rfl
@[simp] theorem State.modStrm_fls (s : State) (f : List Stream → List Stream) : (s.modStrm f).fls = s.fls := rfl
@[simp] theorem State.modStrm_itg (s : State) (f : List Stream → List Stream) : (s.modStrm f).itg = s.itg := rfl
@[simp] theorem State.modStrm_cal (s : State) (f : List Stream → List Stream) : (s.modStrm f).cal = s.cal := rfl
@[simp] theorem State.modStrm_evt (s : State) (f : List Stream → List Stream) : (s.modStrm f).evt = s.evt := rfl
@[simp] theorem State.modStrm_pwr (s : State) (f : List Stream → List Stream) : (s.modStrm f).pwr = s.pwr := rfl
@[simp] theorem State.modStrm_fw (s : State) (f : List Stream → List Stream) : (s.modStrm f).fw = s.fw := rfl
@[simp] theorem State.modStrm_sec (s : State) (f : List Stream → List Stream) : (s.modStrm f).sec = s.sec := rfl
@[simp] theorem State.modStrm_lan (s : State) (f : List Stream → List Stream) : (s.modStrm f).lan = s.lan := rfl
@[simp] theorem State.modStrm_mgt (s : State) (f : List Stream → List Stream) : (s.modStrm f).mgt = s.mgt := rfl
@[simp] theorem State.modStrm_ctr (s : State) (f : List Stream → List Stream) : (s.modStrm f).ctr = s.ctr := rfl
@[simp] theorem State.modStrm_mirror (s : State) (f : List Stream → List Stream) : (s.modStrm f).mirror = s.mirror := rfl
@[simp] theorem State.modStrm_out (s : State) (f : List Stream → List Stream) : (s.modStrm f).out = s.out := rfl
@[simp] theorem State.modStrm_free (s : State) (f : List Stream → List Stream) : (s.modStrm f).free = s.free := rfl
@[simp] theorem State.modStrm_pending (s : State) (f : List Stream → List Stream) : (s.modStrm f).pending = s.pending := rfl
@[simp] theorem State.modXfer_tick (s : State) (f : List Transfer → List Transfer) : (s.modXfer f).tick = s.tick := rfl
@[simp] theorem State.modXfer_life (s : State) (f : List Transfer → List Transfer) : (s.modXfer f).life = s.life := rfl
@[simp] theorem State.modXfer_fns (s : State) (f : List Transfer → List Transfer) : (s.modXfer f).fns = s.fns := rfl
@[simp] theorem State.modXfer_q (s : State) (f : List Transfer → List Transfer) : (s.modXfer f).q = s.q := rfl
@[simp] theorem State.modXfer_str (s : State) (f : List Transfer → List Transfer) : (s.modXfer f).str = s.str := rfl
@[simp] theorem State.modXfer_obj (s : State) (f : List Transfer → List Transfer) : (s.modXfer f).obj = s.obj := rfl
@[simp] theorem State.modXfer_sch (s : State) (f : List Transfer → List Transfer) : (s.modXfer f).sch = s.sch := rfl
@[simp] theorem State.modXfer_hb (s : State) (f : List Transfer → List Transfer) : (s.modXfer f).hb = s.hb := rfl
@[simp] theorem State.modXfer_reg (s : State) (f : List Transfer → List Transfer) : (s.modXfer f).reg = s.reg := rfl
@[simp] theorem State.modXfer_eff (s : State) (f : List Transfer → List Transfer) : (s.modXfer f).eff = s.eff := rfl
@[simp] theorem State.modXfer_strm (s : State) (f : List Transfer → List Transfer) : (s.modXfer f).strm = s.strm := rfl
@[simp] theorem State.modXfer_xfer (s : State) (f : List Transfer → List Transfer) : (s.modXfer f).xfer = f s.xfer := rfl
@[simp] theorem State.modXfer_qnt (s : State) (f : List Transfer → List Transfer) : (s.modXfer f).qnt = s.qnt := rfl
@[simp] theorem State.modXfer_arr (s : State) (f : List Transfer → List Transfer) : (s.modXfer f).arr = s.arr := rfl
@[simp] theorem State.modXfer_inf (s : State) (f : List Transfer → List Transfer) : (s.modXfer f).inf = s.inf := rfl
@[simp] theorem State.modXfer_idx (s : State) (f : List Transfer → List Transfer) : (s.modXfer f).idx = s.idx := rfl
@[simp] theorem State.modXfer_mrg (s : State) (f : List Transfer → List Transfer) : (s.modXfer f).mrg = s.mrg := rfl
@[simp] theorem State.modXfer_scn (s : State) (f : List Transfer → List Transfer) : (s.modXfer f).scn = s.scn := rfl
@[simp] theorem State.modXfer_fls (s : State) (f : List Transfer → List Transfer) : (s.modXfer f).fls = s.fls := rfl
@[simp] theorem State.modXfer_itg (s : State) (f : List Transfer → List Transfer) : (s.modXfer f).itg = s.itg := rfl
@[simp] theorem State.modXfer_cal (s : State) (f : List Transfer → List Transfer) : (s.modXfer f).cal = s.cal := rfl
@[simp] theorem State.modXfer_evt (s : State) (f : List Transfer → List Transfer) : (s.modXfer f).evt = s.evt := rfl
@[simp] theorem State.modXfer_pwr (s : State) (f : List Transfer → List Transfer) : (s.modXfer f).pwr = s.pwr := rfl
@[simp] theorem State.modXfer_fw (s : State) (f : List Transfer → List Transfer) : (s.modXfer f).fw = s.fw := rfl
@[simp] theorem State.modXfer_sec (s : State) (f : List Transfer → List Transfer) : (s.modXfer f).sec = s.sec := rfl
@[simp] theorem State.modXfer_lan (s : State) (f : List Transfer → List Transfer) : (s.modXfer f).lan = s.lan := rfl
@[simp] theorem State.modXfer_mgt (s : State) (f : List Transfer → List Transfer) : (s.modXfer f).mgt = s.mgt := rfl
@[simp] theorem State.modXfer_ctr (s : State) (f : List Transfer → List Transfer) : (s.modXfer f).ctr = s.ctr := rfl
@[simp] theorem State.modXfer_mirror (s : State) (f : List Transfer → List Transfer) : (s.modXfer f).mirror = s.mirror := rfl
@[simp] theorem State.modXfer_out (s : State) (f : List Transfer → List Transfer) : (s.modXfer f).out = s.out := rfl
@[simp] theorem State.modXfer_free (s : State) (f : List Transfer → List Transfer) : (s.modXfer f).free = s.free := rfl
@[simp] theorem State.modXfer_pending (s : State) (f : List Transfer → List Transfer) : (s.modXfer f).pending = s.pending := rfl
@[simp] theorem State.modQnt_tick (s : State) (f : Qnt → Qnt) : (s.modQnt f).tick = s.tick := rfl
@[simp] theorem State.modQnt_life (s : State) (f : Qnt → Qnt) : (s.modQnt f).life = s.life := rfl
@[simp] theorem State.modQnt_fns (s : State) (f : Qnt → Qnt) : (s.modQnt f).fns = s.fns := rfl
@[simp] theorem State.modQnt_q (s : State) (f : Qnt → Qnt) : (s.modQnt f).q = s.q := rfl
@[simp] theorem State.modQnt_str (s : State) (f : Qnt → Qnt) : (s.modQnt f).str = s.str := rfl
@[simp] theorem State.modQnt_obj (s : State) (f : Qnt → Qnt) : (s.modQnt f).obj = s.obj := rfl
@[simp] theorem State.modQnt_sch (s : State) (f : Qnt → Qnt) : (s.modQnt f).sch = s.sch := rfl
@[simp] theorem State.modQnt_hb (s : State) (f : Qnt → Qnt) : (s.modQnt f).hb = s.hb := rfl
@[simp] theorem State.modQnt_reg (s : State) (f : Qnt → Qnt) : (s.modQnt f).reg = s.reg := rfl
@[simp] theorem State.modQnt_eff (s : State) (f : Qnt → Qnt) : (s.modQnt f).eff = s.eff := rfl
@[simp] theorem State.modQnt_strm (s : State) (f : Qnt → Qnt) : (s.modQnt f).strm = s.strm := rfl
@[simp] theorem State.modQnt_xfer (s : State) (f : Qnt → Qnt) : (s.modQnt f).xfer = s.xfer := rfl
@[simp] theorem State.modQnt_qnt (s : State) (f : Qnt → Qnt) : (s.modQnt f).qnt = f s.qnt := rfl
@[simp] theorem State.modQnt_arr (s : State) (f : Qnt → Qnt) : (s.modQnt f).arr = s.arr := rfl
@[simp] theorem State.modQnt_inf (s : State) (f : Qnt → Qnt) : (s.modQnt f).inf = s.inf := rfl
@[simp] theorem State.modQnt_idx (s : State) (f : Qnt → Qnt) : (s.modQnt f).idx = s.idx := rfl
@[simp] theorem State.modQnt_mrg (s : State) (f : Qnt → Qnt) : (s.modQnt f).mrg = s.mrg := rfl
@[simp] theorem State.modQnt_scn (s : State) (f : Qnt → Qnt) : (s.modQnt f).scn = s.scn := rfl
@[simp] theorem State.modQnt_fls (s : State) (f : Qnt → Qnt) : (s.modQnt f).fls = s.fls := rfl
@[simp] theorem State.modQnt_itg (s : State) (f : Qnt → Qnt) : (s.modQnt f).itg = s.itg := rfl
@[simp] theorem State.modQnt_cal (s : State) (f : Qnt → Qnt) : (s.modQnt f).cal = s.cal := rfl
@[simp] theorem State.modQnt_evt (s : State) (f : Qnt → Qnt) : (s.modQnt f).evt = s.evt := rfl
@[simp] theorem State.modQnt_pwr (s : State) (f : Qnt → Qnt) : (s.modQnt f).pwr = s.pwr := rfl
@[simp] theorem State.modQnt_fw (s : State) (f : Qnt → Qnt) : (s.modQnt f).fw = s.fw := rfl
@[simp] theorem State.modQnt_sec (s : State) (f : Qnt → Qnt) : (s.modQnt f).sec = s.sec := rfl
@[simp] theorem State.modQnt_lan (s : State) (f : Qnt → Qnt) : (s.modQnt f).lan = s.lan := rfl
@[simp] theorem State.modQnt_mgt (s : State) (f : Qnt → Qnt) : (s.modQnt f).mgt = s.mgt := rfl
@[simp] theorem State.modQnt_ctr (s : State) (f : Qnt → Qnt) : (s.modQnt f).ctr = s.ctr := rfl
@[simp] theorem State.modQnt_mirror (s : State) (f : Qnt → Qnt) : (s.modQnt f).mirror = s.mirror := rfl
@[simp] theorem State.modQnt_out (s : State) (f : Qnt → Qnt) : (s.modQnt f).out = s.out := rfl
@[simp] theorem State.modQnt_free (s : State) (f : Qnt → Qnt) : (s.modQnt f).free = s.free := rfl
@[simp] theorem State.modQnt_pending (s : State) (f : Qnt → Qnt) : (s.modQnt f).pending = s.pending := rfl
@[simp] theorem State.modArr_tick (s : State) (f : Arr → Arr) : (s.modArr f).tick = s.tick := rfl
@[simp] theorem State.modArr_life (s : State) (f : Arr → Arr) : (s.modArr f).life = s.life := rfl
@[simp] theorem State.modArr_fns (s : State) (f : Arr → Arr) : (s.modArr f).fns = s.fns := rfl
@[simp] theorem State.modArr_q (s : State) (f : Arr → Arr) : (s.modArr f).q = s.q := rfl
@[simp] theorem State.modArr_str (s : State) (f : Arr → Arr) : (s.modArr f).str = s.str := rfl
@[simp] theorem State.modArr_obj (s : State) (f : Arr → Arr) : (s.modArr f).obj = s.obj := rfl
@[simp] theorem State.modArr_sch (s : State) (f : Arr → Arr) : (s.modArr f).sch = s.sch := rfl
@[simp] theorem State.modArr_hb (s : State) (f : Arr → Arr) : (s.modArr f).hb = s.hb := rfl
@[simp] theorem State.modArr_reg (s : State) (f : Arr → Arr) : (s.modArr f).reg = s.reg := rfl
@[simp] theorem State.modArr_eff (s : State) (f : Arr → Arr) : (s.modArr f).eff = s.eff := rfl
@[simp] theorem State.modArr_strm (s : State) (f : Arr → Arr) : (s.modArr f).strm = s.strm := rfl
@[simp] theorem State.modArr_xfer (s : State) (f : Arr → Arr) : (s.modArr f).xfer = s.xfer := rfl
@[simp] theorem State.modArr_qnt (s : State) (f : Arr → Arr) : (s.modArr f).qnt = s.qnt := rfl
@[simp] theorem State.modArr_arr (s : State) (f : Arr → Arr) : (s.modArr f).arr = f s.arr := rfl
@[simp] theorem State.modArr_inf (s : State) (f : Arr → Arr) : (s.modArr f).inf = s.inf := rfl
@[simp] theorem State.modArr_idx (s : State) (f : Arr → Arr) : (s.modArr f).idx = s.idx := rfl
@[simp] theorem State.modArr_mrg (s : State) (f : Arr → Arr) : (s.modArr f).mrg = s.mrg := rfl
@[simp] theorem State.modArr_scn (s : State) (f : Arr → Arr) : (s.modArr f).scn = s.scn := rfl
@[simp] theorem State.modArr_fls (s : State) (f : Arr → Arr) : (s.modArr f).fls = s.fls := rfl
@[simp] theorem State.modArr_itg (s : State) (f : Arr → Arr) : (s.modArr f).itg = s.itg := rfl
@[simp] theorem State.modArr_cal (s : State) (f : Arr → Arr) : (s.modArr f).cal = s.cal := rfl
@[simp] theorem State.modArr_evt (s : State) (f : Arr → Arr) : (s.modArr f).evt = s.evt := rfl
@[simp] theorem State.modArr_pwr (s : State) (f : Arr → Arr) : (s.modArr f).pwr = s.pwr := rfl
@[simp] theorem State.modArr_fw (s : State) (f : Arr → Arr) : (s.modArr f).fw = s.fw := rfl
@[simp] theorem State.modArr_sec (s : State) (f : Arr → Arr) : (s.modArr f).sec = s.sec := rfl
@[simp] theorem State.modArr_lan (s : State) (f : Arr → Arr) : (s.modArr f).lan = s.lan := rfl
@[simp] theorem State.modArr_mgt (s : State) (f : Arr → Arr) : (s.modArr f).mgt = s.mgt := rfl
@[simp] theorem State.modArr_ctr (s : State) (f : Arr → Arr) : (s.modArr f).ctr = s.ctr := rfl
@[simp] theorem State.modArr_mirror (s : State) (f : Arr → Arr) : (s.modArr f).mirror = s.mirror := rfl
@[simp] theorem State.modArr_out (s : State) (f : Arr → Arr) : (s.modArr f).out = s.out := rfl
@[simp] theorem State.modArr_free (s : State) (f : Arr → Arr) : (s.modArr f).free = s.free := rfl
@[simp] theorem State.modArr_pending (s : State) (f : Arr → Arr) : (s.modArr f).pending = s.pending := rfl
@[simp] theorem State.modInf_tick (s : State) (f : Inf → Inf) : (s.modInf f).tick = s.tick := rfl
@[simp] theorem State.modInf_life (s : State) (f : Inf → Inf) : (s.modInf f).life = s.life := rfl
@[simp] theorem State.modInf_fns (s : State) (f : Inf → Inf) : (s.modInf f).fns = s.fns := rfl
@[simp] theorem State.modInf_q (s : State) (f : Inf → Inf) : (s.modInf f).q = s.q := rfl
@[simp] theorem State.modInf_str (s : State) (f : Inf → Inf) : (s.modInf f).str = s.str := rfl
@[simp] theorem State.modInf_obj (s : State) (f : Inf → Inf) : (s.modInf f).obj = s.obj := rfl
@[simp] theorem State.modInf_sch (s : State) (f : Inf → Inf) : (s.modInf f).sch = s.sch := rfl
@[simp] theorem State.modInf_hb (s : State) (f : Inf → Inf) : (s.modInf f).hb = s.hb := rfl
@[simp] theorem State.modInf_reg (s : State) (f : Inf → Inf) : (s.modInf f).reg = s.reg := rfl
@[simp] theorem State.modInf_eff (s : State) (f : Inf → Inf) : (s.modInf f).eff = s.eff := rfl
@[simp] theorem State.modInf_strm (s : State) (f : Inf → Inf) : (s.modInf f).strm = s.strm := rfl
@[simp] theorem State.modInf_xfer (s : State) (f : Inf → Inf) : (s.modInf f).xfer = s.xfer := rfl
@[simp] theorem State.modInf_qnt (s : State) (f : Inf → Inf) : (s.modInf f).qnt = s.qnt := rfl
@[simp] theorem State.modInf_arr (s : State) (f : Inf → Inf) : (s.modInf f).arr = s.arr := rfl
@[simp] theorem State.modInf_inf (s : State) (f : Inf → Inf) : (s.modInf f).inf = f s.inf := rfl
@[simp] theorem State.modInf_idx (s : State) (f : Inf → Inf) : (s.modInf f).idx = s.idx := rfl
@[simp] theorem State.modInf_mrg (s : State) (f : Inf → Inf) : (s.modInf f).mrg = s.mrg := rfl
@[simp] theorem State.modInf_scn (s : State) (f : Inf → Inf) : (s.modInf f).scn = s.scn := rfl
@[simp] theorem State.modInf_fls (s : State) (f : Inf → Inf) : (s.modInf f).fls = s.fls := rfl
@[simp] theorem State.modInf_itg (s : State) (f : Inf → Inf) : (s.modInf f).itg = s.itg := rfl
@[simp] theorem State.modInf_cal (s : State) (f : Inf → Inf) : (s.modInf f).cal = s.cal := rfl
@[simp] theorem State.modInf_evt (s : State) (f : Inf → Inf) : (s.modInf f).evt = s.evt := rfl
@[simp] theorem State.modInf_pwr (s : State) (f : Inf → Inf) : (s.modInf f).pwr = s.pwr := rfl
@[simp] theorem State.modInf_fw (s : State) (f : Inf → Inf) : (s.modInf f).fw = s.fw := rfl
@[simp] theorem State.modInf_sec (s : State) (f : Inf → Inf) : (s.modInf f).sec = s.sec := rfl
@[simp] theorem State.modInf_lan (s : State) (f : Inf → Inf) : (s.modInf f).lan = s.lan := rfl
@[simp] theorem State.modInf_mgt (s : State) (f : Inf → Inf) : (s.modInf f).mgt = s.mgt := rfl
@[simp] theorem State.modInf_ctr (s : State) (f : Inf → Inf) : (s.modInf f).ctr = s.ctr := rfl
@[simp] theorem State.modInf_mirror (s : State) (f : Inf → Inf) : (s.modInf f).mirror = s.mirror := rfl
@[simp] theorem State.modInf_out (s : State) (f : Inf → Inf) : (s.modInf f).out = s.out := rfl
@[simp] theorem State.modInf_free (s : State) (f : Inf → Inf) : (s.modInf f).free = s.free := rfl
@[simp] theorem State.modInf_pending (s : State) (f : Inf → Inf) : (s.modInf f).pending = s.pending := rfl
@[simp] theorem State.modIdx_tick (s : State) (f : Idx → Idx) : (s.modIdx f).tick = s.tick := rfl
@[simp] theorem State.modIdx_life (s : State) (f : Idx → Idx) : (s.modIdx f).life = s.life := rfl
@[simp] theorem State.modIdx_fns (s : State) (f : Idx → Idx) : (s.modIdx f).fns = s.fns := rfl
@[simp] theorem State.modIdx_q (s : State) (f : Idx → Idx) : (s.modIdx f).q = s.q := rfl
@[simp] theorem State.modIdx_str (s : State) (f : Idx → Idx) : (s.modIdx f).str = s.str := rfl
@[simp] theorem State.modIdx_obj (s : State) (f : Idx → Idx) : (s.modIdx f).obj = s.obj := rfl
@[simp] theorem State.modIdx_sch (s : State) (f : Idx → Idx) : (s.modIdx f).sch = s.sch := rfl
@[simp] theorem State.modIdx_hb (s : State) (f : Idx → Idx) : (s.modIdx f).hb = s.hb := rfl
@[simp] theorem State.modIdx_reg (s : State) (f : Idx → Idx) : (s.modIdx f).reg = s.reg := rfl
@[simp] theorem State.modIdx_eff (s : State) (f : Idx → Idx) : (s.modIdx f).eff = s.eff := rfl
@[simp] theorem State.modIdx_strm (s : State) (f : Idx → Idx) : (s.modIdx f).strm = s.strm := rfl
@[simp] theorem State.modIdx_xfer (s : State) (f : Idx → Idx) : (s.modIdx f).xfer = s.xfer := rfl
@[simp] theorem State.modIdx_qnt (s : State) (f : Idx → Idx) : (s.modIdx f).qnt = s.qnt := rfl
@[simp] theorem State.modIdx_arr (s : State) (f : Idx → Idx) : (s.modIdx f).arr = s.arr := rfl
@[simp] theorem State.modIdx_inf (s : State) (f : Idx → Idx) : (s.modIdx f).inf = s.inf := rfl
@[simp] theorem State.modIdx_idx (s : State) (f : Idx → Idx) : (s.modIdx f).idx = f s.idx := rfl
@[simp] theorem State.modIdx_mrg (s : State) (f : Idx → Idx) : (s.modIdx f).mrg = s.mrg := rfl
@[simp] theorem State.modIdx_scn (s : State) (f : Idx → Idx) : (s.modIdx f).scn = s.scn := rfl
@[simp] theorem State.modIdx_fls (s : State) (f : Idx → Idx) : (s.modIdx f).fls = s.fls := rfl
@[simp] theorem State.modIdx_itg (s : State) (f : Idx → Idx) : (s.modIdx f).itg = s.itg := rfl
@[simp] theorem State.modIdx_cal (s : State) (f : Idx → Idx) : (s.modIdx f).cal = s.cal := rfl
@[simp] theorem State.modIdx_evt (s : State) (f : Idx → Idx) : (s.modIdx f).evt = s.evt := rfl
@[simp] theorem State.modIdx_pwr (s : State) (f : Idx → Idx) : (s.modIdx f).pwr = s.pwr := rfl
@[simp] theorem State.modIdx_fw (s : State) (f : Idx → Idx) : (s.modIdx f).fw = s.fw := rfl
@[simp] theorem State.modIdx_sec (s : State) (f : Idx → Idx) : (s.modIdx f).sec = s.sec := rfl
@[simp] theorem State.modIdx_lan (s : State) (f : Idx → Idx) : (s.modIdx f).lan = s.lan := rfl
@[simp] theorem State.modIdx_mgt (s : State) (f : Idx → Idx) : (s.modIdx f).mgt = s.mgt := rfl
@[simp] theorem State.modIdx_ctr (s : State) (f : Idx → Idx) : (s.modIdx f).ctr = s.ctr := rfl
@[simp] theorem State.modIdx_mirror (s : State) (f : Idx → Idx) : (s.modIdx f).mirror = s.mirror := rfl
@[simp] theorem State.modIdx_out (s : State) (f : Idx → Idx) : (s.modIdx f).out = s.out := rfl
@[simp] theorem State.modIdx_free (s : State) (f : Idx → Idx) : (s.modIdx f).free = s.free := rfl
@[simp] theorem State.modIdx_pending (s : State) (f : Idx → Idx) : (s.modIdx f).pending = s.pending := rfl
@[simp] theorem State.modMrg_tick (s : State) (f : Mrg → Mrg) : (s.modMrg f).tick = s.tick := rfl
@[simp] theorem State.modMrg_life (s : State) (f : Mrg → Mrg) : (s.modMrg f).life = s.life := rfl
@[simp] theorem State.modMrg_fns (s : State) (f : Mrg → Mrg) : (s.modMrg f).fns = s.fns := rfl
@[simp] theorem State.modMrg_q (s : State) (f : Mrg → Mrg) : (s.modMrg f).q = s.q := rfl
@[simp] theorem State.modMrg_str (s : State) (f : Mrg → Mrg) : (s.modMrg f).str = s.str := rfl
@[simp] theorem State.modMrg_obj (s : State) (f : Mrg → Mrg) : (s.modMrg f).obj = s.obj := rfl
@[simp] theorem State.modMrg_sch (s : State) (f : Mrg → Mrg) : (s.modMrg f).sch = s.sch := rfl
@[simp] theorem State.modMrg_hb (s : State) (f : Mrg → Mrg) : (s.modMrg f).hb = s.hb := rfl
@[simp] theorem State.modMrg_reg (s : State) (f : Mrg → Mrg) : (s.modMrg f).reg = s.reg := rfl
@[simp] theorem State.modMrg_eff (s : State) (f : Mrg → Mrg) : (s.modMrg f).eff = s.eff := rfl
@[simp] theorem State.modMrg_strm (s : State) (f : Mrg → Mrg) : (s.modMrg f).strm = s.strm := rfl
@[simp] theorem State.modMrg_xfer (s : State) (f : Mrg → Mrg) : (s.modMrg f).xfer = s.xfer := rfl
@[simp] theorem State.modMrg_qnt (s : State) (f : Mrg → Mrg) : (s.modMrg f).qnt = s.qnt := rfl
@[simp] theorem State.modMrg_arr (s : State) (f : Mrg → Mrg) : (s.modMrg f).arr = s.arr := rfl
@[simp] theorem State.modMrg_inf (s : State) (f : Mrg → Mrg) : (s.modMrg f).inf = s.inf := rfl
@[simp] theorem State.modMrg_idx (s : State) (f : Mrg → Mrg) : (s.modMrg f).idx = s.idx := rfl
@[simp] theorem State.modMrg_mrg (s : State) (f : Mrg → Mrg) : (s.modMrg f).mrg = f s.mrg := rfl
@[simp] theorem State.modMrg_scn (s : State) (f : Mrg → Mrg) : (s.modMrg f).scn = s.scn := rfl
@[simp] theorem State.modMrg_fls (s : State) (f : Mrg → Mrg) : (s.modMrg f).fls = s.fls := rfl
@[simp] theorem State.modMrg_itg (s : State) (f : Mrg → Mrg) : (s.modMrg f).itg = s.itg := rfl
@[simp] theorem State.modMrg_cal (s : State) (f : Mrg → Mrg) : (s.modMrg f).cal = s.cal := rfl
@[simp] theorem State.modMrg_evt (s : State) (f : Mrg → Mrg) : (s.modMrg f).evt = s.evt := rfl
@[simp] theorem State.modMrg_pwr (s : State) (f : Mrg → Mrg) : (s.modMrg f).pwr = s.pwr := rfl
@[simp] theorem State.modMrg_fw (s : State) (f : Mrg → Mrg) : (s.modMrg f).fw = s.fw := rfl
@[simp] theorem State.modMrg_sec (s : State) (f : Mrg → Mrg) : (s.modMrg f).sec = s.sec := rfl
@[simp] theorem State.modMrg_lan (s : State) (f : Mrg → Mrg) : (s.modMrg f).lan = s.lan := rfl
@[simp] theorem State.modMrg_mgt (s : State) (f : Mrg → Mrg) : (s.modMrg f).mgt = s.mgt := rfl
@[simp] theorem State.modMrg_ctr (s : State) (f : Mrg → Mrg) : (s.modMrg f).ctr = s.ctr := rfl
@[simp] theorem State.modMrg_mirror (s : State) (f : Mrg → Mrg) : (s.modMrg f).mirror = s.mirror := rfl
@[simp] theorem State.modMrg_out (s : State) (f : Mrg → Mrg) : (s.modMrg f).out = s.out := rfl
@[simp] theorem State.modMrg_free (s : State) (f : Mrg → Mrg) : (s.modMrg f).free = s.free := rfl
@[simp] theorem State.modMrg_pending (s : State) (f : Mrg → Mrg) : (s.modMrg f).pending = s.pending := rfl
@[simp] theorem State.modScn_tick (s : State) (f : Scn → Scn) : (s.modScn f).tick = s.tick := rfl
@[simp] theorem State.modScn_life (s : State) (f : Scn → Scn) : (s.modScn f).life = s.life := rfl
@[simp] theorem State.modScn_fns (s : State) (f : Scn → Scn) : (s.modScn f).fns = s.fns := rfl
@[simp] theorem State.modScn_q (s : State) (f : Scn → Scn) : (s.modScn f).q = s.q := rfl
@[simp] theorem State.modScn_str (s : State) (f : Scn → Scn) : (s.modScn f).str = s.str := rfl
@[simp] theorem State.modScn_obj (s : State) (f : Scn → Scn) : (s.modScn f).obj = s.obj := rfl
@[simp] theorem State.modScn_sch (s : State) (f : Scn → Scn) : (s.modScn f).sch = s.sch := rfl
@[simp] theorem State.modScn_hb (s : State) (f : Scn → Scn) : (s.modScn f).hb = s.hb := rfl
@[simp] theorem State.modScn_reg (s : State) (f : Scn → Scn) : (s.modScn f).reg = s.reg := rfl
@[simp] theorem State.modScn_eff (s : State) (f : Scn → Scn) : (s.modScn f).eff = s.eff := rfl
@[simp] theorem State.modScn_strm (s : State) (f : Scn → Scn) : (s.modScn f).strm = s.strm := rfl
@[simp] theorem State.modScn_xfer (s : State) (f : Scn → Scn) : (s.modScn f).xfer = s.xfer := rfl
@[simp] theorem State.modScn_qnt (s : State) (f : Scn → Scn) : (s.modScn f).qnt = s.qnt := rfl
@[simp] theorem State.modScn_arr (s : State) (f : Scn → Scn) : (s.modScn f).arr = s.arr := rfl
@[simp] theorem State.modScn_inf (s : State) (f : Scn → Scn) : (s.modScn f).inf = s.inf := rfl
@[simp] theorem State.modScn_idx (s : State) (f : Scn → Scn) : (s.modScn f).idx = s.idx := rfl
@[simp] theorem State.modScn_mrg (s : State) (f : Scn → Scn) : (s.modScn f).mrg = s.mrg := rfl
@[simp] theorem State.modScn_scn (s : State) (f : Scn → Scn) : (s.modScn f).scn = f s.scn := rfl
@[simp] theorem State.modScn_fls (s : State) (f : Scn → Scn) : (s.modScn f).fls = s.fls := rfl
@[simp] theorem State.modScn_itg (s : State) (f : Scn → Scn) : (s.modScn f).itg = s.itg := rfl
@[simp] theorem State.modScn_cal (s : State) (f : Scn → Scn) : (s.modScn f).cal = s.cal := rfl
@[simp] theorem State.modScn_evt (s : State) (f : Scn → Scn) : (s.modScn f).evt = s.evt := rfl
@[simp] theorem State.modScn_pwr (s : State) (f : Scn → Scn) : (s.modScn f).pwr = s.pwr := rfl
@[simp] theorem State.modScn_fw (s : State) (f : Scn → Scn) : (s.modScn f).fw = s.fw := rfl
@[simp] theorem State.modScn_sec (s : State) (f : Scn → Scn) : (s.modScn f).sec = s.sec := rfl
@[simp] theorem State.modScn_lan (s : State) (f : Scn → Scn) : (s.modScn f).lan = s.lan := rfl
@[simp] theorem State.modScn_mgt (s : State) (f : Scn → Scn) : (s.modScn f).mgt = s.mgt := rfl
@[simp] theorem State.modScn_ctr (s : State) (f : Scn → Scn) : (s.modScn f).ctr = s.ctr := rfl
@[simp] theorem State.modScn_mirror (s : State) (f : Scn → Scn) : (s.modScn f).mirror = s.mirror := rfl
@[simp] theorem State.modScn_out (s : State) (f : Scn → Scn) : (s.modScn f).out = s.out := rfl
@[simp] theorem State.modScn_free (s : State) (f : Scn → Scn) : (s.modScn f).free = s.free := rfl
@[simp] theorem State.modScn_pending (s : State) (f : Scn → Scn) : (s.modScn f).pending = s.pending := rfl
@[simp] theorem State.modFls_tick (s : State) (f : Fls → Fls) : (s.modFls f).tick = s.tick := rfl
@[simp] theorem State.modFls_life (s : State) (f : Fls → Fls) : (s.modFls f).life = s.life := rfl
@[simp] theorem State.modFls_fns (s : State) (f : Fls → Fls) : (s.modFls f).fns = s.fns := rfl
@[simp] theorem State.modFls_q (s : State) (f : Fls → Fls) : (s.modFls f).q = s.q := rfl
@[simp] theorem State.modFls_str (s : State) (f : Fls → Fls) : (s.modFls f).str = s.str := rfl
@[simp] theorem State.modFls_obj (s : State) (f : Fls → Fls) : (s.modFls f).obj = s.obj := rfl
@[simp] theorem State.modFls_sch (s : State) (f : Fls → Fls) : (s.modFls f).sch = s.sch := rfl
@[simp] theorem State.modFls_hb (s : State) (f : Fls → Fls) : (s.modFls f).hb = s.hb := rfl
@[simp] theorem State.modFls_reg (s : State) (f : Fls → Fls) : (s.modFls f).reg = s.reg := rfl
@[simp] theorem State.modFls_eff (s : State) (f : Fls → Fls) : (s.modFls f).eff = s.eff := rfl
@[simp] theorem State.modFls_strm (s : State) (f : Fls → Fls) : (s.modFls f).strm = s.strm := rfl
@[simp] theorem State.modFls_xfer (s : State) (f : Fls → Fls) : (s.modFls f).xfer = s.xfer := rfl
@[simp] theorem State.modFls_qnt (s : State) (f : Fls → Fls) : (s.modFls f).qnt = s.qnt := rfl
@[simp] theorem State.modFls_arr (s : State) (f : Fls → Fls) : (s.modFls f).arr = s.arr := rfl
@[simp] theorem State.modFls_inf (s : State) (f : Fls → Fls) : (s.modFls f).inf = s.inf := rfl
@[simp] theorem State.modFls_idx (s : State) (f : Fls → Fls) : (s.modFls f).idx = s.idx := rfl
@[simp] theorem State.modFls_mrg (s : State) (f : Fls → Fls) : (s.modFls f).mrg = s.mrg := rfl
@[simp] theorem State.modFls_scn (s : State) (f : Fls → Fls) : (s.modFls f).scn = s.scn := rfl
@[simp] theorem State.modFls_fls (s : State) (f : Fls → Fls) : (s.modFls f).fls = f s.fls := rfl
@[simp] theorem State.modFls_itg (s : State) (f : Fls → Fls) : (s.modFls f).itg = s.itg := rfl
@[simp] theorem State.modFls_cal (s : State) (f : Fls → Fls) : (s.modFls f).cal = s.cal := rfl
@[simp] theorem State.modFls_evt (s : State) (f : Fls → Fls) : (s.modFls f).evt = s.evt := rfl
@[simp] theorem State.modFls_pwr (s : State) (f : Fls → Fls) : (s.modFls f).pwr = s.pwr := rfl
@[simp] theorem State.modFls_fw (s : State) (f : Fls → Fls) : (s.modFls f).fw = s.fw := rfl
@[simp] theorem State.modFls_sec (s : State) (f : Fls → Fls) : (s.modFls f).sec = s.sec := rfl
@[simp] theorem State.modFls_lan (s : State) (f : Fls → Fls) : (s.modFls f).lan = s.lan := rfl
@[simp] theorem State.modFls_mgt (s : State) (f : Fls → Fls) : (s.modFls f).mgt = s.mgt := rfl
@[simp] theorem State.modFls_ctr (s : State) (f : Fls → Fls) : (s.modFls f).ctr = s.ctr := rfl
@[simp] theorem State.modFls_mirror (s : State) (f : Fls → Fls) : (s.modFls f).mirror = s.mirror := rfl
@[simp] theorem State.modFls_out (s : State) (f : Fls → Fls) : (s.modFls f).out = s.out := rfl
@[simp] theorem State.modFls_free (s : State) (f : Fls → Fls) : (s.modFls f).free = s.free := rfl
@[simp] theorem State.modFls_pending (s : State) (f : Fls → Fls) : (s.modFls f).pending = s.pending := rfl
@[simp] theorem State.modItg_tick (s : State) (f : Itg → Itg) : (s.modItg f).tick = s.tick := rfl
@[simp] theorem State.modItg_life (s : State) (f : Itg → Itg) : (s.modItg f).life = s.life := rfl
@[simp] theorem State.modItg_fns (s : State) (f : Itg → Itg) : (s.modItg f).fns = s.fns := rfl
@[simp] theorem State.modItg_q (s : State) (f : Itg → Itg) : (s.modItg f).q = s.q := rfl
@[simp] theorem State.modItg_str (s : State) (f : Itg → Itg) : (s.modItg f).str = s.str := rfl
@[simp] theorem State.modItg_obj (s : State) (f : Itg → Itg) : (s.modItg f).obj = s.obj := rfl
@[simp] theorem State.modItg_sch (s : State) (f : Itg → Itg) : (s.modItg f).sch = s.sch := rfl
@[simp] theorem State.modItg_hb (s : State) (f : Itg → Itg) : (s.modItg f).hb = s.hb := rfl
@[simp] theorem State.modItg_reg (s : State) (f : Itg → Itg) : (s.modItg f).reg = s.reg := rfl
@[simp] theorem State.modItg_eff (s : State) (f : Itg → Itg) : (s.modItg f).eff = s.eff := rfl
@[simp] theorem State.modItg_strm (s : State) (f : Itg → Itg) : (s.modItg f).strm = s.strm := rfl
@[simp] theorem State.modItg_xfer (s : State) (f : Itg → Itg) : (s.modItg f).xfer = s.xfer := rfl
@[simp] theorem State.modItg_qnt (s : State) (f : Itg → Itg) : (s.modItg f).qnt = s.qnt := rfl
@[simp] theorem State.modItg_arr (s : State) (f : Itg → Itg) : (s.modItg f).arr = s.arr := rfl
@[simp] theorem State.modItg_inf (s : State) (f : Itg → Itg) : (s.modItg f).inf = s.inf := rfl
@[simp] theorem State.modItg_idx (s : State) (f : Itg → Itg) : (s.modItg f).idx = s.idx := rfl
@[simp] theorem State.modItg_mrg (s : State) (f : Itg → Itg) : (s.modItg f).mrg = s.mrg := rfl
@[simp] theorem State.modItg_scn (s : State) (f : Itg → Itg) : (s.modItg f).scn = s.scn := rfl
@[simp] theorem State.modItg_fls (s : State) (f : Itg → Itg) : (s.modItg f).fls = s.fls := rfl
@[simp] theorem State.modItg_itg (s : State) (f : Itg → Itg) : (s.modItg f).itg = f s.itg := rfl
@[simp] theorem State.modItg_cal (s : State) (f : Itg → Itg) : (s.modItg f).cal = s.cal := rfl
@[simp] theorem State.modItg_evt (s : State) (f : Itg → Itg) : (s.modItg f).evt = s.evt := rfl
@[simp] theorem State.modItg_pwr (s : State) (f : Itg → Itg) : (s.modItg f).pwr = s.pwr := rfl
@[simp] theorem State.modItg_fw (s : State) (f : Itg → Itg) : (s.modItg f).fw = s.fw := rfl
@[simp] theorem State.modItg_sec (s : State) (f : Itg → Itg) : (s.modItg f).sec = s.sec := rfl
@[simp] theorem State.modItg_lan (s : State) (f : Itg → Itg) : (s.modItg f).lan = s.lan := rfl
@[simp] theorem State.modItg_mgt (s : State) (f : Itg → Itg) : (s.modItg f).mgt = s.mgt := rfl
@[simp] theorem State.modItg_ctr (s : State) (f : Itg → Itg) : (s.modItg f).ctr = s.ctr := rfl
@[simp] theorem State.modItg_mirror (s : State) (f : Itg → Itg) : (s.modItg f).mirror = s.mirror := rfl
@[simp] theorem State.modItg_out (s : State) (f : Itg → Itg) : (s.modItg f).out = s.out := rfl
@[simp] theorem State.modItg_free (s : State) (f : Itg → Itg) : (s.modItg f).free = s.free := rfl
@[simp] theorem State.modItg_pending (s : State) (f : Itg → Itg) : (s.modItg f).pending = s.pending := rfl
@[simp] theorem State.modCal_tick (s : State) (f : Cal → Cal) : (s.modCal f).tick = s.tick := rfl
@[simp] theorem State.modCal_life (s : State) (f : Cal → Cal) : (s.modCal f).life = s.life := rfl
@[simp] theorem State.modCal_fns (s : State) (f : Cal → Cal) : (s.modCal f).fns = s.fns := rfl
@[simp] theorem State.modCal_q (s : State) (f : Cal → Cal) : (s.modCal f).q = s.q := rfl
@[simp] theorem State.modCal_str (s : State) (f : Cal → Cal) : (s.modCal f).str = s.str := rfl
@[simp] theorem State.modCal_obj (s : State) (f : Cal → Cal) : (s.modCal f).obj = s.obj := rfl
@[simp] theorem State.modCal_sch (s : State) (f : Cal → Cal) : (s.modCal f).sch = s.sch := rfl
@[simp] theorem State.modCal_hb (s : State) (f : Cal → Cal) : (s.modCal f).hb = s.hb := rfl
@[simp] theorem State.modCal_reg (s : State) (f : Cal → Cal) : (s.modCal f).reg = s.reg := rfl
@[simp] theorem State.modCal_eff (s : State) (f : Cal → Cal) : (s.modCal f).eff = s.eff := rfl
@[simp] theorem State.modCal_strm (s : State) (f : Cal → Cal) : (s.modCal f).strm = s.strm := rfl
@[simp] theorem State.modCal_xfer (s : State) (f : Cal → Cal) : (s.modCal f).xfer = s.xfer := rfl
@[simp] theorem State.modCal_qnt (s : State) (f : Cal → Cal) : (s.modCal f).qnt = s.qnt := rfl
@[simp] theorem State.modCal_arr (s : State) (f : Cal → Cal) : (s.modCal f).arr = s.arr := rfl
@[simp] theorem State.modCal_inf (s : State) (f : Cal → Cal) : (s.modCal f).inf = s.inf := rfl
@[simp] theorem State.modCal_idx (s : State) (f : Cal → Cal) : (s.modCal f).idx = s.idx := rfl
@[simp] theorem State.modCal_mrg (s : State) (f : Cal → Cal) : (s.modCal f).mrg = s.mrg := rfl
@[simp] theorem State.modCal_scn (s : State) (f : Cal → Cal) : (s.modCal f).scn = s.scn := rfl
@[simp] theorem State.modCal_fls (s : State) (f : Cal → Cal) : (s.modCal f).fls = s.fls := rfl
@[simp] theorem State.modCal_itg (s : State) (f : Cal → Cal) : (s.modCal f).itg = s.itg := rfl
@[simp] theorem State.modCal_cal (s : State) (f : Cal → Cal) : (s.modCal f).cal = f s.cal := rfl
@[simp] theorem State.modCal_evt (s : State) (f : Cal → Cal) : (s.modCal f).evt = s.evt := rfl
@[simp] theorem State.modCal_pwr (s : State) (f : Cal → Cal) : (s.modCal f).pwr = s.pwr := rfl
@[simp] theorem State.modCal_fw (s : State) (f : Cal → Cal) : (s.modCal f).fw = s.fw := rfl
@[simp] theorem State.modCal_sec (s : State) (f : Cal → Cal) : (s.modCal f).sec = s.sec := rfl
@[simp] theorem State.modCal_lan (s : State) (f : Cal → Cal) : (s.modCal f).lan = s.lan := rfl
@[simp] theorem State.modCal_mgt (s : State) (f : Cal → Cal) : (s.modCal f).mgt = s.mgt := rfl
@[simp] theorem State.modCal_ctr (s : State) (f : Cal → Cal) : (s.modCal f).ctr = s.ctr := rfl
@[simp] theorem State.modCal_mirror (s : State) (f : Cal → Cal) : (s.modCal f).mirror = s.mirror := rfl
@[simp] theorem State.modCal_out (s : State) (f : Cal → Cal) : (s.modCal f).out = s.out := rfl
@[simp] theorem State.modCal_free (s : State) (f : Cal → Cal) : (s.modCal f).free = s.free := rfl
@[simp] theorem State.modCal_pending (s : State) (f : Cal → Cal) : (s.modCal f).pending = s.pending := rfl
@[simp] theorem State.modEvt_tick (s : State) (f : Evt → Evt) : (s.modEvt f).tick = s.tick := rfl
@[simp] theorem State.modEvt_life (s : State) (f : Evt → Evt) : (s.modEvt f).life = s.life := rfl
@[simp] theorem State.modEvt_fns (s : State) (f : Evt → Evt) : (s.modEvt f).fns = s.fns := rfl
@[simp] theorem State.modEvt_q (s : State) (f : Evt → Evt) : (s.modEvt f).q = s.q := rfl
@[simp] theorem State.modEvt_str (s : State) (f : Evt → Evt) : (s.modEvt f).str = s.str := rfl
@[simp] theorem State.modEvt_obj (s : State) (f : Evt → Evt) : (s.modEvt f).obj = s.obj := rfl
@[simp] theorem State.modEvt_sch (s : State) (f : Evt → Evt) : (s.modEvt f).sch = s.sch := rfl
@[simp] theorem State.modEvt_hb (s : State) (f : Evt → Evt) : (s.modEvt f).hb = s.hb := rfl
@[simp] theorem State.modEvt_reg (s : State) (f : Evt → Evt) : (s.modEvt f).reg = s.reg := rfl
@[simp] theorem State.modEvt_eff (s : State) (f : Evt → Evt) : (s.modEvt f).eff = s.eff := rfl
@[simp] theorem State.modEvt_strm (s : State) (f : Evt → Evt) : (s.modEvt f).strm = s.strm := rfl
@[simp] theorem State.modEvt_xfer (s : State) (f : Evt → Evt) : (s.modEvt f).xfer = s.xfer := rfl
@[simp] theorem State.modEvt_qnt (s : State) (f : Evt → Evt) : (s.modEvt f).qnt = s.qnt := rfl
@[simp] theorem State.modEvt_arr (s : State) (f : Evt → Evt) : (s.modEvt f).arr = s.arr := rfl
@[simp] theorem State.modEvt_inf (s : State) (f : Evt → Evt) : (s.modEvt f).inf = s.inf := rfl
@[simp] theorem State.modEvt_idx (s : State) (f : Evt → Evt) : (s.modEvt f).idx = s.idx := rfl
@[simp] theorem State.modEvt_mrg (s : State) (f : Evt → Evt) : (s.modEvt f).mrg = s.mrg := rfl
@[simp] theorem State.modEvt_scn (s : State) (f : Evt → Evt) : (s.modEvt f).scn = s.scn := rfl
@[simp] theorem State.modEvt_fls (s : State) (f : Evt → Evt) : (s.modEvt f).fls = s.fls := rfl
@[simp] theorem State.modEvt_itg (s : State) (f : Evt → Evt) : (s.modEvt f).itg = s.itg := rfl
@[simp] theorem State.modEvt_cal (s : State) (f : Evt → Evt) : (s.modEvt f).cal = s.cal := rfl
@[simp] theorem State.modEvt_evt (s : State) (f : Evt → Evt) : (s.modEvt f).evt = f s.evt := rfl
@[simp] theorem State.modEvt_pwr (s : State) (f : Evt → Evt) : (s.modEvt f).pwr = s.pwr := rfl
@[simp] theorem State.modEvt_fw (s : State) (f : Evt → Evt) : (s.modEvt f).fw = s.fw := rfl
@[simp] theorem State.modEvt_sec (s : State) (f : Evt → Evt) : (s.modEvt f).sec = s.sec := rfl
@[simp] theorem State.modEvt_lan (s : State) (f : Evt → Evt) : (s.modEvt f).lan = s.lan := rfl
@[simp] theorem State.modEvt_mgt (s : State) (f : Evt → Evt) : (s.modEvt f).mgt = s.mgt := rfl
@[simp] theorem State.modEvt_ctr (s : State) (f : Evt → Evt) : (s.modEvt f).ctr = s.ctr := rfl
@[simp] theorem State.modEvt_mirror (s : State) (f : Evt → Evt) : (s.modEvt f).mirror = s.mirror := rfl
@[simp] theorem State.modEvt_out (s : State) (f : Evt → Evt) : (s.modEvt f).out = s.out := rfl
@[simp] theorem State.modEvt_free (s : State) (f : Evt → Evt) : (s.modEvt f).free = s.free := rfl
@[simp] theorem State.modEvt_pending (s : State) (f : Evt → Evt) : (s.modEvt f).pending = s.pending := rfl
@[simp] theorem State.modPwr_tick (s : State) (f : Pwr → Pwr) : (s.modPwr f).tick = s.tick := rfl
@[simp] theorem State.modPwr_life (s : State) (f : Pwr → Pwr) : (s.modPwr f).life = s.life := rfl
@[simp] theorem State.modPwr_fns (s : State) (f : Pwr → Pwr) : (s.modPwr f).fns = s.fns := rfl
@[simp] theorem State.modPwr_q (s : State) (f : Pwr → Pwr) : (s.modPwr f).q = s.q := rfl
@[simp] theorem State.modPwr_str (s : State) (f : Pwr → Pwr) : (s.modPwr f).str = s.str := rfl
@[simp] theorem State.modPwr_obj (s : State) (f : Pwr → Pwr) : (s.modPwr f).obj = s.obj := rfl
@[simp] theorem State.modPwr_sch (s : State) (f : Pwr → Pwr) : (s.modPwr f).sch = s.sch := rfl
@[simp] theorem State.modPwr_hb (s : State) (f : Pwr → Pwr) : (s.modPwr f).hb = s.hb := rfl
@[simp] theorem State.modPwr_reg (s : State) (f : Pwr → Pwr) : (s.modPwr f).reg = s.reg := rfl
@[simp] theorem State.modPwr_eff (s : State) (f : Pwr → Pwr) : (s.modPwr f).eff = s.eff := rfl
@[simp] theorem State.modPwr_strm (s : State) (f : Pwr → Pwr) : (s.modPwr f).strm = s.strm := rfl
@[simp] theorem State.modPwr_xfer (s : State) (f : Pwr → Pwr) : (s.modPwr f).xfer = s.xfer := rfl
@[simp] theorem State.modPwr_qnt (s : State) (f : Pwr → Pwr) : (s.modPwr f).qnt = s.qnt := rfl
@[simp] theorem State.modPwr_arr (s : State) (f : Pwr → Pwr) : (s.modPwr f).arr = s.arr := rfl
@[simp] theorem State.modPwr_inf (s : State) (f : Pwr → Pwr) : (s.modPwr f).inf = s.inf := rfl
@[simp] theorem State.modPwr_idx (s : State) (f : Pwr → Pwr) : (s.modPwr f).idx = s.idx := rfl
@[simp] theorem State.modPwr_mrg (s : State) (f : Pwr → Pwr) : (s.modPwr f).mrg = s.mrg := rfl
@[simp] theorem State.modPwr_scn (s : State) (f : Pwr → Pwr) : (s.modPwr f).scn = s.scn := rfl
@[simp] theorem State.modPwr_fls (s : State) (f : Pwr → Pwr) : (s.modPwr f).fls = s.fls := rfl
@[simp] theorem State.modPwr_itg (s : State) (f : Pwr → Pwr) : (s.modPwr f).itg = s.itg := rfl
@[simp] theorem State.modPwr_cal (s : State) (f : Pwr → Pwr) : (s.modPwr f).cal = s.cal := rfl
@[simp] theorem State.modPwr_evt (s : State) (f : Pwr → Pwr) : (s.modPwr f).evt = s.evt := rfl
@[simp] theorem State.modPwr_pwr (s : State) (f : Pwr → Pwr) : (s.modPwr f).pwr = f s.pwr := rfl
@[simp] theorem State.modPwr_fw (s : State) (f : Pwr → Pwr) : (s.modPwr f).fw = s.fw := rfl
@[simp] theorem State.modPwr_sec (s : State) (f : Pwr → Pwr) : (s.modPwr f).sec = s.sec := rfl
@[simp] theorem State.modPwr_lan (s : State) (f : Pwr → Pwr) : (s.modPwr f).lan = s.lan := rfl
@[simp] theorem State.modPwr_mgt (s : State) (f : Pwr → Pwr) : (s.modPwr f).mgt = s.mgt := rfl
@[simp] theorem State.modPwr_ctr (s : State) (f : Pwr → Pwr) : (s.modPwr f).ctr = s.ctr := rfl
@[simp] theorem State.modPwr_mirror (s : State) (f : Pwr → Pwr) : (s.modPwr f).mirror = s.mirror := rfl
@[simp] theorem State.modPwr_out (s : State) (f : Pwr → Pwr) : (s.modPwr f).out = s.out := rfl
@[simp] theorem State.modPwr_free (s : State) (f : Pwr → Pwr) : (s.modPwr f).free = s.free := rfl
@[simp] theorem State.modPwr_pending (s : State) (f : Pwr → Pwr) : (s.modPwr f).pending = s.pending := rfl
@[simp] theorem State.modFw_tick (s : State) (f : Fw → Fw) : (s.modFw f).tick = s.tick := rfl
@[simp] theorem State.modFw_life (s : State) (f : Fw → Fw) : (s.modFw f).life = s.life := rfl
@[simp] theorem State.modFw_fns (s : State) (f : Fw → Fw) : (s.modFw f).fns = s.fns := rfl
@[simp] theorem State.modFw_q (s : State) (f : Fw → Fw) : (s.modFw f).q = s.q := rfl
@[simp] theorem State.modFw_str (s : State) (f : Fw → Fw) : (s.modFw f).str = s.str := rfl
@[simp] theorem State.modFw_obj (s : State) (f : Fw → Fw) : (s.modFw f).obj = s.obj := rfl
@[simp] theorem State.modFw_sch (s : State) (f : Fw → Fw) : (s.modFw f).sch = s.sch := rfl
@[simp] theorem State.modFw_hb (s : State) (f : Fw → Fw) : (s.modFw f).hb = s.hb := rfl
@[simp] theorem State.modFw_reg (s : State) (f : Fw → Fw) : (s.modFw f).reg = s.reg := rfl
@[simp] theorem State.modFw_eff (s : State) (f : Fw → Fw) : (s.modFw f).eff = s.eff := rfl
@[simp] theorem State.modFw_strm (s : State) (f : Fw → Fw) : (s.modFw f).strm = s.strm := rfl
@[simp] theorem State.modFw_xfer (s : State) (f : Fw → Fw) : (s.modFw f).xfer = s.xfer := rfl
@[simp] theorem State.modFw_qnt (s : State) (f : Fw → Fw) : (s.modFw f).qnt = s.qnt := rfl
@[simp] theorem State.modFw_arr (s : State) (f : Fw → Fw) : (s.modFw f).arr = s.arr := rfl
@[simp] theorem State.modFw_inf (s : State) (f : Fw → Fw) : (s.modFw f).inf = s.inf := rfl
@[simp] theorem State.modFw_idx (s : State) (f : Fw → Fw) : (s.modFw f).idx = s.idx := rfl
@[simp] theorem State.modFw_mrg (s : State) (f : Fw → Fw) : (s.modFw f).mrg = s.mrg := rfl
@[simp] theorem State.modFw_scn (s : State) (f : Fw → Fw) : (s.modFw f).scn = s.scn := rfl
@[simp] theorem State.modFw_fls (s : State) (f : Fw → Fw) : (s.modFw f).fls = s.fls := rfl
@[simp] theorem State.modFw_itg (s : State) (f : Fw → Fw) : (s.modFw f).itg = s.itg := rfl
@[simp] theorem State.modFw_cal (s : State) (f : Fw → Fw) : (s.modFw f).cal = s.cal := rfl
@[simp] theorem State.modFw_evt (s : State) (f : Fw → Fw) : (s.modFw f).evt = s.evt := rfl
@[simp] theorem State.modFw_pwr (s : State) (f : Fw → Fw) : (s.modFw f).pwr = s.pwr := rfl
@[simp] theorem State.modFw_fw (s : State) (f : Fw → Fw) : (s.modFw f).fw = f s.fw := rfl
@[simp] theorem State.modFw_sec (s : State) (f : Fw → Fw) : (s.modFw f).sec = s.sec := rfl
@[simp] theorem State.modFw_lan (s : State) (f : Fw → Fw) : (s.modFw f).lan = s.lan := rfl
@[simp] theorem State.modFw_mgt (s : State) (f : Fw → Fw) : (s.modFw f).mgt = s.mgt := rfl
@[simp] theorem State.modFw_ctr (s : State) (f : Fw → Fw) : (s.modFw f).ctr = s.ctr := rfl
@[simp] theorem State.modFw_mirror (s : State) (f : Fw → Fw) : (s.modFw f).mirror = s.mirror := rfl
@[simp] theorem State.modFw_out (s : State) (f : Fw → Fw) : (s.modFw f).out = s.out := rfl
@[simp] theorem State.modFw_free (s : State) (f : Fw → Fw) : (s.modFw f).free = s.free := rfl
@[simp] theorem State.modFw_pending (s : State) (f : Fw → Fw) : (s.modFw f).pending = s.pending := rfl
@[simp] theorem State.modSec_tick (s : State) (f : Sec → Sec) : (s.modSec f).tick = s.tick := rfl
@[simp] theorem State.modSec_life (s : State) (f : Sec → Sec) : (s.modSec f).life = s.life := rfl
@[simp] theorem State.modSec_fns (s : State) (f : Sec → Sec) : (s.modSec f).fns = s.fns := rfl
@[simp] theorem State.modSec_q (s : State) (f : Sec → Sec) : (s.modSec f).q = s.q := rfl
@[simp] theorem State.modSec_str (s : State) (f : Sec → Sec) : (s.modSec f).str = s.str := rfl
@[simp] theorem State.modSec_obj (s : State) (f : Sec → Sec) : (s.modSec f).obj = s.obj := rfl
@[simp] theorem State.modSec_sch (s : State) (f : Sec → Sec) : (s.modSec f).sch = s.sch := rfl
@[simp] theorem State.modSec_hb (s : State) (f : Sec → Sec) : (s.modSec f).hb = s.hb := rfl
@[simp] theorem State.modSec_reg (s : State) (f : Sec → Sec) : (s.modSec f).reg = s.reg := rfl
@[simp] theorem State.modSec_eff (s : State) (f : Sec → Sec) : (s.modSec f).eff = s.eff := rfl
@[simp] theorem State.modSec_strm (s : State) (f : Sec → Sec) : (s.modSec f).strm = s.strm := rfl
@[simp] theorem State.modSec_xfer (s : State) (f : Sec → Sec) : (s.modSec f).xfer = s.xfer := rfl
@[simp] theorem State.modSec_qnt (s : State) (f : Sec → Sec) : (s.modSec f).qnt = s.qnt := rfl
@[simp] theorem State.modSec_arr (s : State) (f : Sec → Sec) : (s.modSec f).arr = s.arr := rfl
@[simp] theorem State.modSec_inf (s : State) (f : Sec → Sec) : (s.modSec f).inf = s.inf := rfl
@[simp] theorem State.modSec_idx (s : State) (f : Sec → Sec) : (s.modSec f).idx = s.idx := rfl
@[simp] theorem State.modSec_mrg (s : State) (f : Sec → Sec) : (s.modSec f).mrg = s.mrg := rfl
@[simp] theorem State.modSec_scn (s : State) (f : Sec → Sec) : (s.modSec f).scn = s.scn := rfl
@[simp] theorem State.modSec_fls (s : State) (f : Sec → Sec) : (s.modSec f).fls = s.fls := rfl
@[simp] theorem State.modSec_itg (s : State) (f : Sec → Sec) : (s.modSec f).itg = s.itg := rfl
@[simp] theorem State.modSec_cal (s : State) (f : Sec → Sec) : (s.modSec f).cal = s.cal := rfl
@[simp] theorem State.modSec_evt (s : State) (f : Sec → Sec) : (s.modSec f).evt = s.evt := rfl
@[simp] theorem State.modSec_pwr (s : State) (f : Sec → Sec) : (s.modSec f).pwr = s.pwr := rfl
@[simp] theorem State.modSec_fw (s : State) (f : Sec → Sec) : (s.modSec f).fw = s.fw := rfl
@[simp] theorem State.modSec_sec (s : State) (f : Sec → Sec) : (s.modSec f).sec = f s.sec := rfl
@[simp] theorem State.modSec_lan (s : State) (f : Sec → Sec) : (s.modSec f).lan = s.lan := rfl
@[simp] theorem State.modSec_mgt (s : State) (f : Sec → Sec) : (s.modSec f).mgt = s.mgt := rfl
@[simp] theorem State.modSec_ctr (s : State) (f : Sec → Sec) : (s.modSec f).ctr = s.ctr := rfl
@[simp] theorem State.modSec_mirror (s : State) (f : Sec → Sec) : (s.modSec f).mirror = s.mirror := rfl
@[simp] theorem State.modSec_out (s : State) (f : Sec → Sec) : (s.modSec f).out = s.out := rfl
@[simp] theorem State.modSec_free (s : State) (f : Sec → Sec) : (s.modSec f).free = s.free := rfl
@[simp] theorem State.modSec_pending (s : State) (f : Sec → Sec) : (s.modSec f).pending = s.pending := rfl
@[simp] theorem State.modLan_tick (s : State) (f : Lan → Lan) : (s.modLan f).tick = s.tick := rfl
@[simp] theorem State.modLan_life (s : State) (f : Lan → Lan) : (s.modLan f).life = s.life := rfl
@[simp] theorem State.modLan_fns (s : State) (f : Lan → Lan) : (s.modLan f).fns = s.fns := rfl
@[simp] theorem State.modLan_q (s : State) (f : Lan → Lan) : (s.modLan f).q = s.q := rfl
@[simp] theorem State.modLan_str (s : State) (f : Lan → Lan) : (s.modLan f).str = s.str := rfl
@[simp] theorem State.modLan_obj (s : State) (f : Lan → Lan) : (s.modLan f).obj = s.obj := rfl
@[simp] theorem State.modLan_sch (s : State) (f : Lan → Lan) : (s.modLan f).sch = s.sch := rfl
@[simp] theorem State.modLan_hb (s : State) (f : Lan → Lan) : (s.modLan f).hb = s.hb := rfl
@[simp] theorem State.modLan_reg (s : State) (f : Lan → Lan) : (s.modLan f).reg = s.reg := rfl
@[simp] theorem State.modLan_eff (s : State) (f : Lan → Lan) : (s.modLan f).eff = s.eff := rfl
@[simp] theorem State.modLan_strm (s : State) (f : Lan → Lan) : (s.modLan f).strm = s.strm := rfl
@[simp] theorem State.modLan_xfer (s : State) (f : Lan → Lan) : (s.modLan f).xfer = s.xfer := rfl
@[simp] theorem State.modLan_qnt (s : State) (f : Lan → Lan) : (s.modLan f).qnt = s.qnt := rfl
@[simp] theorem State.modLan_arr (s : State) (f : Lan → Lan) : (s.modLan f).arr = s.arr := rfl
@[simp] theorem State.modLan_inf (s : State) (f : Lan → Lan) : (s.modLan f).inf = s.inf := rfl
@[simp] theorem State.modLan_idx (s : State) (f : Lan → Lan) : (s.modLan f).idx = s.idx := rfl
@[simp] theorem State.modLan_mrg (s : State) (f : Lan → Lan) : (s.modLan f).mrg = s.mrg := rfl
@[simp] theorem State.modLan_scn (s : State) (f : Lan → Lan) : (s.modLan f).scn = s.scn := rfl
@[simp] theorem State.modLan_fls (s : State) (f : Lan → Lan) : (s.modLan f).fls = s.fls := rfl
@[simp] theorem State.modLan_itg (s : State) (f : Lan → Lan) : (s.modLan f).itg = s.itg := rfl
@[simp] theorem State.modLan_cal (s : State) (f : Lan → Lan) : (s.modLan f).cal = s.cal := rfl
@[simp] theorem State.modLan_evt (s : State) (f : Lan → Lan) : (s.modLan f).evt = s.evt := rfl
@[simp] theorem State.modLan_pwr (s : State) (f : Lan → Lan) : (s.modLan f).pwr = s.pwr := rfl
@[simp] theorem State.modLan_fw (s : State) (f : Lan → Lan) : (s.modLan f).fw = s.fw := rfl
@[simp] theorem State.modLan_sec (s : State) (f : Lan → Lan) : (s.modLan f).sec = s.sec := rfl
@[simp] theorem State.modLan_lan (s : State) (f : Lan → Lan) : (s.modLan f).lan = f s.lan := rfl
@[simp] theorem State.modLan_mgt (s : State) (f : Lan → Lan) : (s.modLan f).mgt = s.mgt := rfl
@[simp] theorem State.modLan_ctr (s : State) (f : Lan → Lan) : (s.modLan f).ctr = s.ctr := rfl
@[simp] theorem State.modLan_mirror (s : State) (f : Lan → Lan) : (s.modLan f).mirror = s.mirror := rfl
@[simp] theorem State.modLan_out (s : State) (f : Lan → Lan) : (s.modLan f).out = s.out := rfl
@[simp] theorem State.modLan_free (s : State) (f : Lan → Lan) : (s.modLan f).free = s.free := rfl
@[simp] theorem State.modLan_pending (s : State) (f : Lan → Lan) : (s.modLan f).pending = s.pending := rfl
@[simp] theorem State.modMgt_tick (s : State) (f : Mgt → Mgt) : (s.modMgt f).tick = s.tick := rfl
@[simp] theorem State.modMgt_life (s : State) (f : Mgt → Mgt) : (s.modMgt f).life = s.life := rfl
@[simp] theorem State.modMgt_fns (s : State) (f : Mgt → Mgt) : (s.modMgt f).fns = s.fns := rfl
@[simp] theorem State.modMgt_q (s : State) (f : Mgt → Mgt) : (s.modMgt f).q = s.q := rfl
@[simp] theorem State.modMgt_str (s : State) (f : Mgt → Mgt) : (s.modMgt f).str = s.str := rfl
@[simp] theorem State.modMgt_obj (s : State) (f : Mgt → Mgt) : (s.modMgt f).obj = s.obj := rfl
@[simp] theorem State.modMgt_sch (s : State) (f : Mgt → Mgt) : (s.modMgt f).sch = s.sch := rfl
@[simp] theorem State.modMgt_hb (s : State) (f : Mgt → Mgt) : (s.modMgt f).hb = s.hb := rfl
@[simp] theorem State.modMgt_reg (s : State) (f : Mgt → Mgt) : (s.modMgt f).reg = s.reg := rfl
@[simp] theorem State.modMgt_eff (s : State) (f : Mgt → Mgt) : (s.modMgt f).eff = s.eff := rfl
@[simp] theorem State.modMgt_strm (s : State) (f : Mgt → Mgt) : (s.modMgt f).strm = s.strm := rfl
@[simp] theorem State.modMgt_xfer (s : State) (f : Mgt → Mgt) : (s.modMgt f).xfer = s.xfer := rfl
@[simp] theorem State.modMgt_qnt (s : State) (f : Mgt → Mgt) : (s.modMgt f).qnt = s.qnt := rfl
@[simp] theorem State.modMgt_arr (s : State) (f : Mgt → Mgt) : (s.modMgt f).arr = s.arr := rfl
@[simp] theorem State.modMgt_inf (s : State) (f : Mgt → Mgt) : (s.modMgt f).inf = s.inf := rfl
@[simp] theorem State.modMgt_idx (s : State) (f : Mgt → Mgt) : (s.modMgt f).idx = s.idx := rfl
@[simp] theorem State.modMgt_mrg (s : State) (f : Mgt → Mgt) : (s.modMgt f).mrg = s.mrg := rfl
@[simp] theorem State.modMgt_scn (s : State) (f : Mgt → Mgt) : (s.modMgt f).scn = s.scn := rfl
@[simp] theorem State.modMgt_fls (s : State) (f : Mgt → Mgt) : (s.modMgt f).fls = s.fls := rfl
@[simp] theorem State.modMgt_itg (s : State) (f : Mgt → Mgt) : (s.modMgt f).itg = s.itg := rfl
@[simp] theorem State.modMgt_cal (s : State) (f : Mgt → Mgt) : (s.modMgt f).cal = s.cal := rfl
@[simp] theorem State.modMgt_evt (s : State) (f : Mgt → Mgt) : (s.modMgt f).evt = s.evt := rfl
@[simp] theorem State.modMgt_pwr (s : State) (f : Mgt → Mgt) : (s.modMgt f).pwr = s.pwr := rfl
@[simp] theorem State.modMgt_fw (s : State) (f : Mgt → Mgt) : (s.modMgt f).fw = s.fw := rfl
@[simp] theorem State.modMgt_sec (s : State) (f : Mgt → Mgt) : (s.modMgt f).sec = s.sec := rfl
@[simp] theorem State.modMgt_lan (s : State) (f : Mgt → Mgt) : (s.modMgt f).lan = s.lan := rfl
@[simp] theorem State.modMgt_mgt (s : State) (f : Mgt → Mgt) : (s.modMgt f).mgt = f s.mgt := rfl
@[simp] theorem State.modMgt_ctr (s : State) (f : Mgt → Mgt) : (s.modMgt f).ctr = s.ctr := rfl
@[simp] theorem State.modMgt_mirror (s : State) (f : Mgt → Mgt) : (s.modMgt f).mirror = s.mirror := rfl
@[simp] theorem State.modMgt_out (s : State) (f : Mgt → Mgt) : (s.modMgt f).out = s.out := rfl
@[simp] theorem State.modMgt_free (s : State) (f : Mgt → Mgt) : (s.modMgt f).free = s.free := rfl
@[simp] theorem State.modMgt_pending (s : State) (f : Mgt → Mgt) : (s.modMgt f).pending = s.pending := rfl
@[simp] theorem State.modCtr_tick (s : State) (f : List (Sys2Proof.Machine.Ctr × Nat × Nat) → List (Sys2Proof.Machine.Ctr × Nat × Nat)) : (s.modCtr f).tick = s.tick := rfl
@[simp] theorem State.modCtr_life (s : State) (f : List (Sys2Proof.Machine.Ctr × Nat × Nat) → List (Sys2Proof.Machine.Ctr × Nat × Nat)) : (s.modCtr f).life = s.life := rfl
@[simp] theorem State.modCtr_fns (s : State) (f : List (Sys2Proof.Machine.Ctr × Nat × Nat) → List (Sys2Proof.Machine.Ctr × Nat × Nat)) : (s.modCtr f).fns = s.fns := rfl
@[simp] theorem State.modCtr_q (s : State) (f : List (Sys2Proof.Machine.Ctr × Nat × Nat) → List (Sys2Proof.Machine.Ctr × Nat × Nat)) : (s.modCtr f).q = s.q := rfl
@[simp] theorem State.modCtr_str (s : State) (f : List (Sys2Proof.Machine.Ctr × Nat × Nat) → List (Sys2Proof.Machine.Ctr × Nat × Nat)) : (s.modCtr f).str = s.str := rfl
@[simp] theorem State.modCtr_obj (s : State) (f : List (Sys2Proof.Machine.Ctr × Nat × Nat) → List (Sys2Proof.Machine.Ctr × Nat × Nat)) : (s.modCtr f).obj = s.obj := rfl
@[simp] theorem State.modCtr_sch (s : State) (f : List (Sys2Proof.Machine.Ctr × Nat × Nat) → List (Sys2Proof.Machine.Ctr × Nat × Nat)) : (s.modCtr f).sch = s.sch := rfl
@[simp] theorem State.modCtr_hb (s : State) (f : List (Sys2Proof.Machine.Ctr × Nat × Nat) → List (Sys2Proof.Machine.Ctr × Nat × Nat)) : (s.modCtr f).hb = s.hb := rfl
@[simp] theorem State.modCtr_reg (s : State) (f : List (Sys2Proof.Machine.Ctr × Nat × Nat) → List (Sys2Proof.Machine.Ctr × Nat × Nat)) : (s.modCtr f).reg = s.reg := rfl
@[simp] theorem State.modCtr_eff (s : State) (f : List (Sys2Proof.Machine.Ctr × Nat × Nat) → List (Sys2Proof.Machine.Ctr × Nat × Nat)) : (s.modCtr f).eff = s.eff := rfl
@[simp] theorem State.modCtr_strm (s : State) (f : List (Sys2Proof.Machine.Ctr × Nat × Nat) → List (Sys2Proof.Machine.Ctr × Nat × Nat)) : (s.modCtr f).strm = s.strm := rfl
@[simp] theorem State.modCtr_xfer (s : State) (f : List (Sys2Proof.Machine.Ctr × Nat × Nat) → List (Sys2Proof.Machine.Ctr × Nat × Nat)) : (s.modCtr f).xfer = s.xfer := rfl
@[simp] theorem State.modCtr_qnt (s : State) (f : List (Sys2Proof.Machine.Ctr × Nat × Nat) → List (Sys2Proof.Machine.Ctr × Nat × Nat)) : (s.modCtr f).qnt = s.qnt := rfl
@[simp] theorem State.modCtr_arr (s : State) (f : List (Sys2Proof.Machine.Ctr × Nat × Nat) → List (Sys2Proof.Machine.Ctr × Nat × Nat)) : (s.modCtr f).arr = s.arr := rfl
@[simp] theorem State.modCtr_inf (s : State) (f : List (Sys2Proof.Machine.Ctr × Nat × Nat) → List (Sys2Proof.Machine.Ctr × Nat × Nat)) : (s.modCtr f).inf = s.inf := rfl
@[simp] theorem State.modCtr_idx (s : State) (f : List (Sys2Proof.Machine.Ctr × Nat × Nat) → List (Sys2Proof.Machine.Ctr × Nat × Nat)) : (s.modCtr f).idx = s.idx := rfl
@[simp] theorem State.modCtr_mrg (s : State) (f : List (Sys2Proof.Machine.Ctr × Nat × Nat) → List (Sys2Proof.Machine.Ctr × Nat × Nat)) : (s.modCtr f).mrg = s.mrg := rfl
@[simp] theorem State.modCtr_scn (s : State) (f : List (Sys2Proof.Machine.Ctr × Nat × Nat) → List (Sys2Proof.Machine.Ctr × Nat × Nat)) : (s.modCtr f).scn = s.scn := rfl
@[simp] theorem State.modCtr_fls (s : State) (f : List (Sys2Proof.Machine.Ctr × Nat × Nat) → List (Sys2Proof.Machine.Ctr × Nat × Nat)) : (s.modCtr f).fls = s.fls := rfl
@[simp] theorem State.modCtr_itg (s : State) (f : List (Sys2Proof.Machine.Ctr × Nat × Nat) → List (Sys2Proof.Machine.Ctr × Nat × Nat)) : (s.modCtr f).itg = s.itg := rfl
@[simp] theorem State.modCtr_cal (s : State) (f : List (Sys2Proof.Machine.Ctr × Nat × Nat) → List (Sys2Proof.Machine.Ctr × Nat × Nat)) : (s.modCtr f).cal = s.cal := rfl
@[simp] theorem State.modCtr_evt (s : State) (f : List (Sys2Proof.Machine.Ctr × Nat × Nat) → List (Sys2Proof.Machine.Ctr × Nat × Nat)) : (s.modCtr f).evt = s.evt := rfl
@[simp] theorem State.modCtr_pwr (s : State) (f : List (Sys2Proof.Machine.Ctr × Nat × Nat) → List (Sys2Proof.Machine.Ctr × Nat × Nat)) : (s.modCtr f).pwr = s.pwr := rfl
@[simp] theorem State.modCtr_fw (s : State) (f : List (Sys2Proof.Machine.Ctr × Nat × Nat) → List (Sys2Proof.Machine.Ctr × Nat × Nat)) : (s.modCtr f).fw = s.fw := rfl
@[simp] theorem State.modCtr_sec (s : State) (f : List (Sys2Proof.Machine.Ctr × Nat × Nat) → List (Sys2Proof.Machine.Ctr × Nat × Nat)) : (s.modCtr f).sec = s.sec := rfl
@[simp] theorem State.modCtr_lan (s : State) (f : List (Sys2Proof.Machine.Ctr × Nat × Nat) → List (Sys2Proof.Machine.Ctr × Nat × Nat)) : (s.modCtr f).lan = s.lan := rfl
@[simp] theorem State.modCtr_mgt (s : State) (f : List (Sys2Proof.Machine.Ctr × Nat × Nat) → List (Sys2Proof.Machine.Ctr × Nat × Nat)) : (s.modCtr f).mgt = s.mgt := rfl
@[simp] theorem State.modCtr_ctr (s : State) (f : List (Sys2Proof.Machine.Ctr × Nat × Nat) → List (Sys2Proof.Machine.Ctr × Nat × Nat)) : (s.modCtr f).ctr = f s.ctr := rfl
@[simp] theorem State.modCtr_mirror (s : State) (f : List (Sys2Proof.Machine.Ctr × Nat × Nat) → List (Sys2Proof.Machine.Ctr × Nat × Nat)) : (s.modCtr f).mirror = s.mirror := rfl
@[simp] theorem State.modCtr_out (s : State) (f : List (Sys2Proof.Machine.Ctr × Nat × Nat) → List (Sys2Proof.Machine.Ctr × Nat × Nat)) : (s.modCtr f).out = s.out := rfl
@[simp] theorem State.modCtr_free (s : State) (f : List (Sys2Proof.Machine.Ctr × Nat × Nat) → List (Sys2Proof.Machine.Ctr × Nat × Nat)) : (s.modCtr f).free = s.free := rfl
@[simp] theorem State.modCtr_pending (s : State) (f : List (Sys2Proof.Machine.Ctr × Nat × Nat) → List (Sys2Proof.Machine.Ctr × Nat × Nat)) : (s.modCtr f).pending = s.pending := rfl
@[simp] theorem State.modOut_tick (s : State) (f : Out → Out) : (s.modOut f).tick = s.tick := rfl
@[simp] theorem State.modOut_life (s : State) (f : Out → Out) : (s.modOut f).life = s.life := rfl
@[simp] theorem State.modOut_fns (s : State) (f : Out → Out) : (s.modOut f).fns = s.fns := rfl
@[simp] theorem State.modOut_q (s : State) (f : Out → Out) : (s.modOut f).q = s.q := rfl
@[simp] theorem State.modOut_str (s : State) (f : Out → Out) : (s.modOut f).str = s.str := rfl
@[simp] theorem State.modOut_obj (s : State) (f : Out → Out) : (s.modOut f).obj = s.obj := rfl
@[simp] theorem State.modOut_sch (s : State) (f : Out → Out) : (s.modOut f).sch = s.sch := rfl
@[simp] theorem State.modOut_hb (s : State) (f : Out → Out) : (s.modOut f).hb = s.hb := rfl
@[simp] theorem State.modOut_reg (s : State) (f : Out → Out) : (s.modOut f).reg = s.reg := rfl
@[simp] theorem State.modOut_eff (s : State) (f : Out → Out) : (s.modOut f).eff = s.eff := rfl
@[simp] theorem State.modOut_strm (s : State) (f : Out → Out) : (s.modOut f).strm = s.strm := rfl
@[simp] theorem State.modOut_xfer (s : State) (f : Out → Out) : (s.modOut f).xfer = s.xfer := rfl
@[simp] theorem State.modOut_qnt (s : State) (f : Out → Out) : (s.modOut f).qnt = s.qnt := rfl
@[simp] theorem State.modOut_arr (s : State) (f : Out → Out) : (s.modOut f).arr = s.arr := rfl
@[simp] theorem State.modOut_inf (s : State) (f : Out → Out) : (s.modOut f).inf = s.inf := rfl
@[simp] theorem State.modOut_idx (s : State) (f : Out → Out) : (s.modOut f).idx = s.idx := rfl
@[simp] theorem State.modOut_mrg (s : State) (f : Out → Out) : (s.modOut f).mrg = s.mrg := rfl
@[simp] theorem State.modOut_scn (s : State) (f : Out → Out) : (s.modOut f).scn = s.scn := rfl
@[simp] theorem State.modOut_fls (s : State) (f : Out → Out) : (s.modOut f).fls = s.fls := rfl
@[simp] theorem State.modOut_itg (s : State) (f : Out → Out) : (s.modOut f).itg = s.itg := rfl
@[simp] theorem State.modOut_cal (s : State) (f : Out → Out) : (s.modOut f).cal = s.cal := rfl
@[simp] theorem State.modOut_evt (s : State) (f : Out → Out) : (s.modOut f).evt = s.evt := rfl
@[simp] theorem State.modOut_pwr (s : State) (f : Out → Out) : (s.modOut f).pwr = s.pwr := rfl
@[simp] theorem State.modOut_fw (s : State) (f : Out → Out) : (s.modOut f).fw = s.fw := rfl
@[simp] theorem State.modOut_sec (s : State) (f : Out → Out) : (s.modOut f).sec = s.sec := rfl
@[simp] theorem State.modOut_lan (s : State) (f : Out → Out) : (s.modOut f).lan = s.lan := rfl
@[simp] theorem State.modOut_mgt (s : State) (f : Out → Out) : (s.modOut f).mgt = s.mgt := rfl
@[simp] theorem State.modOut_ctr (s : State) (f : Out → Out) : (s.modOut f).ctr = s.ctr := rfl
@[simp] theorem State.modOut_mirror (s : State) (f : Out → Out) : (s.modOut f).mirror = s.mirror := rfl
@[simp] theorem State.modOut_out (s : State) (f : Out → Out) : (s.modOut f).out = f s.out := rfl
@[simp] theorem State.modOut_free (s : State) (f : Out → Out) : (s.modOut f).free = s.free := rfl
@[simp] theorem State.modOut_pending (s : State) (f : Out → Out) : (s.modOut f).pending = s.pending := rfl

end Sys2Proof.Machine
end

