-- ==== Sys2Proof/Laws/Ops.lean ====
section
/-! SUPPORT. The shared operations: what each can do, said once. `Traced`, `Posted` and `Reported` name the parts of the state that an
operation may touch; every other part reads as before. -/

namespace Sys2Proof.Machine

open Sys2Proof

theorem Traced.rfl {s : State} : Traced s s := ⟨_, _, _, by rfl⟩
theorem Traced.trans {s t u : State} (h : Traced s t) (g : Traced t u) : Traced s u := by
  obtain ⟨_, _, _, rfl⟩ := h; obtain ⟨_, _, _, rfl⟩ := g; exact ⟨_, _, _, by rfl⟩
theorem Traced.tick {s t : State} (h : Traced s t) : t.tick = s.tick := by obtain ⟨_, _, _, rfl⟩ := h; rfl
theorem Traced.life {s t : State} (h : Traced s t) : t.life = s.life := by obtain ⟨_, _, _, rfl⟩ := h; rfl
theorem Traced.fns {s t : State} (h : Traced s t) : t.fns = s.fns := by obtain ⟨_, _, _, rfl⟩ := h; rfl
theorem Traced.q {s t : State} (h : Traced s t) : t.q = s.q := by obtain ⟨_, _, _, rfl⟩ := h; rfl
theorem Traced.str {s t : State} (h : Traced s t) : t.str = s.str := by obtain ⟨_, _, _, rfl⟩ := h; rfl
theorem Traced.obj {s t : State} (h : Traced s t) : t.obj = s.obj := by obtain ⟨_, _, _, rfl⟩ := h; rfl
theorem Traced.sch {s t : State} (h : Traced s t) : t.sch = s.sch := by obtain ⟨_, _, _, rfl⟩ := h; rfl
theorem Traced.hb {s t : State} (h : Traced s t) : t.hb = s.hb := by obtain ⟨_, _, _, rfl⟩ := h; rfl
theorem Traced.reg {s t : State} (h : Traced s t) : t.reg = s.reg := by obtain ⟨_, _, _, rfl⟩ := h; rfl
theorem Traced.eff {s t : State} (h : Traced s t) : t.eff = s.eff := by obtain ⟨_, _, _, rfl⟩ := h; rfl
theorem Traced.strm {s t : State} (h : Traced s t) : t.strm = s.strm := by obtain ⟨_, _, _, rfl⟩ := h; rfl
theorem Traced.xfer {s t : State} (h : Traced s t) : t.xfer = s.xfer := by obtain ⟨_, _, _, rfl⟩ := h; rfl
theorem Traced.qnt {s t : State} (h : Traced s t) : t.qnt = s.qnt := by obtain ⟨_, _, _, rfl⟩ := h; rfl
theorem Traced.arr {s t : State} (h : Traced s t) : t.arr = s.arr := by obtain ⟨_, _, _, rfl⟩ := h; rfl
theorem Traced.inf {s t : State} (h : Traced s t) : t.inf = s.inf := by obtain ⟨_, _, _, rfl⟩ := h; rfl
theorem Traced.idx {s t : State} (h : Traced s t) : t.idx = s.idx := by obtain ⟨_, _, _, rfl⟩ := h; rfl
theorem Traced.mrg {s t : State} (h : Traced s t) : t.mrg = s.mrg := by obtain ⟨_, _, _, rfl⟩ := h; rfl
theorem Traced.scn {s t : State} (h : Traced s t) : t.scn = s.scn := by obtain ⟨_, _, _, rfl⟩ := h; rfl
theorem Traced.fls {s t : State} (h : Traced s t) : t.fls = s.fls := by obtain ⟨_, _, _, rfl⟩ := h; rfl
theorem Traced.itg {s t : State} (h : Traced s t) : t.itg = s.itg := by obtain ⟨_, _, _, rfl⟩ := h; rfl
theorem Traced.cal {s t : State} (h : Traced s t) : t.cal = s.cal := by obtain ⟨_, _, _, rfl⟩ := h; rfl
theorem Traced.evt {s t : State} (h : Traced s t) : t.evt = s.evt := by obtain ⟨_, _, _, rfl⟩ := h; rfl
theorem Traced.pwr {s t : State} (h : Traced s t) : t.pwr = s.pwr := by obtain ⟨_, _, _, rfl⟩ := h; rfl
theorem Traced.fw {s t : State} (h : Traced s t) : t.fw = s.fw := by obtain ⟨_, _, _, rfl⟩ := h; rfl
theorem Traced.sec {s t : State} (h : Traced s t) : t.sec = s.sec := by obtain ⟨_, _, _, rfl⟩ := h; rfl
theorem Traced.mgt {s t : State} (h : Traced s t) : t.mgt = s.mgt := by obtain ⟨_, _, _, rfl⟩ := h; rfl
theorem Traced.mirror {s t : State} (h : Traced s t) : t.mirror = s.mirror := by obtain ⟨_, _, _, rfl⟩ := h; rfl
theorem Traced.out {s t : State} (h : Traced s t) : t.out = s.out := by obtain ⟨_, _, _, rfl⟩ := h; rfl
theorem Traced.pending {s t : State} (h : Traced s t) : t.pending = s.pending := by obtain ⟨_, _, _, rfl⟩ := h; rfl
theorem Raised.rfl {s : State} : Raised s s := ⟨_, _, _, _, by rfl⟩
theorem Raised.trans {s t u : State} (h : Raised s t) (g : Raised t u) : Raised s u := by
  obtain ⟨_, _, _, _, rfl⟩ := h; obtain ⟨_, _, _, _, rfl⟩ := g; exact ⟨_, _, _, _, by rfl⟩
theorem Raised.tick {s t : State} (h : Raised s t) : t.tick = s.tick := by obtain ⟨_, _, _, _, rfl⟩ := h; rfl
theorem Raised.life {s t : State} (h : Raised s t) : t.life = s.life := by obtain ⟨_, _, _, _, rfl⟩ := h; rfl
theorem Raised.fns {s t : State} (h : Raised s t) : t.fns = s.fns := by obtain ⟨_, _, _, _, rfl⟩ := h; rfl
theorem Raised.q {s t : State} (h : Raised s t) : t.q = s.q := by obtain ⟨_, _, _, _, rfl⟩ := h; rfl
theorem Raised.str {s t : State} (h : Raised s t) : t.str = s.str := by obtain ⟨_, _, _, _, rfl⟩ := h; rfl
theorem Raised.obj {s t : State} (h : Raised s t) : t.obj = s.obj := by obtain ⟨_, _, _, _, rfl⟩ := h; rfl
theorem Raised.sch {s t : State} (h : Raised s t) : t.sch = s.sch := by obtain ⟨_, _, _, _, rfl⟩ := h; rfl
theorem Raised.hb {s t : State} (h : Raised s t) : t.hb = s.hb := by obtain ⟨_, _, _, _, rfl⟩ := h; rfl
theorem Raised.reg {s t : State} (h : Raised s t) : t.reg = s.reg := by obtain ⟨_, _, _, _, rfl⟩ := h; rfl
theorem Raised.eff {s t : State} (h : Raised s t) : t.eff = s.eff := by obtain ⟨_, _, _, _, rfl⟩ := h; rfl
theorem Raised.strm {s t : State} (h : Raised s t) : t.strm = s.strm := by obtain ⟨_, _, _, _, rfl⟩ := h; rfl
theorem Raised.xfer {s t : State} (h : Raised s t) : t.xfer = s.xfer := by obtain ⟨_, _, _, _, rfl⟩ := h; rfl
theorem Raised.qnt {s t : State} (h : Raised s t) : t.qnt = s.qnt := by obtain ⟨_, _, _, _, rfl⟩ := h; rfl
theorem Raised.arr {s t : State} (h : Raised s t) : t.arr = s.arr := by obtain ⟨_, _, _, _, rfl⟩ := h; rfl
theorem Raised.inf {s t : State} (h : Raised s t) : t.inf = s.inf := by obtain ⟨_, _, _, _, rfl⟩ := h; rfl
theorem Raised.idx {s t : State} (h : Raised s t) : t.idx = s.idx := by obtain ⟨_, _, _, _, rfl⟩ := h; rfl
theorem Raised.mrg {s t : State} (h : Raised s t) : t.mrg = s.mrg := by obtain ⟨_, _, _, _, rfl⟩ := h; rfl
theorem Raised.scn {s t : State} (h : Raised s t) : t.scn = s.scn := by obtain ⟨_, _, _, _, rfl⟩ := h; rfl
theorem Raised.fls {s t : State} (h : Raised s t) : t.fls = s.fls := by obtain ⟨_, _, _, _, rfl⟩ := h; rfl
theorem Raised.itg {s t : State} (h : Raised s t) : t.itg = s.itg := by obtain ⟨_, _, _, _, rfl⟩ := h; rfl
theorem Raised.cal {s t : State} (h : Raised s t) : t.cal = s.cal := by obtain ⟨_, _, _, _, rfl⟩ := h; rfl
theorem Raised.pwr {s t : State} (h : Raised s t) : t.pwr = s.pwr := by obtain ⟨_, _, _, _, rfl⟩ := h; rfl
theorem Raised.fw {s t : State} (h : Raised s t) : t.fw = s.fw := by obtain ⟨_, _, _, _, rfl⟩ := h; rfl
theorem Raised.sec {s t : State} (h : Raised s t) : t.sec = s.sec := by obtain ⟨_, _, _, _, rfl⟩ := h; rfl
theorem Raised.mgt {s t : State} (h : Raised s t) : t.mgt = s.mgt := by obtain ⟨_, _, _, _, rfl⟩ := h; rfl
theorem Raised.mirror {s t : State} (h : Raised s t) : t.mirror = s.mirror := by obtain ⟨_, _, _, _, rfl⟩ := h; rfl
theorem Raised.out {s t : State} (h : Raised s t) : t.out = s.out := by obtain ⟨_, _, _, _, rfl⟩ := h; rfl
theorem Raised.pending {s t : State} (h : Raised s t) : t.pending = s.pending := by obtain ⟨_, _, _, _, rfl⟩ := h; rfl
theorem Posted.rfl {s : State} : Posted s s := ⟨_, _, _, _, _, _, _, by rfl⟩
theorem Posted.trans {s t u : State} (h : Posted s t) (g : Posted t u) : Posted s u := by
  obtain ⟨_, _, _, _, _, _, _, rfl⟩ := h; obtain ⟨_, _, _, _, _, _, _, rfl⟩ := g; exact ⟨_, _, _, _, _, _, _, by rfl⟩
theorem Posted.tick {s t : State} (h : Posted s t) : t.tick = s.tick := by obtain ⟨_, _, _, _, _, _, _, rfl⟩ := h; rfl
theorem Posted.life {s t : State} (h : Posted s t) : t.life = s.life := by obtain ⟨_, _, _, _, _, _, _, rfl⟩ := h; rfl
theorem Posted.str {s t : State} (h : Posted s t) : t.str = s.str := by obtain ⟨_, _, _, _, _, _, _, rfl⟩ := h; rfl
theorem Posted.obj {s t : State} (h : Posted s t) : t.obj = s.obj := by obtain ⟨_, _, _, _, _, _, _, rfl⟩ := h; rfl
theorem Posted.sch {s t : State} (h : Posted s t) : t.sch = s.sch := by obtain ⟨_, _, _, _, _, _, _, rfl⟩ := h; rfl
theorem Posted.reg {s t : State} (h : Posted s t) : t.reg = s.reg := by obtain ⟨_, _, _, _, _, _, _, rfl⟩ := h; rfl
theorem Posted.eff {s t : State} (h : Posted s t) : t.eff = s.eff := by obtain ⟨_, _, _, _, _, _, _, rfl⟩ := h; rfl
theorem Posted.strm {s t : State} (h : Posted s t) : t.strm = s.strm := by obtain ⟨_, _, _, _, _, _, _, rfl⟩ := h; rfl
theorem Posted.xfer {s t : State} (h : Posted s t) : t.xfer = s.xfer := by obtain ⟨_, _, _, _, _, _, _, rfl⟩ := h; rfl
theorem Posted.qnt {s t : State} (h : Posted s t) : t.qnt = s.qnt := by obtain ⟨_, _, _, _, _, _, _, rfl⟩ := h; rfl
theorem Posted.arr {s t : State} (h : Posted s t) : t.arr = s.arr := by obtain ⟨_, _, _, _, _, _, _, rfl⟩ := h; rfl
theorem Posted.inf {s t : State} (h : Posted s t) : t.inf = s.inf := by obtain ⟨_, _, _, _, _, _, _, rfl⟩ := h; rfl
theorem Posted.idx {s t : State} (h : Posted s t) : t.idx = s.idx := by obtain ⟨_, _, _, _, _, _, _, rfl⟩ := h; rfl
theorem Posted.mrg {s t : State} (h : Posted s t) : t.mrg = s.mrg := by obtain ⟨_, _, _, _, _, _, _, rfl⟩ := h; rfl
theorem Posted.scn {s t : State} (h : Posted s t) : t.scn = s.scn := by obtain ⟨_, _, _, _, _, _, _, rfl⟩ := h; rfl
theorem Posted.fls {s t : State} (h : Posted s t) : t.fls = s.fls := by obtain ⟨_, _, _, _, _, _, _, rfl⟩ := h; rfl
theorem Posted.itg {s t : State} (h : Posted s t) : t.itg = s.itg := by obtain ⟨_, _, _, _, _, _, _, rfl⟩ := h; rfl
theorem Posted.cal {s t : State} (h : Posted s t) : t.cal = s.cal := by obtain ⟨_, _, _, _, _, _, _, rfl⟩ := h; rfl
theorem Posted.evt {s t : State} (h : Posted s t) : t.evt = s.evt := by obtain ⟨_, _, _, _, _, _, _, rfl⟩ := h; rfl
theorem Posted.pwr {s t : State} (h : Posted s t) : t.pwr = s.pwr := by obtain ⟨_, _, _, _, _, _, _, rfl⟩ := h; rfl
theorem Posted.fw {s t : State} (h : Posted s t) : t.fw = s.fw := by obtain ⟨_, _, _, _, _, _, _, rfl⟩ := h; rfl
theorem Posted.sec {s t : State} (h : Posted s t) : t.sec = s.sec := by obtain ⟨_, _, _, _, _, _, _, rfl⟩ := h; rfl
theorem Posted.mgt {s t : State} (h : Posted s t) : t.mgt = s.mgt := by obtain ⟨_, _, _, _, _, _, _, rfl⟩ := h; rfl
theorem Posted.mirror {s t : State} (h : Posted s t) : t.mirror = s.mirror := by obtain ⟨_, _, _, _, _, _, _, rfl⟩ := h; rfl
theorem Posted.pending {s t : State} (h : Posted s t) : t.pending = s.pending := by obtain ⟨_, _, _, _, _, _, _, rfl⟩ := h; rfl
theorem Reported.rfl {s : State} : Reported s s := ⟨_, _, _, _, _, _, _, _, _, by rfl⟩
theorem Reported.trans {s t u : State} (h : Reported s t) (g : Reported t u) : Reported s u := by
  obtain ⟨_, _, _, _, _, _, _, _, _, rfl⟩ := h; obtain ⟨_, _, _, _, _, _, _, _, _, rfl⟩ := g; exact ⟨_, _, _, _, _, _, _, _, _, by rfl⟩
theorem Reported.tick {s t : State} (h : Reported s t) : t.tick = s.tick := by obtain ⟨_, _, _, _, _, _, _, _, _, rfl⟩ := h; rfl
theorem Reported.life {s t : State} (h : Reported s t) : t.life = s.life := by obtain ⟨_, _, _, _, _, _, _, _, _, rfl⟩ := h; rfl
theorem Reported.str {s t : State} (h : Reported s t) : t.str = s.str := by obtain ⟨_, _, _, _, _, _, _, _, _, rfl⟩ := h; rfl
theorem Reported.obj {s t : State} (h : Reported s t) : t.obj = s.obj := by obtain ⟨_, _, _, _, _, _, _, _, _, rfl⟩ := h; rfl
theorem Reported.sch {s t : State} (h : Reported s t) : t.sch = s.sch := by obtain ⟨_, _, _, _, _, _, _, _, _, rfl⟩ := h; rfl
theorem Reported.reg {s t : State} (h : Reported s t) : t.reg = s.reg := by obtain ⟨_, _, _, _, _, _, _, _, _, rfl⟩ := h; rfl
theorem Reported.eff {s t : State} (h : Reported s t) : t.eff = s.eff := by obtain ⟨_, _, _, _, _, _, _, _, _, rfl⟩ := h; rfl
theorem Reported.strm {s t : State} (h : Reported s t) : t.strm = s.strm := by obtain ⟨_, _, _, _, _, _, _, _, _, rfl⟩ := h; rfl
theorem Reported.xfer {s t : State} (h : Reported s t) : t.xfer = s.xfer := by obtain ⟨_, _, _, _, _, _, _, _, _, rfl⟩ := h; rfl
theorem Reported.qnt {s t : State} (h : Reported s t) : t.qnt = s.qnt := by obtain ⟨_, _, _, _, _, _, _, _, _, rfl⟩ := h; rfl
theorem Reported.arr {s t : State} (h : Reported s t) : t.arr = s.arr := by obtain ⟨_, _, _, _, _, _, _, _, _, rfl⟩ := h; rfl
theorem Reported.inf {s t : State} (h : Reported s t) : t.inf = s.inf := by obtain ⟨_, _, _, _, _, _, _, _, _, rfl⟩ := h; rfl
theorem Reported.idx {s t : State} (h : Reported s t) : t.idx = s.idx := by obtain ⟨_, _, _, _, _, _, _, _, _, rfl⟩ := h; rfl
theorem Reported.mrg {s t : State} (h : Reported s t) : t.mrg = s.mrg := by obtain ⟨_, _, _, _, _, _, _, _, _, rfl⟩ := h; rfl
theorem Reported.scn {s t : State} (h : Reported s t) : t.scn = s.scn := by obtain ⟨_, _, _, _, _, _, _, _, _, rfl⟩ := h; rfl
theorem Reported.fls {s t : State} (h : Reported s t) : t.fls = s.fls := by obtain ⟨_, _, _, _, _, _, _, _, _, rfl⟩ := h; rfl
theorem Reported.cal {s t : State} (h : Reported s t) : t.cal = s.cal := by obtain ⟨_, _, _, _, _, _, _, _, _, rfl⟩ := h; rfl
theorem Reported.pwr {s t : State} (h : Reported s t) : t.pwr = s.pwr := by obtain ⟨_, _, _, _, _, _, _, _, _, rfl⟩ := h; rfl
theorem Reported.fw {s t : State} (h : Reported s t) : t.fw = s.fw := by obtain ⟨_, _, _, _, _, _, _, _, _, rfl⟩ := h; rfl
theorem Reported.sec {s t : State} (h : Reported s t) : t.sec = s.sec := by obtain ⟨_, _, _, _, _, _, _, _, _, rfl⟩ := h; rfl
theorem Reported.mgt {s t : State} (h : Reported s t) : t.mgt = s.mgt := by obtain ⟨_, _, _, _, _, _, _, _, _, rfl⟩ := h; rfl
theorem Reported.mirror {s t : State} (h : Reported s t) : t.mirror = s.mirror := by obtain ⟨_, _, _, _, _, _, _, _, _, rfl⟩ := h; rfl
theorem Reported.pending {s t : State} (h : Reported s t) : t.pending = s.pending := by obtain ⟨_, _, _, _, _, _, _, _, _, rfl⟩ := h; rfl
theorem Traced.toRaised {s t : State} (h : Traced s t) : Raised s t := by
  obtain ⟨_, _, _, rfl⟩ := h; exact ⟨_, _, _, _, by rfl⟩
theorem Traced.toPosted {s t : State} (h : Traced s t) : Posted s t := by
  obtain ⟨_, _, _, rfl⟩ := h; exact ⟨_, _, _, _, _, _, _, by rfl⟩
theorem Posted.toReported {s t : State} (h : Posted s t) : Reported s t := by
  obtain ⟨_, _, _, _, _, _, _, rfl⟩ := h; exact ⟨_, _, _, _, _, _, _, _, _, by rfl⟩
theorem Raised.toReported {s t : State} (h : Raised s t) : Reported s t := by
  obtain ⟨_, _, _, _, rfl⟩ := h; exact ⟨_, _, _, _, _, _, _, _, _, by rfl⟩

theorem ctrSet_traced (c : Ctr) (i v : Nat) (s : State) : Traced s (ctrSet c i v s) := ⟨_, _, _, rfl⟩
theorem ctrAdd_traced (c : Ctr) (i n : Nat) (s : State) : Traced s (ctrAdd c i n s) := ⟨_, _, _, rfl⟩
theorem ctrPart_traced (c : Ctr) (d n : Nat) (s : State) : Traced s (ctrPart c d n s) := by
  unfold ctrPart; split
  · exact .rfl
  · exact ctrAdd_traced ..
theorem modLan_traced (f : Lan → Lan) (s : State) : Traced s (s.modLan f) := ⟨_, _, _, rfl⟩
theorem putPacket_traced (ty src : Nat) (p : List Byte) (s : State) : Traced s (putPacket ty src p s) := ⟨_, _, _, rfl⟩
theorem record_traced (src ty : Nat) (p : List Byte) (s : State) : Traced s (record src ty p s) := by
  unfold record; split
  · exact .rfl
  · split
    · exact ⟨_, _, _, rfl⟩
    · dsimp only; split
      · exact putPacket_traced ..
      · exact ((putPacket_traced ..).trans (modLan_traced ..)).trans ((ctrAdd_traced ..).trans (putPacket_traced ..))
theorem queuePacket_traced (k : Nat) (src : Src) (o a b d : Nat) (s : State) : Traced s (queuePacket k src o a b d s) :=
  record_traced ..
theorem eventPacket_traced (k g n : Nat) (s : State) : Traced s (eventPacket k g n s) := record_traced ..
theorem taskPacket_traced (k : Nat) (src : Src) (o d c a b n : Nat) (s : State) : Traced s (taskPacket k src o d c a b n s) :=
  record_traced ..
theorem switchPacket_traced (k a b c d n : Nat) (s : State) : Traced s (switchPacket k a b c d n s) := record_traced ..
theorem semPacket_traced (k a b c d : Nat) (s : State) : Traced s (semPacket k a b c d s) := record_traced ..
theorem streamPacket_traced (k a b c d e : Nat) (s : State) : Traced s (streamPacket k a b c d e s) := record_traced ..
theorem structurePacket_traced (k a b : Nat) (s : State) : Traced s (structurePacket k a b s) := record_traced ..


theorem modEvt_raised (f : Evt → Evt) (s : State) : Raised s (s.modEvt f) := ⟨_, _, _, _, rfl⟩
theorem setNew_raised (n : Nat) (s : State) : Raised s (setNew n s) := modEvt_raised ..
theorem raise_raised (n : Nat) (d : DWord) (s : State) : Raised s (raise n d s) := by
  unfold raise; split
  · exact .rfl
  · split
    · exact (modEvt_raised ..).trans (eventPacket_traced ..).toRaised
    · dsimp only; split
      · exact ((modEvt_raised ..).trans (eventPacket_traced ..).toRaised).trans (setNew_raised ..)
      · exact (modEvt_raised ..).trans (eventPacket_traced ..).toRaised
theorem raisePart_raised (d k : Nat) (w : DWord) (s : State) : Raised s (raisePart d k w s) := by
  unfold raisePart; split
  · exact .rfl
  · exact raise_raised ..
theorem lineUp_raised (n : Nat) (d : DWord) (s : State) : Raised s (lineUp n d s) := by
  unfold lineUp; split
  · exact .rfl
  · exact (raise_raised ..).trans (modEvt_raised ..)
theorem lineDown_raised (n : Nat) (s : State) : Raised s (lineDown n s) := modEvt_raised ..

theorem modQ_posted (f : Queues → Queues) (s : State) : Posted s (s.modQ f) := ⟨_, _, _, _, _, _, _, rfl⟩
theorem modOut_posted (f : Out → Out) (s : State) : Posted s (s.modOut f) := ⟨_, _, _, _, _, _, _, rfl⟩
theorem modFns_posted (f : List Func → List Func) (s : State) : Posted s (s.modFns f) := ⟨_, _, _, _, _, _, _, rfl⟩
theorem modHb_posted (f : Hb → Hb) (s : State) : Posted s (s.modHb f) := ⟨_, _, _, _, _, _, _, rfl⟩
theorem modFn_posted (n : Nat) (f : Func → Func) (s : State) : Posted s (modFn n f s) := modFns_posted ..
theorem modSq_posted (n q : Nat) (f : Sq → Sq) (s : State) : Posted s (modSq n q f s) := modQ_posted ..
theorem modCq_posted (n q : Nat) (f : Cq → Cq) (s : State) : Posted s (modCq n q f s) := modQ_posted ..
theorem begun_posted (src : Src) (o d : Nat) (s : State) : Posted s (begun src o d s) :=
  (modQ_posted ..).trans (queuePacket_traced ..).toPosted
theorem sendMsix_posted (f v : Nat) (s : State) : Posted s (sendMsix f v s) := by
  unfold sendMsix; split
  · exact .rfl
  · split
    · exact modOut_posted ..
    · exact modFn_posted ..
theorem postNow_posted (c : Completion) (s : State) : Posted s (postNow c s) := by
  unfold postNow; split
  · exact modQ_posted ..
  · split
    · exact modCq_posted ..
    · dsimp only; split
      · exact ((((modQ_posted ..).trans (queuePacket_traced ..).toPosted).trans (modOut_posted ..)).trans (modCq_posted ..)).trans
          (sendMsix_posted ..)
      · exact (((modQ_posted ..).trans (queuePacket_traced ..).toPosted).trans (modOut_posted ..)).trans (modCq_posted ..)
theorem post_posted (c : Completion) (s : State) : Posted s (post c s) := by
  unfold post; split
  · exact modHb_posted ..
  · exact postNow_posted ..
theorem ok_posted (src : Src) (a b : Nat) (s : State) : Posted s (ok src a b s) := post_posted ..
theorem status_posted (src : Src) (a b : Nat) (s : State) : Posted s (status src a b s) := post_posted ..
theorem refuse_posted (src : Src) (f : Fail) (s : State) : Posted s (refuse src f s) := post_posted ..
theorem aenPump_posted (s : State) : Posted s (aenPump s) := by
  unfold aenPump; split
  · exact .rfl
  · split
    · exact .rfl
    · exact (modQ_posted ..).trans (ok_posted ..)
theorem aen_posted (f ty i p : Nat) (s : State) : Posted s (aen f ty i p s) := by
  unfold aen; split
  · exact .rfl
  · exact (modQ_posted ..).trans (aenPump_posted ..)
theorem vendorNotice_posted (f p : Nat) (s : State) : Posted s (vendorNotice f p s) := by
  unfold vendorNotice; split
  · exact .rfl
  · split
    · exact aen_posted ..
    · exact .rfl

theorem modItg_reported (f : Itg → Itg) (s : State) : Reported s (s.modItg f) := ⟨_, _, _, _, _, _, _, _, _, rfl⟩
theorem logCmp_reported (e : CmpEntry) (s : State) : Reported s (logCmp e s) :=
  (modItg_reported ..).trans (vendorNotice_posted ..).toReported
theorem failMilris_reported (src : Src) (o d t : Nat) (f : Fail) (s : State) : Reported s (failMilris src o d t f s) := by
  unfold failMilris; dsimp only; split
  · exact (((logCmp_reported ..).trans (queuePacket_traced ..).toPosted.toReported).trans (modSq_posted ..).toReported).trans
      (post_posted ..).toReported
  · exact ((logCmp_reported ..).trans (modSq_posted ..).toReported).trans (post_posted ..).toReported
theorem ringAdd_reported (e : DevEntry) (s : State) : Reported s (ringAdd e s) := by
  unfold ringAdd; split
  · exact ((modItg_reported ..).trans (ctrAdd_traced ..).toPosted.toReported).trans (vendorNotice_posted ..).toReported
  · split
    · exact ((modItg_reported ..).trans (ctrAdd_traced ..).toPosted.toReported).trans (vendorNotice_posted ..).toReported
    · dsimp only; split
      · exact modItg_reported ..
      · exact (modItg_reported ..).trans (raise_raised ..).toReported
theorem reportUnc_reported (e : DevEntry) (s : State) : Reported s (reportUnc e s) := ringAdd_reported ..
theorem reportAt_reported (e : DevEntry) (s : State) : Reported s (reportAt e s) := by
  unfold reportAt; dsimp only; split
  · exact modItg_reported ..
  · split <;> exact modItg_reported ..
theorem reportCor_reported (k i c : Nat) (s : State) : Reported s (reportCor k i c s) := reportAt_reported ..

/-- A trace leaves the port's settings: what is enabled, the mask, what waits, the attachment and whether packets are formed. -/
theorem putPacket_port (ty src : Nat) (p : List Byte) (s : State) :
    (putPacket ty src p s).lan.enabled = s.lan.enabled ∧ (putPacket ty src p s).lan.mask = s.lan.mask ∧
    (putPacket ty src p s).lan.pending = s.lan.pending ∧ (putPacket ty src p s).lan.lpres = s.lan.lpres ∧
    (putPacket ty src p s).lan.active = s.lan.active := ⟨rfl, rfl, rfl, rfl, rfl⟩
theorem record_port (src ty : Nat) (p : List Byte) (s : State) :
    (record src ty p s).lan.enabled = s.lan.enabled ∧ (record src ty p s).lan.mask = s.lan.mask ∧
    (record src ty p s).lan.pending = s.lan.pending ∧ (record src ty p s).lan.lpres = s.lan.lpres ∧
    (record src ty p s).lan.active = s.lan.active := by
  unfold record; split
  · exact ⟨rfl, rfl, rfl, rfl, rfl⟩
  · split
    · exact ⟨rfl, rfl, rfl, rfl, rfl⟩
    · split <;> exact ⟨rfl, rfl, rfl, rfl, rfl⟩

/-! ### What a command reads once its entry is taken -/

@[simp] theorem begun_lan_mask (src : Src) (o d : Nat) (s : State) : (begun src o d s).lan.mask = s.lan.mask := (record_port ..).2.1
@[simp] theorem begun_lan_pending (src : Src) (o d : Nat) (s : State) : (begun src o d s).lan.pending = s.lan.pending :=
  (record_port ..).2.2.1


@[simp] theorem begun_tick (src : Src) (o d : Nat) (s : State) : (begun src o d s).tick = s.tick :=
  (queuePacket_traced ..).tick
@[simp] theorem begun_life (src : Src) (o d : Nat) (s : State) : (begun src o d s).life = s.life :=
  (queuePacket_traced ..).life
@[simp] theorem begun_fns (src : Src) (o d : Nat) (s : State) : (begun src o d s).fns = s.fns :=
  (queuePacket_traced ..).fns
@[simp] theorem begun_str (src : Src) (o d : Nat) (s : State) : (begun src o d s).str = s.str :=
  (queuePacket_traced ..).str
@[simp] theorem begun_obj (src : Src) (o d : Nat) (s : State) : (begun src o d s).obj = s.obj :=
  (queuePacket_traced ..).obj
@[simp] theorem begun_sch (src : Src) (o d : Nat) (s : State) : (begun src o d s).sch = s.sch :=
  (queuePacket_traced ..).sch
@[simp] theorem begun_hb (src : Src) (o d : Nat) (s : State) : (begun src o d s).hb = s.hb :=
  (queuePacket_traced ..).hb
@[simp] theorem begun_reg (src : Src) (o d : Nat) (s : State) : (begun src o d s).reg = s.reg :=
  (queuePacket_traced ..).reg
@[simp] theorem begun_eff (src : Src) (o d : Nat) (s : State) : (begun src o d s).eff = s.eff :=
  (queuePacket_traced ..).eff
@[simp] theorem begun_strm (src : Src) (o d : Nat) (s : State) : (begun src o d s).strm = s.strm :=
  (queuePacket_traced ..).strm
@[simp] theorem begun_xfer (src : Src) (o d : Nat) (s : State) : (begun src o d s).xfer = s.xfer :=
  (queuePacket_traced ..).xfer
@[simp] theorem begun_qnt (src : Src) (o d : Nat) (s : State) : (begun src o d s).qnt = s.qnt :=
  (queuePacket_traced ..).qnt
@[simp] theorem begun_arr (src : Src) (o d : Nat) (s : State) : (begun src o d s).arr = s.arr :=
  (queuePacket_traced ..).arr
@[simp] theorem begun_inf (src : Src) (o d : Nat) (s : State) : (begun src o d s).inf = s.inf :=
  (queuePacket_traced ..).inf
@[simp] theorem begun_idx (src : Src) (o d : Nat) (s : State) : (begun src o d s).idx = s.idx :=
  (queuePacket_traced ..).idx
@[simp] theorem begun_mrg (src : Src) (o d : Nat) (s : State) : (begun src o d s).mrg = s.mrg :=
  (queuePacket_traced ..).mrg
@[simp] theorem begun_scn (src : Src) (o d : Nat) (s : State) : (begun src o d s).scn = s.scn :=
  (queuePacket_traced ..).scn
@[simp] theorem begun_fls (src : Src) (o d : Nat) (s : State) : (begun src o d s).fls = s.fls :=
  (queuePacket_traced ..).fls
@[simp] theorem begun_itg (src : Src) (o d : Nat) (s : State) : (begun src o d s).itg = s.itg :=
  (queuePacket_traced ..).itg
@[simp] theorem begun_cal (src : Src) (o d : Nat) (s : State) : (begun src o d s).cal = s.cal :=
  (queuePacket_traced ..).cal
@[simp] theorem begun_evt (src : Src) (o d : Nat) (s : State) : (begun src o d s).evt = s.evt :=
  (queuePacket_traced ..).evt
@[simp] theorem begun_pwr (src : Src) (o d : Nat) (s : State) : (begun src o d s).pwr = s.pwr :=
  (queuePacket_traced ..).pwr
@[simp] theorem begun_fw (src : Src) (o d : Nat) (s : State) : (begun src o d s).fw = s.fw :=
  (queuePacket_traced ..).fw
@[simp] theorem begun_sec (src : Src) (o d : Nat) (s : State) : (begun src o d s).sec = s.sec :=
  (queuePacket_traced ..).sec
@[simp] theorem begun_mgt (src : Src) (o d : Nat) (s : State) : (begun src o d s).mgt = s.mgt :=
  (queuePacket_traced ..).mgt
@[simp] theorem begun_mirror (src : Src) (o d : Nat) (s : State) : (begun src o d s).mirror = s.mirror :=
  (queuePacket_traced ..).mirror
@[simp] theorem begun_out (src : Src) (o d : Nat) (s : State) : (begun src o d s).out = s.out :=
  (queuePacket_traced ..).out
@[simp] theorem begun_pending (src : Src) (o d : Nat) (s : State) : (begun src o d s).pending = s.pending :=
  (queuePacket_traced ..).pending
@[simp] theorem begun_q (src : Src) (o d : Nat) (s : State) : (begun src o d s).q =
    { s.q with fetched := s.q.fetched.erase (src.fn, src.sq), begun := s.q.begun ++ [(src, o, d)] } := (queuePacket_traced ..).q

@[simp] theorem begun_obj? (src : Src) (o d id : Nat) (s : State) : (begun src o d s).obj? id = s.obj? id := by simp [State.obj?]
@[simp] theorem begun_dome? (src : Src) (o d n : Nat) (s : State) : (begun src o d s).dome? n = s.dome? n := by simp [State.dome?]
@[simp] theorem begun_path (src : Src) (o d n : Nat) (s : State) : (begun src o d s).path n = s.path n := by simp [State.path]
@[simp] theorem begun_part (src : Src) (o d n : Nat) (s : State) : (begun src o d s).part n = s.part n := by simp [State.part]
@[simp] theorem begun_under (src : Src) (o d n m : Nat) (s : State) : (begun src o d s).under n m = s.under n m := by simp [State.under]
@[simp] theorem begun_sq? (src : Src) (o d f n : Nat) (s : State) : (begun src o d s).sq? f n = s.sq? f n := by simp [State.sq?]
@[simp] theorem begun_cq? (src : Src) (o d f n : Nat) (s : State) : (begun src o d s).cq? f n = s.cq? f n := by simp [State.cq?]
@[simp] theorem begun_fn? (src : Src) (o d f : Nat) (s : State) : (begun src o d s).fn? f = s.fn? f := by simp [State.fn?]
@[simp] theorem begun_key? (src : Src) (o d n : Nat) (s : State) : (begun src o d s).key? n = s.key? n := by simp [State.key?]
@[simp] theorem begun_granted (src : Src) (o d n : Nat) (s : State) : (begun src o d s).granted n = s.granted n := by simp [State.granted]
@[simp] theorem begun_hostCmds (src : Src) (o d : Nat) (s : State) : (begun src o d s).hostCmds = s.hostCmds := by simp [State.hostCmds]
@[simp] theorem begun_elsewhere (src : Src) (o d id p : Nat) (s : State) : (begun src o d s).elsewhere id p = s.elsewhere id p := by
  simp [State.elsewhere, State.durable?]
@[simp] theorem begun_readOnly (src : Src) (o d : Nat) (s : State) : (begun src o d s).readOnly = s.readOnly := by simp [State.readOnly]
@[simp] theorem begun_boundTo (src : Src) (o d f : Nat) (s : State) : (begun src o d s).boundTo f = s.boundTo f := by simp [State.boundTo]
@[simp] theorem begun_mayAddress (src : Src) (o d f n : Nat) (s : State) : (begun src o d s).mayAddress f n = s.mayAddress f n := by
  simp [State.mayAddress]
@[simp] theorem begun_milrisOn (src : Src) (o d f : Nat) (s : State) : (begun src o d s).milrisOn f = s.milrisOn f := by
  simp [State.milrisOn]
@[simp] theorem begun_sanitizing (src : Src) (o d : Nat) (s : State) : (begun src o d s).sanitizing = s.sanitizing := by
  simp [State.sanitizing]
@[simp] theorem begun_outputFail (src : Src) (o d : Nat) (e : Entry) (s : State) : outputFail e (begun src o d s) = outputFail e s := by
  simp [outputFail]
@[simp] theorem begun_commonFail (src : Src) (o d : Nat) (sh : Shape) (e : Entry) (s : State) :
    commonFail sh e (begun src o d s) = commonFail sh e s := by
  simp [commonFail]

@[simp] theorem begun_live? (src : Src) (o d id : Nat) (s : State) : (begun src o d s).live? id = s.live? id := by simp [State.live?]
@[simp] theorem begun_contents (src : Src) (o d : Nat) (s : State) : (begun src o d s).contents = s.contents := by
  funext x; simp [State.contents]
@[simp] theorem begun_vocab? (src : Src) (o d id : Nat) (s : State) : (begun src o d s).vocab? id = s.vocab? id := by
  simp [State.vocab?]
@[simp] theorem begun_answers (src : Src) (o d : Nat) (s : State) : (begun src o d s).answers = s.answers := by simp [State.answers]
@[simp] theorem begun_named (src : Src) (o d id : Nat) (s : State) : (begun src o d s).named id = s.named id := by simp [State.named]

/-- A BAR2 access in a range starts in it. -/
theorem bar2_range {s : State} {w : RegWrite} {lo hi : Nat} (h : s.bar2 w lo hi = true) : w.bar = 2 ∧ lo ≤ w.offset ∧ w.offset < hi := by
  simp [State.bar2] at h; omega

/-- An answer is in order exactly when it is a state. -/
theorem isOk_iff {α β : Type} {r : Except α β} : r.isOk = true ↔ ∃ t, r = .ok t := by
  cases r <;> simp [Except.isOk, Except.toBool]

/-- A Milris command that is executed answers what its own part answers. -/
theorem runMilris_ok {sh : Shape} {e : Entry} {own : State → Except Fail State} {s t : State} (h : milrisRuns sh e s = true)
    (g : own (begun e.src sh.opcode (Fe.dome e) s) = .ok t) : runMilris sh e own s = .next t := by
  simp [milrisRuns] at h
  simp [runMilris, taken, h, g]

/-- A Milris command whose own part fails completes with that failure. -/
theorem runMilris_error {sh : Shape} {e : Entry} {own : State → Except Fail State} {s : State} {f : Fail}
    (h : milrisRuns sh e s = true) (g : own (begun e.src sh.opcode (Fe.dome e) s) = .error f) :
    runMilris sh e own s =
      .next (failMilris e.src sh.opcode (Fe.dome e) (Fe.tenant e) f (begun e.src sh.opcode (Fe.dome e) s)) := by
  simp [milrisRuns] at h
  simp [runMilris, taken, h, g]

/-- An admin command that is executed answers what its own part answers. -/
theorem runAdmin_ok {op : Nat} {src : Src} {qq : Bool} {own : State → Except Fail State} {s t : State} (h : adminRuns src qq s = true)
    (g : own (begun src op 0xFFFF s) = .ok t) : runAdmin op src qq own s = .next t := by
  simp [adminRuns] at h
  simp [runAdmin, taken, h, g]
  cases qq <;> simp_all

/-- An admin command whose own part fails completes with that status. -/
theorem runAdmin_error {op : Nat} {src : Src} {qq : Bool} {own : State → Except Fail State} {s : State} {f : Fail}
    (h : adminRuns src qq s = true) (g : own (begun src op 0xFFFF s) = .error f) :
    runAdmin op src qq own s = .next (refuse src f (begun src op 0xFFFF s)) := by
  simp [adminRuns] at h
  simp [runAdmin, taken, h, g]
  cases qq <;> simp_all

/-- An NVM command that is executed answers what its own part answers. -/
theorem runNvm_ok {op : Nat} {n : Nvm} {own : State → Except Fail State} {s t : State} (h : nvmRuns n.src s = true)
    (g : own (begun n.src op 0xFFFF s) = .ok t) : runNvm op n own s = .next t := by
  simp [nvmRuns] at h
  simp [runNvm, taken, h, g]

/-- An NVM command whose own part fails completes with that status. -/
theorem runNvm_error {op : Nat} {n : Nvm} {own : State → Except Fail State} {s : State} {f : Fail} (h : nvmRuns n.src s = true)
    (g : own (begun n.src op 0xFFFF s) = .error f) : runNvm op n own s = .next (refuse n.src f (begun n.src op 0xFFFF s)) := by
  simp [nvmRuns] at h
  simp [runNvm, taken, h, g]

/-- An operator's event works its operator out in the state in which it finds it. -/
theorem onOperator_eq {t : TaskRef} {op : Nat} {codes : List Nat} {f : OpCtx → Run → Tensor → Tensor → State → State} {s s1 : State}
    {k : OpCtx} {r : Run} {x z : Tensor} (h : s.atOperator t op codes = some (k, r, x, z, s1)) :
    onOperator t op codes f s = f k r x z s1 := by
  unfold State.atOperator at h
  unfold onOperator
  generalize ((s.flight? t).bind fun g => g.1.plan.bind fun p => (p.ops[op]?).map fun o => (g, o)) = m at h ⊢
  match m, h with
  | some ((_, q, r0), o), h =>
    dsimp only at h ⊢
    by_cases b : (!codes.contains o.code || r0.wait != .none || op < q.task.firstOp + r0.ops || op ≥ q.task.firstOp + q.task.ops) = true
    · rw [if_pos b] at h; cases h
    rw [if_neg b] at h ⊢
    generalize (advance t op s).opAt t = n at h ⊢
    match n, h with
    | some (k1, r1), h =>
      dsimp only at h ⊢
      generalize k1.tensor k1.o.in0 = a at h ⊢
      generalize k1.tensor k1.o.out = d at h ⊢
      match a, d, h with
      | some a, some d, h =>
        dsimp only at h ⊢
        by_cases g : k1.op ≠ op
        · rw [if_pos g] at h; cases h
        rw [if_neg g] at h ⊢
        cases u : (((advance t op s).opRanges k1.c k1.plan k1.o).find? fun g => (advance t op s).undeclared k1.h g.1 g.2.1 g.2.2) with
        | some g => rw [u] at h; cases h
        | none =>
          rw [u] at h
          cases h
          rfl
      | some _, none, h => cases h
      | none, _, h => cases h

/-- A row of an operator that goes row by row, not yet done, is worked out and counts as done. -/
theorem onRow_eq {t : TaskRef} {op row : Nat} {codes : List Nat} {f : OpCtx → Run → Tensor → Tensor → State → State} {s s1 : State}
    {k : OpCtx} {r : Run} {x z : Tensor} (h : s.atOperator t op codes = some (k, r, x, z, s1)) (h1 : row < x.rows)
    (h2 : r.rows.contains row = false) : onRow t op row codes f s = rowDone t row x.rows (f k r x z s1) := by
  unfold onRow
  rw [onOperator_eq h]
  simp only [h2, ge_iff_le, Nat.not_le.mpr h1, decide_false, Bool.or_false, Bool.false_eq_true, if_false]

end Sys2Proof.Machine
end

