-- ==== Sys2Proof/Laws/Security.lean ====
section
/-! SUPPORT. What an SPDM request and a vendor message answer when they act. -/

namespace Sys2Proof.Machine

open Sys2Proof

/-- An SPDM request that acts answers what its own part answers. -/
theorem spdm_runs {code : Nat} {d : DoeReq} {own : State → State} {s : State} (h : spdmRuns code d s = true) :
    spdm code d own s = .next (own s) := by
  simp only [spdmRuns, Bool.and_eq_true, beq_iff_eq, Bool.not_eq_true'] at h
  simp [spdm, h]

/-- A vendor message that acts answers what its own part answers. -/
theorem vendorMessage_runs {op : Nat → Bool} {d : DoeReq} {own : State → State} {s : State} (h : vendorRuns d s = true)
    (g : op (vendorOp d) = true) : vendorMessage d op own s = .next (own s) := by
  simp only [vendorRuns, Bool.and_eq_true, beq_iff_eq] at h
  simp only [vendorMessage, g, Bool.not_true, Bool.false_eq_true, if_false]
  rw [spdm_runs h.1.1.1.1]
  simp [h]

end Sys2Proof.Machine
end

