-- ==== Sys2Proof/Tests/Slice0.lean ====
section
/-! SUPPORT. The model's own tests: small states and witnesses (each statement with hypotheses has states and operands that meet them all),
ill-formed terms that the checks refuse, worked examples of the spec, and single steps. -/

namespace Sys2Proof.Tests

open Sys2Proof Sys2Proof.Machine

set_option Elab.async false

/-- The state that an answer goes on to. -/
def nexted (a : Ans) : Option State := match a with
  | .next t => some t
  | _ => none

/-! ### Small states -/

/-- A module with its controller up, two queues and one dome of two clusters (02 R31, 04 R109). -/
def base : State :=
  let f : Func := { id := 0, busMaster := true, memSpace := true, cc := 0x460061, rdy := true, aqa := 0x001F001F }
  { State.reset with
    life := { State.reset.life with phase := .up, cfgReady := true, fwSet := true }
    fns := [f]
    q := { sqs := [{ id := 0, fn := 0, size := 32, cq := 0, tail := 20 }, { id := 1, fn := 0, size := 64, cq := 1, tail := 40 }],
           cqs := [{ id := 0, fn := 0, size := 32 }, { id := 1, fn := 0, size := 64 }],
           fetched := [(0, 0), (0, 1)] }
    hb := { neg := 0xFFF, armed := true, epoch := 1 }
    str := { domes := [{ id := 0x11, parent := 0, clusters := [0, 1] }], slots := [0x11] }
    sec := { State.reset.sec with keys := [{ tenant := 0x2A7, part := 0x11, key := 5 }] } }

/-- An entry for dome 0x011 with tenant context 0x2A7 (04 Table 4-2). -/
def entry (op : Nat) : Entry :=
  { src := ⟨0, 1, 2⟩, dw0 := BitVec.ofNat 32 (op + 2 * 65536), nsid := 257, dw2 := 0x02A70011, dw3 := 0, output := 0, inLen := 0,
    outLen := 0, dw12 := 66, dw13 := 0, dw14 := 0, dw15 := 0, input := [] }

/-- An admin entry with nothing in it. -/
def admin : Admin :=
  { src := ⟨0, 0, 1⟩, nsid := 0, cdw10 := 0, cdw11 := 0, cdw12 := 0, cdw13 := 0, cdw14 := 0, cdw15 := 0, dptr := 0, input := [] }

/-- An object of 8 bytes in T1 (05 Table 5-3). -/
def object : Obj := { id := 66, part := 0x11, dome := 0x11, tenant := 0x2A7, size := 8, flags := 2 }

/-- A state with that object. -/
def withObject (s : State) : State := s.modObj fun o => { o with list := [object], charges := [⟨.object 66, 1, 0x11, 8⟩] }

/-- A PLACE of 8 bytes in T1. -/
def placeEntry : Entry := { entry 0x81 with dw13 := 0x00020000, dw14 := 8 }

/-- A state in quiesce (03 R99). -/
def quiet (s : State) : State := s.modHb fun h => { h with quiesced := true, qEpoch := 1 }

/-- A Wiram image of one partition 0x011 with clusters 0 and 1 and quotas, written out from 02 R37 to R45; the CRC field is the argument. -/
def imageWith (crc : BitVec 32) : List Byte :=
  toLE 4 0x4D495257 ++ toLE 2 1 ++ [0, 0] ++ toLE 4 168 ++ toLE 2 3 ++ toLE 2 0 ++ toLE 4 0 ++ toLE 4 1 ++ toLE 4 crc.toNat ++
  List.replicate 36 0 ++
  (toLE 2 1 ++ toLE 2 1 ++ toLE 4 112 ++ toLE 4 16 ++ toLE 4 1) ++
  (toLE 2 2 ++ toLE 2 1 ++ toLE 4 128 ++ toLE 4 4 ++ toLE 4 2) ++
  (toLE 2 5 ++ toLE 2 1 ++ toLE 4 136 ++ toLE 4 32 ++ toLE 4 1) ++
  (toLE 2 0x11 ++ toLE 2 0 ++ toLE 2 0 ++ toLE 2 2 ++ toLE 4 0 ++ toLE 4 0) ++
  (toLE 2 0 ++ toLE 2 1 ++ [0, 0, 0, 0]) ++
  (toLE 2 0x11 ++ List.replicate 6 0 ++ toLE 8 1073741824 ++ toLE 8 0 ++ toLE 8 0)

/-- The image with its CRC-32C (02 R37). -/
def image : List Byte := imageWith (crc32c (imageWith 0))

/-- What it holds, parsed. -/
def parsed : Image := parseImage image

/-- A command of RUN PLAN with one task that is ready. -/
def command : Cmd :=
  { src := ⟨0, 1, 2⟩, opcode := 0x85, dome := 0x11, tenant := 0x2A7, objs := [], chains := [{ tasks := [{ worst := 20, t0 := 4096 }] }] }

/-- A task of it, the first of chain 0. -/
def task : TaskRef := ⟨⟨0, 1, 2⟩, 0⟩

/-- A state with that command and its band ON. -/
def ready : State := modDomain 0 (fun d => { d with state := .on }) (base.modSch fun k => { k with cmds := [command] })

/-- The same with its task in flight on cluster 0. -/
def flying : State := modChain task (fun h => { h with run := some { cluster := 0, start := 0 } }) ready

/-- A partition 0x011 whose slice table has two entries: 0x011 itself, then nothing that lies under it. -/
def sliced : State :=
  (ready.modStr fun x => { x with slices := [{ part := 0x11, period := 8, entries := [⟨4, [0x11]⟩, ⟨4, []⟩] }] }).modSch fun k =>
    { k with cmds := [], ptrs := [{ part := 0x11, left := 1, fresh := false, lead := 20 }] }

/-- A semaphore held by a suspended command of dome 0x012, for which a task of dome 0x013 waits. -/
def lenderSem : Sem :=
  { id := 1, dome := none, count := 0, maximum := 1, domes := [0x12, 0x13], held := [(⟨0, 1, 2⟩, 1)], waiters := [⟨⟨0, 1, 3⟩, 0⟩],
    suspended := some ⟨0, 1, 2⟩ }

/-- A partition with domes 0x012 on cluster 0 and 0x013 on cluster 1, of which 0x013 is eligible, and that semaphore. -/
def lender : State :=
  (ready.modStr fun x =>
    { x with domes := x.domes ++ [{ id := 0x12, parent := 0x11, clusters := [0] }, { id := 0x13, parent := 0x11, clusters := [1] }],
             slices := [{ part := 0x11, period := 8, entries := [⟨4, [0x13]⟩, ⟨4, [0x12]⟩] }] }).modSch fun k =>
    { k with cmds := [{ command with dome := 0x12, suspended := true },
                      { command with src := ⟨0, 1, 3⟩, dome := 0x13,
                                     chains := [{ tasks := [{ worst := 20, t0 := 4096 }],
                                                  run := some { cluster := 1, start := 0, wait := .semaphore 1 } }] }],
             ptrs := [{ part := 0x11, left := 3, fresh := false }], sems := [lenderSem] }

/-- A block namespace of 100 blocks of 4,096 bytes, attached to function 0, and a block read or write of its block 0. -/
def space : Ns := { nsid := 1, size := 100, fmt := 0, attached := [0], key := 1 }

/-- A state with that namespace. -/
def spaced : State := base.modFls fun x => { x with nss := [space] }

/-- A command on its block 0. -/
def nvm : Nvm := { src := ⟨0, 1, 7⟩, nsid := 1, slba := 0, nlb := 0, cdw10 := 0, cdw11 := 4, dptr := 0x10000, input := [] }

/-- Sixty-four blocks, one on each channel. -/
def members : List Nat := (List.range 64).map fun c => c * 87360

/-- A state with an open group of them, the extent 0 of the namespace COARSE in it, and its cached units dirty. -/
def striped : State := formGroup members .host false (spaced.modFls fun x => { x with extents := [{ key := (1, 0), map := .coarse 0 0 }] })

/-- That group closed, with one extent in it. -/
def closedGroup : State :=
  members.foldl (fun s b => modBlock b (fun x => { x with state := .closed }) s)
    (striped.modFls fun x => { x with groups := x.groups.map fun g => { g with open_ := false, used := 4096 } })

/-- A program of unit 5 of extent 0. -/
def oneUnit : Prog := { key := (1, 0), coarse := false, at_ := 0, units := [5], cached := true }

/-- An open group that programs it. -/
def programming : State :=
  (formGroup members .host true spaced).modFls fun x => { x with groups := x.groups.map fun g => { g with used := 1, programming := [oneUnit] } }

/-- A read of block 0 of the namespace, under way at page 0 of block 0. -/
def reading : State :=
  closedGroup.modFls fun x => { x with reads := [{ src := ⟨0, 1, 7⟩, nsid := 1, first := 0, count := 1, addr := 0, verify := false, waits := [(0, 0)] }] }

/-- Block 3 being erased. -/
def erasing : State :=
  modDie 0 (fun d => { d with busy := some { block := 3, erase := true } }) (modBlock 3 (fun b => { b with state := .erasing }) base)

/-- Unit 5 of extent 0 in the write cache. -/
def dirtied : State := spaced.modFls fun x => { x with dirty := [(1, 5)] }

/-- The closed group where FREE blocks run short, and where its first block is queued for refresh. -/
def scarce : State := closedGroup.modFls fun x => { x with free := 20000 }
def queued : State := closedGroup.modFls fun x => { x with refreshQ := [0] }

/-- Sixty-four other blocks, one on each channel. -/
def others : List Nat := members.map (· + 1)

/-- An activation of slot 2 that has come to a core, one tick later. -/
def activating (c : SwapCore) : State := { base.modFw fun f => { f with activation := some (2, c, false, none) } with tick := 1 }

/-- The SPDM conversation at a stage, with one established session. -/
def secured (n : Nat) : State :=
  (base.modLife fun l => { l with cfgReady := true }).modSec fun x => { x with spdm := n, sessions := [(5, true)] }

/-- A vendor message in that session (18 Table 18-3). -/
def vendorReq (op : Byte) (body : List Byte) : DoeReq :=
  { session := some 5, payload := [0x13, 0xFE, 0, 0, 3, 0, 2] ++ toLE 2 Config.vendorId ++ [0, 0, op] ++ body }

/-- It carries the Vendor ID of the function, whatever that is. -/
theorem vendorReq_runs (op : Byte) (body : List Byte) : vendorRuns (vendorReq op body) (secured 3) = true := by
  have h : le (vendorReq op body).payload 7 2 = Config.vendorId % 65536 := by
    simp [vendorReq, toLE, le, ofLE, slice]; omega
  simp only [vendorRuns, h, Bool.and_eq_true, beq_self_eq_true, and_true]
  exact ⟨⟨⟨rfl, rfl⟩, rfl⟩, rfl⟩

/-- Operands of a product of one row with one lane over 32 elements, all in the plan's scratch: K8U codes row-dynamic, K4U weights in
groups, a binary32 result. -/
def operandX : Tensor := { object := 0, codes := 0, scales := 64, rows := 1, len := 32, qword := 0x16, cls := 2 }
def operandY : Tensor := { object := 0, codes := 128, scales := 192, rows := 1, len := 32, qword := 0x02, cls := 0 }
def operandZ : Tensor := { object := 0, codes := 256, scales := 0, rows := 1, len := 32, qword := 0x01, cls := 6 }
def matmul : Operator := { code := 0x01, apw := 0, in0 := 0, in1 := 1, in2 := 0xFFFFFFFF, out := 2, params := 0 }
def plan : Plan := { object := 66, minClusters := 1, minT1 := 0, tasks := [], ops := [matmul], tensors := [operandX, operandY, operandZ] }

/-- The task of one operator in flight, its command, and a state with it. -/
def plannedChain : Chain := { tasks := [{ worst := 20, t0 := 4096, firstOp := 0, ops := 1 }], run := some { cluster := 0, start := 0 } }
def planned : Cmd := { command with plan := some plan, chains := [plannedChain] }
def computing : State := ready.modSch fun k => { k with cmds := [planned] }

/-- A quantising operator from the binary32 tensor to the K8U one, likewise. -/
def quantOp : Operator := { code := 0x0B, apw := 0, in0 := 0, in1 := 0xFFFFFFFF, in2 := 0xFFFFFFFF, out := 1, params := 0 }
def quantPlan : Plan := { plan with ops := [quantOp], tensors := [operandZ, operandX] }
def quantPlanned : Cmd := { planned with plan := some quantPlan }
def quantising : State := ready.modSch fun k => { k with cmds := [quantPlanned] }

/-- A stream from the dome to itself with two credits, and the task in flight. -/
def stream : Stream := { decl := { id := 3, producer := 0x11, consumer := 0x11, inT1 := true, buffer := 8192, spill := 0 } }
def streaming : State := flying.modStrm fun _ => [stream]

/-- A transfer descriptor of one element of 16 bytes from T1 to T0 (05 Table 5-6). -/
def descriptor : List Byte :=
  List.replicate 8 0 ++ toLE 8 64 ++ [1, 0, 0, 0] ++ toLE 4 16 ++ List.replicate 8 0 ++ (List.range 5).flatMap (fun _ => toLE 4 1) ++
  List.replicate 92 0

/-- The same from T2. -/
def fromHost : List Byte :=
  List.replicate 8 0 ++ toLE 8 64 ++ [2, 0, 0, 0] ++ toLE 4 16 ++ List.replicate 8 0 ++ (List.range 5).flatMap (fun _ => toLE 4 1) ++
  List.replicate 92 0

/-- A chain whose next task declares page 0 of a BACKED object that is not resident. -/
def pagedChain : Chain := { tasks := [{ worst := 20, t0 := 4096, pages := [(66, 0)] }] }
def paged : State :=
  (ready.modSch fun k => { k with cmds := [{ command with chains := [pagedChain] }] }).modObj fun o =>
    { o with list := [{ object with flags := 0x22 }] }

/-- An answer in order is what it holds. -/
theorem except_get {α : Type} (r : Except Fail α) (h : r.toOption.isSome = true) : r = .ok (r.toOption.get h) := by
  cases r with
  | ok => rfl
  | error => simp [Except.toOption] at h

/-- What the product's event finds. -/
def metMatmul : OpCtx × Run × Tensor × Tensor × State := (computing.atOperator task 0 [0x01, 0x07, 0x14]).get (by decide +kernel)
theorem metMatmul_eq : computing.atOperator task 0 [0x01, 0x07, 0x14] = some metMatmul := (Option.some_get _).symm

/-- The same of an ATTEND, of a QUANT and of a ROUTE of one row of a length. -/
def attending : State :=
  ready.modSch fun k => { k with cmds := [{ planned with plan := some { plan with ops := [{ matmul with code := 0x07 }] } }] }
def metAttend : OpCtx × Run × Tensor × Tensor × State := (attending.atOperator task 0 [0x01, 0x07, 0x14]).get (by decide +kernel)
theorem metAttend_eq : attending.atOperator task 0 [0x01, 0x07, 0x14] = some metAttend := (Option.some_get _).symm
def metQuant : OpCtx × Run × Tensor × Tensor × State := (quantising.atOperator task 0 [0x0B]).get (by decide +kernel)
theorem metQuant_eq : quantising.atOperator task 0 [0x0B] = some metQuant := (Option.some_get _).symm
def selecting (n : Nat) : State :=
  let p : Plan := { plan with ops := [{ code := 0x08, apw := 0, in0 := 0, in1 := 0xFFFFFFFF, in2 := 0xFFFFFFFF, out := 1, params := 4 }],
                              tensors := [{ operandZ with len := n }, { operandZ with codes := 2 ^ 24 }] }
  ready.modSch fun k => { k with cmds := [{ planned with plan := some p }] }
def metSelect (n : Nat) (h : ((selecting n).atOperator task 0 [0x08, 0x0C]).isSome = true) : OpCtx × Run × Tensor × Tensor × State :=
  ((selecting n).atOperator task 0 [0x08, 0x0C]).get h
theorem metSelect_eq (n : Nat) (h : ((selecting n).atOperator task 0 [0x08, 0x0C]).isSome = true) :
    (selecting n).atOperator task 0 [0x08, 0x0C] = some (metSelect n h) := (Option.some_get _).symm

/-- Likewise for an answer whose error is a dome. -/
theorem nat_get {α : Type} (r : Except Nat α) (h : r.toOption.isSome = true) : r = .ok (r.toOption.get h) := by
  cases r with
  | ok => rfl
  | error => simp [Except.toOption] at h

/-- Likewise for a check. -/
theorem unit_get (r : Except Fail Unit) (h : r.toOption.isSome = true) : r = .ok () := except_get r h

/-- Checks in turn pass when each does. -/
theorem inTurn_cons {f : Unit → Except Fail Unit} {r : List (Unit → Except Fail Unit)} (h : f () = .ok ()) (g : inTurn r = .ok ()) :
    inTurn (f :: r) = .ok () := by simp only [inTurn, h, g]

/-- A BACKED object whose key is loaded and has the stored check may be an input. -/
theorem backed_ok {id p : Nat} {s : State} {o : Obj} {k : TenantKey} (h0 : id ≠ 0) (h1 : s.live? id = some o) (h2 : o.part = p)
    (h3 : s.key? o.tenant = some k) (h4 : o.keyCheck = keyCheck k.key) : inputFail id p s = none := by
  simp [inputFail, h0, h1, h2, State.keyRefuses, h3, h4]

/-- The bytes of an object in the canonical form, its zero bytes unlisted. -/
def cells : Nat → List Byte → Mem
  | _, [] => []
  | a, b :: r => if b = 0 then cells (a + 1) r else (a, b) :: cells (a + 1) r

theorem memGet_cells (a : Nat) (bs : List Byte) (i : Nat) (h : i < bs.length) : memGet (cells a bs) (a + i) = bs[i] := by
  have low : ∀ (bs : List Byte) (a c : Nat), c < a → memGet (cells a bs) c = 0 := by
    intro bs
    induction bs with
    | nil => intro a c _; rfl
    | cons b r ih =>
      intro a c hc
      simp only [cells]
      split
      · exact ih _ _ (by omega)
      · simp only [memGet]; rw [if_neg (by omega)]; exact ih _ _ (by omega)
  induction bs generalizing a i with
  | nil => simp at h
  | cons b r ih =>
    simp only [cells]
    cases i with
    | zero =>
      split
      · next e => rw [low _ _ _ (by omega)]; simp [e]
      · simp [memGet]
    | succ i =>
      have := ih (a + 1) i (by simpa using h)
      rw [show a + (i + 1) = a + 1 + i by omega]
      split
      · simpa using this
      · simp only [memGet]; rw [if_neg (by omega)]; simpa using this

theorem memRead_cells (bs : List Byte) (a n : Nat) (h : a + n ≤ bs.length) : memRead (cells 0 bs) a n = slice bs a n := by
  induction n generalizing a with
  | zero => simp [memRead, slice]
  | succ n ih =>
    have hl : a < bs.length := by omega
    have := memGet_cells 0 bs a hl
    rw [Nat.zero_add] at this
    rw [memRead, ih (a + 1) (by omega), this]
    simp only [slice]
    rw [List.drop_eq_getElem_cons hl, List.take_succ_cons]

/-- A vocabulary of the 256 bytes (Table 8-7). -/
def vocabHead : List Byte :=
  toLE 4 0x424F4356 ++ toLE 4 256 ++ toLE 4 0 ++ toLE 4 0 ++ toLE 8 64 ++ toLE 8 2112 ++ toLE 8 2112 ++ List.replicate 24 0
def vocabToken (i : Nat) : List Byte := toLE 4 i ++ toLE 2 1 ++ toLE 2 0
def vocabBytes : List Byte := vocabHead ++ ((List.range 256).flatMap vocabToken ++ (List.range 256).flatMap fun i => [BitVec.ofNat 8 i])
def vocabulary : Vocab := { data := cells 0 vocabBytes, size := 4096 }

theorem vocabBytes_length : vocabBytes.length = 2368 := by
  rw [vocabBytes, List.length_append, List.length_append, flatMap_range_length vocabToken 8 (fun _ => rfl), flatMap_range_length _ 1 (fun _ => rfl)]; rfl
theorem vocabulary_head (a n : Nat) (h : a + n ≤ 64) : memRead vocabulary.data a n = slice vocabHead a n := by
  rw [vocabulary, memRead_cells _ _ _ (by rw [vocabBytes_length]; omega), vocabBytes, slice_append_left _ _ _ _ h]
theorem vocabulary_token (i : Nat) (h : i < 256) (j n : Nat) (hj : j + n ≤ 8) :
    memRead vocabulary.data (64 + 8 * i + j) n = slice (vocabToken i) j n := by
  rw [memRead_slice _ _ 8 _ _ hj]
  rw [vocabulary, memRead_cells _ _ _ (by rw [vocabBytes_length]; omega), vocabBytes]
  rw [show 64 + 8 * i = vocabHead.length + 8 * i from rfl, slice_append_right,
    slice_append_left _ _ _ _ (by rw [flatMap_range_length vocabToken 8 (fun _ => rfl)]; omega),
    slice_flatMap_range vocabToken 8 (fun _ => rfl) _ _ h]
theorem vocabulary_string (i : Nat) (h : i < 256) : memRead vocabulary.data (2112 + i) 1 = [BitVec.ofNat 8 i] := by
  rw [vocabulary, memRead_cells _ _ _ (by rw [vocabBytes_length]; omega), vocabBytes]
  rw [show 2112 + i = vocabHead.length + (2048 + i) from by show _ = 64 + _; omega, slice_append_right]
  have : ((List.range 256).flatMap vocabToken).length = 2048 := flatMap_range_length vocabToken 8 (fun _ => rfl) 256
  rw [← this, slice_append_right]
  have := slice_flatMap_range (fun i => [BitVec.ofNat 8 i]) 1 (fun _ => rfl) 256 i h
  rwa [Nat.one_mul] at this

theorem vocabulary_tokens : vocabulary.tokens = 64 := by rw [Vocab.tokens, memLE, vocabulary_head _ _ (by omega)]; rfl
theorem vocabulary_strings : vocabulary.strings = 2112 := by rw [Vocab.strings, memLE, vocabulary_head _ _ (by omega)]; rfl
theorem vocabulary_n : vocabulary.n = 256 := by rw [Vocab.n, memLE, vocabulary_head _ _ (by omega)]; rfl
theorem vocabulary_merges : vocabulary.merges = 0 := by rw [Vocab.merges, memLE, vocabulary_head _ _ (by omega)]; rfl
theorem vocabulary_mergeTable : vocabulary.mergeTable = 2112 := by rw [Vocab.mergeTable, memLE, vocabulary_head _ _ (by omega)]; rfl
theorem vocabulary_kind (i : Nat) (h : i < 256) : vocabulary.kind i = 0 := by
  rw [Vocab.kind, memLE, vocabulary_tokens, vocabulary_token i h 6 1 (by omega)]; rfl
theorem vocabulary_len (i : Nat) (h : i < 256) : vocabulary.len i = 1 := by
  rw [Vocab.len, memLE, vocabulary_tokens, vocabulary_token i h 4 2 (by omega)]; rfl
theorem vocabulary_at (i : Nat) (h : i < 256) : memLE vocabulary.data (vocabulary.tokens + 8 * i) 4 = i := by
  have := vocabulary_token i h 0 4 (by omega)
  rw [vocabulary_tokens, memLE, show 64 + 8 * i = 64 + 8 * i + 0 from rfl, this]
  have key : ∀ i < 256, ofLE (slice (vocabToken i) 0 4) = i := by decide +kernel
  exact key i h
theorem vocabulary_str (i : Nat) (h : i < 256) : vocabulary.str i = [BitVec.ofNat 8 i] := by
  rw [Vocab.str, vocabulary_at i h, vocabulary_len i h, vocabulary_strings, vocabulary_string i h]

theorem vocabulary_reserved : vocabulary.reserved = false := by
  have h : (List.range vocabulary.n).any (fun i => vocabulary.kind i > 1 || memLE vocabulary.data (vocabulary.tokens + 8 * i + 7) 1 != 0) = false := by
    rw [List.any_eq_false]; intro i hi
    rw [vocabulary_n, List.mem_range] at hi
    rw [vocabulary_kind i hi, memLE, vocabulary_tokens, vocabulary_token i hi 7 1 (by omega)]; simp [show ofLE (slice (vocabToken i) 7 1) = 0 from rfl]
  rw [Vocab.reserved, h, memLE, vocabulary_head _ _ (by omega), vocabulary_head _ _ (by omega)]; rfl
theorem vocabulary_ok : vocabulary.bad = false := by
  have h1 : ((List.range 256).any fun b => (vocabulary.byteToken (BitVec.ofNat 8 b)).isNone) = false := by
    rw [List.any_eq_false]
    intro b hb
    have : (vocabulary.byteToken (BitVec.ofNat 8 b)).isSome = true := by
      rw [Vocab.byteToken, List.find?_isSome, vocabulary_n]
      have hb' := List.mem_range.mp hb
      exact ⟨b, hb, by rw [vocabulary_kind b hb', vocabulary_str b hb']; simp⟩
    cases h : vocabulary.byteToken (BitVec.ofNat 8 b) with
    | none => rw [h] at this; cases this
    | some _ => simp
  have h2 : ((List.range vocabulary.n).any fun i => vocabulary.len i == 0 || vocabulary.len i > 255 ||
      vocabulary.strings + memLE vocabulary.data (vocabulary.tokens + 8 * i) 4 + vocabulary.len i > vocabulary.size) = false := by
    rw [List.any_eq_false]; intro i hi
    rw [vocabulary_n, List.mem_range] at hi
    rw [vocabulary_len i hi, vocabulary_strings, vocabulary_at i hi]
    have : vocabulary.size = 4096 := rfl
    simp [this]; omega
  rw [Vocab.bad, h1, h2, memLE, vocabulary_head _ _ (by omega), vocabulary_n, vocabulary_merges, vocabulary_tokens, vocabulary_mergeTable,
    vocabulary_strings]
  rfl

/-- A plan of one stage, one task and one activation of a binary32 row in the scratch (08 Tables 8-1 to 8-5), at an offset in its object. -/
def planFrom (base : Nat) : List Byte :=
  toLE 4 0x4E414C50 ++ toLE 2 1 ++ toLE 2 1 ++ toLE 4 1 ++ toLE 4 1 ++ toLE 4 1 ++ toLE 4 0 ++ toLE 8 0 ++ toLE 4 (base + 64) ++ toLE 4 (base + 96) ++
  toLE 4 (base + 112) ++ toLE 4 (base + 144) ++ List.replicate 16 0 ++
  (toLE 4 0 ++ toLE 4 1 ++ List.replicate 24 0) ++
  (toLE 4 0 ++ toLE 2 1 ++ toLE 2 0 ++ toLE 2 20 ++ toLE 2 0 ++ toLE 4 4096) ++
  (toLE 2 5 ++ toLE 2 0 ++ toLE 4 0 ++ toLE 4 0 ++ toLE 4 0xFFFFFFFF ++ toLE 4 0xFFFFFFFF ++ toLE 4 0 ++ toLE 8 0) ++
  (List.replicate 24 0 ++ toLE 4 1 ++ toLE 4 32 ++ toLE 8 1 ++ [6, 0, 0, 0, 0, 0, 0, 0])

def planBytes : List Byte := planFrom 0

/-- A model of one layer and one head of 32 elements with K8U KV rows (Table 8-9). -/
def modelBytes : List Byte :=
  toLE 4 0x4C444F4D ++ toLE 2 1 ++ toLE 2 1 ++ toLE 2 1 ++ toLE 2 32 ++ toLE 4 0 ++ toLE 4 0 ++ toLE 4 16 ++ toLE 8 72 ++ toLE 4 1 ++
  toLE 4 17472 ++ toLE 8 0x16 ++ toLE 8 70 ++ toLE 8 70 ++ List.replicate 64 0

/-- An adapter of rank 1 with one K4U target of 32 by 32 and a training section (Table 8-8). -/
def adapterBytes : List Byte :=
  toLE 4 0x5041444C ++ toLE 2 1 ++ toLE 2 1 ++ toLE 8 71 ++ toLE 4 0x3C00 ++ toLE 4 0 ++ toLE 8 4096 ++ List.replicate 32 0 ++
  (toLE 2 0 ++ [0, 2] ++ toLE 4 0 ++ toLE 4 32 ++ toLE 4 32 ++ toLE 8 1024 ++ toLE 8 1088 ++ toLE 8 1152 ++ toLE 8 1216)

/-- One example of two tokens, the second its target (08 R264). -/
def exampleBytes : List Byte := toLE 4 2 ++ toLE 4 1 ++ toLE 4 3 ++ toLE 4 4

/-- An embedding header of 32 K4U dimensions, then its plan (08 R259). -/
def embedBytes : List Byte :=
  toLE 4 0x42444D45 ++ toLE 2 32 ++ [2, 0] ++ toLE 4 0 ++ toLE 4 16 ++ toLE 8 72 ++ toLE 4 0 ++ List.replicate 36 0 ++ planFrom 64

/-- An index of one slot with no node (Table 10-1). -/
def indexBytes : List Byte :=
  toLE 4 0x58444E49 ++ toLE 2 1 ++ toLE 2 32 ++ [2, 1] ++ toLE 2 8 ++ toLE 2 32 ++ [0, 0] ++ toLE 4 1 ++ toLE 4 0 ++ toLE 4 0 ++ toLE 2 0 ++
  toLE 2 16 ++ toLE 2 0x3C00 ++ [1, 0] ++ toLE 4 0 ++ toLE 8 0 ++ List.replicate 32 0xFF ++ toLE 4 0 ++ toLE 4 0 ++ toLE 8 2097152 ++
  toLE 8 4194304 ++ toLE 8 0 ++ toLE 8 6291456

/-- A record set of 256 records of 64 bytes (Table 11-1). -/
def setBytes : List Byte :=
  toLE 4 0x54534352 ++ toLE 2 1 ++ toLE 2 64 ++ toLE 8 0 ++ toLE 8 256 ++ toLE 8 16384

/-- An object in T1 with contents, and one that is BACKED under the key of tenant 0x2A7. -/
def holding (id size : Nat) (bs : List Byte) : Obj := { object with id, size, data := cells 0 bs }
def backing (id size : Nat) (bs : List Byte) : Obj := { holding id size bs with flags := 0x22, keyCheck := keyCheck 5 }

/-- A state with all of them, and a pool of four blocks. -/
def library : State := base.modObj fun o =>
  { o with list := [object, holding 70 4096 planBytes, holding 71 4096 modelBytes, holding 72 4096 vocabBytes, holding 73 8192 adapterBytes,
                    holding 74 69888 [], holding 75 4096 exampleBytes, holding 76 4096 embedBytes, backing 77 8388608 indexBytes,
                    backing 78 32768 setBytes],
           store := [{ id := 78, part := 0x11, tenant := 0x2A7, size := 32768, data := cells 0 setBytes, keyCheck := keyCheck 5 }] }

set_option maxRecDepth 1000000 in
theorem checkVocab_ok (src : Src) (op d id p : Nat) (h : id = 72) (g : p = 0x11) : checkVocab id p (begun src op d library) = .ok () := by
  subst h g
  have h1 : inputFail 72 0x11 (begun src op d library) = none := by
    simp only [inputFail, begun_live?, State.keyRefuses, begun_key?]; decide +kernel
  have h2 : (begun src op d library).vocab? 72 = some vocabulary := by simp only [begun_vocab?]; rfl
  simp only [checkVocab, h1, h2, vocabulary_ok, vocabulary_reserved]
  rfl

/-- An EMBED of one empty text, one that arms, and the arm it makes. -/
def embedEntry : Entry :=
  { entry 0x89 with dw12 := 76, dw15 := 0x00010000, inLen := 80, outLen := 64, input := List.replicate 80 0 }
def armEntry : Entry :=
  { entry 0x89 with dw12 := 76, dw13 := 0x00040000, dw14 := 77, inLen := 16, input := toLE 8 66 ++ toLE 8 0 }
def arm : Arm := { part := 0x11, number := 3, dome := 0x11, tenant := 0x2A7, fn := 0, source := 66, plan := 76, index := 77, cursor := 0 }
def armed : State := library.modInf fun x => { x with arms := [arm] }
def ingesting : State := library.modInf fun x => { x with arms := [{ arm with due := true, limit := 80 }] }

set_option maxRecDepth 1000000 in
theorem embedHeader_ok (id p : Nat) (h : id = 76) (g : p = 0x11) : checkEmbedHeader id p (begun ⟨0, 1, 2⟩ 0x89 0x11 library) = .ok () := by
  subst h g
  unfold checkEmbedHeader
  exact inTurn_cons (unit_get _ (by decide +kernel)) (inTurn_cons (unit_get _ (by decide +kernel))
    (inTurn_cons (checkVocab_ok _ _ _ _ _ (by decide +kernel) rfl) (inTurn_cons (unit_get _ (by decide +kernel)) rfl)))
set_option maxRecDepth 1000000 in
theorem embedEntry_ok : checkEmbed embedEntry (begun ⟨0, 1, 2⟩ 0x89 0x11 library) = .ok () := by
  unfold checkEmbed
  exact inTurn_cons (unit_get _ (by decide +kernel)) (inTurn_cons (unit_get _ (by decide +kernel))
    (inTurn_cons (embedHeader_ok _ _ (by decide +kernel) (by decide +kernel))
      (inTurn_cons (unit_get _ (by decide +kernel)) (inTurn_cons (unit_get _ (by decide +kernel)) rfl))))

set_option maxRecDepth 1000000 in
/-- The index may be searched and written: its key is loaded. -/
theorem index_ok (src : Src) (op : Nat) (w : Bool) (id p : Nat) (h : id = 77) (g : p = 0x11) :
    indexFail id p w (begun src op 0x11 library) = none := by
  subst h g
  have h1 : (begun src op 0x11 library).live? 77 = some (backing 77 8388608 indexBytes) := by rw [begun_live?]; rfl
  have h2 : inputFail 77 0x11 (begun src op 0x11 library) = none :=
    backed_ok (k := { tenant := 0x2A7, part := 0x11, key := 5 }) (by decide) h1 rfl (by rw [begun_key?]; rfl) rfl
  have h3 : firstFail [(!((backing 77 8388608 indexBytes).flag 1 && (backing 77 8388608 indexBytes).flag 5), fieldBad 0xA02),
      (indexBad (backing 77 8388608 indexBytes).data (backing 77 8388608 indexBytes).size, fieldBad 0xA01)] = none := by decide +kernel
  have h4 : writeFail 77 0x11 (begun src op 0x11 library) = none := by
    simp only [writeFail, h2, h1]; rfl
  cases w <;> simp only [indexFail, h2, h4, h1, Option.orElse_none, if_true, Bool.false_eq_true, if_false] <;> exact h3

set_option maxRecDepth 1000000 in
theorem embedIndex_ok : checkEmbedIndex 77 76 0x11 (begun ⟨0, 1, 2⟩ 0x89 0x11 library) = .ok () := by
  simp only [checkEmbedIndex, index_ok _ _ _ 77 0x11 rfl rfl]
  exact unit_get _ (by decide +kernel)

set_option maxRecDepth 1000000 in
theorem ingestVocab_ok : checkVocab 72 0x11 ingesting = .ok () := by
  have h1 : inputFail 72 0x11 ingesting = none := by decide +kernel
  have h2 : ingesting.vocab? 72 = some vocabulary := rfl
  simp only [checkVocab, h1, h2, vocabulary_ok, vocabulary_reserved]
  rfl
set_option maxRecDepth 1000000 in
theorem ingestHeader_ok : checkEmbedHeader 76 0x11 ingesting = .ok () := by
  unfold checkEmbedHeader
  exact inTurn_cons (unit_get _ (by decide +kernel)) (inTurn_cons (unit_get _ (by decide +kernel))
    (inTurn_cons ingestVocab_ok (inTurn_cons (unit_get _ (by decide +kernel)) rfl)))
set_option maxRecDepth 1000000 in
theorem ingestIndex_ok : checkEmbedIndex 77 76 0x11 ingesting = .ok () := by
  have h1 : ingesting.live? 77 = some (backing 77 8388608 indexBytes) := rfl
  have h2 : inputFail 77 0x11 ingesting = none := backed_ok (k := { tenant := 0x2A7, part := 0x11, key := 5 }) (by decide) h1 rfl rfl rfl
  have h3 : firstFail [(!((backing 77 8388608 indexBytes).flag 1 && (backing 77 8388608 indexBytes).flag 5), fieldBad 0xA02),
      (indexBad (backing 77 8388608 indexBytes).data (backing 77 8388608 indexBytes).size, fieldBad 0xA01)] = none := by decide +kernel
  have h4 : writeFail 77 0x11 ingesting = none := by simp only [writeFail, h2, h1]; rfl
  have h5 : indexFail 77 0x11 true ingesting = none := by
    simp only [indexFail, h2, h4, h1, Option.orElse_none, if_true, Bool.false_eq_true, if_false]; exact h3
  simp only [checkEmbedIndex, h5]
  exact unit_get _ (by decide +kernel)
set_option maxRecDepth 1000000 in
/-- What the arm's ingest asks for is in order. -/
theorem ingest_ok : checkIngest { arm with due := true, limit := 80 } (ingestRecords ingesting 66 80 80 0).1 ingesting = .ok () := by
  unfold checkIngest
  exact inTurn_cons (unit_get _ (by decide +kernel)) (inTurn_cons (unit_get _ (by decide +kernel)) (inTurn_cons ingestHeader_ok
    (inTurn_cons ingestIndex_ok (inTurn_cons (unit_get _ (by decide +kernel)) rfl))))

/-- A GENERATE of one token after a prompt of one, and a TUNE of one step. -/
def generateEntry : Entry :=
  { entry 0x8C with dw12 := 71, inLen := 68, outLen := 64,
                    input := toLE 4 0 ++ toLE 4 1 ++ toLE 8 74 ++ toLE 4 1 ++ List.replicate 16 0xFF ++ List.replicate 28 0 ++ toLE 4 3 }
def tuneEntry : Entry :=
  { entry 0x8D with dw12 := 71, dw14 := 73, dw15 := 0x00010000, inLen := 64, outLen := 16,
                    input := toLE 8 75 ++ toLE 4 1 ++ toLE 4 1 ++ toLE 4 8 ++ List.replicate 44 0 }
set_option maxRecDepth 1000000 in
theorem model_ok (src : Src) (op id p : Nat) (h : id = 71) (g : p = 0x11) : checkModel id p (begun src op 0x11 library) = .ok () := by
  subst h g
  refine inTurn_cons ?_ (inTurn_cons ?_ (inTurn_cons ?_ (inTurn_cons (checkVocab_ok src op 0x11 _ _ ?_ rfl) rfl))) <;>
    simp only [inputFail, begun_live?, State.keyRefuses, begun_key?, State.model, begun_obj?, begun_contents]
  · exact unit_get _ (by decide +kernel)
  · exact unit_get _ (by decide +kernel)
  · exact unit_get _ (by decide +kernel)
  · decide +kernel
set_option maxRecDepth 1000000 in
theorem generateEntry_ok : checkGenerate generateEntry (begun ⟨0, 1, 2⟩ 0x8C 0x11 library) = .ok () := by
  unfold checkGenerate
  exact inTurn_cons (unit_get _ (by decide +kernel)) (inTurn_cons (model_ok _ _ _ _ (by decide +kernel) (by decide +kernel))
    (inTurn_cons (unit_get _ (by decide +kernel)) (inTurn_cons (unit_get _ (by decide +kernel))
      (inTurn_cons (unit_get _ (by decide +kernel)) (inTurn_cons (unit_get _ (by decide +kernel)) rfl)))))
set_option maxRecDepth 1000000 in
theorem tuneEntry_ok : checkTune tuneEntry (begun ⟨0, 1, 2⟩ 0x8D 0x11 library) = .ok () := by
  unfold checkTune
  exact inTurn_cons (unit_get _ (by decide +kernel)) (inTurn_cons (model_ok _ _ _ _ (by decide +kernel) (by decide +kernel))
    (inTurn_cons (unit_get _ (by decide +kernel)) (inTurn_cons (unit_get _ (by decide +kernel)) (inTurn_cons (unit_get _ (by decide +kernel))
      (inTurn_cons (unit_get _ (by decide +kernel)) (inTurn_cons (unit_get _ (by decide +kernel))
        (inTurn_cons (unit_get _ (by decide +kernel)) rfl)))))))

/-- A sequence of that model in that pool, with its prompt of one token prefilled, and its command. -/
def sequence : Seq :=
  { src := ⟨0, 1, 2⟩, dome := 0x11, part := 0x11, model := 71, adapter := 0, version := 0, pool := 74, order := 0, admitted := true,
    prefilled := true, blocks := [0], position := 1, prompt := [3], maxNew := 4, maxCtx := 16, stops := [1], mode := 0, k := 1, p := 0, temp := 0,
    detok := false, vocab := 72 }
def decoding : State :=
  (ready.modSch fun k => { k with cmds := [{ command with opcode := 0x8C }], ptrs := [{ part := 0x11, left := 4, fresh := true, lead := 20 }] }).modInf fun x =>
    { x with seqs := [sequence] }
def tuneRunOf : TuneRun :=
  { src := ⟨0, 1, 2⟩, adapter := 73, steps := 1, step := 1, eta := 0, beta1 := 0, beta2 := 0, eps := 0, lambda := 0, clip := 0, w := [], m := [], v := [],
    t := 1, examples := [], batch := 1, ready := true }

set_option maxRecDepth 1000000 in
/-- The record set may be scanned: its key is loaded. -/
theorem set_ok (id p : Nat) (h : id = 78) (g : p = 0x11) : inputFail id p (begun ⟨0, 1, 2⟩ 0x88 0x11 library) = none := by
  subst h g
  exact backed_ok (o := backing 78 32768 setBytes) (k := { tenant := 0x2A7, part := 0x11, key := 5 }) (by decide)
    (by rw [begun_live?]; rfl) rfl (by rw [begun_key?]; rfl) rfl

/-- A SEARCH for the best of one query, its run, and a state in which its walk has slot 0 in flight. -/
def searchEntry : Entry :=
  { entry 0x8A with dw12 := 77, dw14 := 0x00010001, dw15 := 1, inLen := 128, outLen := 48, input := [0, 0, 0, 0, 1] ++ List.replicate 123 0 }
def searchOf : SearchRun :=
  { src := ⟨0, 1, 2⟩, index := 77, distance := 0, approx := false, shardTag := false, k := 1, beam := 1, queries := 1, budget := 0, ways := 1,
    tombHops := 2, filtHops := 4, depth := 1, program := [], full := [], norms := [], navNorms := [], navQ := [] }
def walking : State := flying.modIdx fun x =>
  { x with searches := [searchOf],
           walks := [{ src := ⟨0, 1, 2⟩, walk := 0, query := 0, window := 1, budget := 0, queue := [{ slot := 0, dist := 0, inFlight := true }] }] }

/-- A scan of one record of page 1, loaded in engine 0. -/
def scanning : Scan :=
  { src := ⟨0, 1, 2⟩, object := 78, mode := 0, limit := 0, first := 0, count := 1, recBytes := 64, attrOff := 0, recOff := 16384, program := [],
    projs := [], aggs := [], grouped := false, keyOff := 0, keyWidth := 1, groupCount := 1, layout := 0, parts := [{ group := 0, loaded := true }] }

/-- MERGEs of a chain of two (10 Table 10-11): the first member of each kind, and the last of kind 0. -/
def mergeEntry : Entry :=
  { entry 0x90 with dw12 := 74, dw14 := 0x00050100, dw15 := 1, inLen := 64, outLen := 48,
                    input := toLE 8 1 ++ toLE 8 0 ++ [1, 0, 0, 0] ++ List.replicate 44 0 }
def laterEntry : Entry :=
  { entry 0x90 with dw12 := 74, dw14 := 0x00050101, dw15 := 1, inLen := 64, outLen := 48,
                    input := toLE 8 1 ++ toLE 8 0 ++ [0, 1, 0, 0] ++ List.replicate 44 0 }
def aggregateEntry : Entry :=
  { entry 0x90 with dw12 := 74, dw13 := 0x00010000, dw14 := 0x00050100, inLen := 64, outLen := 64,
                    input := toLE 4 0 ++ toLE 4 64 ++ toLE 8 0 ++ [1, 0, 0, 0] ++ List.replicate 44 0 }
def reductionEntry : Entry :=
  { entry 0x90 with dw12 := 74, dw13 := 0x00020000, dw14 := 0x00050100, inLen := 64, outLen := 16,
                    input := toLE 4 0 ++ toLE 4 16 ++ toLE 8 0 ++ [1, 0, 0, 0] ++ List.replicate 44 0 }

/-- The first member of a chain with its successor's notice in board slot 0. -/
def mergeRun : Merge :=
  { src := ⟨0, 1, 2⟩, kind := 0, position := 0, length := 2, id := 5, k := 1, queries := 1, payload := 48, succBase := 0x10000000, succInbox := 1,
    ownInbox := 0, ownSlot := 0, predSlot := 0, predBase := 0, local_ := List.replicate 48 0, merged := true }
def merging : State := base.modMrg fun x => { x with merges := [mergeRun], window := [(0, 5), (60, 1)] }

/-- The last member with its predecessor's payload of 48 zero bytes in inbox 1 (Table 10-10). -/
def receiver : Merge := { mergeRun with position := 1, ownInbox := 1, merged := false }
def receiving : State :=
  (ready.modSch fun k => { k with cmds := [{ command with opcode := 0x90 }] }).modMrg fun x =>
    { x with merges := [receiver], armed := [(1, 5, 48)],
             window := memPut [] 0x1000000 (inboxHeader 5 0 0 48 (crc32c (List.replicate 48 0)).toNat 1) }
def received : List Byte × Nat × State :=
  (mergedPayload receiver 0x11 (memRead receiving.mrg.window 0x1001000 48) receiving).toOption.get (by decide +kernel)
theorem received_eq : mergedPayload receiver 0x11 (memRead receiving.mrg.window (1 * 0x1000000 + 0x1000) 48) receiving = .ok received :=
  except_get (mergedPayload receiver 0x11 (memRead receiving.mrg.window 0x1001000 48) receiving) (by decide +kernel)

/-- A frame of all-zero words is clean (13 R386: the syndrome of the word of zeros is 0). -/
theorem cleanSyndrome : syndrome (0, 0) = 0 := by
  unfold syndrome
  generalize columns.zipIdx = l
  induction l with
  | nil => rfl
  | cons c l ih => simpa using ih
theorem cleanWord : readWord (0, 0) = .clean := by
  unfold readWord
  simp only [cleanSyndrome, if_true]
theorem foldl_same {α β : Type} {f : α → β → α} {l : List β} {z : α} (h : ∀ x ∈ l, ∀ a, f a x = a) : l.foldl f z = z := by
  induction l with
  | nil => rfl
  | cons b l ih => rw [List.foldl_cons, h b (by simp), ih fun x m => h x (by simp [m])]
theorem cleanFrame (n : Nat) : frameWords (List.replicate n (0, 0)) = ([], []) := by
  unfold frameWords
  refine foldl_same fun x m a => ?_
  have h : x.1 = (0, 0) := List.eq_of_mem_replicate (List.fst_mem_of_mem_zipIdx m)
  simp only [h, cleanWord]

/-! ### Witnesses: the hypotheses of each statement hold together somewhere -/

theorem witness_PlaceWithFlagsZero_1 : ∃ (e : Entry) (s : State) (o : Obj),
      (milrisRuns shapePlace e s = true) ∧
      (Fe.obj1 e ≠ 0) ∧
      (placeFlags e = 0#8) ∧
      (s.live? (Fe.obj1 e) = some o) ∧
      (o.part = s.part (Fe.dome e)) :=
  ⟨entry 0x81, withObject base, object, by decide⟩

theorem witness_PlaceWithFlagsZero_2 : ∃ (e : Entry) (s : State),
      (milrisRuns shapePlace e s = true) ∧
      (Fe.obj1 e ≠ 0) ∧
      (placeFlags e = 0#8) ∧
      (s.live? (Fe.obj1 e) = none ∧ s.elsewhere (Fe.obj1 e) (s.part (Fe.dome e)) = false) :=
  ⟨entry 0x81, base, by decide⟩

theorem witness_PlaceAndReleaseComplete_1 : ∃ (e : Entry) (s : State),
      (milrisRuns shapePlace e s = true) ∧
      (Fe.obj1 e ≠ 0) ∧
      (s.obj? (Fe.obj1 e) = none ∧ s.elsewhere (Fe.obj1 e) (s.part (Fe.dome e)) = false) ∧
      (placeFlags e ≠ 0#8) ∧
      (flagsBad (placeFlags e) = false) ∧
      (0 < placeSize e ∧ placeSize e < 2 ^ 48) ∧
      (((placeFlags e).toNat.testBit 5 && s.readOnly) = false) ∧
      ((placeNew e (Fe.obj1 e) (placeSize e) (placeFlags e) (begun e.src 0x81 (Fe.dome e) s)).isOk = true) :=
  ⟨placeEntry, base, by decide⟩

theorem witness_PlaceAndReleaseComplete_2 : ∃ (e : Entry) (s : State) (o : Obj),
      (milrisRuns shapePlace e s = true) ∧
      (Fe.obj1 e ≠ 0) ∧
      (s.live? (Fe.obj1 e) = some o) ∧
      (o.part = s.part (Fe.dome e)) ∧
      (placeFlags e ≠ 0#8) ∧
      (flagsBad (placeFlags e) = false) ∧
      (0 < placeSize e ∧ placeSize e < 2 ^ 48) ∧
      (((placeFlags e).toNat.testBit 5 && s.readOnly) = false) ∧
      ((placeAgain e o (placeSize e) (placeFlags e) (begun e.src 0x81 (Fe.dome e) s)).isOk = true) :=
  ⟨placeEntry, withObject base, object, by decide⟩

theorem witness_PlaceAndReleaseComplete_3 : ∃ (e : Entry) (s : State) (o : Obj),
      (milrisRuns shapeRelease e s = true) ∧
      (Fe.obj1 e ≠ 0) ∧
      (s.live? (Fe.obj1 e) = some o) ∧
      (o.part = s.part (Fe.dome e)) ∧
      (s.named (Fe.obj1 e) = false) :=
  ⟨entry 0x82, withObject base, object, by decide⟩

theorem witness_ReattachRefusals_1 : ∃ (a : Admin) (s : State),
      (adminRuns a.src true s = true) ∧
      (a.src.fn = 0) ∧
      ((bit a.cdw11.toNat 0 || s.granted 11) = true) ∧
      (bits a.cdw11.toNat 31 1 = 0 ∧ tailSet a = false) ∧
      (s.hb.quiesced = true) ∧
      (a.cdw10 ≠ s.hb.qEpoch) :=
  ⟨{ admin with cdw10 := 7 }, quiet base, by decide⟩

theorem witness_ReattachRefusals_2 : ∃ (a : Admin) (s : State),
      (adminRuns a.src true s = true) ∧
      (a.src.fn = 0) ∧
      ((bit a.cdw11.toNat 0 || s.granted 11) = true) ∧
      (bits a.cdw11.toNat 31 1 = 0 ∧ tailSet a = false) ∧
      (s.hb.quiesced = false) :=
  ⟨{ admin with cdw10 := 7, cdw11 := 1 }, base, by decide⟩

theorem witness_AttachmentCommandsComplete_1 : ∃ (a : Admin) (s : State),
      (adminRuns a.src true s = true) ∧
      (a.src.fn = 0) ∧
      (a.cdw13 = 0 ∧ a.cdw14 = 0 ∧ a.cdw15 = 0) ∧
      ((a.cdw11 ++ a.cdw10 : QWord).getLsbD 0 = true) :=
  ⟨{ admin with cdw10 := 0x17F }, base, by decide⟩

theorem witness_AttachmentCommandsComplete_2 : ∃ (a : Admin) (s : State),
      (adminRuns a.src true s = true) ∧
      (bit a.cdw11.toNat 0 = false) ∧
      (reattachGate a s = none) :=
  ⟨{ admin with cdw10 := 1 }, quiet base, by decide⟩

theorem witness_AttachmentCommandsComplete_3 : ∃ (a : Admin) (s : State),
      (adminRuns a.src true s = true) ∧
      (bit a.cdw11.toNat 0 = true) ∧
      (reattachGate a s = none) :=
  ⟨{ admin with cdw10 := 1, cdw11 := 1 }, quiet base, by decide⟩

theorem witness_AttachmentCommandsComplete_4 : ∃ (a : Admin) (s : State) (q : Sq),
      (adminRuns a.src false s = true) ∧
      (s.granted 0 = true) ∧
      (bits a.cdw10.toNat 31 17 = 0 ∧ a.cdw11 = 0 ∧ tailSet a = false) ∧
      (bits a.cdw10.toNat 15 0 ≠ 0) ∧
      (s.sq? a.src.fn (bits a.cdw10.toNat 15 0) = some q) ∧
      (q.frozen = true) :=
  ⟨{ admin with cdw10 := 0x10001, input := [0x82, 0, 5, 0] }, base.modQ fun q => { q with sqs := [{ id := 1, fn := 0, size := 64, cq := 1, head := 39, tail := 40, frozen := true }] }, { id := 1, fn := 0, size := 64, cq := 1, head := 39, tail := 40, frozen := true }, by decide⟩

theorem witness_AttachmentCommandsComplete_5 : ∃ (s : State),
      (s.sch.step = 4 ∧ s.hb.armed = true ∧ s.hb.quiesced = false) ∧
      (s.eff.silence * 1000 ≤ s.now 0 - s.hb.lastBeat) :=
  ⟨{ base with tick := 1000, sch := { base.sch with step := 4 } }, by decide⟩

theorem witness_AttachmentCommandsComplete_6 : ∃ (s : State),
      (s.sch.step = 4 ∧ s.hb.quiesced = true ∧ s.hb.heldOut = false) ∧
      (s.eff.hold * 1000000 ≤ s.now 0 - s.hb.qStart) :=
  ⟨{ quiet base with tick := 120000, sch := { base.sch with step := 4 } }, by decide⟩

theorem witness_NarrowAccessesReadZeroAndWriteNothing_2 : ∃ (w : RegWrite),
      (w.bar = 2) ∧
      (¬ (w.size = 4 ∧ w.offset % 4 = 0)) ∧
      (¬ (w.size = 8 ∧ w.offset % 8 = 0)) :=
  ⟨⟨0, 2, 0x1001, 4, 1⟩, by decide⟩

theorem witness_DoorbellsFetchAndRegisterWritesComplete_1 : ∃ (fn : Nat) (sq : Nat) (value : DWord) (s : State) (q : Sq),
      (s.barOpen fn = true) ∧
      (s.sq? fn sq = some q) ∧
      (bits value.toNat 15 0 < q.size) :=
  ⟨0, 1, 41, base, { id := 1, fn := 0, size := 64, cq := 1, tail := 40 }, by decide⟩

theorem witness_DoorbellsFetchAndRegisterWritesComplete_2 : ∃ (fn : Nat) (cq : Nat) (value : DWord) (s : State) (q : Cq),
      (s.barOpen fn = true) ∧
      (s.cq? fn cq = some q) ∧
      (bits value.toNat 15 0 < q.size) :=
  ⟨0, 1, 3, base, { id := 1, fn := 0, size := 64 }, by decide⟩

theorem witness_DoorbellsFetchAndRegisterWritesComplete_3 : ∃ (fn : Nat) (sq : Nat) (s : State) (q : Sq),
      (s.sq? fn sq = some q) ∧
      (s.mayFetch fn q = true) :=
  ⟨0, 1, base, { id := 1, fn := 0, size := 64, cq := 1, tail := 40 }, by decide⟩

theorem witness_DoorbellsFetchAndRegisterWritesComplete_4 : ∃ (w : RegWrite) (s : State),
      (s.bar2 w 0x1000 0x1004 = true) ∧
      (w.fn = 0) ∧
      (w.size = 4 ∧ w.offset % 4 = 0) :=
  ⟨⟨0, 2, 0x1000, 4, 1⟩, base, by decide⟩

theorem witness_DoorbellsFetchAndRegisterWritesComplete_5 : ∃ (w : RegWrite) (s : State),
      (w.bar = 2) ∧
      (s.barOpen w.fn = true) ∧
      ((s.bar2 w 0x1000 0x1004 || s.bar2 w 0x2000 0x2400 || (s.bar2 w 0x2600 0x2700 && w.offset % 8 == 0)) = false) :=
  ⟨⟨0, 2, 0x1004, 4, 200⟩, base, by decide⟩

theorem witness_DoorbellsFetchAndRegisterWritesComplete_6 : ∃ (w : RegWrite) (s : State),
      (w.bar = 0) ∧
      (w.offset ≠ 0x14) ∧
      (s.barOpen w.fn = true) :=
  ⟨⟨0, 0, 0x24, 4, 0x1F001F⟩, base, by decide⟩

theorem witness_DoorbellsFetchAndRegisterWritesComplete_7 : ∃ (w : RegWrite) (s : State) (old : DWord) (new : DWord),
      (w.bar = 0) ∧
      (w.offset = 0x14) ∧
      (ccWrite w s = some (old, new)) ∧
      (old.getLsbD 0 = new.getLsbD 0) ∧
      (¬ (shn new = 1 ∧ shn old ≠ 1)) ∧
      (¬ (shn new = 2 ∧ shn old ≠ 2)) :=
  ⟨⟨0, 0, 0x14, 4, 0x470061⟩, base, 0x460061, 0x470061, by decide⟩

theorem witness_DoorbellsFetchAndRegisterWritesComplete_8 : ∃ (w : RegWrite),
      (w.bar = 255) :=
  ⟨⟨0, 255, 4, 4, 6⟩, by decide⟩

theorem witness_EventCommandsComplete_1 : ∃ (w : RegWrite) (s : State),
      (s.bar2 w 0x2000 0x2200 = true) ∧
      (w.size = 4 ∧ w.offset % 4 = 0) :=
  ⟨⟨0, 2, 0x2000, 4, 1⟩, base, by decide⟩

theorem witness_EventCommandsComplete_2 : ∃ (w : RegWrite) (s : State),
      (s.bar2 w 0x2200 0x2400 = true) ∧
      (w.size = 4 ∧ w.offset % 4 = 0) :=
  ⟨⟨0, 2, 0x2200, 4, 1⟩, base, by decide⟩

theorem witness_EventCommandsComplete_3 : ∃ (w : RegWrite) (s : State),
      (s.bar2 w 0x2600 0x2700 = true) ∧
      (w.size = 4 ∧ w.offset % 8 = 0) ∧
      (s.seesGroup w.fn ((w.offset - 0x2600) / 8) = true) :=
  ⟨⟨0, 2, 0x2608, 4, 0x10064⟩, base, by decide⟩

theorem witness_EventCommandsComplete_4 : ∃ (fn : Nat) (size : Nat) (n : Nat) (s : State),
      ((s.fn? fn).any (fun f => f.enabled && f.memSpace) = true) ∧
      (size = 4 ∨ size = 8) ∧
      (s.selected fn = some n) :=
  ⟨0, 4, 0, base, by decide⟩

theorem witness_EventCommandsComplete_5 : ∃ (g : Nat) (s : State),
      (g ≤ 31) ∧
      ((s.evGroup g).new = true ∧ (s.evGroup g).enable = true ∧ (s.evGroup g).holding = none) ∧
      (s.groupPending g = true) ∧
      ((s.pwr.domains[47]?).any (·.state == .on) = true) :=
  ⟨0, base.modEvt fun e => updGroup 0 (fun x => { x with new := true }) { e with pend := [0], unmasked := [0] }, by decide⟩

theorem witness_EventCommandsComplete_6 : ∃ (g : Nat) (us : Nat) (t : Nat) (s : State),
      ((s.evGroup g).holding = some t) ∧
      (t ≤ s.now us) :=
  ⟨0, 5, 3, base.modEvt (updGroup 0 fun x => { x with holding := some 3 }), by decide⟩

theorem witness_EventCommandsComplete_7 : ∃ (n : Nat) (s : State),
      (s.sourceLive n = true) ∧
      (eventLevel n = false ∨ s.evt.level.contains n = false) :=
  ⟨3, base, by decide⟩

theorem witness_EventCommandsComplete_8 : ∃ (fn : Nat) (v : Nat),
      (v ≤ (if fn = 0 then 2047 else 63)) :=
  ⟨0, 9, by decide⟩

theorem witness_ControllerAndShutdownWritesComplete_1 : ∃ (w : RegWrite) (s : State) (old : DWord) (new : DWord) (f : Func),
      (ccWrite w s = some (old, new)) ∧
      (s.fn? w.fn = some f) ∧
      (old.getLsbD 0 = false ∧ new.getLsbD 0 = true) ∧
      (w.fn = 0 ∨ f.online = true) :=
  ⟨⟨0, 0, 0x14, 4, 0x460061⟩, modFn 0 (fun f => { f with cc := 0 }) base, 0, 0x460061, { id := 0, busMaster := true, memSpace := true, cc := 0, rdy := true, aqa := 0x001F001F }, by decide⟩

theorem witness_ControllerAndShutdownWritesComplete_2 : ∃ (w : RegWrite) (s : State) (old : DWord) (new : DWord),
      (ccWrite w s = some (old, new)) ∧
      (old.getLsbD 0 = true ∧ new.getLsbD 0 = false) ∧
      (w.fn ≠ 0) :=
  ⟨⟨1, 0, 0x14, 4, 0⟩, { base with fns := [{ id := 0 }, { id := 1, memSpace := true, cc := 0x460061 }] }, 0x460061, 0, by decide⟩

theorem witness_ControllerAndShutdownWritesComplete_3 : ∃ (w : RegWrite) (s : State) (old : DWord) (new : DWord),
      (ccWrite w s = some (old, new)) ∧
      (old.getLsbD 0 = true ∧ new.getLsbD 0 = false) ∧
      (w.fn = 0) :=
  ⟨⟨0, 0, 0x14, 4, 0⟩, base, 0x460061, 0, by decide⟩

theorem witness_ControllerAndShutdownWritesComplete_4 : ∃ (w : RegWrite) (s : State) (old : DWord) (new : DWord),
      (ccWrite w s = some (old, new)) ∧
      (shn new = 1 ∧ shn old ≠ 1 ∧ new.getLsbD 0 = old.getLsbD 0) :=
  ⟨⟨0, 0, 0x14, 4, 0x464061⟩, base, 0x460061, 0x464061, by decide⟩

theorem witness_ControllerAndShutdownWritesComplete_5 : ∃ (w : RegWrite) (s : State) (old : DWord) (new : DWord),
      (ccWrite w s = some (old, new)) ∧
      (shn new = 2 ∧ shn old ≠ 2 ∧ new.getLsbD 0 = old.getLsbD 0) :=
  ⟨⟨0, 0, 0x14, 4, 0x468061⟩, base, 0x460061, 0x468061, by decide⟩

theorem witness_SuppliesAndResetsComplete_1 : ∃ (ns : Nat) (s : State),
      (1000 ≤ ns) ∧
      (s.life.phase = .up ∨ s.life.phase = .starting ∨ s.life.phase = .failed) :=
  ⟨1000, base, by decide⟩

theorem witness_SuppliesAndResetsComplete_2 : ∃ (ns : Nat),
      (ns < 1000) :=
  ⟨999, by decide⟩

theorem witness_SuppliesAndResetsComplete_3 : ∃ (s : State),
      (s.life.perst = true) ∧
      (s.life.phase = .held) ∧
      (s.life.flushing = none) :=
  ⟨base.modLife fun l => { l with phase := .held, perst := true }, by decide⟩

theorem witness_SuppliesAndResetsComplete_4 : ∃ (s : State),
      (s.atRest = true) :=
  ⟨base.modLife fun l => { l with phase := .unpowered }, by decide⟩

theorem witness_SuppliesAndResetsComplete_5 : ∃ (s : State),
      (s.life.phase = .unpowered ∨ s.life.phase = .aux) :=
  ⟨base.modLife fun l => { l with phase := .aux }, by decide⟩

theorem witness_SuppliesAndResetsComplete_6 : ∃ (s : State),
      (s.powered = true ∧ s.life.cfgReady = true) :=
  ⟨base, by decide⟩

theorem witness_SuppliesAndResetsComplete_7 : ∃ (fn : Nat) (s : State),
      (s.life.cfgReady = true) ∧
      ((s.fn? fn).any (·.enabled) = true) :=
  ⟨0, base, by decide⟩

theorem witness_SuppliesAndResetsComplete_8 : ∃ (d : Nat) (s : State),
      (d ≤ 3) ∧
      (s.life.cfgReady = true) :=
  ⟨3, base, by decide⟩

theorem witness_SuppliesAndResetsComplete_9 : ∃ (s : State),
      (s.atRest = true) :=
  ⟨base.modLife fun l => { l with phase := .aux }, by decide⟩

theorem witness_SuppliesAndResetsComplete_10 : ∃ (t : BootTest) (s : State),
      (s.life.phase = .starting) ∧
      (((applyTests t s).life.coolWait && decide (t.temp ≥ 760)) = false) ∧
      (t.calRowOk = true ∧ t.mapOk = true) ∧
      ((applyTests t s).fw.booted ≠ 0) ∧
      ((applyTests t s).itg.retired.length < 8) :=
  ⟨{}, State.reset, by decide⟩

theorem witness_SuppliesAndResetsComplete_11 : ∃ (t : BootTest) (s : State),
      (s.life.phase = .starting) ∧
      ((applyTests t s).life.coolWait = false) ∧
      (t.calRowOk = false ∨ (applyTests t s).fw.booted = 0 ∨ 8 ≤ (applyTests t s).itg.retired.length ∨ t.mapOk = false) :=
  ⟨{ calRowOk := false }, State.reset, by decide⟩

theorem witness_SuppliesAndResetsComplete_12 : ∃ (s : State) (k : FlushKind),
      (s.life.flushing = some k) :=
  ⟨base.modLife fun l => { l with flushing := some .abrupt }, .abrupt, by decide⟩

theorem witness_PowerEventsComplete_1 : ∃ (s : State),
      (s.powered = true) :=
  ⟨base, by decide⟩

theorem witness_PowerEventsComplete_2 : ∃ (s : State),
      (s.life.phase = .isolated ∨ s.life.phase = .thermalDown) :=
  ⟨{ base with life := { base.life with phase := .isolated } }, by decide⟩

theorem witness_PowerEventsComplete_3 : ∃ (input : Nat) (mv : Nat) (s : State),
      (s.powered = true) ∧
      (input ≤ 1) ∧
      (mv ≤ 11000) ∧
      (s.pwr.causes.getLsbD input = false) :=
  ⟨1, 10900, base, by decide⟩

theorem witness_PowerEventsComplete_4 : ∃ (input : Nat) (s : State),
      (input ≤ 1) ∧
      (s.pwr.causes.getLsbD input = true) ∧
      (11300 ≤ (if input = 0 then s.pwr.edgeMv else s.pwr.auxMv)) ∧
      ((if input = 0 then s.pwr.edgeLow else s.pwr.auxLow) + 2 ≤ s.tick.toNat) :=
  ⟨0, { base with tick := 9, pwr := { base.pwr with causes := 1 } }, by decide⟩

theorem witness_PowerEventsComplete_5 : ∃ (mv : Nat) (s : State),
      (mv ≤ 10400) ∧
      (s.powered = true ∨ s.life.phase = .thermalDown) :=
  ⟨10400, base, by decide⟩

theorem witness_PowerEventsComplete_6 : ∃ (s : State),
      (s.life.flushing = some .isolation) :=
  ⟨base.modLife fun l => { l with flushing := some .isolation }, by decide⟩

theorem witness_PowerEventsComplete_7 : ∃ (s : State),
      (s.powered = true) :=
  ⟨base, by decide⟩

theorem witness_PowerEventsComplete_8 : ∃ (temp : Int) (s : State),
      (s.powered = true) ∧
      (840 ≤ temp) ∧
      (s.pwr.thermalEmerg = false) :=
  ⟨841, base, by decide⟩

theorem witness_PowerEventsComplete_9 : ∃ (s : State),
      (s.pwr.thermalEmerg = true) ∧
      (s.pwr.temp < 800) :=
  ⟨{ base with pwr := { base.pwr with thermalEmerg := true } }, by decide⟩

theorem witness_PowerEventsComplete_10 : ∃ (s : State),
      (s.powered = true) ∧
      (880 ≤ s.pwr.temp) ∧
      (s.life.flushing = none) :=
  ⟨{ base with pwr := { base.pwr with temp := 880 } }, by decide⟩

theorem witness_PowerDomainEventsComplete_1 : ∃ (n : Nat) (s : State),
      (n ≤ 49) ∧
      ((s.domain n).state ≠ .on) ∧
      (s.powered = true ∧ s.mayWake n = true) ∧
      (¬ (n < 25 ∧ (s.domain n).newImage = true)) :=
  ⟨0, base, by decide⟩

theorem witness_PowerDomainEventsComplete_2 : ∃ (n : Nat) (s : State),
      (n < 25) ∧
      ((s.domain n).state ≠ .on) ∧
      (s.powered = true ∧ s.mayWake n = true) ∧
      ((s.domain n).newImage = true) :=
  ⟨0, modDomain 0 (fun d => { d with newImage := true }) base, by decide⟩

theorem witness_PowerDomainEventsComplete_3 : ∃ (b : Nat) (s : State),
      (b ≤ 24) ∧
      ((s.domain b).state = .gated) ∧
      (8 ≤ (s.domain b).idle) :=
  ⟨0, modDomain 0 (fun d => { d with state := .gated, idle := 8 }) base, by decide⟩

theorem witness_PowerDomainEventsComplete_4 : ∃ (g : Nat) (s : State),
      (g ≤ 7) ∧
      (s.nandBusy g = false) ∧
      ((s.domain (25 + g)).state = .on) :=
  ⟨3, base, by decide⟩

theorem witness_PowerDomainEventsComplete_5 : ∃ (g : Nat) (s : State),
      (g ≤ 7) ∧
      ((s.domain (33 + g)).state = .on) :=
  ⟨7, base, by decide⟩

theorem witness_PowerDomainEventsComplete_6 : ∃ (q : Nat) (s : State),
      (q ≤ 3) ∧
      ((s.domain (43 + q)).state = .on) :=
  ⟨3, base, by decide⟩

theorem witness_PowerDomainEventsComplete_7 : ∃ (s : State),
      (s.powered = true ∧ s.life.cfgReady = true) ∧
      (s.life.l1 = false) :=
  ⟨base, by decide⟩

theorem witness_PowerDomainEventsComplete_8 : ∃ (w : Nat) (s : State),
      ([1, 2, 4, 8, 16].contains w = true) ∧
      (s.powered = true ∧ s.life.cfgReady = true) ∧
      (w ≠ s.life.width) :=
  ⟨8, base, by decide⟩

theorem witness_ReadLevelCommandsComplete_1 : ∃ (g : Nat) (s : State),
      ((s.rdGroup g).sample = none) ∧
      (256 ≤ (s.rdGroup g).stats.reads) ∧
      (s.eff.readLevels = true) ∧
      ((s.die (dieOfGroup g)).retired = false) :=
  ⟨0, { base with cal := { groups := [{ id := 0, stats := { reads := 256 } }] } }, by decide⟩

theorem witness_ReadLevelCommandsComplete_2 : ∃ (g : Nat) (n : Nat) (x : RdStats) (s : State),
      ((s.rdGroup g).sample = some (n, x)) ∧
      (16 ≤ n) :=
  ⟨0, 16, {}, { base with cal := { groups := [{ id := 0, sample := some (16, {}) }] } }, by decide⟩

theorem witness_ReadLevelCommandsComplete_3 : ∃ (a : Admin) (s : State),
      (adminRuns a.src false s = true) ∧
      (bits a.cdw10.toNat 7 0 = 6) ∧
      (serviceGate a 0x06 false s = none) ∧
      (bits a.cdw11.toNat 31 10 = 0) ∧
      (bits a.cdw11.toNat 9 0 ≤ 511 ∨ bits a.cdw11.toNat 9 0 = 0x3FF) :=
  ⟨{ admin with cdw10 := 6, cdw11 := 0x3FF }, base, by decide⟩

set_option maxRecDepth 1000000 in
theorem witness_StructureCommandsWait_1 : ∃ (a : Admin) (s : State),
      (adminRuns a.src false s = true) ∧
      (a.src.fn = 0 ∧ s.granted 0 = true) ∧
      (a.cdw11 = 0 ∧ a.cdw12 = 0 ∧ a.cdw13 = 0 ∧ a.cdw14 = 0 ∧ a.cdw15 = 0) ∧
      (s.changing = false) ∧
      (imageKind a.input = 1 → s.granted 7 = true) ∧
      (imageKind a.input = 0 → s.hostCmds.any (fun c => c.opcode != 0x81 && c.opcode != 0x82) = false) ∧
      ((validate a.input (Nat.min a.cdw10.toNat a.input.length) (begun a.src 0xC0 0xFFFF s)).isOk = true) :=
  ⟨{ admin with cdw10 := 168, input := image }, { base with str := {} }, by decide +kernel⟩

theorem witness_StructureCommandsWait_2 : ∃ (a : Admin) (s : State),
      (adminRuns a.src false s = true) ∧
      (a.src.fn = 0 ∧ s.granted 0 = true) ∧
      (bits a.cdw10.toNat 3 0 = 0 ∧ controlReserved a = false ∧ a.cdw11 = 0) ∧
      (controlDome a ≠ 0 ∧ (s.dome? (controlDome a)).isSome = true) ∧
      (s.changing = false) :=
  ⟨{ admin with cdw10 := 0x110000 }, base, by decide⟩

theorem witness_StructureCommandsWait_3 : ∃ (a : Admin) (s : State),
      (adminRuns a.src false s = true) ∧
      (a.src.fn = 0 ∧ s.granted 0 = true) ∧
      (bits a.cdw10.toNat 3 0 = 1 ∧ controlReserved a = false ∧ bits a.cdw11.toNat 31 6 = 0) ∧
      (controlDome a ≠ 0 ∧ bits a.cdw11.toNat 5 0 ≠ 0) ∧
      ((s.fn? (bits a.cdw11.toNat 5 0)).any (·.enabled) = true) ∧
      (s.vfBusy (bits a.cdw11.toNat 5 0) = false) ∧
      (s.str.bindings.any (fun b => b.1 == bits a.cdw11.toNat 5 0 || b.2 == controlDome a) = false) :=
  ⟨{ admin with cdw10 := 0x110001, cdw11 := 1 }, { base with fns := [{ id := 0 }, { id := 1 }] }, by decide⟩

theorem witness_StructureCommandsWait_4 : ∃ (a : Admin) (s : State) (f : Nat),
      (adminRuns a.src false s = true) ∧
      (a.src.fn = 0 ∧ s.granted 0 = true) ∧
      (bits a.cdw10.toNat 3 0 = 2 ∧ controlReserved a = false ∧ a.cdw11 = 0) ∧
      (controlDome a ≠ 0) ∧
      (s.boundFn (controlDome a) = some f) ∧
      (s.vfBusy f = false) :=
  ⟨{ admin with cdw10 := 0x110002 }, { base with str := { base.str with bindings := [(1, 0x11)] } }, 1, by decide⟩

theorem witness_StructureCommandsWait_5 : ∃ (a : Admin) (s : State),
      (adminRuns a.src false s = true) ∧
      (serviceGate a 1 true s = none) ∧
      (a.cdw11.toNat ≤ 799) ∧
      (s.str.fenced.contains a.cdw11.toNat = false) :=
  ⟨{ admin with cdw10 := 0x101, cdw11 := 799 }, base, by decide⟩

theorem witness_StructureCommandsWait_6 : ∃ (a : Admin) (s : State),
      (adminRuns a.src false s = true) ∧
      (serviceGate a 2 false s = none) ∧
      (a.cdw11.toNat ≤ 799) ∧
      (s.str.fenced.contains a.cdw11.toNat = true) :=
  ⟨{ admin with cdw10 := 2, cdw11 := 5 }, { base with str := { base.str with fenced := [5] } }, by decide⟩

set_option maxRecDepth 1000000 in
theorem witness_StructureChangesTakeEffect_1 : ∃ (s : State) (img : Image) (src : Src) (stopped : Option Nat),
      (s.str.change = some { kind := .image img, src, stopped }) ∧
      (s.sch.step = 1) ∧
      (img.partial_ = false ∨ (stopped.any (· < s.tick.toNat) = true ∧ s.busyUnder img.target = false)) :=
  ⟨{ base with str := { change := some { kind := .image parsed, src := ⟨0, 0, 1⟩ } }, sch := { step := 1 } }, parsed, ⟨0, 0, 1⟩, none, by decide +kernel⟩

theorem witness_StructureChangesTakeEffect_2 : ∃ (s : State) (d : Nat) (src : Src) (stopped : Option Nat),
      (s.str.change = some { kind := .dissolve d, src, stopped }) ∧
      (s.sch.step = 1) ∧
      (stopped.any (· < s.tick.toNat) = true ∧ s.busyUnder d = false) :=
  ⟨{ base with str := { base.str with change := some { kind := .dissolve 0x11, src := ⟨0, 0, 1⟩, stopped := some 3 } }, sch := { step := 1 }, tick := 4 }, 0x11, ⟨0, 0, 1⟩, some 3, by decide⟩

theorem witness_StructureChangesTakeEffect_3 : ∃ (s : State) (r : FenceReq) (rest : List FenceReq),
      (s.str.fences = r :: rest) ∧
      (s.str.change = none ∧ r.unfence = false) ∧
      (s.str.fenced.contains r.cluster = false) ∧
      (s.sch.step = 1) ∧
      (r.stopped.any (· < s.tick.toNat) = true ∧ (s.running r.cluster).isEmpty = true) :=
  ⟨{ base with str := { base.str with fences := [{ cluster := 1, replace := true, src := ⟨0, 0, 1⟩, unfence := false, stopped := some 3 }] }, sch := { step := 1 }, tick := 4 }, { cluster := 1, replace := true, src := ⟨0, 0, 1⟩, unfence := false, stopped := some 3 }, [], by decide⟩

theorem witness_StructureChangesTakeEffect_4 : ∃ (s : State) (r : FenceReq) (rest : List FenceReq),
      (s.str.fences = r :: rest) ∧
      (s.str.change = none ∧ r.unfence = true) ∧
      (s.str.fenced.contains r.cluster = true) ∧
      (s.sch.step = 1 ∧ r.stopped.any (· < s.tick.toNat) = true) :=
  ⟨{ base with str := { base.str with fenced := [5], fences := [{ cluster := 5, replace := false, src := ⟨0, 0, 1⟩, unfence := true, stopped := some 3 }] }, sch := { step := 1 }, tick := 4 }, { cluster := 5, replace := false, src := ⟨0, 0, 1⟩, unfence := true, stopped := some 3 }, [], by decide⟩

theorem witness_LanternCommandsComplete_1 : ∃ (a : Admin) (s : State),
      (adminRuns a.src false s = true) ∧
      (a.src.fn = 0 ∧ s.granted 9 = true) ∧
      (s.sec.obsOff = false) ∧
      (a.cdw10 = 0) ∧
      (a.cdw11 = 0 ∧ a.cdw12 = 0 ∧ a.cdw13 = 0 ∧ a.cdw14 = 0 ∧ a.cdw15 = 0) :=
  ⟨{ admin with cdw10 := 0 }, base, by decide⟩

theorem witness_LanternCommandsComplete_2 : ∃ (a : Admin) (s : State),
      (adminRuns a.src false s = true) ∧
      (a.src.fn = 0 ∧ s.granted 9 = true) ∧
      (s.sec.obsOff = false) ∧
      (a.cdw10 = 1) ∧
      (a.cdw11 = 0 ∧ a.cdw12 = 0 ∧ a.cdw13 = 0 ∧ a.cdw14 = 0 ∧ a.cdw15 = 0) :=
  ⟨{ admin with cdw10 := 1 }, base, by decide⟩

theorem witness_LanternCommandsComplete_3 : ∃ (a : Admin) (s : State),
      (adminRuns a.src false s = true) ∧
      (a.src.fn = 0 ∧ s.granted 9 = true) ∧
      (s.sec.obsOff = false) ∧
      (a.cdw10 = 2) ∧
      ((a.cdw12 ++ a.cdw11 : QWord) &&& ~~~lanSources = 0) ∧
      (a.cdw13 = 0 ∧ a.cdw14 = 0 ∧ a.cdw15 = 0) :=
  ⟨{ admin with cdw10 := 2, cdw11 := 0xC }, base, by decide⟩

theorem witness_LanternCommandsComplete_4 : ∃ (s : State),
      ((s.modLan fun l => { l with lpres := true }).lanternOn = true) ∧
      (s.powered = true) ∧
      ((s.domain 49).state = .off) :=
  ⟨base.modLan fun l => { l with enabled := true }, by decide⟩

theorem witness_LanternCommandsComplete_6 : ∃ (lane : Nat) (s : State) (p : Packet),
      (lane ≤ 1) ∧
      ((s.domain 49).state = .on) ∧
      (s.lan.fifo.find? (fun p => p.seq % 2 == lane) = some p) :=
  ⟨1, (modDomain 49 (fun d => { d with state := .on }) base).modLan fun l => { l with fifo := [⟨4, 0, 1, 0, []⟩] }, ⟨4, 0, 1, 0, []⟩, by decide⟩

theorem witness_BankCacheAndTrimCommandsComplete_1 : ∃ (a : Admin) (s : State),
      (adminRuns a.src false s = true) ∧
      (serviceGate a 7 false s = none) ∧
      (a.cdw11 = 0) ∧
      (s.emergency = false) :=
  ⟨{ admin with cdw10 := 7 }, base, by decide⟩

theorem witness_BankCacheAndTrimCommandsComplete_2 : ∃ (s : State),
      (s.cal.bankPhase = .idle) ∧
      (s.cal.bankSrc ≠ [] ∨ s.bankDue = true) ∧
      (s.calmTick = true) :=
  ⟨base, by decide⟩

theorem witness_BankCacheAndTrimCommandsComplete_3 : ∃ (deltaUv : Nat) (s : State),
      (s.cal.bankPhase = .drawing) ∧
      (deltaUv ≠ 0) :=
  ⟨2026342, { base with cal := { bankPhase := .drawing } }, by decide⟩

theorem witness_BankCacheAndTrimCommandsComplete_4 : ∃ (s : State) (c : Nat) (e : Nat) (r : Nat),
      (s.cal.bankPhase = .recharging) ∧
      (s.cal.bankNew = some (c, e, r)) :=
  ⟨{ base with cal := { bankPhase := .recharging, bankNew := some (98700, 30004, 5) } }, 98700, 30004, 5, by decide⟩

theorem witness_BankCacheAndTrimCommandsComplete_5 : ∃ (s : State) (mib : Nat),
      (s.fls.cacheTarget = some mib) ∧
      (s.cacheUsed ≤ mib * 256) :=
  ⟨{ base with fls := { cacheTarget := some 64 } }, 64, by decide⟩

theorem witness_BankCacheAndTrimCommandsComplete_6 : ∃ (raw : List Int),
      (raw.length = 40) :=
  ⟨List.replicate 40 500, by decide⟩

theorem witness_DispatchCompletes_1 : ∃ (t : TaskRef) (us : Nat) (s : State) (c : Cmd) (h : Chain) (d : Nat) (cl : Nat) (lent : Option Nat),
      (s.cmd? t.src = some c ∧ s.chain? t = some h) ∧
      (s.hb.quiesced = false ∧ s.life.phase = .up ∧ s.sch.step = 0) ∧
      (s.heldLow c h = false ∧ s.onlyThrottled c h = false) ∧
      (s.turn us = some d) ∧
      (s.firstOf us d = some (t, cl, lent)) ∧
      ((s.domain (cl / 32)).state = .on) ∧
      (30 ≤ s.sch.budget) :=
  ⟨task, 5, ready, command, { tasks := [{ worst := 20, t0 := 4096 }] }, 0x11, 0, none, by decide⟩

theorem witness_DispatchCompletes_2 : ∃ (t : TaskRef) (us : Nat) (s : State) (c : Cmd) (h : Chain) (d : Nat) (cl : Nat) (lent : Option Nat),
      (s.cmd? t.src = some c ∧ s.chain? t = some h) ∧
      (s.hb.quiesced = false ∧ s.life.phase = .up ∧ s.sch.step = 0) ∧
      (s.heldLow c h = false ∧ s.onlyThrottled c h = false) ∧
      (s.turn us = some d) ∧
      (s.firstOf us d = some (t, cl, lent)) ∧
      ((s.domain (cl / 32)).state = .on) ∧
      (s.sch.budget < 30) :=
  ⟨task, 5, ready.modSch fun k => { k with budget := 29 }, command, { tasks := [{ worst := 20, t0 := 4096 }] }, 0x11, 0, none, by decide⟩

theorem witness_DispatchCompletes_3 : ∃ (t : TaskRef) (s : State) (c : Cmd) (h : Chain),
      (s.cmd? t.src = some c ∧ s.chain? t = some h) ∧
      (s.hb.quiesced = false ∧ s.life.phase = .up ∧ s.sch.step = 0) ∧
      (s.heldLow c h = true) :=
  ⟨task, (ready.modStr fun x => { x with domes := [{ id := 0x11, parent := 0, clusters := [0, 1], lowPri := true }] }).modSch fun k => { k with shed := 8 }, command, { tasks := [{ worst := 20, t0 := 4096 }] }, by decide⟩

theorem witness_DispatchCompletes_4 : ∃ (t : TaskRef) (s : State) (c : Cmd) (h : Chain),
      (s.cmd? t.src = some c ∧ s.chain? t = some h) ∧
      (s.hb.quiesced = false ∧ s.life.phase = .up ∧ s.sch.step = 0) ∧
      (s.heldLow c h = false ∧ s.onlyThrottled c h = true) :=
  ⟨task, { ready with pwr := { ready.pwr with level := 3 } }, command, { tasks := [{ worst := 20, t0 := 4096 }] }, by decide⟩

theorem witness_TaskEventsComplete_1 : ∃ (t : TaskRef) (us : Nat) (x : TaskEnd) (s : State) (c0 : Cmd) (c : Cmd) (h0 : Chain) (h : Chain) (r0 : Run) (r : Run),
      (s.flight? t = some (c0, h0, r0)) ∧
      (r0.wait = .none ∧ s.ranFor r0 us ≤ h0.task.worst + 500) ∧
      (x.fail = none) ∧
      ((advance t (h0.task.firstOp + h0.task.ops) s).flight? t = some (c, h, r)) ∧
      (h.ran c = true ∧ r.wait = .none) ∧
      (undeclaredTouch s h x c = none) :=
  ⟨task, 15, {}, flying, { command with chains := [{ tasks := [{ worst := 20, t0 := 4096 }], run := some { cluster := 0, start := 0 } }] }, { command with chains := [{ tasks := [{ worst := 20, t0 := 4096 }], run := some { cluster := 0, start := 0 } }] }, { tasks := [{ worst := 20, t0 := 4096 }], run := some { cluster := 0, start := 0 } }, { tasks := [{ worst := 20, t0 := 4096 }], run := some { cluster := 0, start := 0 } }, { cluster := 0, start := 0 }, { cluster := 0, start := 0 }, by decide⟩

theorem witness_TaskEventsComplete_2 : ∃ (t : TaskRef) (us : Nat) (x : TaskEnd) (s : State) (c0 : Cmd) (c : Cmd) (h0 : Chain) (h : Chain) (r0 : Run) (r : Run) (id : Nat),
      (s.flight? t = some (c0, h0, r0)) ∧
      (r0.wait = .none ∧ s.ranFor r0 us ≤ h0.task.worst + 500) ∧
      (x.fail = none) ∧
      ((advance t (h0.task.firstOp + h0.task.ops) s).flight? t = some (c, h, r)) ∧
      (h.ran c = true ∧ r.wait = .none) ∧
      (undeclaredTouch s h x c = some id) :=
  ⟨task, 15, { touched := [(66, 0)] }, flying.modObj fun o => { o with list := [{ object with flags := 0x22 }] }, { command with chains := [{ tasks := [{ worst := 20, t0 := 4096 }], run := some { cluster := 0, start := 0 } }] }, { command with chains := [{ tasks := [{ worst := 20, t0 := 4096 }], run := some { cluster := 0, start := 0 } }] }, { tasks := [{ worst := 20, t0 := 4096 }], run := some { cluster := 0, start := 0 } }, { tasks := [{ worst := 20, t0 := 4096 }], run := some { cluster := 0, start := 0 } }, { cluster := 0, start := 0 }, { cluster := 0, start := 0 }, 66, by decide⟩

theorem witness_TaskEventsComplete_3 : ∃ (t : TaskRef) (us : Nat) (x : TaskEnd) (s : State) (c : Cmd) (h : Chain) (r : Run) (f : Failure),
      (s.flight? t = some (c, h, r)) ∧
      (r.wait = .none ∧ s.ranFor r us ≤ h.task.worst + 500) ∧
      (x.fail = some f) :=
  ⟨task, 15, { fail := some { sct := 7, sc := 0x8D } }, flying, { command with chains := [{ tasks := [{ worst := 20, t0 := 4096 }], run := some { cluster := 0, start := 0 } }] }, { tasks := [{ worst := 20, t0 := 4096 }], run := some { cluster := 0, start := 0 } }, { cluster := 0, start := 0 }, { sct := 7, sc := 0x8D }, by decide⟩

theorem witness_TaskEventsComplete_4 : ∃ (t : TaskRef) (us : Nat) (s : State) (c : Cmd) (h : Chain) (r : Run),
      (s.flight? t = some (c, h, r)) ∧
      (h.task.worst + 500 ≤ s.ranFor r us) :=
  ⟨task, 20, { flying with tick := 1 }, { command with chains := [{ tasks := [{ worst := 20, t0 := 4096 }], run := some { cluster := 0, start := 0 } }] }, { tasks := [{ worst := 20, t0 := 4096 }], run := some { cluster := 0, start := 0 } }, { cluster := 0, start := 0 }, by decide⟩

theorem witness_SwitchAndSemaphoreEventsComplete_1 : ∃ (part : Nat) (us : Nat) (s : State) (p : SlicePtr),
      (s.switching part = some p) ∧
      (p.phase = .idle) ∧
      (s.windowNeeded p = true) ∧
      (p.lead < p.timeLeft us ∧ p.timeLeft us ≤ p.lead + 100) :=
  ⟨0x11, 450, sliced.modSch fun k => { k with cmds := [command], sems := [{ id := 1, dome := none, count := 0, maximum := 1, domes := [0x11], held := [(⟨0, 1, 2⟩, 1)] }] }, { part := 0x11, left := 1, fresh := false, lead := 20 }, by decide⟩

theorem witness_SwitchAndSemaphoreEventsComplete_2 : ∃ (part : Nat) (us : Nat) (s : State) (p : SlicePtr),
      (s.switching part = some p) ∧
      ((p.phase = .idle ∧ p.timeLeft us ≤ p.lead) ∨
      (p.phase = .window ∧ ((p.overrun = false ∧ p.timeLeft us ≤ p.lead) ∨ (p.overrun = true ∧ p.windowAt + 100 ≤ s.now us)))) :=
  ⟨0x11, 480, sliced, { part := 0x11, left := 1, fresh := false, lead := 20 }, by decide⟩

theorem witness_SwitchAndSemaphoreEventsComplete_3 : ∃ (part : Nat) (cl : Nat) (s : State) (p : SlicePtr) (i : Option Nat) (w : Switch),
      (s.ptr? part = some p) ∧
      (p.switchOn cl = some (i, w)) ∧
      (w.saving.contains cl = true) ∧
      ((s.domain (cl / 32)).state = .on) ∧
      (s.busyWith w.outgoing cl = false) :=
  ⟨0x11, 0, modPtr 0x11 (fun p => { p with phase := .saving, outgoing := [0x11], saving := [0] }) sliced, { part := 0x11, left := 1, fresh := false, lead := 20, phase := .saving, outgoing := [0x11], saving := [0] }, none, { outgoing := [0x11], incoming := [], saving := [0], restoring := [], saveAt := 0, boundary := 0 }, by decide⟩

theorem witness_SwitchAndSemaphoreEventsComplete_4 : ∃ (part : Nat) (cl : Nat) (s : State) (p : SlicePtr) (i : Option Nat) (w : Switch),
      (s.ptr? part = some p) ∧
      (p.switchOn cl = some (i, w)) ∧
      (w.saving.contains cl = false) ∧
      ((s.domain (cl / 32)).state = .on) :=
  ⟨0x11, 0, modPtr 0x11 (fun p => { p with phase := .saving, incoming := [0x11], restoring := [0] }) sliced, { part := 0x11, left := 1, fresh := false, lead := 20, phase := .saving, incoming := [0x11], restoring := [0] }, none, { outgoing := [], incoming := [0x11], saving := [], restoring := [0], saveAt := 0, boundary := 0 }, by decide⟩

theorem witness_SwitchAndSemaphoreEventsComplete_5 : ∃ (t : TaskRef) (id : Nat) (s : State) (c : Cmd) (h : Chain) (r : Run) (i : Nat) (m : Sem),
      (s.flight? t = some (c, h, r)) ∧
      (r.wait = .none) ∧
      ((ensureSem c.dome id s).semIndex c.dome id = some i ∧ (ensureSem c.dome id s).sch.sems[i]? = some m) ∧
      (m.denies c.dome = false) :=
  ⟨task, 1, flying.modSch fun k => { k with sems := [{ id := 1, dome := none, count := 1, maximum := 1, domes := [0x11] }] }, { command with chains := [{ tasks := [{ worst := 20, t0 := 4096 }], run := some { cluster := 0, start := 0 } }] }, { tasks := [{ worst := 20, t0 := 4096 }], run := some { cluster := 0, start := 0 } }, { cluster := 0, start := 0 }, 0, { id := 1, dome := none, count := 1, maximum := 1, domes := [0x11] }, by decide⟩

theorem witness_SwitchAndSemaphoreEventsComplete_6 : ∃ (t : TaskRef) (id : Nat) (s : State) (c : Cmd) (h : Chain) (r : Run) (i : Nat) (m : Sem),
      (s.flight? t = some (c, h, r)) ∧
      (r.wait = .none) ∧
      ((ensureSem c.dome id s).semIndex c.dome id = some i ∧ (ensureSem c.dome id s).sch.sems[i]? = some m) ∧
      (m.denies c.dome = false) ∧
      (m.waiters ≠ [] ∨ m.count + 1 ≤ m.maximum) :=
  ⟨task, 1, flying.modSch fun k => { k with sems := [{ id := 1, dome := none, count := 0, maximum := 1, domes := [0x11] }] }, { command with chains := [{ tasks := [{ worst := 20, t0 := 4096 }], run := some { cluster := 0, start := 0 } }] }, { tasks := [{ worst := 20, t0 := 4096 }], run := some { cluster := 0, start := 0 } }, { cluster := 0, start := 0 }, 0, { id := 1, dome := none, count := 0, maximum := 1, domes := [0x11] }, by decide⟩

theorem witness_SwitchAndSemaphoreEventsComplete_7 : ∃ (sem : Nat) (i : Nat) (cl : Nat) (wd : Nat) (s : State) (m : Sem) (c : Cmd) (k : TaskSpec),
      (s.hb.quiesced = false) ∧
      (s.sch.sems.findIdx? (fun m => m.id == sem && m.dome.isNone) = some i ∧ s.sch.sems[i]? = some m) ∧
      (m.suspended.bind s.cmd? = some c) ∧
      (s.otherWaiter m c.dome = some wd) ∧
      (m.lending = none ∧ s.eligible c.dome = false ∧ s.eligible wd = true) ∧
      (c.nextTask = some k ∧ s.place wd k.t0 = some cl) ∧
      ((s.domain (cl / 32)).state = .on) :=
  ⟨1, 0, 1, 0x13, lender, lenderSem, { command with dome := 0x12, suspended := true }, { worst := 20, t0 := 4096 }, by decide⟩

theorem witness_SwitchAndSemaphoreEventsComplete_8 : ∃ (t : TaskRef) (cl : Nat) (s : State) (c : Cmd) (h : Chain),
      (s.cmd? t.src = some c ∧ s.chain? t = some h) ∧
      (s.fillCancelled c.dome cl = false ∧ h.fillWaits = false) :=
  ⟨task, 0, flying, { command with chains := [{ tasks := [{ worst := 20, t0 := 4096 }], run := some { cluster := 0, start := 0 } }] }, { tasks := [{ worst := 20, t0 := 4096 }], run := some { cluster := 0, start := 0 } }, by decide⟩

theorem witness_BlockCommandsComplete_1 : ∃ (n : Nvm) (x : Ns) (s : State),
      (nvmRuns n.src s = true) ∧
      (nvmCheck n.src.fn n.nsid.toNat n.slba.toNat (blockCount n) s = .ok x) :=
  ⟨nvm, space, spaced, by exact ⟨by decide, rfl⟩⟩

theorem witness_BlockCommandsComplete_2 : ∃ (n : Nvm) (x : Ns) (s : State),
      (nvmRuns n.src s = true) ∧
      (nvmCheck n.src.fn n.nsid.toNat n.slba.toNat (blockCount n) s = .ok x) :=
  ⟨nvm, space, spaced, by exact ⟨by decide, rfl⟩⟩

theorem witness_BlockCommandsComplete_3 : ∃ (n : Nvm) (x : Ns) (s : State),
      (nvmRuns n.src s = true) ∧
      (nvmCheck n.src.fn n.nsid.toNat n.slba.toNat (blockCount n) s = .ok x) ∧
      (s.readOnly = false) ∧
      (let s1 := readRest n x (begun n.src 0x01 0xFFFF s)
      s1.cacheUnits ≠ 0 ∧ s1.cacheTakes x.nsid (x.units n.slba.toNat (blockCount n)) = true) :=
  ⟨nvm, space, spaced, by exact ⟨by decide, rfl, by decide, by decide⟩⟩

theorem witness_BlockCommandsComplete_4 : ∃ (n : Nvm) (x : Ns) (s : State),
      (nvmRuns n.src s = true) ∧
      (nvmCheck n.src.fn n.nsid.toNat 0 0 s = .ok x) :=
  ⟨nvm, space, spaced, by exact ⟨by decide, rfl⟩⟩

theorem witness_BlockCommandsComplete_5 : ∃ (n : Nvm) (x : Ns) (s : State),
      (nvmRuns n.src s = true) ∧
      (nvmCheck n.src.fn n.nsid.toNat n.slba.toNat (blockCount n) s = .ok x) ∧
      (s.readOnly = false) :=
  ⟨nvm, space, spaced, by exact ⟨by decide, rfl, by decide⟩⟩

theorem witness_BlockCommandsComplete_6 : ∃ (n : Nvm) (x : Ns) (s : State),
      (nvmRuns n.src s = true) ∧
      (nvmCheck n.src.fn n.nsid.toNat 0 0 s = .ok x) ∧
      (bit n.cdw11.toNat 2 = true ∧ s.readOnly = false) ∧
      (((dsmRanges n).any fun r => r.1 + r.2 > x.size) = false) :=
  ⟨nvm, space, spaced, by exact ⟨by decide, rfl, by decide, by decide⟩⟩

set_option maxRecDepth 1000000 in
theorem witness_NamespaceCommandsComplete_1 : ∃ (a : Admin) (k : Nat) (s : State),
      (adminRuns a.src false s = true) ∧
      (s.sanitizing = false) ∧
      (a.nsid ≠ 257 ∧ bits a.cdw10.toNat 3 0 = 0) ∧
      (le a.input 0 8 ≠ 0 ∧ bits (le a.input 26 1) 3 0 ≤ 1) ∧
      (extentsFor (le a.input 0 8) (bits (le a.input 26 1) 3 0) + s.nsExtents + s.quotaExtents ≤ 14305114) ∧
      (s.freeNsid = some k) :=
  ⟨{ admin with input := [1] }, 1, base, by decide +kernel⟩

theorem witness_NamespaceCommandsComplete_2 : ∃ (a : Admin) (x : Ns) (s : State),
      (adminRuns a.src false s = true) ∧
      (s.sanitizing = false) ∧
      (bits a.cdw10.toNat 3 0 = 1 ∧ a.nsid ≠ 0xFFFFFFFF) ∧
      (s.ns? a.nsid.toNat = some x ∧ x.busy = false) :=
  ⟨{ admin with cdw10 := 1, nsid := 1 }, space, spaced, by decide⟩

theorem witness_NamespaceCommandsComplete_3 : ∃ (a : Admin) (x : Ns) (s : State),
      (adminRuns a.src false s = true) ∧
      (s.sanitizing = false) ∧
      (s.ns? a.nsid.toNat = some x ∧ x.busy = false) ∧
      (bits a.cdw10.toNat 3 0 ≤ 1) ∧
      (let cs := (List.range (le a.input 0 2)).map fun i => le a.input (2 + 2 * i) 2
      cs ≠ [] ∧ cs.all (fun c => (s.fn? c).isSome) = true ∧ cs.all (fun c => x.attached.contains c == (bits a.cdw10.toNat 3 0 == 1)) = true) :=
  ⟨{ admin with cdw10 := 1, nsid := 1, input := [1, 0, 0, 0] }, space, spaced, by decide⟩

theorem witness_NamespaceCommandsComplete_4 : ∃ (a : Admin) (s : State),
      (adminRuns a.src false s = true) ∧
      (s.sanitizing = false) ∧
      (a.nsid = 0xFFFFFFFF ∨ (s.nsNamed a.nsid.toNat).isEmpty = false) ∧
      (bits a.cdw10.toNat 11 9 ≤ 2 ∧ bits a.cdw10.toNat 3 0 ≤ 1 ∧ bits a.cdw10.toNat 8 4 = 0) ∧
      ((s.nsNamed a.nsid.toNat).any (·.busy) = false ∧ (s.progressOf a.src.fn).any Progress.running = false) :=
  ⟨{ admin with nsid := 1 }, spaced, by decide⟩

theorem witness_NamespaceCommandsComplete_5 : ∃ (a : Admin) (s : State),
      (adminRuns a.src false s = true) ∧
      (sanact a = 2) ∧
      (s.sanitizing = false ∧ s.fls.progress.any Progress.running = false ∧ s.hostCmds = []) :=
  ⟨{ admin with cdw10 := 2 }, spaced, by decide⟩

theorem witness_NamespaceCommandsComplete_6 : ∃ (a : Admin) (s : State),
      (adminRuns a.src false s = true) ∧
      (sanact a = 4) ∧
      (s.sanitizing = false ∧ s.fls.progress.any Progress.running = false ∧ s.hostCmds = []) :=
  ⟨{ admin with cdw10 := 4 }, spaced, by decide⟩

theorem witness_NamespaceCommandsComplete_7 : ∃ (p : Progress) (s : State),
      (s.progressOf p.fn = some p ∧ p.running = true) :=
  ⟨{ fn := 0, op := 4, state := 1, nsid := 0xFFFFFFFF }, spaced.modFls fun x => { x with progress := [{ fn := 0, op := 4, state := 1, nsid := 0xFFFFFFFF }] }, by decide⟩

set_option maxRecDepth 1000000 in
theorem witness_FlashProgramsAndCopiesComplete_1 : ∃ (nsid : Nat) (ext : Nat) (group : Nat) (members : List Nat) (s : State) (s1 : State),
      let whole := s.fls.dirtyExt.contains (nsid, ext)
      let us := if whole then List.range 4096 else s.dirtyOf (nsid, ext)
      let coarse := us.length == 4096
      (us ≠ []) ∧
      (8192 ≤ s.fls.free) ∧
      (s.fineMaps < 1048576) ∧
      (openTarget group members (s.sourceOf (nsid, ext)) (!coarse) s.fls.readOnly (if coarse then 4096 else us.length) s = some s1) :=
  ⟨1, 0, 0, members, dirtied, (openTarget 0 members .host true false 1 dirtied).get (by decide +kernel), by exact ⟨by decide +kernel, by decide +kernel, by decide +kernel, (Option.some_get _).symm⟩⟩

set_option maxRecDepth 1000000 in
theorem witness_FlashProgramsAndCopiesComplete_2 : ∃ (group : Nat) (target : Nat) (members : List Nat) (s : State) (s1 : State),
      (s.victimGroup = some group) ∧
      (s.fls.free < 32768) ∧
      (openTarget target members .gc false true 4096 s = some s1) :=
  ⟨0, 1, others, scarce, (openTarget 1 others .gc false true 4096 scarce).get (by decide +kernel), by exact ⟨by decide +kernel, by decide +kernel, (Option.some_get _).symm⟩⟩

set_option maxRecDepth 1000000 in
theorem witness_FlashProgramsAndCopiesComplete_3 : ∃ (block : Nat) (target : Nat) (members : List Nat) (s : State) (s1 : State) (g : Group),
      (s.fls.refreshQ.contains block = true) ∧
      ((s.fls.refreshQ.any fun b => (s.block b).reads > (s.block block).reads) = false) ∧
      ((s.block block).group.bind s.group? = some g) ∧
      (openTarget target members .refresh false true 4096 s = some s1) :=
  ⟨0, 1, others, queued, (openTarget 1 others .refresh false true 4096 queued).get (by decide +kernel), { id := 0, members, source := .host, open_ := false, used := 4096 }, by exact ⟨by decide +kernel, by decide +kernel, by decide +kernel, (Option.some_get _).symm⟩⟩

set_option maxRecDepth 1000000 in
theorem witness_FlashProgramsAndCopiesComplete_4 : ∃ (block : Nat) (target : Nat) (members : List Nat) (s : State) (g : Group),
      (s.fls.refreshQ.contains block = true) ∧
      ((s.fls.refreshQ.any fun b => (s.block b).reads > (s.block block).reads) = false) ∧
      ((s.block block).group.bind s.group? = some g) ∧
      ((openTarget target members .refresh false true 4096 s).isNone = true ∧ s.fls.free < 48) :=
  ⟨0, 1, [], closedGroup.modFls fun x => { x with refreshQ := [0], free := 7 }, { id := 0, members, source := .host, open_ := false, used := 4096 }, by decide +kernel⟩

set_option maxRecDepth 1000000 in
theorem witness_FlashProgramsAndCopiesComplete_5 : ∃ (group : Nat) (s : State) (g : Group),
      (s.group? group = some g) ∧
      (g.programming ≠ []) :=
  ⟨0, programming, { id := 0, members, source := .host, fine := true, used := 1, programming := [oneUnit] }, by decide +kernel⟩

set_option maxRecDepth 1000000 in
theorem witness_FlashProgramsAndCopiesComplete_6 : ∃ (block : Nat) (target : Nat) (members : List Nat) (s : State) (s1 : State) (g : Group),
      ((s.block block).group.bind s.group? = some g) ∧
      (g.programming ≠ [] ∧ (s.block block).state = .openB) ∧
      (openTarget target members g.source g.fine true g.used s = some s1 ∧ target ≠ g.id) :=
  ⟨0, 1, others, programming, (openTarget 1 others .host true true 1 programming).get (by decide +kernel), { id := 0, members, source := .host, fine := true, used := 1, programming := [oneUnit] }, by exact ⟨by decide +kernel, by decide +kernel, (Option.some_get _).symm, by decide +kernel⟩⟩

set_option maxRecDepth 1000000 in
theorem witness_FlashBlockEventsComplete_1 : ∃ (block : Nat) (page : Nat) (r : ReadEnd) (s : State) (s0 : State),
      ((s.fls.reads.any fun x => x.waits.contains (block, page)) = true) ∧
      ((readFailed r && s.hasSource block) = false) ∧
      (serveRead block page s = some s0) :=
  ⟨0, 0, .ok, reading, (serveRead 0 0 reading).get (by decide +kernel), by exact ⟨by decide +kernel, by decide +kernel, (Option.some_get _).symm⟩⟩

set_option maxRecDepth 1000000 in
theorem witness_FlashBlockEventsComplete_2 : ∃ (block : Nat) (s : State),
      (s.eff.refresh ≤ (s.block block).reads) :=
  ⟨0, { closedGroup with eff := { closedGroup.eff with refresh := 0 } }, by decide +kernel⟩

set_option maxRecDepth 1000000 in
theorem witness_FlashBlockEventsComplete_3 : ∃ (block : Nat) (s : State),
      ((s.block block).state = .stale ∧ (s.block block).pendingReads = 0) ∧
      (let d := s.die (dieOf block)
      d.busy = none ∧ d.retiring = false ∧ d.retired = false ∧ s.diesMayWork [dieOf block] = true) :=
  ⟨3, modBlock 3 (fun b => { b with state := .stale }) base, by decide +kernel⟩

set_option maxRecDepth 1000000 in
theorem witness_FlashBlockEventsComplete_4 : ∃ (block : Nat) (s : State),
      (s.erasing block = true ∧ (s.block block).state = .erasing) ∧
      ((s.die (dieOf block)).retiring = false) :=
  ⟨3, erasing, by decide +kernel⟩

set_option maxRecDepth 1000000 in
theorem witness_FlashBlockEventsComplete_5 : ∃ (block : Nat) (s : State),
      (s.erasing block = true) :=
  ⟨3, erasing, by decide +kernel⟩

set_option maxRecDepth 1000000 in
theorem witness_FlashBlockEventsComplete_6 : ∃ (die : Nat) (s : State) (o : DieOp),
      ((s.die die).busy = some o ∧ o.suspended = true ∧ o.batch = 0) :=
  ⟨0, modDie 0 (fun d => { d with busy := some { block := 3, erase := true, suspends := 1, suspended := true } }) base, { block := 3, erase := true, suspends := 1, suspended := true }, by decide +kernel⟩

set_option maxRecDepth 1000000 in
theorem witness_FlashBlockEventsComplete_7 : ∃ (block : Nat) (s : State) (g : Group),
      ((s.block block).group.bind s.group? = some g) ∧
      ((s.block block).state = .closed ∧ (s.block block).verified = false) :=
  ⟨0, closedGroup, { id := 0, members, source := .host, open_ := false, used := 4096 }, by decide +kernel⟩

set_option maxRecDepth 1000000 in
theorem witness_FlashBlockEventsComplete_8 : ∃ (group : Nat) (s : State) (g : Group),
      (s.group? group = some g) ∧
      (g.open_ = true ∧ g.spilled = false ∧ g.parity = true) ∧
      (4294967296 < sumN (s.fls.groups.map Group.parityBytes) + 22 * 16384) ∧
      ((s.fls.groups.any fun h => h.open_ && h.parity && !h.spilled && h.stamp < g.stamp) = false) :=
  ⟨0, base.modFls fun x => { x with groups := [{ id := 0, members, source := .host, used := 80000000 }] }, { id := 0, members, source := .host, used := 80000000 }, by decide +kernel⟩

set_option maxRecDepth 1000000 in
theorem witness_DieRetirementComplete_1 : ∃ (a : Admin) (s : State),
      (adminRuns a.src false s = true) ∧
      (a.src.fn = 0 ∧ s.granted 10 = true) ∧
      (a.cdw10 = 4 ∧ a.cdw12 = 0 ∧ a.cdw13 = 0 ∧ a.cdw14 = 0 ∧ a.cdw15 = 0) ∧
      (a.cdw11.toNat ≤ 511) ∧
      ((s.die a.cdw11.toNat).retired = false) ∧
      (s.fls.retire.find? (·.1 == a.cdw11.toNat) = none ∧ s.goodBlocks a.cdw11.toNat ≤ s.fls.spares) :=
  ⟨{ admin with cdw10 := 4 }, base, by decide +kernel⟩

set_option maxRecDepth 1000000 in
theorem witness_DieRetirementComplete_2 : ∃ (a : Admin) (r : Nat × Option Src × Nat) (s : State),
      (adminRuns a.src false s = true) ∧
      (a.src.fn = 0 ∧ s.granted 10 = true) ∧
      (a.cdw10 = 4 ∧ a.cdw12 = 0 ∧ a.cdw13 = 0 ∧ a.cdw14 = 0 ∧ a.cdw15 = 0) ∧
      (a.cdw11.toNat ≤ 511) ∧
      ((s.die a.cdw11.toNat).retired = false) ∧
      (s.fls.retire.find? (·.1 == a.cdw11.toNat) = some r) :=
  ⟨{ admin with cdw10 := 4 }, (0, none, 7), base.modFls fun x => { x with retire := [(0, none, 7)] }, by decide +kernel⟩

set_option maxRecDepth 1000000 in
theorem witness_DieRetirementComplete_3 : ∃ (die : Nat) (s : State),
      ((s.fls.retire.find? (·.1 == die)).isSome = true) ∧
      (let s1 := (s.fls.blocks.filter fun b => dieOf b.id == die && b.state == .closed).foldl (fun s b => substitute b.id s) s
      (s1.fls.blocks.any fun b => dieOf b.id == die && b.state != .retired && b.state != .bad) = false) :=
  ⟨0, base.modFls fun x => { x with retire := [(0, none, 0)] }, by decide +kernel⟩

set_option maxRecDepth 1000000 in
theorem witness_DieRetirementComplete_4 : ∃ (die : Nat) (s : State),
      (die ≤ 511) ∧
      ((s.die die).retiring = false ∧ (s.die die).retired = false) :=
  ⟨0, base, by decide +kernel⟩

theorem witness_MemoryIntegrityEventsComplete_1 : ∃ (d : DecodeFound) (s : State),
      (frameExists d.at_ = true ∧ s.deadFrame d.at_ = false) ∧
      (s.poisonOf d.at_ = [] ∧ d.received.length = 129) ∧
      (((frameWords d.received).2.isEmpty && d.tagOk) = false) ∧
      ((d.tagOk && (d.found.any fun f => (decodeOk d.received f ((frameWords d.received).2.map (·.1))).isNone)) = false) :=
  ⟨{ at_ := .t1 9 5, received := List.replicate 129 (0, 0), found := none, tagOk := false, reader := .scrubber }, base, by simp; decide⟩

theorem witness_MemoryIntegrityEventsComplete_2 : ∃ (d : DecodeFound) (s : State),
      (frameExists d.at_ = true ∧ s.deadFrame d.at_ = true) :=
  ⟨{ at_ := .t1 9 5, received := [], found := none, reader := .scrubber }, base.modItg fun t => { t with deadPkgs := [9] }, by decide⟩

theorem witness_MemoryIntegrityEventsComplete_3 : ∃ (d : DecodeFound) (s : State) (w : Nat),
      (frameExists d.at_ = true ∧ s.deadFrame d.at_ = false) ∧
      ((s.poisonOf d.at_).head? = some w ∧ d.reader ≠ .scrubber) :=
  ⟨{ at_ := .t1 9 5, received := [], found := none, reader := .mapTable }, base.modItg fun t => { t with poisoned := [(.t1 9 5, 4)] }, 4, by decide⟩

theorem witness_MemoryIntegrityEventsComplete_4 : ∃ (a : FrameAt) (f : FrameBits) (s : State),
      (frameExists a = true ∧ s.scrubs a = true) ∧
      ((match a with | .t0 _ f => f | .t1 _ f => f) = (s.scrub a).next) ∧
      (f.length = 129) ∧
      (frameWords f = ([], [])) :=
  ⟨.t1 0 0, List.replicate 129 (0, 0), base, by exact ⟨by decide, by decide, List.length_replicate .., cleanFrame 129⟩⟩

theorem witness_MemoryIntegrityEventsComplete_5 : ∃ (g : Nat) (s : State),
      ((s.itg.retiring.find? fun r => r.1 == g && r.2.2).isSome = true) :=
  ⟨2, base.modItg fun t => { t with retiring := [(2, none, true)] }, by decide⟩

theorem witness_MemoryIntegrityEventsComplete_6 : ∃ (p : Nat) (s : State),
      (p ≤ 31 ∧ s.itg.deadPkgs.contains p = false ∧ s.itg.retired.contains (p / 4) = false) ∧
      (s.leaving (p / 4) = false) :=
  ⟨9, base, by decide⟩

theorem witness_MemoryIntegrityEventsComplete_7 : ∃ (a : Admin) (s : State),
      (adminRuns a.src false s = true) ∧
      (a.src.fn = 0 ∧ s.granted 10 = true) ∧
      (a.cdw10 = 3 ∧ a.cdw12 = 0 ∧ a.cdw13 = 0 ∧ a.cdw14 = 0 ∧ a.cdw15 = 0) ∧
      (a.cdw11.toNat ≤ 7 ∧ s.itg.retired.contains a.cdw11.toNat = false) ∧
      (1 < ((List.range 8).filter fun g => !s.itg.retired.contains g).length) :=
  ⟨{ admin with cdw10 := 3, cdw11 := 7 }, base, by decide⟩

theorem witness_QueueAdminCommandsComplete_1 : ∃ (a : Admin) (s : State),
      (adminRuns a.src false s = true) ∧
      (s.queueIdOk a.src.fn (bits a.cdw10.toNat 15 0) false = true ∧ (s.cq? a.src.fn (bits a.cdw10.toNat 15 0)).isSome = false) ∧
      (1 ≤ bits a.cdw10.toNat 31 16 ∧ bit a.cdw11.toNat 0 = true) ∧
      (bit a.cdw11.toNat 1 = true → bits a.cdw11.toNat 31 16 < (if a.src.fn = 0 then 2048 else 64)) :=
  ⟨{ admin with cdw10 := 0x001F0003, cdw11 := 0x00050003 }, base, by decide⟩

theorem witness_QueueAdminCommandsComplete_2 : ∃ (a : Admin) (s : State),
      (adminRuns a.src false s = true) ∧
      (s.queueIdOk a.src.fn (bits a.cdw10.toNat 15 0) true = true ∧ (s.sq? a.src.fn (bits a.cdw10.toNat 15 0)).isSome = false) ∧
      (bits a.cdw11.toNat 31 16 ≠ 0 ∧ (s.cq? a.src.fn (bits a.cdw11.toNat 31 16)).isNone = false) ∧
      (1 ≤ bits a.cdw10.toNat 31 16 ∧ bit a.cdw11.toNat 0 = true) :=
  ⟨{ admin with cdw10 := 0x001F0003, cdw11 := 0x00010001 }, base, by decide⟩

theorem witness_QueueAdminCommandsComplete_3 : ∃ (a : Admin) (s : State),
      (adminRuns a.src false s = true) ∧
      (bits a.cdw10.toNat 15 0 ≠ 0 ∧ (s.cq? a.src.fn (bits a.cdw10.toNat 15 0)).isNone = false) ∧
      ((s.q.sqs.any fun q => q.fn == a.src.fn && q.cq == bits a.cdw10.toNat 15 0 && q.id != 0) = false) :=
  ⟨{ admin with cdw10 := 1 }, base.modQ fun q => { q with sqs := [] }, by decide⟩

theorem witness_QueueAdminCommandsComplete_4 : ∃ (a : Admin) (s : State),
      (adminRuns a.src false s = true) ∧
      (bits a.cdw10.toNat 15 0 ≠ 0 ∧ (s.sq? a.src.fn (bits a.cdw10.toNat 15 0)).any (·.deleting.isNone) = true) :=
  ⟨{ admin with cdw10 := 1 }, base, by decide⟩

theorem witness_InformationCommandsComplete_1 : ∃ (a : Admin) (s : State) (s1 : State) (p : List Byte),
      (adminRuns a.src true s = true) ∧
      (a.cdw12.toNat % 4 = 0) ∧
      (logPage (bits a.cdw10.toNat 7 0) a.src.fn (a.cdw12.toNat + 2 ^ 32 * a.cdw13.toNat) (begun a.src 0x02 0xFFFF s) = some (p, s1)) :=
  ⟨{ admin with cdw10 := 0x000F00C2 }, base, (begun ⟨0, 0, 1⟩ 0x02 0xFFFF base), progressPage 0 (begun ⟨0, 0, 1⟩ 0x02 0xFFFF base), by exact ⟨by decide, by decide, rfl⟩⟩

theorem witness_InformationCommandsComplete_2 : ∃ (a : Admin) (s : State) (d : List Byte),
      (adminRuns a.src true s = true) ∧
      (identifyData a.src.fn (bits a.cdw10.toNat 7 0) (bits a.cdw10.toNat 31 16) (bits a.cdw11.toNat 31 24) a.nsid.toNat (begun a.src 0x06 0xFFFF s) = .ok d) :=
  ⟨{ admin with cdw10 := 6, cdw11 := 0x30000000 }, base, identifyMilris, by exact ⟨by decide, rfl⟩⟩

theorem witness_InformationCommandsComplete_3 : ∃ (a : Admin) (f : Func) (s : State) (t : State),
      (adminRuns a.src false s = true) ∧
      ([0x02, 0xD0, 0xD1].contains (featureId a) = false ∧ bit a.cdw10.toNat 31 = false) ∧
      (s.fn? a.src.fn = some f) ∧
      (setStandard a f (begun a.src 0x09 0xFFFF s) = .ok t) :=
  ⟨{ admin with cdw10 := 1, cdw11 := 0x12345678 }, { id := 0, busMaster := true, memSpace := true, cc := 0x460061, rdy := true, aqa := 0x001F001F }, base, (ok ⟨0, 0, 1⟩ 0 0 (modFeat 0 (fun x => { x with arbitration := 0x12345678 }) (begun ⟨0, 0, 1⟩ 0x09 0xFFFF base))), by exact ⟨by decide, by decide, by decide, rfl⟩⟩

theorem witness_InformationCommandsComplete_4 : ∃ (a : Admin) (s : State),
      (adminRuns a.src false s = true) ∧
      (featureId a = 0xD0 ∧ bit a.cdw10.toNat 31 = false) ∧
      (bits a.cdw11.toNat 31 16 = 0 ∧ bits a.cdw12.toNat 30 20 = 0 ∧ bits a.cdw11.toNat 15 0 ≠ 0) ∧
      ((s.sq? a.src.fn (bits a.cdw11.toNat 15 0)).isNone = false) :=
  ⟨{ admin with cdw10 := 0xD0, cdw11 := 1, cdw12 := 0x800ABCDE }, base, by decide⟩

theorem witness_InformationCommandsComplete_5 : ∃ (a : Admin) (s : State),
      (adminRuns a.src false s = true) ∧
      (featureId a = 0xD1 ∧ bit a.cdw10.toNat 31 = false) ∧
      (a.src.fn = 0 ∧ bits a.cdw11.toNat 31 8 = 0 ∧ a.cdw11.toNat ≤ 100) :=
  ⟨{ admin with cdw10 := 0xD1, cdw11 := 100 }, base, by decide⟩

theorem witness_InformationCommandsComplete_6 : ∃ (a : Admin) (s : State),
      (adminRuns a.src false s = true) ∧
      (featureId a = 0x02 ∧ bit a.cdw10.toNat 31 = false) ∧
      (bits a.cdw11.toNat 4 0 ≤ 2) :=
  ⟨{ admin with cdw10 := 0x02, cdw11 := 2 }, base, by decide⟩

theorem witness_InformationCommandsComplete_7 : ∃ (a : Admin) (f : Func) (v : Nat) (bs : List Byte) (s : State),
      (adminRuns a.src true s = true) ∧
      (bits a.cdw10.toNat 10 8 = 0 ∧ s.fn? a.src.fn = some f) ∧
      ((begun a.src 0x0A 0xFFFF s).feature f (featureId a) a.cdw11.toNat = some (v, bs)) :=
  ⟨{ admin with cdw10 := 0xD1 }, { id := 0, busMaster := true, memSpace := true, cc := 0x460061, rdy := true, aqa := 0x001F001F }, 10, [], base, by decide⟩

theorem witness_InformationCommandsComplete_8 : ∃ (a : Admin) (s : State),
      (adminRuns a.src false s = true) ∧
      ((s.fls.writes.any fun w => w.n.src == { fn := a.src.fn, sq := bits a.cdw10.toNat 15 0, cid := bits a.cdw10.toNat 31 16 } && !w.programmed) = false) ∧
      ((s.fls.reads.any fun r => r.src == { fn := a.src.fn, sq := bits a.cdw10.toNat 15 0, cid := bits a.cdw10.toNat 31 16 } && !r.begun && r.waits.all s.stillQueued) = false) :=
  ⟨{ admin with cdw10 := 0x00020001 }, ready, by decide⟩

theorem witness_InformationCommandsComplete_9 : ∃ (a : Admin) (s : State),
      let x : Src := { fn := a.src.fn, sq := bits a.cdw10.toNat 15 0, cid := bits a.cdw10.toNat 31 16 }
      (adminRuns a.src false s = true) ∧
      ((s.fls.writes.any fun w => w.n.src == x && !w.programmed) = true) :=
  ⟨{ admin with cdw10 := 0x00070001 }, ready.modFls fun x => { x with writes := [{ n := nvm, programmed := false }] }, by decide⟩

theorem witness_InformationCommandsComplete_10 : ∃ (a : Admin) (s : State),
      let x : Src := { fn := a.src.fn, sq := bits a.cdw10.toNat 15 0, cid := bits a.cdw10.toNat 31 16 }
      (adminRuns a.src false s = true) ∧
      ((s.fls.writes.any fun w => w.n.src == x && !w.programmed) = false) ∧
      ((s.fls.reads.any fun r => r.src == x && !r.begun && r.waits.all s.stillQueued) = true) :=
  ⟨{ admin with cdw10 := 0x00070001 }, (modDie 0 (fun d => { d with busy := some { block := 3, erase := true }, queued := [(0, 0)] }) ready).modFls fun x => { x with reads := [{ src := ⟨0, 1, 7⟩, nsid := 1, first := 0, count := 1, addr := 0, verify := false, waits := [(0, 0)] }] }, by decide⟩

theorem witness_InformationCommandsComplete_11 : ∃ (a : Admin) (s : State),
      (adminRuns a.src false s = true) :=
  ⟨admin, base, by decide⟩

theorem witness_InformationCommandsComplete_12 : ∃ (a : Admin) (f : Func) (s : State),
      (adminRuns a.src false s = true) ∧
      (a.src.fn = 0 ∧ bits a.cdw10.toNat 3 0 = 9) ∧
      ((s.fns.filter (·.id != 0)).find? (·.id == bits a.cdw10.toNat 31 16) = some f) ∧
      (f.queues ≠ 0 ∧ f.enabled = true) :=
  ⟨{ admin with cdw10 := 0x00010009 }, { id := 1, queues := 4, enabled := true }, base.modFns fun l => l ++ [{ id := 1, queues := 4, enabled := true }], by decide⟩

set_option maxRecDepth 1000000 in
theorem witness_FirmwareCommandsComplete_1 : ∃ (a : Admin) (s : State),
      (adminRuns a.src false s = true) ∧
      ((a.cdw10.toNat + 1) * 4 % 4096 = 0 ∧ a.cdw11.toNat * 4 % 4096 = 0) ∧
      (a.cdw11.toNat * 4 + (a.cdw10.toNat + 1) * 4 ≤ imageMax) ∧
      ((s.fw.pieces.any fun p => a.cdw11.toNat * 4 < p.1 + p.2 && p.1 < a.cdw11.toNat * 4 + (a.cdw10.toNat + 1) * 4) = false) :=
  ⟨{ admin with cdw10 := 1023, cdw11 := 1024 }, base, by decide +kernel⟩

theorem witness_FirmwareCommandsComplete_2 : ∃ (a : Admin) (s : State),
      (adminRuns a.src false s = true) ∧
      (commitAction a = 0) ∧
      (s.commitSlot a ≤ 2 ∧ s.commitSlot a ≠ s.running_ ∧ s.flashBusy = false) :=
  ⟨{ admin with cdw10 := 2 }, base, by decide⟩

theorem witness_FirmwareCommandsComplete_3 : ∃ (a : Admin) (s : State),
      (adminRuns a.src false s = true) ∧
      (commitAction a = 1) ∧
      (s.commitSlot a ≤ 2 ∧ s.commitSlot a ≠ s.running_ ∧ s.flashBusy = false) :=
  ⟨{ admin with cdw10 := 0x0A }, base, by decide⟩

theorem witness_FirmwareCommandsComplete_4 : ∃ (a : Admin) (s : State),
      (adminRuns a.src false s = true) ∧
      (commitAction a = 3) ∧
      (s.commitSlot a ≤ 2 ∧ s.commitSlot a ≠ s.running_ ∧ s.flashBusy = false) :=
  ⟨{ admin with cdw10 := 0x1A }, base, by decide⟩

theorem witness_FirmwareCommandsComplete_5 : ∃ (a : Admin) (s : State),
      (adminRuns a.src false s = true) ∧
      (commitAction a = 2) ∧
      (s.commitSlot a = s.running_ ∧ s.running_ ≤ 2 ∧ s.flashBusy = false) :=
  ⟨{ admin with cdw10 := 0x11 }, base, by decide⟩

theorem witness_FirmwareCommandsComplete_6 : ∃ (a : Admin) (s : State),
      (adminRuns a.src false s = true) ∧
      (commitAction a = 2) ∧
      (s.commitSlot a ≤ 2 ∧ s.commitSlot a ≠ s.running_ ∧ s.flashBusy = false) :=
  ⟨{ admin with cdw10 := 0x12 }, base, by decide⟩

theorem witness_FirmwareCommandsComplete_7 : ∃ (a : Admin) (s : State),
      (adminRuns a.src false s = true) ∧
      (commitAction a = 6 ∨ commitAction a = 7) :=
  ⟨{ admin with cdw10 := 0x38 }, base, by decide⟩

theorem witness_CodeFlashProgramEndCompletes_1 : ∃ (c : Commit) (s : State),
      (s.fw.commit = some c ∧ c.action ≠ 3) :=
  ⟨{ src := ⟨0, 0, 1⟩, slot := 2, action := 1, image := [], length := 0 }, base.modFw fun f => { f with commit := some { src := ⟨0, 0, 1⟩, slot := 2, action := 1, image := [], length := 0 } }, by exact ⟨rfl, by decide⟩⟩

theorem witness_CodeFlashProgramEndCompletes_2 : ∃ (c : Commit) (s : State),
      (s.fw.commit = some c ∧ c.action = 3) ∧
      (let s2 := modSlotAt c.slot (fun _ => { record := some (newRecord (s.lastSequence + 1) (c.action == 0) c.image), image := c.image, length := c.length })
        (s.modFw fun f => { f with commit := none })
      s2.liveOk c.image = true) :=
  ⟨{ src := ⟨0, 0, 1⟩, slot := 2, action := 3, image := [], length := 0 }, base.modFw fun f => { f with slot1 := { f.slot1 with image := [] }, commit := some { src := ⟨0, 0, 1⟩, slot := 2, action := 3, image := [], length := 0 } }, by exact ⟨⟨rfl, rfl⟩, by decide⟩⟩

theorem witness_CodeFlashProgramEndCompletes_3 : ∃ (c : Commit) (s : State),
      (s.fw.commit = some c ∧ c.action = 3) ∧
      (let s2 := modSlotAt c.slot (fun _ => { record := some (newRecord (s.lastSequence + 1) (c.action == 0) c.image), image := c.image, length := c.length })
        (s.modFw fun f => { f with commit := none })
      s2.liveOk c.image = false) :=
  ⟨{ src := ⟨0, 0, 1⟩, slot := 2, action := 3, image := [(20, 0xFF)], length := 0 }, base.modFw fun f => { f with slot1 := { f.slot1 with image := [] }, commit := some { src := ⟨0, 0, 1⟩, slot := 2, action := 3, image := [(20, 0xFF)], length := 0 } }, by exact ⟨⟨rfl, rfl⟩, by decide⟩⟩

theorem witness_ActivationEventsComplete_1 : ∃ (slot : Nat) (b : Nat) (t : Nat) (src : Option Src) (s : State),
      (s.fw.activation = some (slot, .band b (some t), false, src)) ∧
      (t < s.tick.toNat ∧ s.bandBusy b = false) :=
  ⟨2, 3, 0, none, (activating (.band 3 (some 0))), by decide⟩

theorem witness_ActivationEventsComplete_2 : ∃ (slot : Nat) (t : Nat) (us : Nat) (src : Option Src) (s : State),
      (s.fw.activation = some (slot, .scheduler t, false, src)) ∧
      (t < s.tick.toNat ∧ us ≤ 150) ∧
      (s.noSwitch = true) :=
  ⟨2, 0, 100, none, (activating (.scheduler 0)), by decide⟩

theorem witness_ActivationEventsComplete_3 : ∃ (slot : Nat) (t : Nat) (src : Option Src) (s : State),
      (s.fw.activation = some (slot, .keep t, false, src)) ∧
      (t < s.tick.toNat) :=
  ⟨2, 0, none, (activating (.keep 0)), by decide⟩

theorem witness_ActivationEventsComplete_4 : ∃ (slot : Nat) (t : Nat) (src : Option Src) (s : State),
      (s.fw.activation = some (slot, .vane t, false, src)) ∧
      (t < s.tick.toNat ∧ s.emergency = false) :=
  ⟨2, 0, none, (activating (.vane 0)), by decide⟩

theorem witness_ActivationEventsComplete_5 : ∃ (slot : Nat) (core : SwapCore) (src : Option Src) (s : State),
      (s.fw.activation = some (slot, core, true, src)) ∧
      (s.calmTick = true) :=
  ⟨2, .keep 3, none, (base.modFw fun f => { f with activation := some (2, .keep 3, true, none) }).modPwr fun p => { p with calm := 1 }, by decide⟩

theorem witness_SpdmRequestsComplete_1 : ∃ (s : State),
      (s.doeUp = true) :=
  ⟨secured 3, by decide⟩

theorem witness_SpdmRequestsComplete_2 : ∃ (d : DoeReq) (s : State),
      (s.doeUp = true ∧ DoeReqCode d = 0x84 ∧ byteAt d.payload 0 = 0x10) :=
  ⟨{ session := none, payload := [0x10, 0x84, 0, 0] }, secured 0, by decide⟩

theorem witness_SpdmRequestsComplete_3 : ∃ (d : DoeReq) (s : State),
      (spdmRuns 0xE1 d s = true ∧ s.sec.spdm = 1) :=
  ⟨{ session := none, payload := [0x13, 0xE1, 0, 0] }, secured 1, by decide⟩

theorem witness_SpdmRequestsComplete_4 : ∃ (d : DoeReq) (s : State),
      (spdmRuns 0xE3 d s = true ∧ s.sec.spdm = 2) ∧
      (((extOffered d.payload).contains falconEntry || (extOffered d.payload).contains shakeEntry) = true) :=
  ⟨{ session := none, payload := [0x13, 0xE3, 0, 0] ++ List.replicate 24 0 ++ [1, 0, 0, 0] ++ falconEntry }, secured 2, by decide⟩

theorem witness_SpdmRequestsComplete_5 : ∃ (d : DoeReq) (s : State),
      (spdmRuns 0x81 d s = true ∧ s.sec.spdm = 3) :=
  ⟨{ session := none, payload := [0x13, 0x81, 0, 0] }, secured 3, by decide⟩

theorem witness_SpdmRequestsComplete_6 : ∃ (d : DoeReq) (s : State),
      (spdmRuns 0x82 d s = true ∧ s.sec.spdm = 3) ∧
      (byteAt d.payload 2 = 0 ∧ le d.payload 4 2 < s.chainBytes.length) :=
  ⟨{ session := none, payload := [0x13, 0x82, 0, 0, 0, 0, 0xFF, 0xFF] }, secured 3, by refine ⟨by decide, by decide, ?_⟩; simp [State.chainBytes, toLE, le, ofLE, slice]⟩

theorem witness_SpdmRequestsComplete_7 : ∃ (d : DoeReq) (s : State),
      (spdmRuns 0x83 d s = true ∧ s.sec.spdm = 3) ∧
      (byteAt d.payload 2 = 0 ∧ [0, 1, 0xFF].contains (byteAt d.payload 3) = true) :=
  ⟨{ session := none, payload := [0x13, 0x83, 0, 0xFF] }, secured 3, by decide⟩

theorem witness_SpdmRequestsComplete_8 : ∃ (d : DoeReq) (s : State),
      (spdmRuns 0xE0 d s = true ∧ s.sec.spdm = 3) ∧
      (byteAt d.payload 3 = 0xFF) :=
  ⟨{ session := none, payload := [0x13, 0xE0, 1, 0xFF] }, secured 3, by decide⟩

theorem witness_SpdmRequestsComplete_9 : ∃ (d : DoeReq) (s : State),
      (spdmRuns 0xE4 d s = true ∧ s.sec.spdm = 3) ∧
      (byteAt d.payload 3 = 0 ∧ [0, 1, 0xFF].contains (byteAt d.payload 2) = true ∧ s.sec.sessions.length < 2) :=
  ⟨{ session := none, payload := [0x13, 0xE4, 0, 0] }, secured 3, by decide⟩

theorem witness_SpdmRequestsComplete_10 : ∃ (d : DoeReq) (n : Nat) (s : State),
      (spdmRuns 0xE5 d s = true ∧ d.session = some n) ∧
      (s.sec.sessions.contains (n, true) = false) :=
  ⟨{ session := some 6, payload := [0x13, 0xE5, 0, 0] }, 6, (secured 3).modSec fun x => { x with sessions := [(6, false)] }, by decide⟩

theorem witness_SpdmRequestsComplete_11 : ∃ (d : DoeReq) (n : Nat) (s : State),
      (spdmRuns 0xEC d s = true ∧ d.session = some n) ∧
      (s.sec.sessions.contains (n, true) = true) :=
  ⟨{ session := some 5, payload := [0x13, 0xEC, 0, 0] }, 5, secured 3, by decide⟩

theorem witness_KeyMessagesComplete_1 : ∃ (d : DoeReq) (s : State),
      (vendorRuns d s = true ∧ vendorOp d = 1) ∧
      ((vendorBody d).length = 36 ∧ le (vendorBody d) 0 2 ≤ 0xFFF ∧ le (vendorBody d) 2 2 ≠ 0 ∧ le (vendorBody d) 2 2 ≤ 0xFFF) ∧
      (s.key? (le (vendorBody d) 0 2) = none) :=
  ⟨vendorReq 1 ([0xA8, 0x02, 0x11, 0x00] ++ List.replicate 32 7), secured 3, by exact ⟨⟨vendorReq_runs 1 _, by decide⟩, by decide, by decide⟩⟩

theorem witness_KeyMessagesComplete_2 : ∃ (d : DoeReq) (s : State),
      (vendorRuns d s = true ∧ vendorOp d = 2) ∧
      ((vendorBody d).length = 2 ∧ le (vendorBody d) 0 2 ≤ 0xFFF) ∧
      ((s.key? (le (vendorBody d) 0 2)).isNone = false) :=
  ⟨vendorReq 2 [0xA7, 0x02], secured 3, by exact ⟨⟨vendorReq_runs 2 _, by decide⟩, by decide, by decide⟩⟩

theorem witness_KeyMessagesComplete_3 : ∃ (d : DoeReq) (s : State),
      (vendorRuns d s = true ∧ vendorOp d = 3) ∧
      ((vendorBody d).length = 4 ∧ le (vendorBody d) 0 4 = 0x46464F4C) ∧
      (s.sec.obsOff = false) :=
  ⟨vendorReq 3 [0x4C, 0x4F, 0x46, 0x46], secured 3, by exact ⟨⟨vendorReq_runs 3 _, by decide⟩, by decide, by decide⟩⟩

theorem witness_KeyMessagesComplete_4 : ∃ (n : Option Nat) (k : IdeKey) (s : State),
      (s.doeUp = true ∧ s.established n = true) ∧
      (k.stream ≤ 8 ∧ k.keySet ≤ 1 ∧ k.substream ≤ 2) :=
  ⟨some 5, { stream := 1, keySet := 0, rx := true, substream := 2, key := 9 }, secured 3, by decide⟩

theorem witness_KeyMessagesComplete_5 : ∃ (n : Option Nat) (k : IdeKey) (s : State),
      (s.doeUp = true ∧ s.established n = true) ∧
      (k.stream ≤ 8 ∧ k.keySet ≤ 1 ∧ k.substream ≤ 2) ∧
      (((s.ideStream k.stream).keys.any fun y => IdeKey_same y k) = true) :=
  ⟨some 5, { stream := 1, keySet := 0, rx := true, substream := 2, key := 9 }, putIde { id := 1, keys := [{ stream := 1, keySet := 0, rx := true, substream := 2, key := 9 }] } (secured 3), by decide⟩

theorem witness_KeyMessagesComplete_6 : ∃ (n : Option Nat) (k : IdeKey) (s : State),
      (s.doeUp = true ∧ s.established n = true) ∧
      (k.stream ≤ 8 ∧ k.keySet ≤ 1 ∧ k.substream ≤ 2) :=
  ⟨some 5, { stream := 1, keySet := 0, rx := true, substream := 2, key := 9 }, secured 3, by decide⟩

theorem witness_KeyMessagesComplete_7 : ∃ (n : Nat) (s : State),
      (n ≤ 8 ∧ (s.ideStream n).active.isNone = false ∧ (s.ideStream n).insecure = false) :=
  ⟨0, putIde { id := 0, active := some 0 } base, by decide⟩

theorem witness_ManagementRequestsComplete_2 : ∃ (m : MiReq) (s : State),
      (m.addr = 0x6A ∧ s.smbusUp = true) :=
  ⟨{ addr := 0x6A, opcode := 0, payload := [] }, base.modLife fun l => { l with vaux := true }, by decide⟩

theorem witness_ManagementRequestsComplete_3 : ∃ (m : MiReq) (s : State),
      (m.addr = 0x53 ∧ s.smbusUp = true) :=
  ⟨{ addr := 0x53, opcode := 0, payload := [0, 0, 0, 1] }, base.modLife fun l => { l with vaux := true }, by decide⟩

theorem witness_ManagementRequestsComplete_4 : ∃ (m : MiReq) (s : State),
      (m.addr = 0x1D ∧ s.mctpUp = true ∧ m.opcode = 0 ∧ le m.payload 3 1 = 0) :=
  ⟨{ addr := 0x1D, opcode := 0, payload := [] }, base, by decide⟩

theorem witness_ManagementRequestsComplete_5 : ∃ (m : MiReq) (s : State),
      (m.addr = 0x1D ∧ s.mctpUp = true ∧ m.opcode = 1) :=
  ⟨{ addr := 0x1D, opcode := 1, payload := [] }, base, by decide⟩

theorem witness_ManagementRequestsComplete_6 : ∃ (m : MiReq) (s : State),
      (m.addr = 0x1D ∧ s.mctpUp = true ∧ m.opcode = 2) :=
  ⟨{ addr := 0x1D, opcode := 2, payload := [] }, base, by decide⟩

theorem witness_ManagementRequestsComplete_7 : ∃ (m : MiReq) (s : State),
      (m.addr = 0x1D ∧ s.mctpUp = true ∧ m.opcode = 4 ∧ le m.payload 0 1 = 1) :=
  ⟨{ addr := 0x1D, opcode := 4, payload := [1] }, base, by decide⟩

theorem witness_ManagementRequestsComplete_8 : ∃ (m : MiReq) (s : State),
      (m.addr = 0x1D ∧ s.mctpUp = true ∧ m.opcode = 3 ∧ le m.payload 0 1 = 1) ∧
      (le m.payload 1 1 = 1 ∨ le m.payload 1 1 = 2) :=
  ⟨{ addr := 0x1D, opcode := 3, payload := [1, 2] }, base, by decide⟩

theorem witness_ManagementRequestsComplete_9 : ∃ (m : MiReq) (f : Func) (v : Nat) (d : List Byte) (s : State),
      (m.addr = 0x1D ∧ s.mctpUp = true ∧ m.opcode = 0x0A) ∧
      (s.fn? (le m.payload 0 2) = some f ∧ bits (le m.payload 8 4) 10 8 = 0) ∧
      (s.feature f (bits (le m.payload 8 4) 7 0) (le m.payload 12 4) = some (v, d)) :=
  ⟨{ addr := 0x1D, opcode := 0x0A, payload := [0, 0, 0, 0, 0, 0, 0, 0, 0xD1] }, { id := 0, busMaster := true, memSpace := true, cc := 0x460061, rdy := true, aqa := 0x001F001F }, 10, [], base, by decide⟩

set_option maxRecDepth 1000000 in
theorem witness_ComputingEventsComplete_1 : ∃ (t : TaskRef) (op : Nat) (rb : Nat) (lb : Nat) (s : State) (s1 : State) (k : OpCtx) (r : Run) (x : Tensor) (y : Tensor) (z : Tensor) (g : Grant) (u : Tile),
      let p : Product := { at_ := k, x, y, z }
      let s2 := claim t s1
      (s.atOperator t op [0x01, 0x07, 0x14] = some (k, r, x, z, s1)) ∧
      (k.o.code = 1 ∧ s2.arr.grants.find? (·.task == t) = some g) ∧
      (k.tensor k.o.in1 = some y) ∧
      (rb < p.rowBlocks ∧ lb < p.laneBlocks ∧ (rb = 0 ∨ s2.blockDone p (rb - 1) = true)) ∧
      (((s2.tile? k.t k.op rb lb).orElse fun _ => startTile s2 p rb lb (if Apw.chainIn p.w then k.tensor k.o.in2 else none)) = some u) ∧
      (u.written = false) :=
  ⟨task, 0, 0, 0, computing, metMatmul.2.2.2.2, metMatmul.1, metMatmul.2.1, metMatmul.2.2.1, operandY, metMatmul.2.2.2.1, { task, op := 0, cluster := 0, quad := false, arrays := [0] }, { task, op := 0, rowBlock := 0, laneBlock := 0, mant := List.replicate 1 0 }, by exact ⟨metMatmul_eq, by decide +kernel, by decide +kernel, by decide +kernel, by decide +kernel, rfl⟩⟩

set_option maxRecDepth 1000000 in
theorem witness_ComputingEventsComplete_2 : ∃ (t : TaskRef) (op : Nat) (row : Nat) (s : State) (s1 : State) (k : OpCtx) (r : Run) (x : Tensor) (z : Tensor) (g : Grant),
      (s.atOperator t op [0x01, 0x07, 0x14] = some (k, r, x, z, s1)) ∧
      (k.o.code ≠ 1 ∧ (claim t s1).arr.grants.find? (·.task == t) = some g) ∧
      (row < x.rows ∧ r.rows.contains row = false) :=
  ⟨task, 0, 0, attending, metAttend.2.2.2.2, metAttend.1, metAttend.2.1, metAttend.2.2.1, metAttend.2.2.2.1, { task, op := 0, cluster := 0, quad := false, arrays := [0] }, by exact ⟨metAttend_eq, by decide +kernel, by decide +kernel⟩⟩

set_option maxRecDepth 1000000 in
theorem witness_ComputingEventsComplete_3 : ∃ (t : TaskRef) (op : Nat) (row : Nat) (s : State) (s1 : State) (k : OpCtx) (r : Run) (x : Tensor) (z : Tensor),
      (s.atOperator t op [0x0B] = some (k, r, x, z, s1)) ∧
      (row < x.rows ∧ r.rows.contains row = false) :=
  ⟨task, 0, 0, quantising, metQuant.2.2.2.2, metQuant.1, metQuant.2.1, metQuant.2.2.1, metQuant.2.2.2.1, by exact ⟨metQuant_eq, by decide +kernel⟩⟩

set_option maxRecDepth 1000000 in
theorem witness_ComputingEventsComplete_4 : ∃ (t : TaskRef) (op : Nat) (row : Nat) (s : State) (s1 : State) (k : OpCtx) (r : Run) (x : Tensor) (z : Tensor),
      (s.atOperator t op [0x08, 0x0C] = some (k, r, x, z, s1)) ∧
      (row < x.rows ∧ r.rows.contains row = false ∧ x.len ≤ 1048576) :=
  ⟨task, 0, 0, (selecting 32), (metSelect 32 (by decide +kernel)).2.2.2.2, (metSelect 32 (by decide +kernel)).1, (metSelect 32 (by decide +kernel)).2.1, (metSelect 32 (by decide +kernel)).2.2.1, (metSelect 32 (by decide +kernel)).2.2.2.1, by exact ⟨metSelect_eq 32 (by decide +kernel), by decide +kernel⟩⟩

set_option maxRecDepth 1000000 in
theorem witness_ComputingEventsComplete_5 : ∃ (t : TaskRef) (op : Nat) (row : Nat) (s : State) (s1 : State) (k : OpCtx) (r : Run) (x : Tensor) (z : Tensor),
      (s.atOperator t op [0x08, 0x0C] = some (k, r, x, z, s1)) ∧
      (row < x.rows ∧ r.rows.contains row = false ∧ 1048576 < x.len) :=
  ⟨task, 0, 0, (selecting 1048577), (metSelect 1048577 (by decide +kernel)).2.2.2.2, (metSelect 1048577 (by decide +kernel)).1, (metSelect 1048577 (by decide +kernel)).2.1, (metSelect 1048577 (by decide +kernel)).2.2.1, (metSelect 1048577 (by decide +kernel)).2.2.2.1, by exact ⟨metSelect_eq 1048577 (by decide +kernel), by decide +kernel⟩⟩

theorem witness_ComputingEventsComplete_6 : ∃ (slot : Nat) (s : State) (w : Watch),
      (s.qnt.slots.find? (·.slot == slot) = some w) ∧
      (Qw.window w.qword.toNat ≠ 0 ∧ s.tick.toNat % Qw.window w.qword.toNat = 0 ∧ w.evaluated ≠ some s.tick.toNat) :=
  ⟨7, base.modQnt fun q => { q with slots := [{ slot := 7, dome := 0x11, plan := 66, tensor := 0, qword := 0x0004000000000000, effective := 0x3C00 }] }, { slot := 7, dome := 0x11, plan := 66, tensor := 0, qword := 0x0004000000000000, effective := 0x3C00 }, by decide⟩

theorem witness_ComputingEventsComplete_7 : ∃ (a : Admin) (s : State),
      (adminRuns a.src false s = true) ∧
      (a.src.fn = 0 ∧ s.granted 10 = true ∧ s.granted 8 = true) ∧
      (a.cdw10 = 5 ∧ a.cdw12 = 0 ∧ a.cdw13 = 0 ∧ a.cdw14 = 0 ∧ a.cdw15 = 0) ∧
      (a.cdw11.toNat ≠ 0 ∧ a.cdw11.toNat ≤ 0xFFF ∧ (s.dome? a.cdw11.toNat).isNone = false) :=
  ⟨{ admin with cdw10 := 5, cdw11 := 0x11 }, base, by decide⟩

theorem witness_StreamAndTransferEventsComplete_1 : ∃ (t : TaskRef) (n : Nat) (bs : List Byte) (s : State) (c : Cmd) (h : Chain) (r : Run) (x : Stream),
      (s.flight? t = some (c, h, r) ∧ s.stream? n = some x) ∧
      (x.decl.producer = c.dome ∧ bs ≠ [] ∧ bs.length ≤ 4096 ∧ r.wait = .none) ∧
      (x.halted = false ∧ s.slotFree x = true) :=
  ⟨task, 3, [1, 2], streaming, { command with chains := [{ tasks := [{ worst := 20, t0 := 4096 }], run := some { cluster := 0, start := 0 } }] }, { tasks := [{ worst := 20, t0 := 4096 }], run := some { cluster := 0, start := 0 } }, { cluster := 0, start := 0 }, stream, by decide⟩

theorem witness_StreamAndTransferEventsComplete_2 : ∃ (t : TaskRef) (n : Nat) (s : State) (c : Cmd) (h : Chain) (r : Run) (x : Stream),
      (s.flight? t = some (c, h, r) ∧ s.stream? n = some x) ∧
      (x.decl.consumer = c.dome ∧ r.wait = .none) ∧
      (x.halted = false) :=
  ⟨task, 3, streaming, { command with chains := [{ tasks := [{ worst := 20, t0 := 4096 }], run := some { cluster := 0, start := 0 } }] }, { tasks := [{ worst := 20, t0 := 4096 }], run := some { cluster := 0, start := 0 } }, { cluster := 0, start := 0 }, stream, by decide⟩

set_option maxRecDepth 1000000 in
theorem witness_StreamAndTransferEventsComplete_3 : ∃ (t : TaskRef) (d : List Byte) (ends : XferEnds) (tenths : Nat) (s : State) (c : Cmd) (h : Chain) (r : Run) (x : Transfer),
      let a := XferEnd.source d ends x.next
      let z := XferEnd.dest d ends x.next
      let classes := (s.classOf a.space a.id false).toList ++ (s.classOf z.space z.id true).toList
      let flits := ceilDiv a.at_.length 64
      (s.flight? t = some (c, h, r) ∧ s.channelFor t c d ends = some x) ∧
      (x.desc = d ∧ x.ends = ends ∧ x.task = t ∧ (x.next = 0 → (Xd.bad c.scratch d).isNone = true)) ∧
      (r.wait.moves = true ∧ s.endOk c a false = true ∧ s.endOk c z true = true ∧ (s.hb.quiesced && s.inT2 z.space z.id) = false) ∧
      ((s.outside c a).isNone = true ∧ (s.outside c z).isNone = true) ∧
      ((s.endUndeclared h a).isNone = true ∧ (s.endUndeclared h z).isNone = true) ∧
      (z.space ≠ 4 ∨ ((s.stream? z.id).bind fun y => chunkRoom t c r y s).isNone = true) ∧
      ((s.shareSpent r.cluster c.dome (s.window tenths) flits classes).isNone = true) :=
  ⟨task, descriptor, {}, 0, flying, { command with chains := [{ tasks := [{ worst := 20, t0 := 4096 }], run := some { cluster := 0, start := 0 } }] }, { tasks := [{ worst := 20, t0 := 4096 }], run := some { cluster := 0, start := 0 } }, { cluster := 0, start := 0 }, { task, desc := descriptor }, by decide +kernel⟩

theorem witness_StreamAndTransferEventsComplete_4 : ∃ (t : TaskRef) (s : State) (x : Transfer) (a : Nat),
      (s.channel? t = some x ∧ x.request = some a) :=
  ⟨task, base.modXfer fun _ => [{ task, desc := [], request := some 4096 }], { task, desc := [], request := some 4096 }, 4096, by decide⟩

set_option maxRecDepth 1000000 in
theorem witness_StreamAndTransferEventsComplete_5 : ∃ (t : TaskRef) (s : State) (u : State) (c : Cmd) (h : Chain),
      (s.cmd? t.src = some c ∧ s.chain? t = some h) ∧
      (h.run = none ∧ h.finished = false ∧ c.failed = none ∧ (s.missing h.task.pages).all (fun p => s.pagingIn p.1 p.2) = false) ∧
      (takePages h.task.pages (s.missing h.task.pages) s = .ok u) :=
  ⟨task, paged, (takePages [(66, 0)] (paged.missing [(66, 0)]) paged).toOption.get (by decide +kernel), { command with chains := [pagedChain] }, pagedChain, by exact ⟨by decide +kernel, by decide +kernel, except_get _ (by decide +kernel)⟩⟩

theorem witness_StreamAndTransferEventsComplete_6 : ∃ (object : Nat) (page : Nat) (s : State),
      (s.pagingIn object page = true) :=
  ⟨66, 0, base.modObj fun o => { o with list := [{ object with flags := 0x22 }], charges := [⟨.resident 66 0, 1, 0x11, 8⟩] }, by decide⟩

set_option maxRecDepth 1000000 in
theorem witness_StreamAndTransferEventsComplete_7 : ∃ (t : TaskRef) (addr : Nat) (s : State) (c : Cmd) (h : Chain) (r : Run) (x : Transfer),
      ((s.merge? t.src).isNone = true ∧ s.flight? t = some (c, h, r)) ∧
      (s.channel? t = some x ∧ x.halted = false) ∧
      ((s.t2Addresses (XferEnd.source x.desc x.ends x.next) ++ s.t2Addresses (XferEnd.dest x.desc x.ends x.next)).head? = some addr) :=
  ⟨task, 0, flying.modXfer fun _ => [{ task, desc := fromHost }], { command with chains := [{ tasks := [{ worst := 20, t0 := 4096 }], run := some { cluster := 0, start := 0 } }] }, { tasks := [{ worst := 20, t0 := 4096 }], run := some { cluster := 0, start := 0 } }, { cluster := 0, start := 0 }, { task, desc := fromHost }, by decide +kernel⟩

set_option maxRecDepth 1000000 in
theorem witness_PlanCommandsComplete_1 : ∃ (e : Entry) (s : State) (p : Plan),
      (milrisRuns shapeRunPlan e s = true) ∧
      (loadPlan .run (Fe.obj1 e) 0 (Fe.dome e) (begun e.src 0x85 (Fe.dome e) s) = .ok p) :=
  ⟨{ entry 0x85 with dw12 := 70 }, library, (loadPlan .run 70 0 0x11 (begun ⟨0, 1, 2⟩ 0x85 0x11 library)).toOption.get (by decide +kernel), by exact ⟨by decide +kernel, except_get _ (by decide +kernel)⟩⟩

set_option maxRecDepth 1000000 in
theorem witness_PlanCommandsComplete_2 : ∃ (e : Entry) (s : State) (p : Plan),
      (milrisRuns shapeEmbed e s = true) ∧
      (Ef.arm e = false ∧ Ef.disarm e = false) ∧
      (checkEmbed e (begun e.src 0x89 (Fe.dome e) s) = .ok ()) ∧
      (loadPlan .embed (Fe.obj1 e) 64 (Fe.dome e) (begun e.src 0x89 (Fe.dome e) s) = .ok p) :=
  ⟨embedEntry, library, (loadPlan .embed 76 64 0x11 (begun ⟨0, 1, 2⟩ 0x89 0x11 library)).toOption.get (by decide +kernel), by exact ⟨by decide +kernel, by decide +kernel, embedEntry_ok, except_get _ (by decide +kernel)⟩⟩

set_option maxRecDepth 1000000 in
theorem witness_PlanCommandsComplete_3 : ∃ (e : Entry) (s : State) (p : Plan) (n : Nat),
      (milrisRuns shapeEmbed e s = true) ∧
      (Ef.arm e = true ∧ Ef.disarm e = false) ∧
      (e.inLen = 16 ∧ le e.input 6 2 = 0 ∧ Fe.obj2 e ≠ 0 ∧ (Ef.writeIndex e && s.readOnly) = false) ∧
      (checkEmbedHeader (Fe.obj1 e) (s.part (Fe.dome e)) (begun e.src 0x89 (Fe.dome e) s) = .ok ()) ∧
      (checkEmbedIndex (Fe.obj2 e) (Fe.obj1 e) (s.part (Fe.dome e)) (begun e.src 0x89 (Fe.dome e) s) = .ok ()) ∧
      (inputFail (le e.input 0 6) (s.part (Fe.dome e)) (begun e.src 0x89 (Fe.dome e) s) = none) ∧
      (loadPlan .embed (Fe.obj1 e) 64 (Fe.dome e) (begun e.src 0x89 (Fe.dome e) s) = .ok p) ∧
      (((List.range 16).map (· + 1)).find? (fun n => !(s.armsOf (s.part (Fe.dome e))).any (·.number == n)) = some n) :=
  ⟨armEntry, library, (loadPlan .embed 76 64 0x11 (begun ⟨0, 1, 2⟩ 0x89 0x11 library)).toOption.get (by decide +kernel), 1, by exact ⟨by decide +kernel, by decide +kernel, by decide +kernel, embedHeader_ok _ _ (by decide +kernel) (by decide +kernel), embedIndex_ok, by decide +kernel, except_get _ (by decide +kernel), by decide +kernel⟩⟩

set_option maxRecDepth 1000000 in
theorem witness_PlanCommandsComplete_4 : ∃ (e : Entry) (s : State),
      (milrisRuns shapeEmbed e s = true) ∧
      (Ef.disarm e = true ∧ Ef.arm e = false) ∧
      ((Ef.writeIndex e && s.readOnly) = false) ∧
      ((s.armsOf (s.part (Fe.dome e))).any (·.number == Ef.count e) = true) :=
  ⟨{ entry 0x89 with dw13 := 0x00080000, dw15 := 0x00030000 }, armed, by decide +kernel⟩

set_option maxRecDepth 1000000 in
theorem witness_PlanCommandsComplete_5 : ∃ (e : Entry) (s : State) (pre : Plan) (dec : Plan),
      (milrisRuns shapeGenerate e s = true) ∧
      (checkGenerate e (begun e.src 0x8C (Fe.dome e) s) = .ok ()) ∧
      (loadPlan .prefill (s.model (Fe.obj1 e)).prefill 0 (Fe.dome e) (begun e.src 0x8C (Fe.dome e) s) = .ok pre) ∧
      (loadPlan .decode (s.model (Fe.obj1 e)).decode 0 (Fe.dome e) (begun e.src 0x8C (Fe.dome e) s) = .ok dec) :=
  ⟨generateEntry, library, (loadPlan .prefill 70 0 0x11 (begun ⟨0, 1, 2⟩ 0x8C 0x11 library)).toOption.get (by decide +kernel), (loadPlan .decode 70 0 0x11 (begun ⟨0, 1, 2⟩ 0x8C 0x11 library)).toOption.get (by decide +kernel), by exact ⟨by decide +kernel, generateEntry_ok, (except_get (loadPlan .prefill 70 0 0x11 (begun ⟨0, 1, 2⟩ 0x8C 0x11 library)) (by decide +kernel)), (except_get (loadPlan .decode 70 0 0x11 (begun ⟨0, 1, 2⟩ 0x8C 0x11 library)) (by decide +kernel))⟩⟩

set_option maxRecDepth 1000000 in
theorem witness_PlanCommandsComplete_6 : ∃ (e : Entry) (s : State) (s1 : State) (p : Plan),
      (milrisRuns shapeTune e s = true) ∧
      (checkTune e (begun e.src 0x8D (Fe.dome e) s) = .ok ()) ∧
      (loadPlan .tune (s.model (Fe.obj1 e)).prefill 0 (Fe.dome e) (begun e.src 0x8D (Fe.dome e) s) = .ok p) ∧
      (take (.tuneState e.src) 1 (Fe.dome e) (tuneBytes e s) (begun e.src 0x8D (Fe.dome e) s) = .ok s1) :=
  ⟨tuneEntry, library, (take (.tuneState ⟨0, 1, 2⟩) 1 0x11 768 (begun ⟨0, 1, 2⟩ 0x8D 0x11 library)).toOption.get (by decide +kernel), (loadPlan .tune 70 0 0x11 (begun ⟨0, 1, 2⟩ 0x8D 0x11 library)).toOption.get (by decide +kernel), by exact ⟨by decide +kernel, tuneEntry_ok, except_get (loadPlan .tune 70 0 0x11 (begun ⟨0, 1, 2⟩ 0x8D 0x11 library)) (by decide +kernel), nat_get (take (.tuneState ⟨0, 1, 2⟩) 1 0x11 768 (begun ⟨0, 1, 2⟩ 0x8D 0x11 library)) (by decide +kernel)⟩⟩

theorem witness_InferenceEventsComplete_1 : ∃ (dome : Nat) (s : State) (q : Seq),
      (s.admittedIn dome < 4096) ∧
      (s.inf.seqs.find? (fun q => !q.admitted && q.dome == dome) = some q) :=
  ⟨0x11, base.modInf fun x => { x with seqs := [{ sequence with admitted := false }] }, { sequence with admitted := false }, by decide⟩

set_option maxRecDepth 1000000 in
theorem witness_InferenceEventsComplete_2 : ∃ (dome : Nat) (model : Nat) (s : State) (q : Seq) (rest : List Seq),
      let ids := lastTokens (s.joiners dome model) s
      let c := stepCmd dome model q (s.joiners dome model) ids.1 (((s.cmd? q.src).map (·.tenant)).getD 0)
      (s.hb.quiesced = false ∧ s.life.phase = .up ∧ (s.cmd? (stepSrc dome model)).isSome = false) ∧
      (s.joiners dome model = q :: rest) :=
  ⟨0x11, 71, decoding, sequence, [], by decide +kernel⟩

set_option maxRecDepth 1000000 in
theorem witness_InferenceEventsComplete_3 : ∃ (pool : Nat) (s : State) (q : Seq) (bs : List Nat),
      (leastSeq (fun q => (s.lacking q).isSome) (s.pausedIn pool) = some q) ∧
      (s.seq? q.src = some q ∧ q.blocks.length < q.needs) ∧
      (s.lacking q = some bs) :=
  ⟨74, library.modInf fun x => { x with seqs := [{ sequence with paused := true, prefilled := false, blocks := [] }] }, { sequence with paused := true, prefilled := false, blocks := [] }, [0], by decide +kernel⟩

set_option maxRecDepth 1000000 in
theorem witness_InferenceEventsComplete_4 : ∃ (pool : Nat) (s : State) (q : Seq),
      (s.poolSeqs pool ≠ []) ∧
      (∀ x ∈ s.poolSeqs pool, x.paused = true ∧ x.pausedAt + 2 ≤ s.tick.toNat) ∧
      (latestSeq (s.poolSeqs pool) = some q) :=
  ⟨74, { library.modInf fun x => { x with seqs := [{ sequence with paused := true }] } with tick := 5 }, { sequence with paused := true }, by decide +kernel⟩

set_option maxRecDepth 1000000 in
theorem witness_InferenceEventsComplete_5 : ∃ (part : Nat) (arm : Nat) (s : State) (a : Arm) (p : Plan),
      let rs := ingestRecords s a.source a.limit (a.limit - a.cursor) a.cursor
      (s.inf.arms.find? (fun a => a.part == part && a.number == arm) = some a) ∧
      (a.due = true ∧ s.readOnly = false ∧ rs.1 ≠ [] ∧ s.hb.quiesced = false ∧ s.life.phase = .up ∧ (s.cmd? (armSrc a)).isSome = false) ∧
      (checkIngest a rs.1 s = .ok ()) ∧
      (loadPlan .embed a.plan 64 a.dome s = .ok p) :=
  ⟨0x11, 3, ingesting, { arm with due := true, limit := 80 }, (loadPlan .embed 76 64 0x11 ingesting).toOption.get (by decide +kernel), by exact ⟨by decide +kernel, by decide +kernel, ingest_ok, except_get (loadPlan .embed 76 64 0x11 ingesting) (by decide +kernel)⟩⟩

theorem witness_InferenceEventsComplete_6 : ∃ (src : Src) (s : State) (r : TuneRun),
      (s.sch.step = 5 ∧ s.tuneDue src = true) ∧
      (s.tune? src = some r) ∧
      ((s.readOnly && (s.obj? r.adapter).any (·.flag 5)) = false) :=
  ⟨⟨0, 1, 2⟩, (library.modInf fun x => { x with tunes := [tuneRunOf] }).modSch fun k => { k with step := 5, cmds := [command] }, tuneRunOf, by decide⟩

theorem witness_InferenceEventsComplete_7 : ∃ (s : State),
      (s.inf.rngOk = true) :=
  ⟨base, by decide⟩

set_option maxRecDepth 1000000 in
theorem witness_SearchAndScanCommandsComplete_1 : ∃ (e : Entry) (s : State),
      (milrisRuns shapeSearch e s = true) ∧
      (searchBad e = false) ∧
      (indexFail (Fe.obj1 e) (s.part (Fe.dome e)) false (begun e.src 0x8A (Fe.dome e) s) = none) ∧
      (checkSearchInput (s.ix (Fe.obj1 e)) e = .ok ()) :=
  ⟨searchEntry, library, by exact ⟨by decide +kernel, by decide +kernel, index_ok _ _ _ _ _ (by decide +kernel) (by decide +kernel), unit_get _ (by decide +kernel)⟩⟩

set_option maxRecDepth 1000000 in
theorem witness_SearchAndScanCommandsComplete_2 : ∃ (e : Entry) (s : State),
      (milrisRuns shapeInsert e s = true) ∧
      (s.readOnly = false) ∧
      (indexFail (Fe.obj1 e) (s.part (Fe.dome e)) true (begun e.src 0x91 (Fe.dome e) s) = none) ∧
      (0 < bits e.dw14.toNat 15 0 ∧ e.inLen.toNat = bits e.dw14.toNat 15 0 * nodeBytes (s.ix (Fe.obj1 e))) ∧
      (∀ i < bits e.dw14.toNat 15 0, let b := slice e.input (i * nodeBytes (s.ix (Fe.obj1 e))) (nodeBytes (s.ix (Fe.obj1 e))); le b 5 3 = 0 ∧ le b 10 6 = 0) ∧
      (Ix.nodes (s.ix (Fe.obj1 e)) + bits e.dw14.toNat 15 0 ≤ Ix.capacity (s.ix (Fe.obj1 e))) :=
  ⟨{ entry 0x91 with dw12 := 77, dw14 := 1, inLen := 96, input := List.replicate 96 0 }, library, by exact ⟨by decide +kernel, by decide +kernel, index_ok _ _ _ _ _ (by decide +kernel) (by decide +kernel), by decide +kernel, by decide +kernel, by decide +kernel⟩⟩

set_option maxRecDepth 1000000 in
theorem witness_SearchAndScanCommandsComplete_3 : ∃ (e : Entry) (s : State),
      (milrisRuns shapeDelete e s = true) ∧
      (s.readOnly = false) ∧
      (indexFail (Fe.obj1 e) (s.part (Fe.dome e)) true (begun e.src 0x92 (Fe.dome e) s) = none) ∧
      (0 < bits e.dw14.toNat 15 0 ∧ e.inLen.toNat = 8 * bits e.dw14.toNat 15 0) ∧
      (∀ i < bits e.dw14.toNat 15 0, le e.input (8 * i + 5) 3 = 0) :=
  ⟨{ entry 0x92 with dw12 := 77, dw14 := 1, inLen := 8, input := List.replicate 8 0 }, library, by exact ⟨by decide +kernel, by decide +kernel, index_ok _ _ _ _ _ (by decide +kernel) (by decide +kernel), by decide +kernel, by decide +kernel⟩⟩

set_option maxRecDepth 1000000 in
theorem witness_SearchAndScanCommandsComplete_4 : ∃ (e : Entry) (s : State),
      (milrisRuns shapeCompact e s = true) ∧
      (s.readOnly = false) ∧
      (indexFail (Fe.obj1 e) (s.part (Fe.dome e)) true (begun e.src 0x93 (Fe.dome e) s) = none) :=
  ⟨{ entry 0x93 with dw12 := 77 }, library, by exact ⟨by decide +kernel, by decide +kernel, index_ok _ _ _ _ _ (by decide +kernel) (by decide +kernel)⟩⟩

set_option maxRecDepth 1000000 in
theorem witness_SearchAndScanCommandsComplete_5 : ∃ (e : Entry) (s : State),
      (milrisRuns shapeScan e s = true) ∧
      (bits e.dw13.toNat 17 16 ≠ 3) ∧
      (inputFail (Fe.obj1 e) (s.part (Fe.dome e)) (begun e.src 0x88 (Fe.dome e) s) = none) ∧
      ((s.obj? (Fe.obj1 e)).any (·.flag 5) = true) ∧
      (recordSetBad (((s.durable? (Fe.obj1 e)).map (·.data)).getD []) (((s.obj? (Fe.obj1 e)).map (·.size)).getD 0) = false) ∧
      (checkScan (bits e.dw13.toNat 17 16) (((s.durable? (Fe.obj1 e)).map (·.data)).getD []) e.inLen.toNat e.input = .ok ()) :=
  ⟨{ entry 0x88 with dw12 := 78, inLen := 64, outLen := 64, input := List.replicate 24 0 ++ [1] ++ List.replicate 39 0 }, library, by exact ⟨by decide +kernel, by decide +kernel, set_ok _ _ (by decide +kernel) (by decide +kernel), by decide +kernel, by decide +kernel, unit_get _ (by decide +kernel)⟩⟩

theorem witness_SearchAndScanEventsComplete_1 : ∃ (src : Src) (walk : Nat) (slot : Nat) (us : Nat) (s : State) (q : SearchRun) (c : Cmd) (h : Chain) (rn : Run) (w : Walk) (e : QEntry),
      (s.search? src = some q ∧ s.flight? { src, chain := walk } = some (c, h, rn)) ∧
      (s.walk? src walk = some w ∧ (w.queue ++ w.pushed).find? (fun e => e.slot == slot && e.inFlight) = some e) ∧
      (s.ranFor rn us < 360) :=
  ⟨⟨0, 1, 2⟩, 0, 0, 5, walking, searchOf, { command with chains := [{ tasks := [{ worst := 20, t0 := 4096 }], run := some { cluster := 0, start := 0 } }] }, { tasks := [{ worst := 20, t0 := 4096 }], run := some { cluster := 0, start := 0 } }, { cluster := 0, start := 0 }, { src := ⟨0, 1, 2⟩, walk := 0, query := 0, window := 1, budget := 0, queue := [{ slot := 0, dist := 0, inFlight := true }] }, { slot := 0, dist := 0, inFlight := true }, by decide⟩

set_option maxRecDepth 1000000 in
theorem witness_SearchAndScanEventsComplete_2 : ∃ (src : Src) (s : State) (j : IndexJob) (c : Cmd),
      (s.idx.jobs.find? (·.src == src) = some j ∧ s.cmd? src = some c) ∧
      (s.jobTurn j = true ∧ c.inFlight = true ∧ c.failed = none ∧ s.batchReady j = true ∧ s.readOnly = false) :=
  ⟨⟨0, 1, 2⟩, (library.modSch fun k => { k with cmds := [{ command with chains := [{ tasks := [{ worst := 20, t0 := 4096 }], run := some { cluster := 0, start := 0 } }] }] }).modIdx fun x => { x with jobs := [{ src := ⟨0, 1, 2⟩, index := 77, op := .compact 1 }] }, { src := ⟨0, 1, 2⟩, index := 77, op := .compact 1 }, { command with chains := [{ tasks := [{ worst := 20, t0 := 4096 }], run := some { cluster := 0, start := 0 } }] }, by decide +kernel⟩

theorem witness_SearchAndScanEventsComplete_3 : ∃ (group : Nat) (s : State) (x : Scan),
      (s.engineWaits group = some x ∧ s.engineFree group x = true) :=
  ⟨0, base.modScn fun x => { x with scans := [{ scanning with parts := [{ group := 0, loaded := false }] }] }, { scanning with parts := [{ group := 0, loaded := false }] }, by decide⟩

theorem witness_SearchAndScanEventsComplete_4 : ∃ (src : Src) (group : Nat) (page : Nat) (r : ReadEnd) (s : State) (x : Scan) (c : Cmd) (h : Chain) (rn : Run) (p : EnginePart),
      (s.scan? src = some x ∧ s.flight? { src, chain := group } = some (c, h, rn)) ∧
      (x.parts.find? (fun p => p.group == group && p.loaded) = some p) ∧
      (x.stopped = false ∧ x.pages.contains page = false ∧ x.range.contains page = true ∧ c.failed = none) ∧
      (readFailed r = false) :=
  ⟨⟨0, 1, 2⟩, 0, 1, .ok, flying.modScn fun x => { x with scans := [scanning] }, scanning, { command with chains := [{ tasks := [{ worst := 20, t0 := 4096 }], run := some { cluster := 0, start := 0 } }] }, { tasks := [{ worst := 20, t0 := 4096 }], run := some { cluster := 0, start := 0 } }, { cluster := 0, start := 0 }, { group := 0, loaded := true }, by decide⟩

theorem witness_SearchAndScanEventsComplete_5 : ∃ (src : Src) (group : Nat) (page : Nat) (r : ReadEnd) (s : State) (x : Scan) (c : Cmd) (h : Chain) (rn : Run) (p : EnginePart),
      (s.scan? src = some x ∧ s.flight? { src, chain := group } = some (c, h, rn)) ∧
      (x.parts.find? (fun p => p.group == group && p.loaded) = some p) ∧
      (x.stopped = false ∧ x.pages.contains page = false ∧ x.range.contains page = true ∧ c.failed = none) ∧
      (readFailed r = true) :=
  ⟨⟨0, 1, 2⟩, 0, 1, .unrecovered 0, flying.modScn fun x => { x with scans := [scanning] }, scanning, { command with chains := [{ tasks := [{ worst := 20, t0 := 4096 }], run := some { cluster := 0, start := 0 } }] }, { tasks := [{ worst := 20, t0 := 4096 }], run := some { cluster := 0, start := 0 } }, { cluster := 0, start := 0 }, { group := 0, loaded := true }, by decide⟩

set_option maxRecDepth 1000000 in
theorem witness_MergeCommandsComplete_1 : ∃ (e : Entry) (s : State),
      (milrisRuns (shapeMerge 0) e s = true) ∧
      (Mf.kind e = 0 ∧ mergeBad 0 e = false ∧ Mf.pos e < Mf.len e ∧ chainBadField e = false ∧ s.chainBusy e = false) ∧
      (inputFail (Fe.obj1 e) (s.part (Fe.dome e)) (begun e.src 0x90 (Fe.dome e) s) = none ∧ (s.obj? (Fe.obj1 e)).any (·.size < Mf.payload e) = false) ∧
      (partialBad 0 (Mf.k e) (Mf.payload e) (s.objBytes (Fe.obj1 e) 0 (Mf.payload e)) = none) ∧
      (Mf.pos e = 0) :=
  ⟨mergeEntry, library, by decide +kernel⟩

set_option maxRecDepth 1000000 in
theorem witness_MergeCommandsComplete_2 : ∃ (e : Entry) (s : State) (t : State) (kind : Nat),
      (kind < 3 ∧ milrisRuns (shapeMerge kind) e s = true) ∧
      (Mf.kind e = kind ∧ mergeBad kind e = false ∧ Mf.pos e < Mf.len e ∧ chainBadField e = false ∧ s.chainBusy e = false) ∧
      (inputFail (Fe.obj1 e) (s.part (Fe.dome e)) (begun e.src 0x90 (Fe.dome e) s) = none ∧ (s.obj? (Fe.obj1 e)).any (·.size < Mf.payload e) = false) ∧
      (partialBad kind (Mf.k e) (Mf.payload e) (s.objBytes (Fe.obj1 e) 0 (Mf.payload e)) = none) ∧
      (Mf.pos e ≠ 0) ∧
      (fit (s.part (Fe.dome e)) 1 (ceilDiv (Mf.payload e) 4096 * 4096) (begun e.src 0x90 (Fe.dome e) s) = .ok t) :=
  ⟨laterEntry, library, (fit 0x11 1 4096 (begun ⟨0, 1, 2⟩ 0x90 0x11 library)).toOption.get (by decide +kernel), 0, by exact ⟨by decide +kernel, by decide +kernel, by decide +kernel, by decide +kernel, by decide +kernel, nat_get (fit 0x11 1 4096 (begun ⟨0, 1, 2⟩ 0x90 0x11 library)) (by decide +kernel)⟩⟩

set_option maxRecDepth 1000000 in
theorem witness_MergeCommandsComplete_3 : ∃ (e : Entry) (s : State),
      (milrisRuns (shapeMerge 1) e s = true) ∧
      (Mf.kind e = 1 ∧ mergeBad 1 e = false ∧ Mf.pos e < Mf.len e ∧ chainBadField e = false ∧ s.chainBusy e = false) ∧
      (inputFail (Fe.obj1 e) (s.part (Fe.dome e)) (begun e.src 0x90 (Fe.dome e) s) = none ∧ (s.obj? (Fe.obj1 e)).any (·.size < Mf.payload e) = false) ∧
      (aggSize (s.objBytes (Fe.obj1 e) 0 (Mf.payload e)) = Mf.payload e ∧ aggReserved (s.objBytes (Fe.obj1 e) 0 (Mf.payload e)) = false) ∧
      (Mf.pos e = 0) :=
  ⟨aggregateEntry, library, by decide +kernel⟩

set_option maxRecDepth 1000000 in
theorem witness_MergeCommandsComplete_4 : ∃ (e : Entry) (s : State),
      (milrisRuns (shapeMerge 2) e s = true) ∧
      (Mf.kind e = 2 ∧ mergeBad 2 e = false ∧ Mf.pos e < Mf.len e ∧ chainBadField e = false ∧ s.chainBusy e = false) ∧
      (inputFail (Fe.obj1 e) (s.part (Fe.dome e)) (begun e.src 0x90 (Fe.dome e) s) = none ∧ (s.obj? (Fe.obj1 e)).any (·.size < Mf.payload e) = false) ∧
      (let own := s.objBytes (Fe.obj1 e) 0 (Mf.payload e); 16 + 4 * le own 2 2 * le own 4 4 = Mf.payload e ∧ recordBad (le own 2 2) (le own 4 4) own = false) ∧
      (Mf.pos e = 0) :=
  ⟨reductionEntry, library, by decide +kernel⟩

set_option maxRecDepth 1000000 in
theorem witness_MergeEventsComplete_1 : ∃ (src : Src) (s : State) (m : Merge),
      (s.merge? src = some m ∧ m.merged = true ∧ m.sent = false ∧ m.position + 1 ≠ m.length) ∧
      (s.noticed m.ownSlot m.id = true ∧ s.hb.quiesced = false ∧ (s.cmd? src).any (·.failed.isSome) = false) ∧
      (s.peerFault src.fn = none) :=
  ⟨⟨0, 1, 2⟩, merging, mergeRun, by decide +kernel⟩

set_option maxRecDepth 1000000 in
theorem witness_MergeEventsComplete_2 : ∃ (src : Src) (s : State) (s1 : State) (m : Merge) (c : Cmd) (b : List Byte) (dups : Nat),
      (s.merge? src = some m ∧ s.cmd? src = some c ∧ c.failed = none ∧ m.position ≠ 0 ∧ m.merged = false) ∧
      (let at_ (o n : Nat) : Nat := memLE s.mrg.window (m.ownInbox * 0x1000000 + o) n; at_ 60 4 = 1 ∧ at_ 0 2 = m.id ∧ at_ 4 4 = m.payload ∧ at_ 3 1 = m.kind ∧ at_ 12 4 = m.queries ∧ at_ 8 4 = (crc32c (memRead s.mrg.window (m.ownInbox * 0x1000000 + 0x1000) m.payload)).toNat) ∧
      (mergedPayload m c.dome (memRead s.mrg.window (m.ownInbox * 0x1000000 + 0x1000) m.payload) s = .ok (b, dups, s1)) :=
  ⟨⟨0, 1, 2⟩, receiving, received.2.2, receiver, { command with opcode := 0x90 }, received.1, received.2.1, by exact ⟨by decide +kernel, by decide +kernel, received_eq⟩⟩

set_option maxRecDepth 1000000 in
theorem witness_MergeEventsComplete_3 : ∃ (src : Src) (s : State) (m : Merge) (c : Cmd),
      (s.merge? src = some m ∧ s.cmd? src = some c ∧ c.failed = none ∧ m.position ≠ 0 ∧ m.merged = false) ∧
      (let at_ (o n : Nat) : Nat := memLE s.mrg.window (m.ownInbox * 0x1000000 + o) n; at_ 60 4 = 1 ∧ at_ 0 2 = m.id ∧ (at_ 4 4 ≠ m.payload ∨ at_ 3 1 ≠ m.kind ∨ at_ 12 4 ≠ m.queries ∨ at_ 8 4 ≠ (crc32c (memRead s.mrg.window (m.ownInbox * 0x1000000 + 0x1000) m.payload)).toNat)) :=
  ⟨⟨0, 1, 2⟩, receiving.modMrg fun x => { x with merges := [{ receiver with queries := 2 }] }, { receiver with queries := 2 }, { command with opcode := 0x90 }, by decide +kernel⟩

set_option maxRecDepth 1000000 in
theorem witness_MergeEventsComplete_4 : ∃ (src : Src) (s : State) (m : Merge),
      (s.merge? src = some m ∧ m.sent = true ∧ (s.cmd? src).any (·.failed.isSome) = false) :=
  ⟨⟨0, 1, 2⟩, merging.modMrg fun x => { x with merges := [{ mergeRun with sent := true }] }, { mergeRun with sent := true }, by decide +kernel⟩

theorem witness_MergeEventsComplete_5 : ∃ (w : PeerWrite) (s : State),
      (s.windowOpen = true ∧ w.bytes ≠ [] ∧ w.offset + w.bytes.length ≤ 0x1000) :=
  ⟨{ offset := 0, bytes := [1] }, base, by decide⟩

theorem witness_MergeEventsComplete_6 : ∃ (w : PeerWrite) (s : State) (id : Nat) (size : Nat),
      (s.windowOpen = true ∧ w.bytes ≠ [] ∧ w.offset + w.bytes.length ≤ 0x40000000 ∧ 0x1000000 ≤ w.offset) ∧
      (s.mrg.armed.find? (·.1 == w.offset / 0x1000000) = some (w.offset / 0x1000000, id, size)) ∧
      (0x1000 ≤ w.offset % 0x1000000 ∧ w.offset % 0x1000000 + w.bytes.length ≤ 0x1000 + size ∧ w.offset % 0x1000000 + w.bytes.length ≤ 0x1000000) :=
  ⟨{ offset := 0x1001000, bytes := [1] }, base.modMrg fun x => { x with armed := [(1, 5, 64)] }, 5, 64, by decide⟩

theorem witness_MergeEventsComplete_7 : ∃ (w : PeerWrite) (s : State),
      (s.windowOpen = true ∧ w.bytes ≠ [] ∧ w.offset + w.bytes.length ≤ 0x40000000 ∧ 0x1000 < w.offset + w.bytes.length) ∧
      (s.mrg.armed.find? (·.1 == w.offset / 0x1000000) = none) :=
  ⟨{ offset := 0x1001000, bytes := [1] }, base, by decide⟩

set_option maxRecDepth 1000000 in
theorem witness_StepKeepsInvariant : ∃ (s : State),
      (StateInv s) :=
  ⟨State.reset, by unfold StateInv; decide +kernel⟩

set_option maxRecDepth 1000000 in
theorem witness_CodesDecodeToLevels_3 : ∃ (f : Nat) (x : Nat) (s : Nat),
      (f ∈ [2, 3, 4]) ∧
      ((quantElem f x s).level = 0) ∧
      (f32.nan x = false) :=
  ⟨2, 0x80000000, 0x3C00, by decide +kernel⟩

theorem witness_PackedCodesReadBack_2 : ∃ (f : Nat) (cs : List Nat),
      (f ∈ [2, 3, 4, 5, 6]) ∧
      (∀ c ∈ cs, c < 2 ^ codeBits f) :=
  ⟨3, [1, 7, 2], by decide⟩

set_option maxRecDepth 1000000 in
theorem witness_QuantiserTakesTheNearestLevel : ∃ (f : Nat) (x : Nat) (s : Nat),
      (f ∈ [2, 3, 4, 5, 6]) ∧
      (f32.fin x = true) ∧
      ((scaleUse s).1 ≠ 0) :=
  ⟨2, 0x3F800000, 0x3C00, by decide +kernel⟩

theorem witness_RowScaleFitsTheRow : ∃ (f : Nat),
      (f ∈ [2, 3, 4, 5, 6]) :=
  ⟨2, by decide⟩

set_option maxRecDepth 1000000 in
theorem witness_RankKeysOrderTheValues_3 : ∃ (x : DWord) (y : DWord),
      (f32.nan x.toNat = false) ∧
      (f32.nan y.toNat = false) :=
  ⟨0x3F800000, 0xFF800000, by decide +kernel⟩

theorem witness_SelectionHoldsTheBestK : ∃ (apx : Bool) (k : Nat),
      (1 ≤ k) ∧
      (k ≤ 64 ∨ apx = false) :=
  ⟨true, 2, by decide⟩

set_option maxRecDepth 1000000 in
theorem witness_TypeFComparesExactly_1 : ∃ (p : List Byte) (w : List Byte) (i : Nat),
      ((Prg.term p i).ty = 2) ∧
      (f32.nan (le w (Prg.term p i).off (Prg.term p i).width) = true) :=
  ⟨(List.replicate 8 0 ++ [0, 2, 4, 0]), [0, 0, 0xC0, 0x7F], 0, by decide +kernel⟩

set_option maxRecDepth 1000000 in
theorem witness_TypeFComparesExactly_2 : ∃ (p : List Byte) (w : List Byte) (i : Nat),
      ((Prg.term p i).ty = 2) ∧
      (f32.nan (le w (Prg.term p i).off (Prg.term p i).width) = false) :=
  ⟨(List.replicate 8 0 ++ [0, 2, 4, 0]), [0, 0, 0x80, 0x3F], 0, by decide +kernel⟩

set_option maxRecDepth 1000000 in
theorem witness_TypeFComparesExactly_4 : ∃ (p : List Byte) (i : Nat),
      (i < Prg.terms p) ∧
      ((Prg.term p i).ty = 2) ∧
      ((Prg.term p i).op ≤ 3) ∧
      (f32.nan (Prg.term p i).a = true ∨ f32.nan (Prg.term p i).b = true) :=
  ⟨([1, 0, 0, 0, 0, 0, 0, 0] ++ [0, 2, 4, 0, 0, 0, 0, 0] ++ [0, 0, 0xC0, 0x7F, 0, 0, 0, 0] ++ List.replicate 8 0), 0, by decide +kernel⟩

set_option maxRecDepth 1000000 in
theorem witness_QuotasHoldOnThePath_1 : ∃ (tier : Nat) (d : Nat) (bytes : Nat) (s : State),
      (s.blocked d tier bytes = none) :=
  ⟨1, 0x11, 4096, base, by decide +kernel⟩

set_option maxRecDepth 1000000 in
theorem witness_QuotasHoldOnThePath_2 : ∃ (tier : Nat) (d : Nat) (bytes : Nat) (a : Nat) (s : State),
      (s.blocked d tier bytes = some a) :=
  ⟨1, 0x11, 2 ^ 60, 0x11, base, by decide +kernel⟩

set_option maxRecDepth 1000000 in
theorem witness_FullRingKeepsUncorrectableEntries_1 : ∃ (old : DevEntry) (s : State),
      (256 ≤ s.itg.ring.length) ∧
      (s.itg.ring.find? (fun x => !x.uncorrectable) = some old) :=
  ⟨{ nandEntry 0 0 with uncorrectable := false }, { State.reset with itg := { ring := List.replicate 256 { nandEntry 0 0 with uncorrectable := false } } }, by decide +kernel⟩

set_option maxRecDepth 1000000 in
theorem witness_FullRingKeepsUncorrectableEntries_2 : ∃ (s : State),
      (256 ≤ s.itg.ring.length) ∧
      (s.itg.ring.find? (fun x => !x.uncorrectable) = none) :=
  ⟨{ State.reset with itg := { ring := List.replicate 256 (nandEntry 0 0) } }, by decide +kernel⟩

set_option maxRecDepth 1000000 in
theorem witness_ThrottlingHoldsEachBandAsTold_1 : ∃ (s : State),
      (s.applied ≤ 15) :=
  ⟨base, by decide +kernel⟩

set_option maxRecDepth 1000000 in
theorem witness_VirtualFunctionsRunNoVendorCommands_1 : ∃ (c : Instr) (op : Nat) (us : Nat) (a : Admin) (s : State),
      (adminRuns a.src false s = true) ∧
      (a.src.fn ≠ 0) ∧
      ((c = .loadStructure a ∧ op = 0xC0) ∨
      (c = .domeDissolve a ∧ op = 0xC1 ∧ bits a.cdw10.toNat 3 0 ≠ 1 ∧ bits a.cdw10.toNat 3 0 ≠ 2) ∨
      (c = .domeBind a ∧ op = 0xC1 ∧ bits a.cdw10.toNat 3 0 = 1) ∨ (c = .domeUnbind a ∧ op = 0xC1 ∧ bits a.cdw10.toNat 3 0 = 2) ∨
      (c = .negotiate a us ∧ op = 0xC3) ∨
      (c = .reattachAdopt a us ∧ op = 0xC4 ∧ bit a.cdw11.toNat 0 = false) ∨ (c = .reattachDiscard a us ∧ op = 0xC4 ∧ bit a.cdw11.toNat 0 = true) ∨
      (c = .serviceFence a ∧ op = 0xC5 ∧ ¬ (2 ≤ bits a.cdw10.toNat 7 0 ∧ bits a.cdw10.toNat 7 0 ≤ 7)) ∨
      (c = .serviceUnfence a ∧ op = 0xC5 ∧ bits a.cdw10.toNat 7 0 = 2) ∨
      (c = .retireDramChannelGroup a ∧ op = 0xC5 ∧ bits a.cdw10.toNat 7 0 = 3) ∨
      (c = .retireNandDie a ∧ op = 0xC5 ∧ bits a.cdw10.toNat 7 0 = 4) ∨
      (c = .recalibrateScales a ∧ op = 0xC5 ∧ bits a.cdw10.toNat 7 0 = 5) ∨
      (c = .recalibrateReadLevels a ∧ op = 0xC5 ∧ bits a.cdw10.toNat 7 0 = 6) ∨
      (c = .testButtressBank a ∧ op = 0xC5 ∧ bits a.cdw10.toNat 7 0 = 7) ∨
      (c = .lanternDisable a ∧ op = 0xC6 ∧ bits a.cdw10.toNat 1 0 = 0) ∨ (c = .lanternEnable a ∧ op = 0xC6 ∧ bits a.cdw10.toNat 1 0 = 1) ∨
      (c = .lanternSetSources a ∧ op = 0xC6 ∧ 2 ≤ bits a.cdw10.toNat 1 0)) :=
  ⟨.negotiate { admin with src := { fn := 1, sq := 0, cid := 0 } } 0, 0xC3, 0, { admin with src := { fn := 1, sq := 0, cid := 0 } }, { base with q := { base.q with fetched := [(1, 0)] } }, by decide +kernel⟩

theorem witness_VirtualFunctionsRunNoVendorCommands_2 : ∃ (a : Admin) (s : State) (t : State),
      (exec (.queueResume a) s = .next t) :=
  ⟨admin, base, _, by rfl⟩

theorem witness_EpochCountsAttachments_2 : ∃ (a : Admin) (s : State),
      (adminRuns a.src true s = true) ∧
      (a.src.fn = 0) ∧
      (a.cdw13 = 0 ∧ a.cdw14 = 0 ∧ a.cdw15 = 0) ∧
      ((a.cdw11 ++ a.cdw10 : QWord).getLsbD 0 = true) :=
  ⟨{ admin with cdw10 := 1 }, base, by decide⟩

theorem witness_EpochCountsAttachments_3 : ∃ (a : Admin) (s : State),
      (adminRuns a.src true s = true) ∧
      (a.src.fn = 0) ∧
      ((bit a.cdw11.toNat 0 || s.granted 11) = true) ∧
      (bits a.cdw11.toNat 31 1 = 0 ∧ tailSet a = false) ∧
      (s.hb.quiesced = true) ∧
      (a.cdw10 = s.hb.qEpoch) :=
  ⟨{ admin with cdw10 := 1, cdw11 := 1 }, quiet base, by decide⟩

theorem witness_TrafficTakesItsRouteOrTheFewestHops_1 : ∃ (a : Nat) (b : Nat),
      (a < 4 ∧ b < 4) :=
  ⟨0, 3, by decide⟩

set_option maxRecDepth 1000000 in
theorem witness_TrafficTakesItsRouteOrTheFewestHops_2 : ∃ (s : State) (d : Nat) (dest : Nat) (r : Route),
      (s.str.routes.find? (fun r => r.dome == d && r.dest == dest) = some r) ∧
      ((s.dome? d).isSome = true) :=
  ⟨{ library with str := { library.str with routes := [{ dome := 0x11, dest := 0, hops := [0] }] } }, 0x11, 0, { dome := 0x11, dest := 0, hops := [0] }, by decide +kernel⟩

set_option maxRecDepth 1000000 in
theorem witness_TrafficTakesItsRouteOrTheFewestHops_3 : ∃ (s : State) (d : Nat) (p : Nat) (dest : Nat),
      (s.path d = d :: s.path p) ∧
      (s.str.routes.find? (fun r => r.dome == d && r.dest == dest) = none) :=
  ⟨{ library with str := { library.str with domes := [{ id := 0x11, parent := 0, clusters := [0] }, { id := 0x111, parent := 0x11, clusters := [0] }] } }, 0x111, 0x11, 0, by decide +kernel⟩

set_option maxRecDepth 1000000 in
theorem witness_TrafficTakesItsRouteOrTheFewestHops_4 : ∃ (s : State) (d : Nat) (dest : Nat) (q : Nat),
      (∀ r ∈ s.str.routes, r.dome ∈ s.path d → r.dest ≠ dest) ∧
      (destQuadrant dest = some q) :=
  ⟨library, 0x11, 0x13, 1, by decide +kernel⟩

/-! ### Well-formedness: an ill-formed term for each check, refused -/

/-- An entry for the Milris commands, an admin entry, an NVM entry and a register write with nothing wrong. -/
def goodEntry : Entry := entry 0x81
def goodNvm : Nvm := { src := ⟨0, 1, 2⟩, nsid := 1, slba := 0, nlb := 0, cdw10 := 0, cdw11 := 0, dptr := 0, input := [] }
def goodWrite : RegWrite := ⟨0, 2, 0x1000, 4, 1⟩
def aTask : TaskRef := ⟨⟨0, 1, 2⟩, 0⟩
def badTask : TaskRef := ⟨⟨64, 1, 2⟩, 0⟩

theorem test_wf_accepts : (Instr.place goodEntry).wf = true ∧ (Instr.identify admin).wf = true ∧ (Instr.read goodNvm).wf = true ∧
    (Instr.evpendWrite goodWrite).wf = true ∧ (Instr.tickBoundary 600 0).wf = true := by decide
theorem test_wf_refuses_senders : (Instr.place { goodEntry with src := ⟨64, 1, 0⟩ }).wf = false ∧
    (Instr.place { goodEntry with src := ⟨0, 1024, 0⟩ }).wf = false ∧ (Instr.place { goodEntry with src := ⟨0, 1, 65536⟩ }).wf = false ∧
    (Instr.taskEnd badTask 0 {}).wf = false ∧ (Instr.tuneCommit ⟨64, 1, 0⟩).wf = false := by decide
theorem test_wf_refuses_queues : (Instr.place { goodEntry with src := ⟨0, 0, 0⟩ }).wf = false ∧
    (Instr.identify { admin with src := ⟨0, 1, 0⟩ }).wf = false ∧ (Instr.read { goodNvm with src := ⟨0, 0, 0⟩ }).wf = false ∧
    (Instr.sqTailDoorbell 64 1 0).wf = false ∧ (Instr.commandFetch 0 1024 none).wf = false ∧ (Instr.commandFetch 0 1 (some (0, 65536))).wf = false := by decide
theorem test_wf_refuses_times : (Instr.negotiate admin 500).wf = false ∧ (Instr.hbeatWrite goodWrite 500).wf = false ∧
    (Instr.taskDispatch aTask 500).wf = false ∧ (Instr.schedulerCoreSwap 500).wf = false ∧ (Instr.tickBoundary 1024 0).wf = false := by decide
theorem test_wf_refuses_writes : (Instr.registerWrite { goodWrite with fn := 64 }).wf = false ∧
    (Instr.registerWrite { goodWrite with bar := 1 }).wf = false ∧ (Instr.registerWrite { goodWrite with size := 0 }).wf = false ∧
    (Instr.registerWrite { goodWrite with size := 9 }).wf = false ∧ (Instr.edgecntRead 0 0).wf = false ∧
    (Instr.peerWindowWrite { offset := 2 ^ 30, bytes := [] }).wf = false := by decide
theorem test_wf_refuses_structure : (Instr.fenceTakesEffect 800).wf = false ∧ (Instr.saveStart 0x1000 0).wf = false ∧
    (Instr.semaphoreAcquire aTask 1024).wf = false ∧ (Instr.streamChunkRead aTask 65536).wf = false ∧
    (Instr.streamChunkWrite aTask 0 (List.replicate 4097 0)).wf = false ∧ (Instr.ingestTrigger 0x11 17).wf = false ∧
    (Instr.watchWindowEnd 4096).wf = false := by decide +kernel
theorem test_wf_refuses_flash : (Instr.blockErase 5591040).wf = false ∧ (Instr.readLevelEvaluation 88064).wf = false ∧
    (Instr.eraseResume 512).wf = false ∧ (Instr.scanEngineSlotFree 8).wf = false ∧ (Instr.destage 258 0 0 []).wf = false := by decide
theorem test_wf_refuses_memory : (Instr.scrubRead (.t0 800 0) (List.replicate 129 (0, 0)) none).wf = false ∧
    (Instr.scrubRead (.t1 32 0) (List.replicate 129 (0, 0)) none).wf = false ∧
    (Instr.scrubRead (.t1 0 0) [] none).wf = false ∧ (Instr.packageStopsResponding 32).wf = false ∧ (Instr.dramSelfRefresh 8).wf = false :=
  by decide +kernel
theorem test_wf_refuses_module : (Instr.domainWake 50).wf = false ∧ (Instr.bandRetain 25).wf = false ∧ (Instr.fabricQuadrantGate 4).wf = false ∧
    (Instr.supplyWarningEnd 2).wf = false ∧ (Instr.thermalTrimStep []).wf = false ∧ (Instr.dStateTransition 0 4).wf = false ∧
    (Instr.l0pWidthChange 3).wf = false := by decide
theorem test_wf_refuses_events : (Instr.eventSourceRise 0x1000 0).wf = false ∧ (Instr.groupDelivery 32 0).wf = false ∧
    (Instr.msixVectorUnmask 0 2048).wf = false ∧ (Instr.lanternPacketSend 2).wf = false ∧ (Instr.ideStreamInsecure 9).wf = false ∧
    (Instr.keyProg none { stream := 0, keySet := 2, rx := false, substream := 0, key := 0 }).wf = false ∧
    (Instr.vpdRead { addr := 0x80, opcode := 5, payload := [] }).wf = false := by decide

/-! ### The worked examples of the spec -/

/-- The row of the example of 06: 0.84, −2.10, 0.05, 1.31, −0.43, 3.60, NaN, −0.97, as the nearest binary32 numbers (the example's a is 3.60,
and the nearest binary16 number to it is 3.599609375, which would give 0x43AE). -/
def row67 : List Nat := [0x3F570A3D, 0xC0066666, 0x3D4CCCCD, 0x3FA7AE14, 0xBEDC28F6, 0x40666666, 0x7FC00000, 0xBF7851EC]

/-- 06, the example before Table 6-7: the scale is 0x43AF. -/
theorem test_row_scale : dynScale 2 row67 = 0x43AF := by decide +kernel
/-- 06 Table 6-7 and the bytes below it: E3 48 7A C8, then twelve of 0x88. -/
theorem test_row_codes : (quantRow 2 true row67 fun _ => 0x43AF).2 = [0xE3, 0x48, 0x7A, 0xC8] ++ List.replicate 12 0x88 := by decide +kernel
/-- 06 Table 6-7: levels 3 and −10 decode to 0.7203369140625 and −2.401123046875. -/
theorem test_decoded : decode32 3 0x43AF = 0x3F386800 ∧ decode32 (-10) 0x43AF = 0xC019AC00 := by decide +kernel
/-- 06, the example of Table 6-8: 4.1 under a K4U scale of 0.5 is +7 and clips. -/
theorem test_clip : quantElem 5 0x40833333 0x3800 = { level := 7, clip := true } := by decide +kernel
/-- 07 Table 7-4: three passes end at m = 5,498,944 with E = 109 after two re-runs. -/
theorem test_accumulator :
    let a := accumulate { exponent := none, mant := [0], saturated := false } [3150 * 2 ^ 43]
    let b := accumulate a.1 [20700 * 2 ^ 45]
    let c := accumulate b.1 [-3711 * 2 ^ 36]
    a.1.exponent = some 105 ∧ a.1.mant = [3225600] ∧ b.1.exponent = some 109 ∧ b.1.mant = [5500800] ∧ b.2.1 = 2 ∧
    c.1.mant = [5498944] ∧ c.2.1 = 0 := by decide +kernel
/-- 04 Table 4-4: the fields of the SEARCH entry. -/
theorem test_entry :
    let e : Entry := { entry 0x8A with dw0 := 0x0007008A, dw2 := 0x02A70011, dw12 := 0x00000042, dw13 := 0x001000A1 }
    Fe.opcode e = 0x8A ∧ Fe.cid e = 7 ∧ Fe.dome e = 0x011 ∧ Fe.tenant e = 0x2A7 ∧ Fe.obj1 e = 0x00A100000042 ∧ Fe.outObj e = false := by
  decide +kernel
/-- 09, the example before Table 9-5: 7.0 lies in bucket 0xC0E, 6.5 in bucket 0xC0D. -/
theorem test_buckets : rankKey true 0x40E00000 / 2 ^ 20 = 0xC0E ∧ rankKey true 0x40D00000 / 2 ^ 20 = 0xC0D := by decide +kernel
/-- 22, the example of two counters: overflow re-runs of partition slot 2, and remote share waits of dome 0x012. -/
theorem test_counter_window : (ctrAtOffset 0x5ED10).map (·.2) = some 2 ∧ (ctrAtOffset 0x24990).map (·.2) = some 0x12 ∧
    (ctrAtOffset 0x5ED10).map (fun x => x.1.spec.scope == .partition) = some true ∧
    (ctrAtOffset 0x24990).map (fun x => x.1.spec.scope == .dome) = some true := by decide +kernel

/-! ### One step of a small state -/

/-- 03 R97, R98: NEGOTIATE outside quiesce counts the epoch and grants what is offered of bits 0 to 11. -/
theorem test_negotiate : (nexted (exec (.negotiate { admin with cdw10 := 0x1FFF } 100) base)).any (fun t =>
    t.hb.epoch == 2 && t.hb.neg == 0xFFF) = true := by decide +kernel
/-- 04 R111: a tail doorbell sets the tail of its queue alone. -/
theorem test_doorbell : (nexted (exec (.sqTailDoorbell 0 1 45) base)).any (fun t => t.q.sqs.map (·.tail) == [20, 45]) = true := by
  decide +kernel
/-- 03 R67: a tick boundary counts. -/
theorem test_tick : (nexted (exec (.tickBoundary 300 0) base)).any (fun t => t.tick == 1) = true := by decide +kernel
/-- 15 R428: EVPEND clears the source whose bit is written as 1, and only that one. -/
theorem test_evpend : (nexted (exec (.evpendWrite ⟨0, 2, 0x2000, 4, 0x20⟩) (base.modEvt fun e => { e with pend := [4, 5] }))).any
    (fun t => t.evt.pend == [4]) = true := by decide +kernel
/-- 03 R98: a heartbeat with another value than the epoch is ignored. -/
theorem test_heartbeat : (nexted (exec (.hbeatWrite ⟨0, 2, 0x1000, 4, 7⟩ 100) base)).any (fun t => t.hb.lastBeat == base.hb.lastBeat) = true ∧
    (nexted (exec (.hbeatWrite ⟨0, 2, 0x1000, 4, 1⟩ 100) base)).any (fun t => t.hb.lastBeat == 100) = true := by decide +kernel
/-- The block's queue: a step takes the front command (log 1). -/
theorem test_queue : (nexted (step { base with pending := [.sqTailDoorbell 0 1 45, .imageTakesEffect] })).any
    (fun t => t.pending == [.imageTakesEffect] && t.q.sqs.map (·.tail) == [20, 45]) = true := by decide +kernel

end Sys2Proof.Tests
end

/-! # Accesses to BAR2 that are not an aligned dword or qword (00 R16)

A register write acts through the dwords that its access covers. A write that is not a naturally aligned dword or qword covers none, so every
command that carries a write to BAR2 goes on with the state as it was. -/

namespace Sys2Proof.Machine

/-! ### The commands that carry a register write -/

theorem exec_hbeatWrite (w : RegWrite) (us : Nat) (s : State) : exec (.hbeatWrite w us) s = execHbeatWrite w us s := rfl
theorem exec_evpendWrite (w : RegWrite) (s : State) : exec (.evpendWrite w) s = execEvpendWrite w s := rfl
theorem exec_evmaskWrite (w : RegWrite) (s : State) : exec (.evmaskWrite w) s = execEvmaskWrite w s := rfl
theorem exec_grpctlWrite (w : RegWrite) (s : State) : exec (.grpctlWrite w) s = execGrpctlWrite w s := rfl
theorem exec_registerWrite (w : RegWrite) (s : State) : exec (.registerWrite w) s = execRegisterWrite w s := rfl

/-! ### Reads -/

theorem bar2Read_dword (s : State) (f : Nat) {off size : Nat} (h4 : size = 4 ∧ off % 4 = 0) :
    bar2Read s f off size = bar2Dword s f off := if_pos h4

theorem bar2Read_qword (s : State) (f : Nat) {off size : Nat} (h8 : size = 8 ∧ off % 8 = 0) :
    bar2Read s f off size = bar2Dword s f off + 2 ^ 32 * bar2Dword s f (off + 4) := by
  have h4 : ¬ (size = 4 ∧ off % 4 = 0) := by omega
  rw [bar2Read, if_neg h4, if_pos h8]

theorem bar2Read_of_narrow (s : State) (f : Nat) {off size : Nat} (h4 : ¬ (size = 4 ∧ off % 4 = 0)) (h8 : ¬ (size = 8 ∧ off % 8 = 0)) :
    bar2Read s f off size = 0 := by
  rw [bar2Read, if_neg h4, if_neg h8]

/-! ### Writes -/

section Narrow

variable {w : RegWrite} (h4 : ¬ (w.size = 4 ∧ w.offset % 4 = 0)) (h8 : ¬ (w.size = 8 ∧ w.offset % 8 = 0))
include h4 h8

/-- Such a write covers no dword: the reason why it is discarded. -/
theorem RegWriteDwords_of_narrow : RegWriteDwords w = [] := by
  rw [RegWriteDwords, if_neg h4, if_neg h8]

theorem writeEvents_of_narrow (s : State) : writeEvents w s = s := by
  rw [writeEvents, RegWriteDwords_of_narrow h4 h8, List.foldl_nil]

theorem execHbeatWrite_of_narrow (us : Nat) (s : State) : execHbeatWrite w us s = .next s := by
  rw [execHbeatWrite, RegWriteDwords_of_narrow h4 h8, List.foldl_nil, ite_self]

theorem execEvpendWrite_of_narrow (s : State) : execEvpendWrite w s = .next s := by
  rw [execEvpendWrite, writeEvents_of_narrow h4 h8, ite_self]

theorem execEvmaskWrite_of_narrow (s : State) : execEvmaskWrite w s = .next s := by
  rw [execEvmaskWrite, writeEvents_of_narrow h4 h8, ite_self]

theorem execGrpctlWrite_of_narrow (s : State) : execGrpctlWrite w s = .next s := by
  rw [execGrpctlWrite, writeEvents_of_narrow h4 h8, ite_self]

/-- In BAR2 alone: the write of CC in BAR0 does not go through the dwords of its access. -/
theorem execRegisterWrite_of_narrow (hbar : w.bar = 2) (s : State) : execRegisterWrite w s = .next s := by
  have hcfg : w.bar ≠ 255 := by omega
  have hbar0 : w.bar ≠ 0 := by omega
  rw [execRegisterWrite, if_neg hcfg, if_neg hbar0, if_pos hbar, RegWriteDwords_of_narrow h4 h8, List.foldl_nil, ite_self, ite_self]

end Narrow

/-- Settles O6: a read by the three cases of its size and alignment, a write because it covers no dword. -/
theorem narrowAccessesReadZeroAndWriteNothing : Obligations.NarrowAccessesReadZeroAndWriteNothing := by
  unfold Obligations.NarrowAccessesReadZeroAndWriteNothing
  refine ⟨fun s f off size => ⟨bar2Read_dword s f, bar2Read_qword s f, bar2Read_of_narrow s f⟩, fun s w us hbar h4 h8 => ?_⟩
  rw [exec_hbeatWrite, exec_evpendWrite, exec_evmaskWrite, exec_grpctlWrite, exec_registerWrite]
  exact ⟨execHbeatWrite_of_narrow h4 h8 us s, execEvpendWrite_of_narrow h4 h8 s, execEvmaskWrite_of_narrow h4 h8 s,
    execGrpctlWrite_of_narrow h4 h8 s, execRegisterWrite_of_narrow h4 h8 hbar s⟩

end Sys2Proof.Machine

/-! # What leaves the heartbeat record, and what leaves the epoch (03 R97)

The commands that change the epoch also complete, drop and deliver other work. None of those operations is an attachment: most of them leave
the whole heartbeat record; the others hold or park an answer in it during quiesce (03 R100) and leave its epoch. -/

namespace Sys2Proof.Machine

/-! ### Folds and choices -/

theorem foldl_hb {α : Type} {f : State → α → State} (h : ∀ t a, (f t a).hb = t.hb) (l : List α) (s : State) : (l.foldl f s).hb = s.hb := by
  induction l generalizing s with
  | nil => rfl
  | cons a l ih => rw [List.foldl_cons, ih, h]

theorem foldl_epoch {α : Type} {f : State → α → State} (h : ∀ t a, (f t a).hb.epoch = t.hb.epoch) (l : List α) (s : State) :
    (l.foldl f s).hb.epoch = s.hb.epoch := by
  induction l generalizing s with
  | nil => rfl
  | cons a l ih => rw [List.foldl_cons, ih, h]

/-! ### The trace, the counters and the Belfry -/

@[simp] theorem ctrAdd_hb (c : Ctr) (i n : Nat) (s : State) : (ctrAdd c i n s).hb = s.hb := (ctrAdd_traced ..).hb
@[simp] theorem ctrPart_hb (c : Ctr) (d n : Nat) (s : State) : (ctrPart c d n s).hb = s.hb := (ctrPart_traced ..).hb
@[simp] theorem queuePacket_hb (k : Nat) (src : Src) (o a b d : Nat) (s : State) : (queuePacket k src o a b d s).hb = s.hb :=
  (queuePacket_traced ..).hb
@[simp] theorem semPacket_hb (k a b c d : Nat) (s : State) : (semPacket k a b c d s).hb = s.hb := (semPacket_traced ..).hb
@[simp] theorem raisePart_hb (d k : Nat) (w : DWord) (s : State) : (raisePart d k w s).hb = s.hb := (raisePart_raised ..).hb

@[simp] theorem markPacket_hb (k : Nat) (s : State) : (markPacket k s).hb = s.hb := (putPacket_traced ..).hb
@[simp] theorem modDomain_hb (n : Nat) (f : Domain → Domain) (s : State) : (modDomain n f s).hb = s.hb := rfl

@[simp] theorem lanternTry_hb (s : State) : (lanternTry s).hb = s.hb := by
  unfold lanternTry
  split
  · simp [lanternStart]
  · rfl

@[simp] theorem lanternStop_hb (s : State) : (lanternStop s).hb = s.hb := by
  unfold lanternStop
  split
  · simp
  · rfl

/-! ### Charges, objects and host memory -/

@[simp] theorem uncharge_hb (o : Owner) (s : State) : (uncharge o s).hb = s.hb := rfl
@[simp] theorem foldl_uncharge_hb {α : Type} (o : α → Owner) (l : List α) (s : State) :
    (l.foldl (fun t a => uncharge (o a) t) s).hb = s.hb := foldl_hb (fun _ _ => uncharge_hb ..) l s
@[simp] theorem modOne_hb (id : Nat) (f : Obj → Obj) (s : State) : (modOne id f s).hb = s.hb := rfl
@[simp] theorem backExtents_hb (id : Nat) (l : List Nat) (s : State) : (backExtents id l s).hb = s.hb := rfl
@[simp] theorem dropPage_hb (id p : Nat) (s : State) : (dropPage id p s).hb = s.hb := rfl

@[simp] theorem charge_hb (o : Owner) (tier d n : Nat) (s : State) : (charge o tier d n s).hb = s.hb := by
  unfold charge
  split <;> rfl

theorem freeFor_hb {keep : List (Nat × Nat)} {n d b : Nat} {s t : State} (h : freeFor keep n d b s = some t) : t.hb = s.hb := by
  induction n generalizing s with
  | zero =>
    unfold freeFor at h
    split at h
    · cases h; rfl
    · cases h
  | succ n ih =>
    unfold freeFor at h
    split at h
    · cases h; rfl
    · dsimp only at h
      split at h
      · cases h
      · rw [ih h, ctrPart_hb, dropPage_hb]

theorem fit_hb {d tier n : Nat} {s t : State} (h : fit d tier n s = .ok t) : t.hb = s.hb := by
  unfold fit fitKeeping at h
  split at h
  · split at h
    · next hfree => cases h; exact freeFor_hb hfree
    · cases h
  · split at h
    · cases h; rfl
    · cases h

@[simp] theorem writeBack_hb (id : Nat) (s : State) : (writeBack id s).hb = s.hb := by
  unfold writeBack
  split
  · rfl
  · split
    · rfl
    · simp

@[simp] theorem writeBackAll_hb (c : Cmd) (s : State) : (writeBackAll c s).hb = s.hb := by
  unfold writeBackAll
  split
  · rfl
  · exact foldl_hb (fun t id => writeBack_hb id t) ..

@[simp] theorem sendT2_epoch (l : List (Nat × List Byte)) (s : State) : (sendT2 l s).hb.epoch = s.hb.epoch := by
  unfold sendT2
  split <;> rfl

@[simp] theorem writeObj_epoch (id off : Nat) (bs : List Byte) (s : State) : (writeObj id off bs s).hb.epoch = s.hb.epoch := by
  unfold writeObj
  split
  · rfl
  · split
    · exact sendT2_epoch ..
    · rfl

@[simp] theorem deliver_epoch (b : Bool) (a : Nat) (out : List Byte) (s : State) : (deliver b a out s).hb.epoch = s.hb.epoch := by
  unfold deliver
  split
  · rfl
  · split
    · rw [writeBack_hb, writeObj_epoch]
    · rfl

/-! ### Completions and the log of failures -/

@[simp] theorem sendMsix_hb (f v : Nat) (s : State) : (sendMsix f v s).hb = s.hb := by
  unfold sendMsix
  split
  · rfl
  · split <;> rfl

@[simp] theorem postNow_hb (c : Completion) (s : State) : (postNow c s).hb = s.hb := by
  unfold postNow
  split
  · rfl
  · split
    · rfl
    · dsimp only
      split <;> simp [modCq]

/-- A completion that is held joins the heartbeat record, whose epoch stays. -/
@[simp] theorem post_epoch (c : Completion) (s : State) : (post c s).hb.epoch = s.hb.epoch := by
  unfold post
  split
  · rfl
  · rw [postNow_hb]

@[simp] theorem ok_epoch (src : Src) (a b : Nat) (s : State) : (ok src a b s).hb.epoch = s.hb.epoch := post_epoch ..

@[simp] theorem aenPump_epoch (s : State) : (aenPump s).hb.epoch = s.hb.epoch := by
  unfold aenPump
  split
  · rfl
  · split
    · rfl
    · simp

@[simp] theorem aen_epoch (f ty i p : Nat) (s : State) : (aen f ty i p s).hb.epoch = s.hb.epoch := by
  unfold aen
  split
  · rfl
  · simp

@[simp] theorem vendorNotice_epoch (f p : Nat) (s : State) : (vendorNotice f p s).hb.epoch = s.hb.epoch := by
  unfold vendorNotice
  split
  · rfl
  · split
    · exact aen_epoch ..
    · rfl

@[simp] theorem logCmp_epoch (e : CmpEntry) (s : State) : (logCmp e s).hb.epoch = s.hb.epoch := vendorNotice_epoch ..

@[simp] theorem failMilris_epoch (src : Src) (o d n : Nat) (f : Fail) (s : State) : (failMilris src o d n f s).hb.epoch = s.hb.epoch := by
  unfold failMilris
  dsimp only
  split <;> simp [modSq]

@[simp] theorem deleteCheck_epoch (f q : Nat) (s : State) : (deleteCheck f q s).hb.epoch = s.hb.epoch := by
  unfold deleteCheck
  split
  · rfl
  · split
    · rfl
    · split
      · rfl
      · simp

@[simp] theorem park_epoch (c : Cmd) (p : Nat) (out : List Byte) (s : State) : (park c p out s).hb.epoch = s.hb.epoch := by
  unfold park
  dsimp only
  split
  · next hfit => simp [fit_hb hfit]
  · simp

/-! ### The commands, their chains, arrays and semaphores -/

@[simp] theorem modCmd_hb (src : Src) (f : Cmd → Cmd) (s : State) : (modCmd src f s).hb = s.hb := rfl
@[simp] theorem modChain_hb (t : TaskRef) (f : Chain → Chain) (s : State) : (modChain t f s).hb = s.hb := rfl
@[simp] theorem modSem_hb (i : Nat) (f : Sem → Sem) (s : State) : (modSem i f s).hb = s.hb := rfl
@[simp] theorem wakeJobs_hb (s : State) : (wakeJobs s).hb = s.hb := rfl
@[simp] theorem remark_hb (s : State) : (remark s).hb = s.hb := rfl
@[simp] theorem endSems_hb (src : Src) (s : State) : (endSems src s).hb = s.hb := rfl
@[simp] theorem keepAnswer_hb (src : Src) (s : State) : (keepAnswer src s).hb = s.hb := rfl
@[simp] theorem markArms_hb (c : Cmd) (l : List (Nat × Nat)) (s : State) : (markArms c l s).hb = s.hb := rfl
@[simp] theorem moveCursor_hb (src : Src) (n : Nat) (s : State) : (moveCursor src n s).hb = s.hb := rfl
@[simp] theorem grantArrays_hb (k : ArrayAsk) (l : List Nat) (s : State) : (grantArrays k l s).hb = s.hb := rfl
@[simp] theorem disarm_hb (n : Nat) (s : State) : (disarm n s).hb = s.hb := rfl
@[simp] theorem foldl_disarm_hb (l : List Nat) (s : State) : (l.foldl (fun t n => disarm n t) s).hb = s.hb :=
  foldl_hb (fun _ _ => disarm_hb ..) l s
@[simp] theorem freeSlots_hb (p : Watch → Bool) (s : State) : (freeSlots p s).hb = s.hb := rfl

@[simp] theorem starveEnd_hb (c : Nat) (s : State) : (starveEnd c s).hb = s.hb := by
  unfold starveEnd
  split <;> rfl

@[simp] theorem endWait_hb (t : TaskRef) (s : State) : (endWait t s).hb = s.hb := by
  unfold endWait
  rw [modChain_hb]
  split
  · split
    · rfl
    · rw [starveEnd_hb]
  · rfl

@[simp] theorem serveArrays_hb (n : Nat) (s : State) : (serveArrays n s).hb = s.hb := by
  induction n generalizing s with
  | zero => rfl
  | succ n ih =>
    unfold serveArrays
    split
    · rfl
    · simp [ih]

@[simp] theorem dropArrays_hb (p : TaskRef → Bool) (s : State) : (dropArrays p s).hb = s.hb := by
  simp [dropArrays, freeGrants]

@[simp] theorem dropVersions_hb (s : State) : (dropVersions s).hb = s.hb := by simp [dropVersions]

@[simp] theorem giveUnit_hb (i : Nat) (s : State) : (giveUnit i s).hb = s.hb := by
  unfold giveUnit
  split
  · rfl
  · split
    · rfl
    · dsimp only
      split
      · split <;> simp
      · simp

@[simp] theorem giveUnits_hb (i n : Nat) (s : State) : (giveUnits i n s).hb = s.hb := by
  induction n generalizing s with
  | zero => rfl
  | succ n ih => rw [giveUnits, ih, giveUnit_hb]

@[simp] theorem moveSaved_hb (c : Cmd) (out : Bool) (s : State) : (moveSaved c out s).hb = s.hb := by
  refine foldl_hb (fun t h => ?_) ..
  split <;> rfl

@[simp] theorem endLending_hb (i n : Nat) (s : State) : (endLending i n s).hb = s.hb := by
  unfold endLending
  split
  · rfl
  · split
    · rfl
    · dsimp only
      rw [semPacket_hb, ctrPart_hb, modSem_hb]
      split
      · split
        · rfl
        · rw [moveSaved_hb]
      · rfl

@[simp] theorem endLendings_hb (src : Src) (n : Nat) (s : State) : (endLendings src n s).hb = s.hb := by
  refine foldl_hb (fun t m => ?_) ..
  split
  · rw [endLending_hb]
  · rfl

@[simp] theorem releaseHeld_hb (src : Src) (s : State) (i : Nat) : (releaseHeld src s i).hb = s.hb := by
  unfold releaseHeld
  split
  · rfl
  · dsimp only
    split
    · rw [raisePart_hb]
      split <;> simp
    · simp

@[simp] theorem releaseSems_hb (src : Src) (s : State) : (releaseSems src s).hb = s.hb := by
  unfold releaseSems
  rw [remark_hb, foldl_hb (releaseHeld_hb src), endLendings_hb]

@[simp] theorem forget_hb (src : Src) (s : State) : (forget src s).hb = s.hb := by
  simp [forget]

/-! ### The end of a command -/

@[simp] theorem dropCmd_hb (src : Src) (s : State) : (dropCmd src s).hb = s.hb := by simp [dropCmd]

@[simp] theorem discardCmd_hb (src : Src) (s : State) : (discardCmd src s).hb = s.hb := by
  unfold discardCmd
  split <;> simp

@[simp] theorem endWith_epoch (src : Src) (out : List Byte) (f : Fail) (s : State) : (endWith src out f s).hb.epoch = s.hb.epoch := by
  unfold endWith
  split
  · rfl
  · split
    · rfl
    · dsimp only
      split <;> simp

@[simp] theorem finish_epoch (c : Cmd) (s : State) : (finish c s).hb.epoch = s.hb.epoch := by
  unfold finish
  dsimp only
  split
  · split <;> simp
  · split
    · simp
    · split <;> simp

@[simp] theorem settleHost_epoch (src : Src) (s : State) : (settleHost src s).hb.epoch = s.hb.epoch := by
  unfold settleHost
  split
  · rfl
  · split
    · rfl
    · split
      · simp
      · split
        · split <;> simp
        · split
          · split <;> simp
          · split
            · rfl
            · split <;> simp

@[simp] theorem endOwn_hb (src : Src) (s : State) : (endOwn src s).hb = s.hb := by
  unfold endOwn
  split
  · rfl
  · simp

@[simp] theorem failMember_epoch (f : Failure) (s : State) (src : Src) : (failMember f s src).hb.epoch = s.hb.epoch := by
  simp [failMember]

@[simp] theorem ingestFailed_epoch (a : Arm) (f : Failure) (s : State) : (ingestFailed a f s).hb.epoch = s.hb.epoch := by
  unfold ingestFailed
  split
  · rfl
  · simp

@[simp] theorem failOwn_epoch (src : Src) (f : Failure) (s : State) : (failOwn src f s).hb.epoch = s.hb.epoch := by
  unfold failOwn
  split
  · rfl
  · split
    · rw [foldl_epoch (failMember_epoch f), endOwn_hb]
    · split <;> simp

@[simp] theorem finishOwn_epoch (c : Cmd) (s : State) : (finishOwn c s).hb.epoch = s.hb.epoch := by
  unfold finishOwn
  split
  · rw [foldl_epoch fun t m => settleHost_epoch m t, endOwn_hb]
  · split <;> simp

@[simp] theorem settleBatch_epoch (c : Cmd) (s : State) : (settleBatch c s).hb.epoch = s.hb.epoch := by
  have members : ∀ (t : State) (m : Src), (if (t.cmd? m).any (·.ending) then settleHost m t else t).hb.epoch = t.hb.epoch := by
    intro t m
    split <;> simp
  unfold settleBatch
  dsimp only
  split
  · rw [endOwn_hb, foldl_epoch members]
  · exact foldl_epoch members ..

@[simp] theorem settleOwn_epoch (src : Src) (s : State) : (settleOwn src s).hb.epoch = s.hb.epoch := by
  unfold settleOwn
  split
  · rfl
  · split
    · rfl
    · split
      · simp
      · split
        · simp
        · split
          · simp
          · split <;> simp

@[simp] theorem settle_epoch (src : Src) (s : State) : (settle src s).hb.epoch = s.hb.epoch := by
  unfold settle
  split <;> simp

/-! ### The parts of REATTACH (R104, R105) -/

@[simp] theorem endQuiesce_epoch (us : Nat) (s : State) : (endQuiesce us s).hb.epoch = s.hb.epoch := rfl
@[simp] theorem releaseDma_epoch (s : State) : (releaseDma s).hb.epoch = s.hb.epoch := rfl

@[simp] theorem postHeld_epoch (s : State) : (postHeld s).hb.epoch = s.hb.epoch := foldl_epoch (fun t c => post_epoch c t) ..

@[simp] theorem settleKept_epoch (s : State) : (settleKept s).hb.epoch = s.hb.epoch :=
  (foldl_epoch (fun _ _ => deleteCheck_epoch ..) ..).trans (foldl_epoch (fun _ _ => settle_epoch ..) ..)

@[simp] theorem dropWork_epoch (s : State) : (dropWork s).hb.epoch = s.hb.epoch := by
  unfold dropWork
  dsimp only
  rw [foldl_hb fun t src => discardCmd_hb src t]
  simp

@[simp] theorem deleteIoQueues_epoch (s : State) : (deleteIoQueues s).hb.epoch = s.hb.epoch :=
  foldl_epoch (fun _ _ => ok_epoch ..) ..

end Sys2Proof.Machine

/-! # Attachment: the checks of REATTACH, and what the attachment commands leave as the epoch (03 R97, R103) -/

namespace Sys2Proof.Machine

theorem exec_negotiate (a : Admin) (us : Nat) (s : State) : exec (.negotiate a us) s = execNegotiate a us s := rfl
theorem exec_reattachAdopt (a : Admin) (us : Nat) (s : State) : exec (.reattachAdopt a us) s = execReattachAdopt a us s := rfl
theorem exec_reattachDiscard (a : Admin) (us : Nat) (s : State) : exec (.reattachDiscard a us) s = execReattachDiscard a us s := rfl

/-! ### The checks -/

theorem begun_reattachGate (src : Src) (o d : Nat) (a : Admin) (s : State) : reattachGate a (begun src o d s) = reattachGate a s := by
  simp [reattachGate]

/-- Past the function, the grant and the reserved bits, what is left of the checks: quiesce, and then the epoch at its start. -/
theorem reattachGate_of_granted {a : Admin} {s : State} (hfn : a.src.fn = 0) (hgrant : (bit a.cdw11.toNat 0 || s.granted 11) = true)
    (hreserved : bits a.cdw11.toNat 31 1 = 0 ∧ tailSet a = false) :
    reattachGate a s =
      if s.hb.quiesced = false then some St.sequenceError else if a.cdw10 ≠ s.hb.qEpoch then some St.epochMismatch else none := by
  have hopcode : (a.src.fn != 0 || (!bit a.cdw11.toNat 0 && !s.granted 11)) = false := by
    rw [← Bool.not_or, hgrant, hfn]; rfl
  have hfield : (bits a.cdw11.toNat 31 1 != 0 || tailSet a) = false := by
    rw [hreserved.1, hreserved.2]; rfl
  simp [reattachGate, firstFail, hopcode, hfield]

/-- The two commands share their checks: a REATTACH that fails one, adopt or discard, completes with it and changes nothing else. -/
theorem exec_reattach_of_gate {a : Admin} {us : Nat} {s : State} {f : Fail} (hruns : adminRuns a.src true s = true)
    (hgate : reattachGate a s = some f) :
    exec (if bit a.cdw11.toNat 0 then .reattachDiscard a us else .reattachAdopt a us) s =
      .next (refuse a.src f (begun a.src 0xC4 0xFFFF s)) := by
  split
  · next hdiscard =>
    rw [exec_reattachDiscard, execReattachDiscard, if_neg (by simp [hdiscard])]
    exact runAdmin_error hruns (by rw [begun_reattachGate, hgate, orFail])
  · next hadopt =>
    rw [exec_reattachAdopt, execReattachAdopt, if_neg hadopt]
    exact runAdmin_error hruns (by rw [begun_reattachGate, hgate, orFail])

/-- Settles O4: both cases are the checks of REATTACH, read past the function, the grant and the reserved bits. -/
theorem reattachRefusals : Obligations.ReattachRefusals := by
  unfold Obligations.ReattachRefusals
  constructor
  · intro a us s hruns hfn hgrant hreserved hquiet hepoch
    refine exec_reattach_of_gate hruns ?_
    rw [reattachGate_of_granted hfn hgrant hreserved, if_neg (by simp [hquiet]), if_pos hepoch]
  · intro a us s hruns hfn hgrant hreserved hquiet
    refine exec_reattach_of_gate hruns ?_
    rw [reattachGate_of_granted hfn hgrant hreserved, if_pos hquiet]

/-! ### The epoch -/

/-- NEGOTIATE counts the epoch outside quiesce only; starting or stopping the trace leaves it. -/
theorem negotiate_epoch {a : Admin} {s : State} (us : Nat) (hruns : adminRuns a.src true s = true) (hfn : a.src.fn = 0)
    (hreserved : a.cdw13 = 0 ∧ a.cdw14 = 0 ∧ a.cdw15 = 0) (hoffer : (a.cdw11 ++ a.cdw10 : QWord).getLsbD 0 = true) :
    ∃ t, exec (.negotiate a us) s = .next t ∧ t.hb.epoch = if s.hb.quiesced then s.hb.epoch else nextEpoch s.hb.epoch := by
  obtain ⟨h13, h14, h15⟩ := hreserved
  have hfield : ¬ (a.cdw13 ≠ 0 ∨ a.cdw14 ≠ 0 ∨ a.cdw15 ≠ 0 ∨ (!(a.cdw11 ++ a.cdw10 : QWord).getLsbD 0) = true) := by
    simp [h13, h14, h15, hoffer]
  rw [exec_negotiate, execNegotiate]
  refine ⟨_, runAdmin_ok hruns (by rw [if_neg (not_not_intro hfn), if_neg hfield]), ?_⟩
  rw [ok_epoch]
  split
  · simp
  · simp

/-- An adopting REATTACH that passes its checks counts the epoch once; the answers that it delivers and posts leave it. -/
theorem reattachAdopt_epoch {a : Admin} {s : State} (us : Nat) (hruns : adminRuns a.src true s = true)
    (hadopt : ¬ bit a.cdw11.toNat 0 = true) (hgate : reattachGate a s = none) :
    ∃ t, exec (.reattachAdopt a us) s = .next t ∧ t.hb.epoch = nextEpoch s.hb.epoch := by
  rw [exec_reattachAdopt, execReattachAdopt, if_neg hadopt]
  refine ⟨_, runAdmin_ok hruns (by rw [begun_reattachGate, hgate, orFail]), ?_⟩
  simp [foldl_epoch]

/-- A discarding REATTACH that passes its checks counts the epoch once; the work and the queues that it drops leave it. -/
theorem reattachDiscard_epoch {a : Admin} {s : State} (us : Nat) (hruns : adminRuns a.src true s = true)
    (hdiscard : bit a.cdw11.toNat 0 = true) (hgate : reattachGate a s = none) :
    ∃ t, exec (.reattachDiscard a us) s = .next t ∧ t.hb.epoch = nextEpoch s.hb.epoch := by
  rw [exec_reattachDiscard, execReattachDiscard, if_neg (by simp [hdiscard])]
  refine ⟨_, runAdmin_ok hruns (by rw [begun_reattachGate, hgate, orFail]), ?_⟩
  simp

/-- The EPOCH register (Table 22-11) stands at offset 0x1018 of BAR2, in the heartbeat block of the physical function. -/
theorem bar2Dword_epoch (s : State) : bar2Dword s 0 0x1018 = s.hb.epoch.toNat := by
  simp [bar2Dword, beatDword]

/-- Settles O59: each attachment command counts the epoch in one update, and everything else that it does leaves the epoch. -/
theorem epochCountsAttachments : Obligations.EpochCountsAttachments := by
  unfold Obligations.EpochCountsAttachments
  refine ⟨⟨rfl, by decide, fun _ => rfl⟩, fun a us s => negotiate_epoch us, ?_, ?_⟩
  · intro a us s hruns hfn hgrant hreserved hquiet hepoch
    have hgate : reattachGate a s = none := by
      rw [reattachGate_of_granted hfn hgrant hreserved, if_neg (by simp [hquiet]), if_neg (not_not_intro hepoch)]
    split
    · next hdiscard => exact reattachDiscard_epoch us hruns hdiscard hgate
    · next hadopt => exact reattachAdopt_epoch us hruns hadopt hgate
  · intro s
    rw [bar2Read_dword s 0 ⟨rfl, rfl⟩, bar2Dword_epoch]

end Sys2Proof.Machine

/-! # The vendor admin commands on a virtual function (04 R117)

Each row of the six commands for the physical function looks at its function before anything else of its entry, so the answer depends on neither
the state nor the entry. QUEUE RESUME serves every function: of the submission queues it writes one, which its own function holds. -/

namespace Sys2Proof.Machine

theorem adminRuns_of_outside_quiesce {src : Src} {s : State} (h : adminRuns src false s = true) (q : Bool) : adminRuns src q s = true := by
  simp only [adminRuns, Bool.false_or, Bool.and_eq_true] at h ⊢
  simp [h]

/-! ### The gates of the six commands -/

section VirtualFunction

variable {a : Admin} (hfn : a.src.fn ≠ 0)
include hfn

theorem orFail_vendorGate_of_virtual {α : Type} (bit : Nat) (s : State) (k : Unit → Except Fail α) :
    orFail (vendorGate a.src bit s) k = .error St.invalidOpcode := by
  rw [vendorGate, if_pos (.inl hfn), orFail]

theorem orFail_serviceGate_of_virtual {α : Type} (action : Nat) (replace : Bool) (s : State) (k : Unit → Except Fail α) :
    orFail (serviceGate a action replace s) k = .error St.invalidOpcode := by
  rw [serviceGate, vendorGate, if_pos (.inl hfn), Option.orElse_some, orFail]

theorem orFail_reattachGate_of_virtual {α : Type} (s : State) (k : Unit → Except Fail α) :
    orFail (reattachGate a s) k = .error St.invalidOpcode := by
  have hgate : reattachGate a s = some St.invalidOpcode := by simp [reattachGate, firstFail, hfn]
  rw [hgate, orFail]

theorem lanternControl_of_virtual (action : Nat) (mask : QWord) (s : State) : lanternControl a action mask s = .error St.invalidOpcode :=
  orFail_vendorGate_of_virtual hfn ..

end VirtualFunction

/-! ### The rows -/

/-- A row of a vendor command shares its opcode with the rows of the other actions: it acts on the entries of its own action only. -/
theorem exec_row_of_error {c : Instr} {P : Prop} [Decidable P] {op : Nat} {src : Src} {q : Bool} {own : State → Except Fail State}
    {s : State} {f : Fail} (hrow : exec c s = if P then .next s else runAdmin op src q own s) (haction : ¬ P)
    (hruns : adminRuns src false s = true) (hown : own (begun src op 0xFFFF s) = .error f) :
    exec c s = .next (refuse src f (begun src op 0xFFFF s)) := by
  rw [hrow, if_neg haction]
  exact runAdmin_error (adminRuns_of_outside_quiesce hruns q) hown

/-! ### The submission queues that QUEUE RESUME leaves -/

@[simp] theorem sendMsix_sqs (f v : Nat) (s : State) : (sendMsix f v s).q.sqs = s.q.sqs := by
  unfold sendMsix
  split
  · rfl
  · split <;> rfl

@[simp] theorem queuePacket_q (k : Nat) (src : Src) (o a b d : Nat) (s : State) : (queuePacket k src o a b d s).q = s.q :=
  (queuePacket_traced ..).q

@[simp] theorem postNow_sqs (c : Completion) (s : State) : (postNow c s).q.sqs = s.q.sqs := by
  unfold postNow
  split
  · rfl
  · split
    · rfl
    · dsimp only
      split <;> simp [modCq]

@[simp] theorem post_sqs (c : Completion) (s : State) : (post c s).q.sqs = s.q.sqs := by
  unfold post
  split
  · rfl
  · rw [postNow_sqs]

theorem foldl_sqs {α : Type} {f : State → α → State} (h : ∀ t a, (f t a).q.sqs = t.q.sqs) (l : List α) (s : State) :
    (l.foldl f s).q.sqs = s.q.sqs := by
  induction l generalizing s with
  | nil => rfl
  | cons a l ih => rw [List.foldl_cons, ih, h]

theorem fn_of_sq? {s : State} {f n : Nat} {q : Sq} (h : s.sq? f n = some q) : q.fn = f := by
  have hfound := List.find?_some h
  simp only [Bool.and_eq_true, beq_iff_eq] at hfound
  exact hfound.1

/-- An update of one function's queue leaves the queues of the other functions. -/
theorem mem_modSq_sqs {f n : Nat} {g : Sq → Sq} {s : State} {q : Sq} (hq : q ∈ s.q.sqs) (hfn : q.fn ≠ f) :
    q ∈ (modSq f n g s).q.sqs :=
  List.mem_map.mpr ⟨q, hq, if_neg (by simp [hfn])⟩

/-- What an admin command can do: nothing, a refusal of its entry, or what its own part answers. -/
theorem runAdmin_cases {op : Nat} {src : Src} {qq : Bool} {own : State → Except Fail State} {s t : State}
    (h : runAdmin op src qq own s = .next t) :
    t = s ∨ (∃ f, t = refuse src f (begun src op 0xFFFF s)) ∨ own (begun src op 0xFFFF s) = .ok t := by
  unfold runAdmin taken at h
  split at h
  · cases h; exact .inl rfl
  · split at h
    · cases h
      dsimp only
      split
      · exact .inr (.inl ⟨_, rfl⟩)
      · split
        · next hown => exact .inr (.inr hown)
        · exact .inr (.inl ⟨_, rfl⟩)
    · cases h; exact .inl rfl

/-- QUEUE RESUME finds the queue that it resumes among its own function's; its completions and packets write no submission queue. -/
theorem queueResume_keeps_other_functions {a : Admin} {s t : State} (h : exec (.queueResume a) s = .next t) {q : Sq} (hq : q ∈ s.q.sqs)
    (hfn : q.fn ≠ a.src.fn) : q ∈ t.q.sqs := by
  obtain rfl | ⟨f, rfl⟩ | hown := runAdmin_cases h
  · exact hq
  · simpa [refuse, status] using hq
  · dsimp only at hown
    split at hown
    · cases hown
    · split at hown
      · cases hown
      · split at hown
        · cases hown
        · next r hr =>
          split at hown
          · cases hown
          · cases hown
            simp only [ok, post_sqs, queuePacket_q]
            refine mem_modSq_sqs ?_ (fn_of_sq? hr ▸ hfn)
            rw [foldl_sqs fun u i => by simp]
            simpa using hq

/-- Settles O58: for a virtual function each row's first check fails, and the row of an action is the one that acts on its entry; QUEUE
RESUME writes a queue of its own function only. -/
theorem virtualFunctionsRunNoVendorCommands : Obligations.VirtualFunctionsRunNoVendorCommands := by
  unfold Obligations.VirtualFunctionsRunNoVendorCommands
  refine ⟨fun c op us a s hruns hfn hrow => ?_, fun a s t h q => queueResume_keeps_other_functions h⟩
  have vendor := @orFail_vendorGate_of_virtual a hfn State
  have service := @orFail_serviceGate_of_virtual a hfn State
  obtain ⟨rfl, rfl⟩ | ⟨rfl, rfl, hbind, hunbind⟩ | ⟨rfl, rfl, haction⟩ | ⟨rfl, rfl, haction⟩ | ⟨rfl, rfl⟩ | ⟨rfl, rfl, hadopt⟩ |
    ⟨rfl, rfl, hdiscard⟩ | ⟨rfl, rfl, haction⟩ | ⟨rfl, rfl, haction⟩ | ⟨rfl, rfl, haction⟩ | ⟨rfl, rfl, haction⟩ | ⟨rfl, rfl, haction⟩ |
    ⟨rfl, rfl, haction⟩ | ⟨rfl, rfl, haction⟩ | ⟨rfl, rfl, haction⟩ | ⟨rfl, rfl, haction⟩ | ⟨rfl, rfl, haction⟩ := hrow
  · exact runAdmin_error hruns (vendor ..)
  · exact exec_row_of_error rfl (not_or_intro hbind hunbind) hruns (vendor ..)
  · exact exec_row_of_error rfl (not_not_intro haction) hruns (vendor ..)
  · exact exec_row_of_error rfl (not_not_intro haction) hruns (vendor ..)
  · exact runAdmin_error (adminRuns_of_outside_quiesce hruns true) (if_pos hfn)
  · exact exec_row_of_error rfl (by simp [hadopt]) hruns (orFail_reattachGate_of_virtual hfn ..)
  · exact exec_row_of_error rfl (by simp [hdiscard]) hruns (orFail_reattachGate_of_virtual hfn ..)
  · exact exec_row_of_error rfl haction hruns (service ..)
  · exact exec_row_of_error rfl (not_not_intro haction) hruns (service ..)
  · exact exec_row_of_error rfl (not_not_intro haction) hruns (service ..)
  · exact exec_row_of_error rfl (not_not_intro haction) hruns (service ..)
  · exact exec_row_of_error rfl (not_not_intro haction) hruns (service ..)
  · exact exec_row_of_error rfl (not_not_intro haction) hruns (service ..)
  · exact exec_row_of_error rfl (not_not_intro haction) hruns (service ..)
  · exact exec_row_of_error rfl (not_not_intro haction) hruns (by rw [vendor, lanternControl_of_virtual hfn, ite_self])
  · exact exec_row_of_error rfl (not_not_intro haction) hruns (by rw [vendor, lanternControl_of_virtual hfn, ite_self])
  · exact exec_row_of_error rfl (Nat.not_lt.mpr haction) hruns (vendor ..)

end Sys2Proof.Machine

/-! # PLACE with flags 0 (05 R149)

Past the zero ID, the object's partition decides before the flags, and flags 0 end the command before its size and the state of flash are looked
at. -/

namespace Sys2Proof.Machine

theorem exec_place (e : Entry) (s : State) : exec (.place e) s = execPlace e s := rfl

section FlagsZero

variable {e : Entry} {s : State} (hruns : milrisRuns shapePlace e s = true) (hid : Fe.obj1 e ≠ 0) (hflags : placeFlags e = 0#8)
include hruns hid hflags

/-- The object of the entry's own partition answers with its flags; the state is that of the entry taken. -/
theorem exec_place_flagsZero_of_live {o : Obj} (hlive : s.live? (Fe.obj1 e) = some o) (hpart : o.part = s.part (Fe.dome e)) :
    exec (.place e) s = .next (ok e.src o.flags.toNat 0 (begun e.src 0x81 (Fe.dome e) s)) := by
  rw [exec_place, execPlace]
  refine runMilris_ok hruns ?_
  dsimp only
  rw [if_neg hid, begun_live?, hlive]
  dsimp only
  rw [begun_part, if_neg (not_not_intro hpart)]
  exact if_pos hflags

/-- An ID that no object of any partition has is not found. -/
theorem exec_place_flagsZero_of_absent (habsent : s.live? (Fe.obj1 e) = none)
    (hfree : s.elsewhere (Fe.obj1 e) (s.part (Fe.dome e)) = false) :
    exec (.place e) s =
      .next (failMilris e.src 0x81 (Fe.dome e) (Fe.tenant e) (St.objectNotFound (Fe.obj1 e)) (begun e.src 0x81 (Fe.dome e) s)) := by
  rw [exec_place, execPlace]
  refine runMilris_error hruns ?_
  dsimp only
  rw [if_neg hid, begun_live?, habsent]
  dsimp only
  rw [begun_part, begun_elsewhere, hfree, if_neg Bool.false_ne_true]
  exact if_pos hflags

end FlagsZero

/-- Settles O2: the two answers of PLACE to flags 0, by whether the ID is live. -/
theorem placeWithFlagsZero : Obligations.PlaceWithFlagsZero := by
  unfold Obligations.PlaceWithFlagsZero
  exact ⟨fun _ _ _ hruns hid hflags hlive hpart => exec_place_flagsZero_of_live hruns hid hflags hlive hpart,
    fun _ _ hruns hid hflags ⟨habsent, hfree⟩ => exec_place_flagsZero_of_absent hruns hid hflags habsent hfree⟩

end Sys2Proof.Machine

/-! # Narrow codes in memory (06 R184)

A run is a number whose digits, in base 2 ^ b, are its codes; its bytes are the digits of the same number in base 256. -/

namespace Sys2Proof.Machine

/-! ### Little-endian bytes -/

@[simp] theorem length_toLE (n v : Nat) : (toLE n v).length = n := by
  induction n generalizing v with
  | zero => rfl
  | succ n ih => rw [toLE, List.length_cons, ih]

theorem ofLE_toLE (n v : Nat) : ofLE (toLE n v) = v % 256 ^ n := by
  induction n generalizing v with
  | zero => rw [Nat.pow_zero, Nat.mod_one]; rfl
  | succ n ih => rw [toLE, ofLE, ih, BitVec.toNat_ofNat, Nat.pow_succ' (m := 256), Nat.mod_mul]

/-! ### Runs -/

theorem codeBits_pos (f : Nat) : 0 < codeBits f := by
  unfold codeBits; repeat' split
  all_goals decide

theorem padCode_lt (f : Nat) : padCode f < 2 ^ codeBits f := by
  unfold padCode skipCode
  split
  · exact Nat.pow_lt_pow_right Nat.one_lt_two (Nat.sub_lt (codeBits_pos f) Nat.one_pos)
  · exact Nat.two_pow_pos _

/-- Code j of a run, read back from the number that the run is. -/
theorem packBits_code {f : Nat} {cs : List Nat} (hcs : ∀ c ∈ cs, c < 2 ^ codeBits f) {j : Nat} (hj : j < cs.length) :
    packBits f cs / 2 ^ (codeBits f * j) % 2 ^ codeBits f = cs[j] := by
  induction cs generalizing j with
  | nil => cases hj
  | cons c cs ih =>
    have hc : c < 2 ^ codeBits f := hcs c List.mem_cons_self
    cases j with
    | zero =>
      rw [packBits, Nat.mul_zero, Nat.pow_zero, Nat.div_one, Nat.add_mul_mod_self_left, Nat.mod_eq_of_lt hc, List.getElem_cons_zero]
    | succ j =>
      have hrest := ih (fun d hd => hcs d (List.mem_cons_of_mem c hd)) (Nat.lt_of_succ_lt_succ hj)
      rw [packBits, Nat.mul_succ, Nat.add_comm (_ * j), Nat.pow_add, ← Nat.div_div_eq_div_mul, Nat.add_mul_div_left _ _ (Nat.two_pow_pos _),
        Nat.div_eq_of_lt hc, Nat.zero_add, hrest, List.getElem_cons_succ]

theorem packBits_lt_pow {f : Nat} {cs : List Nat} (hcs : ∀ c ∈ cs, c < 2 ^ codeBits f) : packBits f cs < 2 ^ (codeBits f * cs.length) := by
  induction cs with
  | nil => exact Nat.two_pow_pos _
  | cons c cs ih =>
    have hc : c < 2 ^ codeBits f := hcs c List.mem_cons_self
    have hrest := ih fun d hd => hcs d (List.mem_cons_of_mem c hd)
    calc packBits f (c :: cs) < 2 ^ codeBits f + 2 ^ codeBits f * packBits f cs := Nat.add_lt_add_right hc _
      _ = 2 ^ codeBits f * (packBits f cs + 1) := by rw [Nat.mul_succ, Nat.add_comm]
      _ ≤ 2 ^ codeBits f * 2 ^ (codeBits f * cs.length) := Nat.mul_le_mul_left _ hrest
      _ = 2 ^ (codeBits f * (c :: cs).length) := by rw [← Nat.pow_add, List.length_cons, Nat.mul_succ, Nat.add_comm]

theorem packBits_lt {f : Nat} {cs : List Nat} (hcs : ∀ c ∈ cs, c < 2 ^ codeBits f) (hlen : cs.length ≤ 32) :
    packBits f cs < 256 ^ runBytes f :=
  calc packBits f cs < 2 ^ (codeBits f * cs.length) := packBits_lt_pow hcs
    _ ≤ 2 ^ (codeBits f * 32) := Nat.pow_le_pow_right Nat.two_pos (Nat.mul_le_mul_left _ hlen)
    _ = 2 ^ (8 * runBytes f) := by rw [runBytes, ← Nat.mul_assoc, Nat.mul_comm]
    _ = 256 ^ runBytes f := Nat.pow_mul 2 8 _

@[simp] theorem length_packRuns (f n : Nat) (cs : List Nat) : (packRuns f n cs).length = n * runBytes f := by
  induction n generalizing cs with
  | zero => rw [packRuns, List.length_nil, Nat.zero_mul]
  | succ n ih => rw [packRuns, List.length_append, length_toLE, ih, Nat.succ_mul, Nat.add_comm]

/-- Run k of packed runs holds the 32 codes from 32 × k up. -/
theorem packRuns_run {f n k : Nat} (hk : k < n) (cs : List Nat) :
    ((packRuns f n cs).drop (k * runBytes f)).take (runBytes f) = toLE (runBytes f) (packBits f ((cs.drop (32 * k)).take 32)) := by
  induction n generalizing k cs with
  | zero => cases hk
  | succ n ih =>
    rw [packRuns]
    cases k with
    | zero => rw [Nat.zero_mul, Nat.mul_zero, List.drop_zero, List.drop_zero, List.take_left' (length_toLE ..)]
    | succ k =>
      have hskip : ((k + 1) * runBytes f) = (toLE (runBytes f) (packBits f (cs.take 32))).length + k * runBytes f := by
        rw [length_toLE, Nat.succ_mul, Nat.add_comm]
      rw [hskip, List.drop_length_add_append, ih (Nat.lt_of_succ_lt_succ hk), List.drop_drop, Nat.mul_succ, Nat.add_comm]

/-- The codes of a packed row with those that pad its last run (R185). -/
def paddedCodes (f : Nat) (cs : List Nat) : List Nat := cs ++ List.replicate (32 * ceilDiv cs.length 32 - cs.length) (padCode f)

theorem packRow_eq (f : Nat) (cs : List Nat) : packRow f cs = packRuns f (ceilDiv cs.length 32) (paddedCodes f cs) := rfl

/-- The 32 codes of run k of a packed row. -/
def runCodes (f : Nat) (cs : List Nat) (k : Nat) : List Nat := ((paddedCodes f cs).drop (32 * k)).take 32

theorem runCodes_lt {f : Nat} {cs : List Nat} (hcs : ∀ c ∈ cs, c < 2 ^ codeBits f) (k : Nat) : ∀ c ∈ runCodes f cs k, c < 2 ^ codeBits f := by
  intro c hc
  rcases List.mem_append.mp (List.mem_of_mem_drop (List.mem_of_mem_take hc)) with hcode | hpad
  · exact hcs c hcode
  · exact List.eq_of_mem_replicate hpad ▸ padCode_lt f

theorem length_packRow (f : Nat) (cs : List Nat) : (packRow f cs).length = (cs.length + 31) / 32 * runBytes f :=
  length_packRuns ..

/-- The run that holds code j of a packed row is, as a number, the 32 codes around it. -/
theorem ofLE_packRow_run {f : Nat} {cs : List Nat} (hcs : ∀ c ∈ cs, c < 2 ^ codeBits f) {j : Nat} (hj : j < cs.length) :
    ofLE (((packRow f cs).drop (j / 32 * runBytes f)).take (runBytes f)) = packBits f (runCodes f cs (j / 32)) := by
  have hrun : j / 32 < ceilDiv cs.length 32 := by unfold ceilDiv; omega
  rw [packRow_eq, packRuns_run hrun, ofLE_toLE]
  exact Nat.mod_eq_of_lt (packBits_lt (runCodes_lt hcs _) (List.length_take_le ..))

theorem length_runCodes {f : Nat} {cs : List Nat} {k : Nat} (hk : k < ceilDiv cs.length 32) : (runCodes f cs k).length = 32 := by
  rw [runCodes, List.length_take, List.length_drop, paddedCodes, List.length_append, List.length_replicate]
  omega

theorem packRow_code {f : Nat} {cs : List Nat} (hcs : ∀ c ∈ cs, c < 2 ^ codeBits f) {j : Nat} (hj : j < cs.length) :
    ofLE (((packRow f cs).drop (j / 32 * runBytes f)).take (runBytes f)) / 2 ^ (codeBits f * (j % 32)) % 2 ^ codeBits f = cs[j] := by
  have hrun : j / 32 < ceilDiv cs.length 32 := by unfold ceilDiv; omega
  have hin : j % 32 < (runCodes f cs (j / 32)).length := (length_runCodes hrun).symm ▸ Nat.mod_lt j (Nat.succ_pos 31)
  rw [ofLE_packRow_run hcs hj, packBits_code (runCodes_lt hcs _) hin]
  simp only [runCodes, List.getElem_take, List.getElem_drop, Nat.div_add_mod]
  exact List.getElem_append_left hj

/-- Settles O48: a run is the number whose digits are its codes, so a division and a remainder read one back. -/
theorem packedCodesReadBack : Obligations.PackedCodesReadBack := by
  unfold Obligations.PackedCodesReadBack
  exact ⟨by decide, fun f cs _ hcs => ⟨length_packRow f cs, fun _ hj => packRow_code hcs hj⟩⟩

end Sys2Proof.Machine

/-! # The codes of the narrow formats and their levels (06 R182, R183, R192) -/

namespace Sys2Proof.Machine

theorem isBell_of_grid : ∀ {f : Nat}, f ∈ [2, 3, 4] → isBell f = true := by
  decide

/-- A narrow format has a bell grid, or is an integer format. -/
theorem narrow_cases : ∀ {f : Nat}, f ∈ [2, 3, 4, 5, 6] → f ∈ [2, 3, 4] ∨ isBell f = false := by
  decide

/-! ### Two's complement -/

theorem toSigned_eq_toInt {n : Nat} (hn : 0 < n) (v : Nat) : toSigned n v = (BitVec.ofNat n v).toInt := by
  obtain ⟨k, rfl⟩ := Nat.exists_eq_add_one_of_ne_zero (Nat.ne_of_gt hn)
  have hlow : v % 2 ^ k < 2 ^ k := Nat.mod_lt v (Nat.two_pow_pos k)
  rw [toSigned, BitVec.toInt_eq_toNat_cond, BitVec.toNat_ofNat, Nat.mod_pow_succ, Nat.pow_succ, Nat.add_sub_cancel]
  rcases Nat.mod_two_eq_zero_or_one (v / 2 ^ k) with hsign | hsign
  · rw [hsign, if_neg Nat.zero_ne_one, if_pos (by omega)]
  · rw [hsign, if_pos rfl, if_neg (by omega)]

theorem ofSigned_eq_toNat (n : Nat) (i : Int) : ofSigned n i = (BitVec.ofInt n i).toNat := by
  rw [ofSigned, BitVec.toNat_ofInt]; rfl

theorem toSigned_ofSigned_toSigned {n : Nat} (hn : 0 < n) (v : Nat) : toSigned n (ofSigned n (toSigned n v)) = toSigned n v := by
  rw [toSigned_eq_toInt hn, toSigned_eq_toInt hn, ofSigned_eq_toNat, BitVec.ofInt_toInt, BitVec.ofNat_toNat, BitVec.setWidth_eq]

theorem ofSigned_lt (n : Nat) (i : Int) : ofSigned n i < 2 ^ n := by
  rw [ofSigned_eq_toNat]; exact BitVec.isLt _

theorem level_of_not_bell {f : Nat} (hf : isBell f = false) (c : Nat) : level f c = toSigned (codeBits f) c := by
  rw [level, hf, if_neg Bool.false_ne_true]

theorem codeOf_of_not_bell {f : Nat} (hf : isBell f = false) (z : Bool) (l : Int) : codeOf f z l = ofSigned (codeBits f) l := by
  rw [codeOf, hf, if_neg Bool.false_ne_true]

theorem isSkip_of_not_bell {f : Nat} (hf : isBell f = false) (c : Nat) : isSkip f c = false := by
  rw [isSkip, hf, Bool.false_and]

/-! ### Bell grids -/

theorem codeOf_level_of_grid : ∀ f ∈ [2, 3, 4], ∀ c < 2 ^ codeBits f, ∀ z : Bool,
    codeOf f z (level f c) < 2 ^ codeBits f ∧ level f (codeOf f z (level f c)) = level f c := by
  decide

theorem codeOf_zero {f : Nat} (hf : isBell f = true) (z : Bool) : codeOf f z 0 = if z then skipCode f else 0 := by
  rw [codeOf, if_pos hf, if_pos rfl]

/-- Every level that a code decodes to is written back as a code that decodes to it. -/
theorem codeOf_level {f : Nat} (hf : f ∈ [2, 3, 4, 5, 6]) {c : Nat} (hc : c < 2 ^ codeBits f) (z : Bool) :
    codeOf f z (level f c) < 2 ^ codeBits f ∧ level f (codeOf f z (level f c)) = level f c := by
  rcases narrow_cases hf with hgrid | hbell
  · exact codeOf_level_of_grid f hgrid c hc z
  · rw [codeOf_of_not_bell hbell, level_of_not_bell hbell, level_of_not_bell hbell]
    exact ⟨ofSigned_lt .., toSigned_ofSigned_toSigned (codeBits_pos f) c⟩

/-! ### A row of one element -/

/-- The quantiser marks the NaN elements, and no other (R191). -/
theorem quantElem_nan (f x s : Nat) : (quantElem f x s).nan = f32.nan x := by
  cases hx : f32.nan x
  · simp only [quantElem, hx, Bool.false_eq_true, if_false]
    repeat' split
    all_goals rfl
  · rw [quantElem, hx]; rfl

theorem quantRow_singleton (f : Nat) (z : Bool) {x : Nat} (hx : f32.nan x = false) (s : Nat) :
    (quantRow f z [x] fun _ => s).2 = packRow f [codeOf f z (quantElem f x s).level] := by
  simp only [quantRow, List.zipIdx_cons, List.zipIdx_nil, List.map_cons, List.map_nil, quantElem_nan, hx, Bool.false_eq_true, if_false]

/-- Settles O47: codes of the integer formats are two's complement, those of the bell grids are finitely many, and a zero level has its own
branch in `codeOf`. -/
theorem codesDecodeToLevels : Obligations.CodesDecodeToLevels := by
  unfold Obligations.CodesDecodeToLevels
  refine ⟨⟨fun c _ => ?_, fun c _ => ?_⟩, fun f hf c hc z => codeOf_level hf hc z, fun f x s hgrid hlevel hx => ?_⟩
  · exact ⟨(level_of_not_bell rfl c).trans (toSigned_eq_toInt (codeBits_pos 5) c), isSkip_of_not_bell rfl c⟩
  · exact ⟨(level_of_not_bell rfl c).trans (toSigned_eq_toInt (codeBits_pos 6) c), isSkip_of_not_bell rfl c⟩
  · have hbell : isBell f = true := isBell_of_grid hgrid
    rw [quantRow_singleton f true hx, quantRow_singleton f false hx, hlevel, codeOf_zero hbell, codeOf_zero hbell]
    exact ⟨rfl, rfl⟩

end Sys2Proof.Machine

/-! # binary32 values (06 R189)

A product of a finite number and a finite positive one keeps the sign, and `int32` compares values exactly. -/

namespace Sys2Proof.Machine

/-! ### Powers of two as fractions -/

theorem pow2n_eq (e : Int) : pow2n e = 2 ^ e.toNat := by
  unfold pow2n
  split
  · rw [Int.toNat_of_nonpos (by omega), Nat.pow_zero]
  · rfl

theorem pow2d_eq (e : Int) : pow2d e = 2 ^ (-e).toNat := by
  unfold pow2d
  split
  · rfl
  · rw [Int.toNat_of_nonpos (by omega), Nat.pow_zero]

theorem pow2n_pos (e : Int) : 0 < pow2n e := pow2n_eq e ▸ Nat.two_pow_pos _

theorem pow2d_pos (e : Int) : 0 < pow2d e := pow2d_eq e ▸ Nat.two_pow_pos _

/-- 2 ^ (e + k) = 2 ^ k × 2 ^ e, as fractions. -/
theorem pow2n_add_mul_pow2d (e : Int) (k : Nat) : pow2n (e + k) * pow2d e = 2 ^ k * pow2n e * pow2d (e + k) := by
  rw [pow2n_eq, pow2d_eq, pow2n_eq, pow2d_eq, ← Nat.pow_add, ← Nat.pow_add, ← Nat.pow_add]
  congr 1
  omega

/-- n < d × 2 ^ (e + k) is n < d × 2 ^ k × 2 ^ e. -/
theorem lt_pow2_add_iff (n d : Nat) (e : Int) (k : Nat) :
    n * pow2d (e + k) < d * pow2n (e + k) ↔ n * pow2d e < d * 2 ^ k * pow2n e := by
  have hleft : n * pow2d (e + k) * pow2d e = n * pow2d e * pow2d (e + k) := Nat.mul_right_comm ..
  have hright : d * pow2n (e + k) * pow2d e = d * 2 ^ k * pow2n e * pow2d (e + k) := by
    rw [Nat.mul_assoc, pow2n_add_mul_pow2d, ← Nat.mul_assoc, ← Nat.mul_assoc]
  rw [← Nat.mul_lt_mul_right (pow2d_pos e), hleft, hright, Nat.mul_lt_mul_right (pow2d_pos _)]

theorem lt_pow2_mono {n d : Nat} {e e' : Int} (he : e ≤ e') (h : n * pow2d e < d * pow2n e) : n * pow2d e' < d * pow2n e' := by
  obtain ⟨k, rfl⟩ := Int.le.dest he
  rw [lt_pow2_add_iff]
  exact Nat.lt_of_lt_of_le h (Nat.mul_le_mul_right _ (Nat.le_mul_of_pos_right d (Nat.two_pow_pos k)))

/-! ### Rounding -/

/-- n ÷ d lies below the power of two that follows its logarithm. -/
theorem lt_pow2_log2Frac {d : Nat} (hd : d ≠ 0) (n : Nat) : n * pow2d (log2Frac n d + 1) < d * pow2n (log2Frac n d + 1) := by
  rw [log2Frac]
  split
  next hlow => rw [Int.sub_add_cancel]; exact hlow
  next =>
    rw [pow2d_eq, pow2n_eq]
    calc n * 2 ^ (-((n.log2 : Int) - d.log2 + 1)).toNat
        < 2 ^ (n.log2 + 1) * 2 ^ (-((n.log2 : Int) - d.log2 + 1)).toNat := Nat.mul_lt_mul_of_pos_right Nat.lt_log2_self (Nat.two_pow_pos _)
      _ = 2 ^ d.log2 * 2 ^ ((n.log2 : Int) - d.log2 + 1).toNat := by rw [← Nat.pow_add, ← Nat.pow_add]; congr 1; omega
      _ ≤ d * 2 ^ ((n.log2 : Int) - d.log2 + 1).toNat := Nat.mul_le_mul_right _ (Nat.log2_self_le hd)

theorem log2Frac_le (n d : Nat) : log2Frac n d ≤ n.log2 := by
  rw [log2Frac]
  split <;> omega

theorem rnNat_le (n d : Nat) : rnNat n d ≤ n / d + 1 := by
  unfold rnNat
  dsimp only
  repeat' split
  all_goals omega

theorem rn_le_inf (f : Fmt) (n d : Nat) (e : Int) : f.rn n d e ≤ f.inf := by
  unfold Fmt.rn
  split
  · exact Nat.zero_le _
  · dsimp only; split <;> omega

/-- The significand of a rounded binary32 value has 24 bits, or is 2 ^ 24. -/
theorem rnNat_unit_le {d : Nat} (hd : d ≠ 0) (n : Nat) :
    rnNat (n * pow2d (f32.unit n d)) (d * pow2n (f32.unit n d)) ≤ 2 ^ 24 := by
  have hunit : log2Frac n d + 1 ≤ f32.unit n d + 24 := by simp only [Fmt.unit, f32]; omega
  have hlt := lt_pow2_mono hunit (lt_pow2_log2Frac hd n)
  have hquot := (lt_pow2_add_iff n d (f32.unit n d) 24).mp hlt
  rw [Nat.mul_right_comm] at hquot
  exact Nat.le_trans (rnNat_le ..) (Nat.div_lt_of_lt_mul hquot)

theorem rn_lt_inf {n d : Nat} {e : Int} (hd : d ≠ 0) (hn : n * pow2n e < 2 ^ 100) : f32.rn n d e < f32.inf := by
  unfold Fmt.rn
  split
  next => decide
  next h0 =>
    have hb : d * pow2d e ≠ 0 := Nat.mul_ne_zero hd (Nat.ne_of_gt (pow2d_pos e))
    have hlog : (n * pow2n e).log2 < 100 := (Nat.log2_lt (Nat.mul_ne_zero h0 (Nat.ne_of_gt (pow2n_pos e)))).mpr hn
    have hexp : f32.unit (n * pow2n e) (d * pow2d e) ≤ 76 := by
      have := log2Frac_le (n * pow2n e) (d * pow2d e)
      simp only [Fmt.unit, f32]; omega
    have hsig := rnNat_unit_le hb (n * pow2n e)
    dsimp only
    generalize f32.unit (n * pow2n e) (d * pow2d e) = u at hsig hexp ⊢
    generalize rnNat _ _ = r at hsig ⊢
    have hsum : (u - f32.emin).toNat * 2 ^ (f32.p - 1) + r < f32.inf := by
      change (u - -149).toNat * 2 ^ 23 + r < 0x7F800000
      omega
    rw [if_neg (Nat.not_le_of_lt hsum)]
    exact hsum

/-! ### Signs -/

theorem neg_signed (n : Bool) {m : Nat} (hm : m ≤ f32.inf) : f32.neg (f32.signed n m) = n := by
  change m ≤ 0x7F800000 at hm
  cases n
  · change (m / 0x80000000 % 2 == 1) = false
    exact beq_false_of_ne (by omega)
  · change ((0x80000000 + m) / 0x80000000 % 2 == 1) = true
    exact beq_iff_eq.mpr (by omega)

theorem mag_of_le_inf {m : Nat} (hm : m ≤ f32.inf) : f32.mag m = m :=
  Nat.mod_eq_of_lt (Nat.lt_of_le_of_lt hm (by decide))

theorem neg_of_le_inf {m : Nat} (hm : m ≤ f32.inf) : f32.neg m = false :=
  neg_signed false hm

theorem nan_of_fin {x : Nat} (hx : f32.fin x = true) : f32.nan x = false :=
  decide_eq_false (Nat.not_lt_of_gt (of_decide_eq_true hx))

theorem isInf_of_fin {x : Nat} (hx : f32.fin x = true) : f32.isInf x = false :=
  beq_false_of_ne (Nat.ne_of_lt (of_decide_eq_true hx))

theorem fin_of_lt_inf {m : Nat} (hm : m < f32.inf) : f32.fin m = true := by
  rw [Fmt.fin, mag_of_le_inf (Nat.le_of_lt hm), decide_eq_true hm]

/-- A product with a finite number that is not negative keeps the sign. -/
theorem neg_mul32 {x y : Nat} (hx : f32.fin x = true) (hy : y < f32.inf) : f32.neg (mul32 x y) = f32.neg x := by
  have hyfin := fin_of_lt_inf hy
  rw [mul32, nan_of_fin hx, nan_of_fin hyfin, isInf_of_fin hx, isInf_of_fin hyfin, neg_of_le_inf (Nat.le_of_lt hy), Bool.bne_false, Bool.or_false,
    if_neg Bool.false_ne_true, if_neg Bool.false_ne_true]
  exact neg_signed _ (rn_le_inf ..)

/-! ### Values in units of 2 ^ -149 -/

theorem emin_le_exp (f : Fmt) (x : Nat) : f.emin ≤ f.exp x := by
  unfold Fmt.exp
  split <;> omega

theorem natAbs_int32 (x : Nat) : (int32 x).natAbs = f32.mant x * 2 ^ (f32.exp x + 149).toNat := by
  unfold int32
  dsimp only
  split
  · exact Int.natAbs_neg _
  · rfl

/-- An integer of the given sign and magnitude. -/
def withSign (neg : Bool) (n : Nat) : Int := if neg then -(n : Int) else n

theorem int32_eq (x : Nat) : int32 x = withSign (f32.neg x) (int32 x).natAbs := by
  rw [natAbs_int32]; rfl

/-- An infinity stands for 2 ^ 128, beyond every finite value. -/
theorem natAbs_int32_of_isInf {x : Nat} (hx : f32.isInf x = true) : (int32 x).natAbs = 2 ^ 23 * 2 ^ 254 := by
  have hmag : f32.mag x = 0x7F800000 := beq_iff_eq.mp hx
  have hfield : f32.field x = 255 := by rw [Fmt.field, hmag]; rfl
  have hmant : f32.mant x = 2 ^ 23 := by rw [Fmt.mant, hmag, hfield]; rfl
  have hexp : f32.exp x = 105 := by rw [Fmt.exp, hfield]; rfl
  rw [natAbs_int32, hmant, hexp]; rfl

/-- The quantiser's comparison of a value with k ÷ 2 is exact. -/
theorem aboveHalf_iff (x k : Nat) : aboveHalf (f32.mant x) (f32.exp x) k = true ↔ k * 2 ^ 149 < 2 * (int32 x).natAbs := by
  have hexp : -149 ≤ f32.exp x := emin_le_exp f32 x
  have hden : pow2d (f32.exp x + (149 : Nat)) = 1 := by rw [pow2d_eq, Int.toNat_of_nonpos (by omega), Nat.pow_zero]
  have hscale := lt_pow2_add_iff (k * 2 ^ 149) (2 * f32.mant x) (f32.exp x) 149
  rw [hden, Nat.mul_one, pow2n_eq, Nat.mul_right_comm k, Nat.mul_right_comm _ (2 ^ 149), Nat.mul_lt_mul_right (Nat.two_pow_pos 149),
    Nat.mul_assoc 2] at hscale
  rw [aboveHalf, decide_eq_true_iff, natAbs_int32]
  exact hscale.symm

end Sys2Proof.Machine

/-! # The level that the quantiser takes (06 R189, R190; Table 6-2)

One comparison decides whether an element clips. Within the bound, a bell grid is walked from midpoint to midpoint, and an integer format
rounds to the nearest integer; either takes the nearest magnitude of the format, and the sign of t is put on it. -/

namespace Sys2Proof.Machine

/-! ### The sign of t -/

theorem scaleUse_exp {s : Nat} (hs : (scaleUse s).1 ≠ 0) : -24 ≤ (scaleUse s).2 := by
  unfold scaleUse at hs ⊢
  dsimp only at hs ⊢
  split at hs
  · contradiction
  rename_i hfield
  rw [if_neg hfield]
  split
  · exact emin_le_exp f16 0x7BFF
  · exact emin_le_exp f16 (f16.mag s)

theorem pow2n_le {e : Int} (he : e ≤ 24) : pow2n e ≤ 2 ^ 24 := by
  rw [pow2n_eq]
  exact Nat.pow_le_pow_right Nat.two_pos (by omega)

/-- t has the sign of the element: RN32(16 ÷ s) is finite and not negative. -/
theorem neg_quantT {x s : Nat} (hx : f32.fin x = true) (hs : (scaleUse s).1 ≠ 0) : f32.neg (quantT x s) = f32.neg x := by
  have hexp := scaleUse_exp hs
  have hpow := pow2n_le (e := -(scaleUse s).2) (by omega)
  exact neg_mul32 hx (rn_lt_inf hs (by omega))

/-! ### Clipping -/

/-- Twice the clip bound of Table 6-2 on a side of zero. -/
def clipBound2 (f : Nat) (neg : Bool) : Nat :=
  if isBell f then 2 * topPos f else 2 * (if neg then topNeg f else topPos f) + 1

/-- The extreme level on a side of zero. -/
def extremeLevel (f : Nat) (neg : Bool) : Int := if neg then -(topNeg f : Int) else topPos f

/-- The magnitude of the level of m × 2 ^ e within the clip bound. -/
def nearestMag (f m : Nat) (e : Int) : Nat :=
  if isBell f then (grid f).getD ((midpoints2 f).filter fun k => aboveHalf m e k).length 0 else nearestInt m e

theorem clipBound2_lt : ∀ f ∈ [2, 3, 4, 5, 6], ∀ neg : Bool, clipBound2 f neg < 2 ^ 100 := by
  decide

theorem aboveHalf_of_isInf {x : Nat} (hx : f32.isInf x = true) {k : Nat} (hk : k < 2 ^ 100) :
    aboveHalf (f32.mant x) (f32.exp x) k = true := by
  rw [aboveHalf_iff, natAbs_int32_of_isInf hx]; omega

/-- A finite element under a scale that is not zero clips beyond the bound, an infinite t among the others, and takes the nearest magnitude
within. -/
theorem quantElem_of_fin {f x s : Nat} (hf : f ∈ [2, 3, 4, 5, 6]) (hx : f32.fin x = true) (hs : (scaleUse s).1 ≠ 0) :
    quantElem f x s =
      if aboveHalf (f32.mant (quantT x s)) (f32.exp (quantT x s)) (clipBound2 f (f32.neg x)) then
        { level := extremeLevel f (f32.neg x), clip := true }
      else { level := withSign (f32.neg x) (nearestMag f (f32.mant (quantT x s)) (f32.exp (quantT x s))) } := by
  unfold quantElem
  dsimp only
  rw [nan_of_fin hx, isInf_of_fin hx, if_neg Bool.false_ne_true, if_neg Bool.false_ne_true, if_neg hs]
  by_cases htinf : f32.isInf (quantT x s) = true
  · rw [if_pos htinf, if_pos (aboveHalf_of_isInf htinf (clipBound2_lt f hf _))]; rfl
  · rw [if_neg htinf]
    by_cases hbell : isBell f = true
    · rw [if_pos hbell, clipBound2, if_pos hbell, nearestMag, if_pos hbell]; rfl
    · rw [if_neg hbell, clipBound2, if_neg hbell, nearestMag, if_neg hbell]; rfl

/-! ### Nearness -/

/-- In units of 2 ^ -149: level r is nearer to t than level l, or is as near and its magnitude is not larger. -/
def NoFarther (t r l : Int) : Prop :=
  (t - r * 2 ^ 149).natAbs < (t - l * 2 ^ 149).natAbs ∨
    ((t - r * 2 ^ 149).natAbs = (t - l * 2 ^ 149).natAbs ∧ r.natAbs ≤ l.natAbs)

/-- What holds of magnitudes holds of a value and a level of one sign, against a level of either sign. -/
theorem noFarther_withSign {T g : Nat} {l : Int} (h : NoFarther T g l.natAbs) (neg : Bool) :
    NoFarther (withSign neg T) (withSign neg g) l := by
  unfold NoFarther at h ⊢
  cases neg
  · simp only [withSign, Bool.false_eq_true, if_false]; omega
  · simp only [withSign, if_true]; omega

/-- Between the midpoints to its neighbours, an integer is the nearest. -/
theorem noFarther_of_halves {T g : Nat} (hle : 2 * T ≤ (2 * g + 1) * 2 ^ 149) (hlt : ∀ k, g = k + 1 → (2 * k + 1) * 2 ^ 149 < 2 * T) (h : Nat) :
    NoFarther T g h := by
  unfold NoFarther
  cases g with
  | zero => omega
  | succ k => have := hlt k rfl; omega

/-! ### Bell grids -/

/-- Twice the midpoints of the adjacent magnitudes of a grid. -/
def doubledMidpoints : List Nat → List Nat
  | a :: b :: l => (a + b) :: doubledMidpoints (b :: l)
  | _ => []

theorem midpoints2_eq : ∀ f ∈ [2, 3, 4], midpoints2 f = doubledMidpoints (grid f) := by
  decide

theorem doubledMidpoints_ge {b k : Nat} {l : List Nat} (hg : (b :: l).Pairwise (· < ·)) (hk : k ∈ doubledMidpoints (b :: l)) :
    2 * b ≤ k := by
  induction l generalizing b with
  | nil => cases hk
  | cons c l ih =>
    obtain ⟨hb, hrest⟩ := List.pairwise_cons.mp hg
    have hbc : b < c := hb c List.mem_cons_self
    rcases List.mem_cons.mp hk with rfl | hk
    · omega
    · have := ih hrest hk; omega

/-- In a rising grid, the midpoints below a value lead to the magnitude nearest to it. -/
theorem noFarther_of_midpoints {T : Nat} {p : Nat → Bool} (hp : ∀ k, p k = true ↔ k * 2 ^ 149 < 2 * T) {g : List Nat}
    (hg : g.Pairwise (· < ·)) {h : Nat} (hh : h ∈ g) : NoFarther T (g.getD ((doubledMidpoints g).filter p).length 0 : Nat) h := by
  induction g generalizing h with
  | nil => cases hh
  | cons a g ih =>
    cases g with
    | nil =>
      obtain rfl := List.mem_singleton.mp hh
      exact Or.inr ⟨rfl, Nat.le_refl _⟩
    | cons b l =>
      obtain ⟨ha, hrest⟩ := List.pairwise_cons.mp hg
      have hab : a < b := ha b List.mem_cons_self
      by_cases hmid : p (a + b) = true
      · have hbelow := (hp _).mp hmid
        have hnearest := @ih hrest
        rw [doubledMidpoints, List.filter_cons_of_pos hmid, List.length_cons, List.getD_cons_succ]
        rcases List.mem_cons.mp hh with rfl | hh
        · have hb := hnearest List.mem_cons_self
          unfold NoFarther at hb ⊢
          omega
        · exact hnearest hh
      · have hrise : ∀ k ∈ doubledMidpoints (b :: l), ¬ p k = true := fun k hk hpk => by
          have := doubledMidpoints_ge hrest hk
          have := (hp k).mp hpk
          rw [hp] at hmid
          omega
        rw [doubledMidpoints, List.filter_cons_of_neg hmid, List.filter_eq_nil_iff.mpr hrise, List.length_nil, List.getD_cons_zero]
        rw [hp] at hmid
        unfold NoFarther
        rcases List.mem_cons.mp hh with rfl | hh
        · omega
        · have hbh : b ≤ h := by
            rcases List.mem_cons.mp hh with rfl | hl
            · exact Nat.le_refl h
            · exact Nat.le_of_lt (List.rel_of_pairwise_cons hrest hl)
          omega

theorem grid_rises : ∀ f ∈ [2, 3, 4], (grid f).Pairwise (· < ·) := by
  decide

theorem length_midpoints2 : ∀ f ∈ [2, 3, 4], (midpoints2 f).length < (grid f).length := by
  decide

theorem nearestMag_mem_grid {f : Nat} (hf : f ∈ [2, 3, 4]) (m : Nat) (e : Int) : nearestMag f m e ∈ grid f := by
  rw [nearestMag, if_pos (isBell_of_grid hf), ← List.getElem_eq_getD (h := Nat.lt_of_le_of_lt (List.length_filter_le ..) (length_midpoints2 f hf))]
  exact List.getElem_mem _

/-- A bell-grid format takes the nearest magnitude of its grid. -/
theorem nearestMag_noFarther_of_grid {f : Nat} (hf : f ∈ [2, 3, 4]) (t : Nat) {h : Nat} (hh : h ∈ grid f) :
    NoFarther (int32 t).natAbs (nearestMag f (f32.mant t) (f32.exp t)) h := by
  rw [nearestMag, if_pos (isBell_of_grid hf), midpoints2_eq f hf]
  exact noFarther_of_midpoints (aboveHalf_iff t) (grid_rises f hf) hh

theorem natAbs_level_mem_grid : ∀ f ∈ [2, 3, 4], ∀ c < 2 ^ codeBits f, (level f c).natAbs ∈ grid f := by
  decide

theorem exists_code_of_mem_grid : ∀ f ∈ [2, 3, 4], ∀ g ∈ grid f, ∀ neg : Bool, ∃ c < 2 ^ codeBits f, level f c = withSign neg g := by
  decide

/-! ### Integer formats -/

theorem two_mul_pow2n_le (m : Nat) (e : Int) : 2 * m * pow2n e ≤ (2 * nearestInt m e + 1) * pow2d e := by
  have hd := pow2d_pos e
  unfold nearestInt ceilDiv
  generalize 2 * m * pow2n e = a
  have hmod := Nat.div_add_mod (a - pow2d e + 2 * pow2d e - 1) (2 * pow2d e)
  have hlt := Nat.mod_lt (a - pow2d e + 2 * pow2d e - 1) (by omega : 0 < 2 * pow2d e)
  generalize (a - pow2d e + 2 * pow2d e - 1) / (2 * pow2d e) = q at hmod ⊢
  have : (2 * q + 1) * pow2d e = 2 * pow2d e * q + pow2d e := by rw [Nat.succ_mul, Nat.mul_right_comm]
  omega

theorem lt_two_mul_pow2n {m k : Nat} {e : Int} (hk : nearestInt m e = k + 1) : (2 * k + 1) * pow2d e < 2 * m * pow2n e := by
  have hd := pow2d_pos e
  unfold nearestInt ceilDiv at hk
  generalize 2 * m * pow2n e = a at hk ⊢
  have hmul := Nat.mul_div_le (a - pow2d e + 2 * pow2d e - 1) (2 * pow2d e)
  rw [hk] at hmul
  have : 2 * pow2d e * (k + 1) = (2 * k + 1) * pow2d e + pow2d e :=
    (Nat.mul_right_comm 2 (pow2d e) (k + 1)).trans (Nat.succ_mul (2 * k + 1) (pow2d e))
  have : pow2d e ≤ (2 * k + 1) * pow2d e := Nat.le_mul_of_pos_left _ (by omega)
  omega

/-- A value is at most half above its nearest integer. -/
theorem aboveHalf_nearestInt (m : Nat) (e : Int) : ¬ aboveHalf m e (2 * nearestInt m e + 1) = true := by
  rw [aboveHalf, decide_eq_true_iff, Nat.not_lt]
  exact two_mul_pow2n_le m e

/-- A value is more than half above the integer before its nearest one. -/
theorem aboveHalf_of_nearestInt {m k : Nat} {e : Int} (hk : nearestInt m e = k + 1) : aboveHalf m e (2 * k + 1) = true :=
  decide_eq_true (lt_two_mul_pow2n hk)

theorem nearestMag_of_not_bell {f : Nat} (hf : isBell f = false) (m : Nat) (e : Int) : nearestMag f m e = nearestInt m e := by
  rw [nearestMag, hf, if_neg Bool.false_ne_true]

/-- An integer format takes the nearest of all integers. -/
theorem nearestMag_noFarther_of_not_bell {f : Nat} (hf : isBell f = false) (t h : Nat) :
    NoFarther (int32 t).natAbs (nearestMag f (f32.mant t) (f32.exp t)) h := by
  rw [nearestMag_of_not_bell hf]
  refine noFarther_of_halves ?_ (fun k hk => (aboveHalf_iff ..).mp (aboveHalf_of_nearestInt hk)) h
  exact Nat.not_lt.mp ((not_congr (aboveHalf_iff ..)).mp (aboveHalf_nearestInt _ _))

/-- Within the clip bound an integer format stays within its levels. -/
theorem nearestMag_le_of_not_bell {f : Nat} (hf : isBell f = false) {neg : Bool} {t : Nat}
    (hclip : ¬ clipBound2 f neg * 2 ^ 149 < 2 * (int32 t).natAbs) :
    nearestMag f (f32.mant t) (f32.exp t) ≤ if neg then topNeg f else topPos f := by
  rw [nearestMag_of_not_bell hf]
  rw [clipBound2, hf, if_neg Bool.false_ne_true] at hclip
  cases hk : nearestInt (f32.mant t) (f32.exp t) with
  | zero => exact Nat.zero_le _
  | succ k =>
    have := (aboveHalf_iff ..).mp (aboveHalf_of_nearestInt hk)
    omega

theorem level_ofSigned {f : Nat} (hf : isBell f = false) {i : Int} (hlo : -(2 ^ (codeBits f - 1)) ≤ i) (hhi : i < 2 ^ (codeBits f - 1)) :
    level f (ofSigned (codeBits f) i) = i := by
  rw [level_of_not_bell hf, toSigned_eq_toInt (codeBits_pos f), ofSigned_eq_toNat, BitVec.ofNat_toNat, BitVec.setWidth_eq]
  exact BitVec.toInt_ofInt_eq_self (codeBits_pos f) hlo hhi

/-- The levels of the integer formats reach from -2 ^ (b - 1) to 2 ^ (b - 1) - 1 (R183). -/
theorem tops_of_not_bell : ∀ {f : Nat}, f ∈ [2, 3, 4, 5, 6] → isBell f = false →
    (topNeg f : Int) = 2 ^ (codeBits f - 1) ∧ (topPos f : Int) + 1 = 2 ^ (codeBits f - 1) := by
  decide

theorem exists_code_of_not_bell {f : Nat} (hf : f ∈ [2, 3, 4, 5, 6]) (hbell : isBell f = false) {neg : Bool} {g : Nat}
    (hg : g ≤ if neg then topNeg f else topPos f) : ∃ c < 2 ^ codeBits f, level f c = withSign neg g := by
  obtain ⟨hneg, hpos⟩ := tops_of_not_bell hf hbell
  have hlo : -(2 ^ (codeBits f - 1)) ≤ withSign neg g := by
    cases neg <;> simp only [withSign, Bool.false_eq_true, if_true, if_false] at hg ⊢ <;> omega
  have hhi : withSign neg g < 2 ^ (codeBits f - 1) := by
    cases neg <;> simp only [withSign, Bool.false_eq_true, if_true, if_false] at hg ⊢ <;> omega
  exact ⟨_, ofSigned_lt _ _, level_ofSigned hbell hlo hhi⟩

/-! ### Every format -/

/-- Within the clip bound the level is one of the format's, and no other is nearer. -/
theorem nearestMag_spec {f : Nat} (hf : f ∈ [2, 3, 4, 5, 6]) {neg : Bool} {t : Nat}
    (hclip : ¬ clipBound2 f neg * 2 ^ 149 < 2 * (int32 t).natAbs) :
    (∃ c < 2 ^ codeBits f, level f c = withSign neg (nearestMag f (f32.mant t) (f32.exp t))) ∧
      ∀ c < 2 ^ codeBits f, NoFarther (int32 t).natAbs (nearestMag f (f32.mant t) (f32.exp t)) (level f c).natAbs := by
  rcases narrow_cases hf with hgrid | hbell
  · exact ⟨exists_code_of_mem_grid f hgrid _ (nearestMag_mem_grid hgrid ..) neg,
      fun c hc => nearestMag_noFarther_of_grid hgrid t (natAbs_level_mem_grid f hgrid c hc)⟩
  · exact ⟨exists_code_of_not_bell hf hbell (nearestMag_le_of_not_bell hbell hclip),
      fun c _ => nearestMag_noFarther_of_not_bell hbell t _⟩

section Element

variable {f x s : Nat} (hf : f ∈ [2, 3, 4, 5, 6]) (hx : f32.fin x = true) (hs : (scaleUse s).1 ≠ 0)
include hx hs

theorem int32_quantT : int32 (quantT x s) = withSign (f32.neg x) (int32 (quantT x s)).natAbs := by
  rw [← neg_quantT hx hs]; exact int32_eq _

include hf

theorem quantElem_beyond (hclip : clipBound2 f (f32.neg x) * 2 ^ 149 < 2 * (int32 (quantT x s)).natAbs) :
    quantElem f x s = { level := extremeLevel f (f32.neg x), clip := true } := by
  rw [quantElem_of_fin hf hx hs, if_pos ((aboveHalf_iff ..).mpr hclip)]

theorem quantElem_within (hclip : ¬ clipBound2 f (f32.neg x) * 2 ^ 149 < 2 * (int32 (quantT x s)).natAbs) :
    quantElem f x s =
      { level := withSign (f32.neg x) (nearestMag f (f32.mant (quantT x s)) (f32.exp (quantT x s))) } := by
  rw [quantElem_of_fin hf hx hs, if_neg ((not_congr (aboveHalf_iff ..)).mpr hclip)]

theorem quantElem_nearest (hclip : ¬ clipBound2 f (f32.neg x) * 2 ^ 149 < 2 * (int32 (quantT x s)).natAbs) :
    (quantElem f x s).clip = false ∧ (∃ c < 2 ^ codeBits f, level f c = (quantElem f x s).level) ∧
      ∀ c < 2 ^ codeBits f, NoFarther (int32 (quantT x s)) (quantElem f x s).level (level f c) := by
  obtain ⟨hlevel, hnearest⟩ := nearestMag_spec hf hclip
  rw [quantElem_within hf hx hs hclip, int32_quantT hx hs]
  exact ⟨rfl, hlevel, fun c hc => noFarther_withSign (hnearest c hc) _⟩

end Element

/-- The bounds as the statement writes them are those of the model's comparison. -/
theorem clipBound2_eq : ∀ f ∈ [2, 3, 4, 5, 6],
    (if f = 4 then 12 else if f = 5 then 15 else if f = 6 then 255 else 30 : Int) = clipBound2 f false ∧
      (if f = 4 then 12 else if f = 5 then 17 else if f = 6 then 257 else 30 : Int) = clipBound2 f true := by
  decide

/-- Settles O49: the sign of t is the element's, so the side of the bound that t is on decides between `quantElem_beyond` and
`quantElem_nearest`. -/
theorem quantiserTakesTheNearestLevel : Obligations.QuantiserTakesTheNearestLevel := by
  unfold Obligations.QuantiserTakesTheNearestLevel
  intro f x s hf hx hs
  obtain ⟨hhi, hlo⟩ := clipBound2_eq f hf
  have hsign := int32_quantT hx hs
  have hbeyond := quantElem_beyond hf hx hs
  have hwithin := quantElem_nearest hf hx hs
  dsimp only
  rw [hhi, hlo]
  cases hneg : f32.neg x <;> rw [hneg] at hsign hbeyond hwithin
  case false =>
    simp only [withSign, Bool.false_eq_true, if_false] at hsign
    refine ⟨fun h => ?_, fun h => ?_, fun _ h => hwithin (by omega)⟩
    · rw [hbeyond (by omega)]; exact ⟨rfl, rfl⟩
    · omega
  case true =>
    simp only [withSign, if_true] at hsign
    refine ⟨fun h => ?_, fun h => ?_, fun h _ => hwithin (by omega)⟩
    · omega
    · rw [hbeyond (by omega)]; exact ⟨rfl, rfl⟩

end Sys2Proof.Machine

/-! # The rank keys (09 R271)

A number's rank key in direction MAX and its value are both functions of its magnitude bits with its sign, and both functions rise
strictly; a key in direction MIN is the complement of the key in direction MAX. -/

namespace Sys2Proof.Machine

/-! ### Values by magnitude bits -/

/-- The magnitude bits of a binary32 value with its sign, so that −0 is 0. -/
def signedMag (x : Nat) : Int := withSign (f32.neg x) (f32.mag x)

/-- The magnitude, in units of 2 ^ -149, that magnitude bits stand for. -/
def magUnits (m : Nat) : Nat := (m % 2 ^ 23 + if m / 2 ^ 23 = 0 then 0 else 2 ^ 23) * 2 ^ (m / 2 ^ 23 - 1)

theorem natAbs_int32_eq_magUnits (x : Nat) : (int32 x).natAbs = magUnits (f32.mag x) := by
  have hexp : (f32.exp x + 149).toNat = f32.mag x / 2 ^ 23 - 1 := by
    change ((if f32.mag x / 2 ^ 23 = 0 then (-149 : Int) else -149 + (f32.mag x / 2 ^ 23 : Nat) - 1) + 149).toNat = _
    split <;> omega
  rw [natAbs_int32, hexp]
  rfl

/-- The next magnitude bits either raise the mantissa by 1, or carry into the exponent, where the mantissa starts again at 2 ^ 23. -/
theorem magUnits_lt_succ (m : Nat) : magUnits m < magUnits (m + 1) := by
  unfold magUnits
  obtain ⟨hdiv, hmod⟩ | ⟨hdiv, hmod, hlast⟩ : ((m + 1) / 2 ^ 23 = m / 2 ^ 23 ∧ (m + 1) % 2 ^ 23 = m % 2 ^ 23 + 1) ∨
      ((m + 1) / 2 ^ 23 = m / 2 ^ 23 + 1 ∧ (m + 1) % 2 ^ 23 = 0 ∧ m % 2 ^ 23 < 2 ^ 23) := by omega
  · rw [hdiv, hmod]
    exact Nat.mul_lt_mul_of_pos_right (by omega) (Nat.two_pow_pos _)
  · rw [hdiv, hmod, if_neg (Nat.succ_ne_zero _), Nat.add_sub_cancel]
    cases m / 2 ^ 23 with
    | zero => rw [if_pos rfl, Nat.zero_sub, Nat.pow_zero]; omega
    | succ e =>
      rw [if_neg (Nat.succ_ne_zero _), Nat.add_sub_cancel, Nat.pow_succ' (m := 2) (n := e), ← Nat.mul_assoc]
      exact Nat.mul_lt_mul_of_pos_right (by omega) (Nat.two_pow_pos e)

theorem magUnits_lt_of_lt {m n : Nat} (h : m < n) : magUnits m < magUnits n := by
  induction h with
  | refl => exact magUnits_lt_succ m
  | step _ ih => exact Nat.lt_trans ih (magUnits_lt_succ _)

theorem magUnits_lt_iff (m n : Nat) : magUnits m < magUnits n ↔ m < n := by
  refine ⟨fun h => ?_, magUnits_lt_of_lt⟩
  obtain hlt | heq | hgt := Nat.lt_trichotomy m n
  · exact hlt
  · exact absurd h (heq ▸ Nat.lt_irrefl _)
  · exact absurd h (Nat.lt_asymm (magUnits_lt_of_lt hgt))

/-- The units keep the order of signed magnitudes. -/
theorem withSign_magUnits_lt_iff (p q : Bool) (m n : Nat) :
    withSign p (magUnits m) < withSign q (magUnits n) ↔ withSign p m < withSign q n := by
  have hzero : magUnits 0 = 0 := rfl
  have hmn := magUnits_lt_iff m n
  have hnm := magUnits_lt_iff n m
  have hm := magUnits_lt_iff 0 m
  have hn := magUnits_lt_iff 0 n
  cases p <;> cases q <;> simp only [withSign, Bool.false_eq_true, if_false, if_true] <;> omega

theorem int32_lt_int32_iff (x y : Nat) : int32 x < int32 y ↔ signedMag x < signedMag y := by
  rw [int32_eq x, int32_eq y, natAbs_int32_eq_magUnits, natAbs_int32_eq_magUnits]
  exact withSign_magUnits_lt_iff ..

/-! ### Keys -/

theorem rankKey_true (f : Nat) : rankKey true f = rankMax f := rfl

theorem rankKey_false (f : Nat) : rankKey false f = if f32.nan f then 0 else 0xFFFFFFFF - rankMax f := rfl

/-- The key of a number: a number below zero is complemented, any other has bit 31 set. -/
theorem rankMax_of_not_nan {x : DWord} (h : f32.nan x.toNat = false) :
    (rankMax x.toNat : Int) = if signedMag x.toNat < 0 then 0x7FFFFFFF + signedMag x.toNat else 0x80000000 + signedMag x.toNat := by
  have hx : x.toNat < 2 ^ 32 := x.isLt
  have hmag : f32.mag x.toNat = x.toNat % 0x80000000 := rfl
  have hneg : f32.neg x.toNat = (x.toNat / 0x80000000 % 2 == 1) := rfl
  rw [rankMax, h, signedMag, hneg, hmag]
  cases hs : x.toNat / 0x80000000 % 2 == 1 <;> simp only [beq_eq_false_iff_ne, beq_iff_eq] at hs <;>
    simp only [withSign, Bool.false_eq_true, if_false, if_true] <;> repeat' split
  all_goals omega

theorem signedMag_bounds_of_not_nan {x : Nat} (h : f32.nan x = false) : -0x7F800000 ≤ signedMag x ∧ signedMag x ≤ 0x7F800000 := by
  have hmag : f32.mag x ≤ 0x7F800000 := Nat.le_of_not_lt (of_decide_eq_false h)
  rw [signedMag]
  cases f32.neg x <;> simp only [withSign, Bool.false_eq_true, if_false, if_true] <;> omega

section Numbers

variable {x y : DWord} (hx : f32.nan x.toNat = false) (hy : f32.nan y.toNat = false)
include hx

/-- A number has neither the key of a NaN in direction MAX, nor its complement. -/
theorem rankMax_between_of_not_nan : 0 < rankMax x.toNat ∧ rankMax x.toNat < 0xFFFFFFFF := by
  have hkey := rankMax_of_not_nan hx
  have hbound := signedMag_bounds_of_not_nan hx
  split at hkey <;> omega

include hy

theorem rankMax_lt_rankMax_iff : rankMax x.toNat < rankMax y.toNat ↔ int32 x.toNat < int32 y.toNat := by
  have hkx := rankMax_of_not_nan hx
  have hky := rankMax_of_not_nan hy
  rw [int32_lt_int32_iff]
  split at hkx <;> split at hky <;> omega

theorem rankKey_false_lt_iff : rankKey false x.toNat < rankKey false y.toNat ↔ int32 y.toNat < int32 x.toNat := by
  have hbx := rankMax_between_of_not_nan hx
  have hby := rankMax_between_of_not_nan hy
  rw [rankKey_false, rankKey_false, hx, hy, ← rankMax_lt_rankMax_iff hy hx, if_neg Bool.false_ne_true, if_neg Bool.false_ne_true]
  omega

end Numbers

theorem rankKey_false_pos {x : DWord} (hx : f32.nan x.toNat = false) : 0 < rankKey false x.toNat := by
  have := rankMax_between_of_not_nan hx
  rw [rankKey_false, hx, if_neg Bool.false_ne_true]
  omega

/-! ### Keys as words -/

theorem msb_eq_neg (f : DWord) : f.msb = f32.neg f.toNat := by
  have hf : f.toNat < 2 ^ 32 := f.isLt
  rw [BitVec.msb_eq_decide, Bool.eq_iff_iff]
  change decide (2 ^ 31 ≤ f.toNat) = true ↔ (f.toNat / 0x80000000 % 2 == 1) = true
  rw [decide_eq_true_iff, beq_iff_eq]
  omega

theorem toNat_or_signBit {f : DWord} (h : f.toNat < 2 ^ 31) : (f ||| 0x80000000#32).toNat = f.toNat + 0x80000000 := by
  rw [BitVec.toNat_or, Nat.or_comm, Nat.add_comm]
  exact (Nat.two_pow_add_eq_or_of_lt h 1).symm

/-- The steps 1 to 3 of R271, on the bits of the value. -/
theorem rankMax_eq_word (f : DWord) :
    rankMax f.toNat = if f32.nan f.toNat then 0xFFFFFFFF else if f = 0x80000000#32 then 0x80000000
      else if f.msb then (~~~f).toNat else (f ||| 0x80000000#32).toNat := by
  have hf : f.toNat < 2 ^ 32 := f.isLt
  have hmag : f32.mag f.toNat = f.toNat % 0x80000000 := rfl
  have hneg : f32.neg f.toNat = true ↔ f.toNat / 0x80000000 % 2 = 1 := beq_iff_eq
  have hzero : f = 0x80000000#32 ↔ f.toNat = 0x80000000 := BitVec.toNat_inj.symm
  rw [rankMax, msb_eq_neg, BitVec.toNat_not, hmag]
  simp only [hneg, hzero]
  by_cases hpos : f.toNat < 2 ^ 31
  · rw [toNat_or_signBit hpos]
    repeat' split
    all_goals omega
  · repeat' split
    all_goals omega

theorem rankKey_false_eq_word (f : DWord) :
    rankKey false f.toNat = if f32.nan f.toNat then 0 else (~~~ BitVec.ofNat 32 (rankKey true f.toNat)).toNat := by
  rw [rankKey_false, rankKey_true]
  split
  next => rfl
  next h =>
    have hkey := rankMax_between_of_not_nan (Bool.eq_false_iff.mpr h)
    rw [BitVec.toNat_not, BitVec.toNat_ofNat, Nat.mod_eq_of_lt (by omega)]

/-! ### Entries -/

theorem before_iff {α : Type} (a b : Nat × Nat × α) : before a b = true ↔ b.1 < a.1 ∨ (a.1 = b.1 ∧ a.2.1 ≤ b.2.1) := by
  simp only [before, gt_iff_lt, Bool.or_eq_true, Bool.and_eq_true, decide_eq_true_eq, beq_iff_eq]

/-- Settles O51: the words of the keys are those of R271, and a number's key follows its signed magnitude, as its value does. -/
theorem rankKeysOrderTheValues : Obligations.RankKeysOrderTheValues := by
  unfold Obligations.RankKeysOrderTheValues
  refine ⟨fun f => ⟨rankMax_eq_word f, rankKey_false_eq_word f⟩, before_iff, fun x y hx hy => ?_⟩
  exact ⟨rankMax_lt_rankMax_iff hx hy, rankKey_false_lt_iff hx hy, (rankMax_between_of_not_nan hx).2, rankKey_false_pos hx⟩

end Sys2Proof.Machine

/-! # Selections of up to 64 places, and exact ones (09 R275, R278 to R280)

Rank order is total and transitive, so inserting into a sorted list keeps it sorted, and `rankSort` sorts. An exact selection cuts the
sorted list at k, and equal keys stand on both sides of a cut exactly if they stand next to it. -/

namespace Sys2Proof.Machine

section Selection

variable {α : Type}

/-! ### Rank order -/

theorem before_total (a b : Nat × Nat × α) : before a b = true ∨ before b a = true := by
  rw [before_iff, before_iff]; omega

theorem before_trans {a b c : Nat × Nat × α} (hab : before a b = true) (hbc : before b c = true) : before a c = true := by
  rw [before_iff] at *; omega

theorem insertRank_perm (a : Nat × Nat × α) (l : List (Nat × Nat × α)) : (insertRank a l).Perm (a :: l) := by
  induction l with
  | nil => exact .refl _
  | cons b r ih =>
    rw [insertRank]
    split
    · exact .refl _
    · exact (ih.cons b).trans (.swap ..)

theorem pairwise_insertRank (a : Nat × Nat × α) {l : List (Nat × Nat × α)} (hl : l.Pairwise fun x y => before x y = true) :
    (insertRank a l).Pairwise fun x y => before x y = true := by
  induction l with
  | nil => exact List.pairwise_singleton ..
  | cons b r ih =>
    obtain ⟨hb, hr⟩ := List.pairwise_cons.mp hl
    rw [insertRank]
    split
    case isTrue hab => exact .cons (List.forall_mem_cons.mpr ⟨hab, fun y hy => before_trans hab (hb y hy)⟩) hl
    case isFalse hab =>
      have hba := (before_total a b).resolve_left hab
      have hmem : ∀ y ∈ a :: r, before b y = true := List.forall_mem_cons.mpr ⟨hba, hb⟩
      exact .cons (fun y hy => hmem y ((insertRank_perm a r).mem_iff.mp hy)) (ih hr)

theorem rankSort_perm (l : List (Nat × Nat × α)) : (rankSort l).Perm l := by
  induction l with
  | nil => exact .refl _
  | cons a r ih => exact (insertRank_perm a (rankSort r)).trans (ih.cons a)

theorem length_rankSort (l : List (Nat × Nat × α)) : (rankSort l).length = l.length := (rankSort_perm l).length_eq

theorem pairwise_rankSort (l : List (Nat × Nat × α)) : (rankSort l).Pairwise fun a b => before a b = true := by
  induction l with
  | nil => exact .nil
  | cons a r ih => exact pairwise_insertRank a ih

/-! ### The cut -/

/-- Down a list in rank order the keys do not rise. -/
theorem key_le_of_pairwise {l : List (Nat × Nat × α)} (hl : l.Pairwise fun a b => before a b = true) {i j : Nat} (hij : i ≤ j)
    (hj : j < l.length) : l[j].1 ≤ l[i].1 := by
  obtain rfl | hlt := Nat.eq_or_lt_of_le hij
  · exact Nat.le_refl _
  · have := (before_iff ..).mp (List.pairwise_iff_getElem.mp hl i j (by omega) hj hlt)
    omega

/-- A cut divides a group of equal keys exactly if the entries next to it have one key. -/
theorem exists_key_eq_across_iff {l : List (Nat × Nat × α)} (hl : l.Pairwise fun a b => before a b = true) {k : Nat} (hk : 1 ≤ k)
    (hle : k ≤ l.length) :
    (l[k]?.map (·.1) == l[k - 1]?.map (·.1)) = true ↔ ∃ a ∈ l.take k, ∃ b ∈ l.drop k, a.1 = b.1 := by
  rw [beq_iff_eq, List.getElem?_eq_getElem (i := k - 1) (by omega)]
  constructor
  case mp =>
    intro h
    obtain ⟨b, hb, hkey⟩ := Option.map_eq_some_iff.mp h
    obtain ⟨hlt, rfl⟩ := List.getElem?_eq_some_iff.mp hb
    exact ⟨l[k - 1], List.mem_take_iff_getElem.mpr ⟨k - 1, by omega, rfl⟩, l[k], List.mem_drop_iff_getElem.mpr ⟨0, by omega, rfl⟩,
      hkey.symm⟩
  case mpr =>
    rintro ⟨a, ha, b, hb, hkey⟩
    obtain ⟨i, hi, rfl⟩ := List.mem_take_iff_getElem.mp ha
    obtain ⟨j, hj, rfl⟩ := List.mem_drop_iff_getElem.mp hb
    have hfirst := key_le_of_pairwise hl (i := i) (j := k - 1) (by omega) (by omega)
    have hcut := key_le_of_pairwise hl (i := k - 1) (j := k) (by omega) (by omega)
    have hlast := key_le_of_pairwise hl (i := k) (j := k + j) (by omega) (by omega)
    rw [List.getElem?_eq_getElem (by omega), Option.map_some, Option.map_some]
    exact congrArg some (by omega)

/-! ### The selection -/

/-- With fewer than k entries, all are returned (R280). -/
theorem select_of_length_lt {apx : Bool} {k : Nat} {l : List (Nat × Nat × α)} (h : l.length < k) :
    select apx k l = { entries := rankSort l, tie := false, approx := false, population := 0, passes := if k ≤ 64 then 1 else 2,
                       refine := 0 } :=
  if_pos (length_rankSort l ▸ h)

/-- The number of refinement passes of an exact selection (R275, R278). -/
def exactRefine (k : Nat) (l : List (Nat × Nat × α)) : Nat := if k ≤ 64 then 0 else refinements (rankSort l) k

/-- An exact selection is a cut of the sorted list (R275, R278). -/
theorem select_of_exact {apx : Bool} {k : Nat} {l : List (Nat × Nat × α)} (h : k ≤ l.length) (hexact : k ≤ 64 ∨ apx = false) :
    select apx k l =
      { entries := (rankSort l).take k, tie := (rankSort l)[k]?.map (·.1) == (rankSort l)[k - 1]?.map (·.1), approx := false,
        population := 0, passes := if k ≤ 64 then 1 else 2 + exactRefine k l, refine := exactRefine k l } := by
  have hlen : ¬ (rankSort l).length < k := length_rankSort l ▸ Nat.not_lt_of_le h
  have hcond : k ≤ 64 ∨ (!apx) = true := hexact.imp_right fun hfalse => by rw [hfalse]; rfl
  rw [select, if_neg hlen, if_pos hcond]
  rfl

end Selection

/-- Settles O52: the entries left over are those of the sorted list after the k-th. -/
theorem selectionHoldsTheBestK : Obligations.SelectionHoldsTheBestK := by
  unfold Obligations.SelectionHoldsTheBestK
  intro apx k l hk hexact
  have hperm := rankSort_perm l
  have hsorted := pairwise_rankSort l
  have hlen := length_rankSort l
  obtain hlt | hle := Nat.lt_or_ge l.length k
  · rw [select_of_length_lt hlt]
    refine ⟨[], ?_, ?_, by rw [hlen]; omega, rfl, rfl, ⟨nofun, ?_⟩, fun h64 => if_pos h64⟩
    · rwa [List.append_nil]
    · rwa [List.append_nil]
    · rintro ⟨_, _, _, hb, _⟩
      exact absurd hb List.not_mem_nil
  · rw [select_of_exact hle hexact]
    refine ⟨(rankSort l).drop k, ?_, ?_, by rw [List.length_take, hlen], rfl, rfl, ?_, fun h64 => if_pos h64⟩
    · rwa [List.take_append_drop]
    · rwa [List.take_append_drop]
    · exact exists_key_eq_across_iff hsorted hk (by rwa [hlen])

end Sys2Proof.Machine

/-! # Predicate terms of type F (11 R336)

A binary32 value's key is its magnitude bits with its sign, so keys stand in the order of the values. A term of type F compares keys,
after it has set a NaN of the field aside; the check of a program has refused a NaN in a constant. -/

namespace Sys2Proof.Machine

/-! ### Keys and values -/

theorem key32_eq_signedMag (x : Nat) : key32 x = signedMag x := rfl

theorem key32_le_key32_iff (x y : Nat) : key32 x ≤ key32 y ↔ int32 x ≤ int32 y := by
  rw [← Int.not_lt, ← Int.not_lt, key32_eq_signedMag, key32_eq_signedMag, int32_lt_int32_iff]

theorem key32_inj (x y : Nat) : key32 x = key32 y ↔ int32 x = int32 y := by
  rw [Int.le_antisymm_iff, Int.le_antisymm_iff, key32_le_key32_iff, key32_le_key32_iff]

theorem int32_neg_zero : int32 0x80000000 = int32 0 := (key32_inj ..).mp rfl

theorem signedMag_bounds_of_fin {x : Nat} (h : f32.fin x = true) : -0x7F800000 < signedMag x ∧ signedMag x < 0x7F800000 := by
  have hmag : f32.mag x < 0x7F800000 := of_decide_eq_true h
  rw [signedMag]
  cases f32.neg x <;> simp only [withSign, Bool.false_eq_true, if_false, if_true] <;> omega

/-- A finite value lies strictly between the infinities. -/
theorem int32_between_infinities {x : Nat} (h : f32.fin x = true) : int32 x < int32 0x7F800000 ∧ int32 0xFF800000 < int32 x := by
  have hpos : signedMag 0x7F800000 = 0x7F800000 := rfl
  have hneg : signedMag 0xFF800000 = -0x7F800000 := rfl
  rw [int32_lt_int32_iff, int32_lt_int32_iff, hpos, hneg]
  exact (signedMag_bounds_of_fin h).symm

/-! ### The operators on a term of type F -/

/-- EQ of type F, on a constant and a field's value. -/
def eqF (a v : Nat) : Bool := !f32.nan v && key32 v == key32 a

/-- RANGE of type F, on the two constants and a field's value. -/
def rangeF (a b v : Nat) : Bool := !f32.nan v && key32 a ≤ key32 v && key32 v ≤ key32 b

theorem eqF_of_nan {v : Nat} (h : f32.nan v = true) (a : Nat) : eqF a v = false := by
  rw [eqF, h]; rfl

theorem rangeF_of_nan {v : Nat} (h : f32.nan v = true) (a b : Nat) : rangeF a b v = false := by
  rw [rangeF, h]; rfl

theorem eqF_iff {v : Nat} (h : f32.nan v = false) (a : Nat) : eqF a v = true ↔ int32 v = int32 a := by
  rw [eqF, h, Bool.not_false, Bool.true_and, beq_iff_eq, key32_inj]

theorem rangeF_iff {v : Nat} (h : f32.nan v = false) (a b : Nat) :
    rangeF a b v = true ↔ int32 a ≤ int32 v ∧ int32 v ≤ int32 b := by
  rw [rangeF, h, Bool.not_false, Bool.true_and, Bool.and_eq_true, decide_eq_true_iff, decide_eq_true_iff, key32_le_key32_iff,
    key32_le_key32_iff]

/-- The value of the field that a term reads. -/
def termField (p w : List Byte) (i : Nat) : Nat := le w (Prg.term p i).off (Prg.term p i).width

section TypeF

variable {p : List Byte} {i : Nat} (hty : (Prg.term p i).ty = 2)
include hty

theorem evalTerm_eqF (hop : (Prg.term p i).op = 0) (w : List Byte) :
    evalTerm p w i = eqF (Prg.term p i).a (termField p w i) := by
  simp only [evalTerm, hop, hty]; rfl

theorem evalTerm_neF (hop : (Prg.term p i).op = 1) (w : List Byte) :
    evalTerm p w i = !eqF (Prg.term p i).a (termField p w i) := by
  simp only [evalTerm, hop, hty]; rfl

theorem evalTerm_rangeF (hop : (Prg.term p i).op = 2) (w : List Byte) :
    evalTerm p w i = rangeF (Prg.term p i).a (Prg.term p i).b (termField p w i) := by
  simp only [evalTerm, hop, hty]; rfl

theorem evalTerm_outsideF (hop : (Prg.term p i).op = 3) (w : List Byte) :
    evalTerm p w i = !rangeF (Prg.term p i).a (Prg.term p i).b (termField p w i) := by
  simp only [evalTerm, hop, hty]; rfl

theorem evalTerm_of_nan {w : List Byte} (hnan : f32.nan (termField p w i) = true) :
    ((Prg.term p i).op = 0 ∨ (Prg.term p i).op = 2 → evalTerm p w i = false) ∧
      ((Prg.term p i).op = 1 ∨ (Prg.term p i).op = 3 → evalTerm p w i = true) := by
  constructor
  · rintro (hop | hop)
    · rw [evalTerm_eqF hty hop, eqF_of_nan hnan]
    · rw [evalTerm_rangeF hty hop, rangeF_of_nan hnan]
  · rintro (hop | hop)
    · rw [evalTerm_neF hty hop, eqF_of_nan hnan, Bool.not_false]
    · rw [evalTerm_outsideF hty hop, rangeF_of_nan hnan, Bool.not_false]

theorem evalTerm_of_not_nan {w : List Byte} (hnum : f32.nan (termField p w i) = false) :
    ((Prg.term p i).op = 0 → (evalTerm p w i = true ↔ int32 (termField p w i) = int32 (Prg.term p i).a)) ∧
      ((Prg.term p i).op = 1 → (evalTerm p w i = true ↔ int32 (termField p w i) ≠ int32 (Prg.term p i).a)) ∧
      ((Prg.term p i).op = 2 → (evalTerm p w i = true ↔
        int32 (Prg.term p i).a ≤ int32 (termField p w i) ∧ int32 (termField p w i) ≤ int32 (Prg.term p i).b)) ∧
      ((Prg.term p i).op = 3 → (evalTerm p w i = true ↔
        ¬ (int32 (Prg.term p i).a ≤ int32 (termField p w i) ∧ int32 (termField p w i) ≤ int32 (Prg.term p i).b))) := by
  have heq := eqF_iff hnum (Prg.term p i).a
  have hrange := rangeF_iff hnum (Prg.term p i).a (Prg.term p i).b
  refine ⟨fun hop => ?_, fun hop => ?_, fun hop => ?_, fun hop => ?_⟩
  · rwa [evalTerm_eqF hty hop]
  · rw [evalTerm_neF hty hop, Bool.not_eq_true', ← Bool.not_eq_true, heq]
  · rwa [evalTerm_rangeF hty hop]
  · rw [evalTerm_outsideF hty hop, Bool.not_eq_true', ← Bool.not_eq_true, hrange]

/-- A constant that is a NaN breaks R336, with each operator that type F permits. -/
theorem termBad_of_nan_constant (hop : (Prg.term p i).op ≤ 3)
    (hnan : f32.nan (Prg.term p i).a = true ∨ f32.nan (Prg.term p i).b = true) : termBad p i = true := by
  have hset : ((Prg.term p i).op == 6 || (Prg.term p i).op == 7) = false := by
    rw [Bool.or_eq_false_iff, beq_eq_false_iff_ne, beq_eq_false_iff_ne]; omega
  have hconst : (f32.nan (Prg.term p i).a || f32.nan (Prg.term p i).b) = true := Bool.or_eq_true_iff.mpr hnan
  simp only [termBad, hset, hconst, hty, beq_self_eq_true, Bool.true_and, Bool.not_false, Bool.or_true, Bool.true_or]

end TypeF

/-! ### The check of a program -/

theorem exists_checks_error {l : List (Bool × Fail)} {f : Fail} (h : (true, f) ∈ l) : ∃ g, checks l = .error g := by
  induction l with
  | nil => exact absurd h List.not_mem_nil
  | cons c r ih =>
    obtain ⟨b, g⟩ := c
    cases b with
    | true => exact ⟨g, rfl⟩
    | false => exact ih ((List.mem_cons.mp h).resolve_left nofun)

theorem checkProgram_of_termBad {p : List Byte} {i : Nat} (hi : i < Prg.terms p) (hbad : termBad p i = true) (length : Nat) :
    ∃ f, checkProgram p length = .error f := by
  have hany : (List.range (Prg.terms p)).any (termBad p) = true := List.any_eq_true.mpr ⟨i, List.mem_range.mpr hi, hbad⟩
  refine exists_checks_error (f := fieldBad 0xB04) (.tail _ ?_)
  rw [hany]
  exact .head _

/-- Settles O53: a term of type F compares keys, which stand as the values do; a NaN in a constant fails the check of its term. -/
theorem typeFComparesExactly : Obligations.TypeFComparesExactly := by
  unfold Obligations.TypeFComparesExactly
  refine ⟨fun p w i hty hnan => ?_, fun p w i hty hnum => ?_, ⟨int32_neg_zero, fun x hx => ?_⟩, fun p i length hi hty hop hnan => ?_⟩
  · exact evalTerm_of_nan hty hnan
  · exact evalTerm_of_not_nan hty hnum
  · exact int32_between_infinities hx
  · exact checkProgram_of_termBad hi (termBad_of_nan_constant hty hop hnan) length

end Sys2Proof.Machine

/-! # The ring of the device error log (13 R399, R401)

A write to the ring does one of three things: it adds the entry where there is room, it displaces the oldest correctable entry of a full
ring, or it drops the entry. Only the second takes an entry out of the ring, and that entry is correctable. -/

namespace Sys2Proof.Machine

section Ring

variable (e : DevEntry) {old : DevEntry} {s : State}

/-- The count and the notice of a write to the log leave the log itself. -/
theorem vendorNotice_ctrAdd_itg (f page : Nat) (c : Ctr) (i n : Nat) (s : State) : (vendorNotice f page (ctrAdd c i n s)).itg = s.itg := by
  rw [(vendorNotice_posted ..).itg, (ctrAdd_traced ..).itg]

/-! ### What a write does, by the state of the ring -/

theorem ringAdd_itg_of_room (hroom : s.itg.ring.length < 256) :
    (ringAdd e s).itg = { s.itg with seq := s.itg.seq + 1, ring := s.itg.ring ++ [{ e with seq := (s.itg.seq + 1).toNat }] } := by
  rw [ringAdd, if_pos hroom, vendorNotice_ctrAdd_itg, State.modItg_itg]

section Full

variable (hfull : 256 ≤ s.itg.ring.length)
include hfull

theorem ringAdd_itg_of_displaced (hold : s.itg.ring.find? (fun x => !x.uncorrectable) = some old) :
    (ringAdd e s).itg = { s.itg with
      seq := s.itg.seq + 1
      ring := s.itg.ring.erase old ++ [{ e with seq := (s.itg.seq + 1).toNat }]
      lost := sat 0xFFFFFFFF (s.itg.lost + old.merged) } := by
  rw [ringAdd, if_neg (Nat.not_lt_of_le hfull), hold]
  dsimp only
  rw [vendorNotice_ctrAdd_itg, State.modItg_itg]

theorem ringAdd_of_dropped (hnone : s.itg.ring.find? (fun x => !x.uncorrectable) = none) :
    ringAdd e s =
      let s1 := s.modItg fun t => { t with lost := sat 0xFFFFFFFF (t.lost + e.merged), dropped := true }
      if s.itg.dropped then s1 else raise 0x003 (BitVec.ofNat 32 s1.itg.lost) s1 := by
  rw [ringAdd, if_neg (Nat.not_lt_of_le hfull), hnone]

theorem ringAdd_ring_of_dropped (hnone : s.itg.ring.find? (fun x => !x.uncorrectable) = none) : (ringAdd e s).itg.ring = s.itg.ring := by
  rw [ringAdd_of_dropped e hfull hnone]
  dsimp only
  split
  · rw [State.modItg_itg]
  · rw [(raise_raised ..).itg, State.modItg_itg]

end Full

/-! ### What every write keeps -/

/-- What a write can do to the ring, said once. -/
theorem ringAdd_ring_cases (s : State) : ∃ new : DevEntry,
    (s.itg.ring.length < 256 ∧ (ringAdd e s).itg.ring = s.itg.ring ++ [new]) ∨
    (∃ old ∈ s.itg.ring, old.uncorrectable = false ∧ (ringAdd e s).itg.ring = s.itg.ring.erase old ++ [new]) ∨
    (ringAdd e s).itg.ring = s.itg.ring := by
  refine ⟨{ e with seq := (s.itg.seq + 1).toNat }, ?_⟩
  by_cases hroom : s.itg.ring.length < 256
  · exact .inl ⟨hroom, by rw [ringAdd_itg_of_room e hroom]⟩
  · have hfull := Nat.le_of_not_lt hroom
    cases hfind : s.itg.ring.find? fun x => !x.uncorrectable with
    | none => exact .inr (.inr (ringAdd_ring_of_dropped e hfull hfind))
    | some old =>
      have hcor : old.uncorrectable = false := by simpa using List.find?_some hfind
      exact .inr (.inl ⟨old, List.mem_of_find?_eq_some hfind, hcor, by rw [ringAdd_itg_of_displaced e hfull hfind]⟩)

theorem ringAdd_keeps_uncorrectable {x : DevEntry} (hx : x ∈ s.itg.ring) (hunc : x.uncorrectable = true) : x ∈ (ringAdd e s).itg.ring := by
  obtain ⟨new, ⟨-, hring⟩ | ⟨old, -, hcor, hring⟩ | hring⟩ := ringAdd_ring_cases e s
  · exact hring ▸ List.mem_append_left _ hx
  · have hne : x ≠ old := fun heq => by rw [heq, hcor] at hunc; contradiction
    exact hring ▸ List.mem_append_left _ ((List.mem_erase_of_ne hne).mpr hx)
  · exact hring ▸ hx

theorem ringAdd_length_le (hlen : s.itg.ring.length ≤ 256) : (ringAdd e s).itg.ring.length ≤ 256 := by
  obtain ⟨new, ⟨hroom, hring⟩ | ⟨old, hmem, -, hring⟩ | hring⟩ := ringAdd_ring_cases e s
  · rw [hring, List.length_append, List.length_singleton]
    exact hroom
  · have hpos : 0 < s.itg.ring.length := List.length_pos_of_mem hmem
    rw [hring, List.length_append, List.length_singleton, List.length_erase_of_mem hmem]
    omega
  · exact hring ▸ hlen

end Ring

/-- Settles O55: the two cases of a full ring by whether it holds a correctable entry, and what every write keeps by what a write can do
to the ring. -/
theorem fullRingKeepsUncorrectableEntries : Obligations.FullRingKeepsUncorrectableEntries := by
  unfold Obligations.FullRingKeepsUncorrectableEntries
  refine ⟨fun e old s hfull hold => ?_, fun e s hfull hnone => ringAdd_of_dropped e hfull hnone,
    fun e s => ⟨fun x hx hunc => ringAdd_keeps_uncorrectable e hx hunc, fun hlen => ringAdd_length_le e hlen⟩⟩
  rw [ringAdd_itg_of_displaced e hfull hold]
  exact ⟨rfl, rfl⟩

end Sys2Proof.Machine

/-! # No command undoes what the spec says is for ever (12 R374; 18 R487, R488, R505)

Each command's meaning is put together from operations that go onward (Laws), so its proof names those operations in the order in which the
meaning applies them: `ite_on` where it chooses, `split` where it looks something up, `OnwardE.error` where it fails. -/

namespace Sys2Proof.Machine

/-- The fuse of observation burns in one direction (18 R505). -/
theorem burnFuse_on {σ s : State} (hon : Onward σ s) : Onward σ (s.modSec fun x => { x with obsOff := true }) := by
  refine hon.trans ⟨rfl, id, fun _ => rfl, Nat.le_refl _, id, fun _ => id, id⟩

theorem countTick_on {σ s : State} (hon : Onward σ s) : Onward σ { s with tick := s.tick + 1 } := hon.same rfl rfl rfl rfl rfl rfl

section Commands

variable {σ s : State} (hon : Onward σ s)
include hon

/-! ### Objects -/

theorem execPlace_on (e : Entry) : Runs σ (execPlace e s) := by
  unfold execPlace
  refine runMilris_on hon fun _ h => iteE_on OnwardE.error ?_
  split
  · exact iteE_on OnwardE.error (iteE_on (OnwardE.ok (ok_on h)) (iteE_on OnwardE.error (iteE_on OnwardE.error (placeAgain_on h))))
  · exact iteE_on OnwardE.error (iteE_on OnwardE.error (iteE_on OnwardE.error (iteE_on OnwardE.error (placeNew_on h))))
theorem execRelease_on (e : Entry) : Runs σ (execRelease e s) := by
  unfold execRelease
  refine runMilris_on hon fun _ h => iteE_on OnwardE.error ?_
  split
  · exact OnwardE.error
  · exact iteE_on OnwardE.error (iteE_on OnwardE.error (OnwardE.ok (ok_on (ite_on (destroy_on (dropObject_on h)) (dropObject_on h)))))
theorem execPagingStart_on (t : TaskRef) : Runs σ (execPagingStart t s) := by
  unfold execPagingStart
  refine Runs.next ?_
  split
  · refine ite_on hon ?_
    split
    · next h1 => exact (takePages_on hon).get h1
    · exact failCmd_on hon
  · exact hon
theorem execPageInComplete_on (object page : Nat) (r : ReadEnd) : Runs σ (execPageInComplete object page r s) := by
  unfold execPageInComplete
  refine Runs.next (ite_on hon ?_)
  split
  · exact ctrPart_on (readEnd_on (startWaitingFills_on (modOne_on (stamp_on hon))))
  · exact ctrPart_on (readEnd_on (startWaitingFills_on (modOne_on (stamp_on hon))))
  · exact foldl_on (unrecovered_on (uncharge_on hon)) fun _ _ h1 => failWhole_on h1
  · exact foldl_on (guarded_on (uncharge_on hon)) fun _ _ h3 => failWhole_on h3

/-! ### Structure -/

theorem execLoadStructure_on (a : Admin) : Runs σ (execLoadStructure a s) := by
  unfold execLoadStructure
  refine runAdmin_on hon fun _ h => orFail_on (iteE_on OnwardE.error (iteE_on OnwardE.error (iteE_on OnwardE.error (iteE_on OnwardE.error
    ?_))))
  split
  · exact OnwardE.ok (post_on h)
  · exact OnwardE.ok (markDissolving_on (modStr_on (reserve_on h)))
theorem execDomeDissolve_on (a : Admin) : Runs σ (execDomeDissolve a s) := by
  unfold execDomeDissolve
  exact iteR_on (Runs.next hon) (runAdmin_on hon (fun _ h => orFail_on (iteE_on OnwardE.error (iteE_on OnwardE.error (iteE_on
    OnwardE.error (OnwardE.ok (markDissolving_on (modStr_on h))))))))
theorem execDomeBind_on (a : Admin) : Runs σ (execDomeBind a s) := by
  unfold execDomeBind
  exact iteR_on (Runs.next hon) (runAdmin_on hon (fun _ h => orFail_on (iteE_on OnwardE.error (iteE_on OnwardE.error (iteE_on (OnwardE.ok
    (ok_on h)) (iteE_on OnwardE.error (OnwardE.ok (ok_on (setBindings_on h)))))))))
theorem execDomeUnbind_on (a : Admin) : Runs σ (execDomeUnbind a s) := by
  unfold execDomeUnbind
  refine iteR_on (Runs.next hon) (runAdmin_on hon (fun _ h => orFail_on (iteE_on OnwardE.error ?_)))
  split
  · exact OnwardE.error
  · exact iteE_on OnwardE.error (OnwardE.ok (ok_on (setBindings_on h)))
theorem execServiceFence_on (a : Admin) : Runs σ (execServiceFence a s) := by
  unfold execServiceFence
  exact iteR_on (Runs.next hon) (runAdmin_on hon (fun _ h => orFail_on (iteE_on OnwardE.error (iteE_on OnwardE.error (OnwardE.ok
    (modStr_on h))))))
theorem execServiceUnfence_on (a : Admin) : Runs σ (execServiceUnfence a s) := by
  unfold execServiceUnfence
  exact iteR_on (Runs.next hon) (runAdmin_on hon (fun _ h => orFail_on (iteE_on OnwardE.error (iteE_on OnwardE.error (OnwardE.ok
    (modStr_on h))))))

/-! ### Levels -/

theorem execReadLevelEvaluation_on (bgroup : Nat) : Runs σ (execReadLevelEvaluation bgroup s) := by
  unfold execReadLevelEvaluation
  refine Runs.next ?_
  dsimp only
  split
  · exact ite_on hon (recalStep_on (modRd_on (evalGroup_on hon)))
  · exact ite_on hon (modRd_on (evalGroup_on hon))
theorem execRecalibrateReadLevels_on (a : Admin) : Runs σ (execRecalibrateReadLevels a s) := by
  unfold execRecalibrateReadLevels
  exact iteR_on (Runs.next hon) (runAdmin_on hon (fun _ h => orFail_on (iteE_on OnwardE.error (iteE_on (OnwardE.ok (ok_on h)) (OnwardE.ok
    (foldl_on (modCal_on h) (fun _ _ h1 => modRd_on h1)))))))

/-! ### Flash -/

theorem execGarbageCollection_on (group : Nat) (target : Nat) (members : List Nat) : Runs σ (execGarbageCollection group target members s)
  := by
  unfold execGarbageCollection
  refine Runs.next (ite_on hon ?_)
  split
  · exact hon
  · next h => exact copyExtents_on ((openTarget_on hon).get h)
theorem execBlockRefreshQueued_on (block : Nat) : Runs σ (execBlockRefreshQueued block s) := by
  unfold execBlockRefreshQueued
  exact Runs.next (ite_on (queueRefresh_on hon) hon)
theorem execRefresh_on (block : Nat) (target : Nat) (members : List Nat) : Runs σ (execRefresh block target members s) := by
  unfold execRefresh
  refine Runs.next (ite_on hon ?_)
  split
  · exact modFls_on hon rfl rfl
  · split
    · exact ite_on (ctrAdd_on (raise_on hon)) hon
    · next h1 => exact ctrAdd_on (modFls_on (copyExtents_on ((openTarget_on hon).get h1)) rfl rfl)
theorem execDestage_on (nsid extent : Nat) (group : Nat) (members : List Nat) : Runs σ (execDestage nsid extent group members s) := by
  unfold execDestage
  refine Runs.next (ite_on hon (ite_on (ctrAdd_on hon) ?_))
  dsimp only
  split
  · exact hon
  · next h => exact ite_on (ctrAdd_on (modFls_on (startProgram_on ((openTarget_on hon).get h)) rfl rfl)) (modFls_on (startProgram_on
      ((openTarget_on hon).get h)) rfl rfl)
theorem execProgramFailure_on (block : Nat) (target : Nat) (members : List Nat) : Runs σ (execProgramFailure block target members s) := by
  unfold execProgramFailure
  refine Runs.next ?_
  split
  · exact hon
  · refine ite_on hon ?_
    split
    · exact hon
    · next h1 => exact ite_on hon (reportCor_on (growBad_on (ctrAdd_on (modGroup_on (endProgram_on (modGroup_on (foldl_on (foldl_on
        (draw_on ((openTarget_on hon).get h1)) (fun _ _ h2 => startProgram_on h2)) (fun _ _ h3 => putExtent_on h3))))))))
theorem execEraseFailure_on (block : Nat) : Runs σ (execEraseFailure block s) := by
  unfold execEraseFailure
  exact Runs.next (ite_on hon (reportCor_on (growBad_on (idleDie_on hon))))
theorem execBlockErase_on (block : Nat) : Runs σ (execBlockErase block s) := by
  unfold execBlockErase
  exact Runs.next (ite_on hon (modDie_on (modBlock_on hon)))
theorem execEraseComplete_on (block : Nat) : Runs σ (execEraseComplete block s) := by
  unfold execEraseComplete
  exact Runs.next (ite_on hon (ite_on (modBlock_on (idleDie_on hon)) (modFls_on (modBlock_on (idleDie_on hon)) rfl rfl)))
theorem execEraseResume_on (die : Nat) : Runs σ (execEraseResume die s) := by
  unfold execEraseResume
  refine Runs.next ?_
  split
  · exact hon
  · exact ite_on hon (ite_on (modBlock_on (modDie_on hon)) (modDie_on hon))
theorem execBlockVerify_on (block : Nat) (badPages : Nat) (overLimit : Bool) : Runs σ (execBlockVerify block badPages overLimit s) := by
  unfold execBlockVerify
  refine Runs.next ?_
  split
  · exact hon
  · exact ite_on hon (ite_on (sweep_on (modGroup_on (ite_on (queueRefresh_on (ctrAdd_on (modBlock_on hon))) (modBlock_on hon)))) (ite_on
      (queueRefresh_on (ctrAdd_on (modBlock_on hon))) (modBlock_on hon)))
theorem execParitySpill_on (group : Nat) : Runs σ (execParitySpill group s) := by
  unfold execParitySpill
  refine Runs.next ?_
  split
  · exact hon
  · exact ite_on hon (spillParity_on hon)
theorem execRetireNandDie_on (a : Admin) : Runs σ (execRetireNandDie a s) := by
  unfold execRetireNandDie
  refine iteR_on (Runs.next hon) (runAdmin_on hon (fun _ h => orFail_on (iteE_on OnwardE.error (iteE_on OnwardE.error ?_))))
  split
  · exact OnwardE.ok (modFls_on h rfl rfl)
  · exact iteE_on OnwardE.error (OnwardE.ok (startRetire_on h))
theorem execDieRetirementEnd_on (die : Nat) : Runs σ (execDieRetirementEnd die s) := by
  unfold execDieRetirementEnd
  refine Runs.next ?_
  split
  · exact hon
  · refine ite_on hon (foldl_on (reportCor_on (raise_on (modFls_on (modDie_on (foldl_on hon (fun _ _ h1 => substitute_on h1))) rfl rfl)))
      (fun _ _ h2 => ?_))
    split
    · exact ok_on h2
    · exact h2
theorem execDieAutoRetire_on (die : Nat) : Runs σ (execDieAutoRetire die s) := by
  unfold execDieAutoRetire
  exact Runs.next (ite_on hon (ite_on (startRetire_on hon) (foldl_on (startRetire_on hon) (fun _ _ h => loseExtent_on h))))

/-! ### Nvm -/

theorem execRead_on (n : Nvm) : Runs σ (execRead n s) := by
  unfold execRead
  refine runNvm_on hon fun _ h => ?_
  split
  · exact OnwardE.error
  · exact OnwardE.ok (beginRead_on h)
theorem execVerify_on (n : Nvm) : Runs σ (execVerify n s) := by
  unfold execVerify
  refine runNvm_on hon fun _ h => ?_
  split
  · exact OnwardE.error
  · exact OnwardE.ok (beginRead_on h)
theorem execFlashReadComplete_on (block page : Nat) (r : ReadEnd) (iterations : Nat) (updown : List (Nat × Nat)) : Runs σ
  (execFlashReadComplete block page r iterations updown s) := by
  unfold execFlashReadComplete
  refine Runs.next (ite_on hon ?_)
  split
  · exact hon
  · next h => exact foldl_on (modFls_on (readBlock_on (noteRead_on (ite_on (ctrAdd_on (modDie_on (modBlock_on (countRead_on (countClass_on
      ((serveRead_on hon).get h)))))) (readEnd_on (modDie_on (modBlock_on (countRead_on (countClass_on ((serveRead_on hon).get h)))))))))
      rfl rfl) fun _ _ h1 => endRead_on h1
theorem execWrite_on (n : Nvm) : Runs σ (execWrite n s) := by
  unfold execWrite
  refine runNvm_on hon fun _ h => ?_
  split
  · exact OnwardE.error
  · refine iteE_on OnwardE.error ?_
    split
    · next h2 => exact OnwardE.ok ((takeWrite_on h).get h2)
    · exact OnwardE.ok (modFls_on h rfl rfl)
theorem execNandProgramComplete_on (group : Nat) (pages : Nat) : Runs σ (execNandProgramComplete group pages s) := by
  unfold execNandProgramComplete
  refine Runs.next ?_
  split
  · exact hon
  · exact ite_on hon (pumpWrites_on (sweep_on (closeFull_on (countProgram_on (modGroup_on (modFls_on (foldl_on (endProgram_on hon) (fun _
      _ h1 => mapProg_on h1)) rfl rfl))))))
theorem execFlush_on (n : Nvm) : Runs σ (execFlush n s) := by
  unfold execFlush
  refine runNvm_on hon fun _ h => iteE_on (OnwardE.ok (ok_on h)) ?_
  split
  · exact OnwardE.error
  · exact OnwardE.ok (ok_on h)
theorem execWriteZeroes_on (n : Nvm) : Runs σ (execWriteZeroes n s) := by
  unfold execWriteZeroes
  refine runNvm_on hon fun _ h => ?_
  split
  · exact OnwardE.error
  · exact iteE_on OnwardE.error (OnwardE.ok (ok_on (deallocate_on h)))
theorem execDatasetManagement_on (n : Nvm) : Runs σ (execDatasetManagement n s) := by
  unfold execDatasetManagement
  refine runNvm_on hon fun _ h => ?_
  split
  · exact OnwardE.error
  · exact iteE_on (OnwardE.ok (ok_on h)) (iteE_on OnwardE.error (iteE_on OnwardE.error (OnwardE.ok (ok_on (foldl_on h (fun _ _ h2 =>
      deallocate_on h2))))))

/-! ### Plans -/

theorem execRunPlan_on (e : Entry) : Runs σ (execRunPlan e s) := by
  unfold execRunPlan
  refine runMilris_on hon fun _ h => ?_
  split
  · exact OnwardE.error
  · exact OnwardE.ok (beginFirstFill_on (admitPlan_on h))

/-! ### Quant -/

theorem execQuantiseRow_on (t : TaskRef) (op row : Nat) : Runs σ (execQuantiseRow t op row s) := by
  unfold execQuantiseRow
  exact Runs.next (onRow_on hon (fun _ _ _ _ _ h => quantise_on h))
theorem execWatchWindowEnd_on (slot : Nat) : Runs σ (execWatchWindowEnd slot s) := by
  unfold execWatchWindowEnd
  refine Runs.next ?_
  split
  · exact hon
  · exact ite_on hon (modSlot_on (evalHistogram_on (ite_on (raisePart_on (ite_on (raisePart_on (ctrSet_on hon)) (ctrSet_on hon))) (ite_on
      (raisePart_on (ctrSet_on hon)) (ctrSet_on hon)))))
theorem execRecalibrateScales_on (a : Admin) : Runs σ (execRecalibrateScales a s) := by
  unfold execRecalibrateScales
  exact iteR_on (Runs.next hon) (runAdmin_on hon (fun _ h => orFail_on (iteE_on OnwardE.error (iteE_on OnwardE.error (OnwardE.ok (ok_on
    (foldl_on h (fun _ _ h1 => derive_on h1))))))))

/-! ### Calibration -/

theorem execWriteCacheResized_on : Runs σ (execWriteCacheResized s) := by
  unfold execWriteCacheResized
  refine Runs.next ?_
  split
  · exact hon
  · exact ite_on hon (modCal_on (setCache_on hon))
theorem execTestButtressBank_on (a : Admin) : Runs σ (execTestButtressBank a s) := by
  unfold execTestButtressBank
  exact iteR_on (Runs.next hon) (runAdmin_on hon (fun _ h => orFail_on (iteE_on OnwardE.error (iteE_on OnwardE.error (OnwardE.ok
    (modCal_on h))))))
theorem execBankMeasurementStart_on : Runs σ (execBankMeasurementStart s) := by
  unfold execBankMeasurementStart
  exact Runs.next (ite_on hon (ite_on (ite_on (modCal_on hon) hon) (modCal_on (ite_on (resizeCache_on hon) hon))))
theorem execBankDrawEnd_on (stepMicroV deltaMicroV : Nat) : Runs σ (execBankDrawEnd stepMicroV deltaMicroV s) := by
  unfold execBankDrawEnd
  exact Runs.next (ite_on hon (modCal_on hon))
theorem execBankRecharged_on : Runs σ (execBankRecharged s) := by
  unfold execBankRecharged
  refine Runs.next (ite_on hon (resizeCache_on (bankAnswer_on ?_)))
  split
  · exact modCal_on hon
  · exact ctrAdd_on (raise_on (modCal_on hon))
theorem execThermalTrimStep_on (raw : List Int) : Runs σ (execThermalTrimStep raw s) := by
  unfold execThermalTrimStep
  exact Runs.next (ite_on hon (ite_on (modCal_on hon) (foldl_on (modCal_on (modCal_on hon)) (fun _ _ h => raise_on h))))

/-! ### Search -/

theorem execWalkRecordArrival_on (src : Src) (walk slot block us : Nat) (r : ReadEnd) (misses : List Nat) : Runs σ (execWalkRecordArrival
  src walk slot block us r misses s) := by
  unfold execWalkRecordArrival
  refine Runs.next (endBuild_on ?_)
  split
  · split
    · exact hon
    · exact ite_on hon (ite_on (goOn_on (modWalk_on (ite_on hon (recordRead_on hon)))) (ite_on (goOn_on (ctrPart_on (modWalk_on (ite_on
        hon (recordRead_on hon))))) (walkTiles_on hon (fun _ h2 => goOn_on (expand_on (modWalk_on (ite_on h2 (recordRead_on h2))))))))
  · exact hon
theorem execSearch_on (e : Entry) : Runs σ (execSearch e s) := by
  unfold execSearch
  refine runMilris_on hon fun _ h => iteE_on OnwardE.error (orFail_on ?_)
  split
  · exact OnwardE.error
  · exact OnwardE.ok (admitSearch_on h)
theorem execInsert_on (e : Entry) : Runs σ (execInsert e s) := by
  unfold execInsert
  exact runMilris_on hon fun _ h => iteE_on OnwardE.error (iteE_on OnwardE.error (orFail_on (iteE_on OnwardE.error (iteE_on OnwardE.error
    (OnwardE.ok (admitJob_on h))))))
theorem execDelete_on (e : Entry) : Runs σ (execDelete e s) := by
  unfold execDelete
  exact runMilris_on hon fun _ h => iteE_on OnwardE.error (iteE_on OnwardE.error (orFail_on (OnwardE.ok (admitJob_on h))))
theorem execCompact_on (e : Entry) : Runs σ (execCompact e s) := by
  unfold execCompact
  exact runMilris_on hon fun _ h => iteE_on OnwardE.error (orFail_on (OnwardE.ok (admitJob_on h)))
theorem execIndexCommit_on (src : Src) : Runs σ (execIndexCommit src s) := by
  unfold execIndexCommit
  refine Runs.next ?_
  split
  · exact hon
  · refine ite_on hon (ite_on ?_ (ite_on (endJob_on (ctrPart_on (syncStore_on (bumpIx_on (modJob_on (applyBatch_on hon)))))) ?_))
    · split
      · exact wakeJobs_on (failWhole_on (modIdx_on hon))
      · exact hon
    · split
      · exact kickWalk_on (ctrPart_on (syncStore_on (bumpIx_on (modJob_on (applyBatch_on hon)))))
      · exact ctrPart_on (syncStore_on (bumpIx_on (modJob_on (applyBatch_on hon))))

/-! ### Schedule -/

theorem execTaskDispatch_on (t : TaskRef) (us : Nat) : Runs σ (execTaskDispatch t us s) := by
  unfold execTaskDispatch
  refine Runs.next ?_
  split
  · refine ite_on hon (ite_on (stretch_on hon) (ite_on (ctrPart_on hon) ?_))
    split
    · exact hon
    · split
      · exact hon
      · exact ite_on hon (ite_on (stretch_on (modSch_on hon)) (kickWalk_on (claim_on (startTask_on hon))))
  · exact hon
theorem execReleaseWindowOpen_on (part us : Nat) : Runs σ (execReleaseWindowOpen part us s) := by
  unfold execReleaseWindowOpen
  refine Runs.next ?_
  split
  · exact hon
  · exact ite_on (switchPacket_on (yieldRequests_on (modPtr_on hon))) hon
theorem execSaveStart_on (part us : Nat) : Runs σ (execSaveStart part us s) := by
  unfold execSaveStart
  refine Runs.next ?_
  split
  · exact hon
  · split
    · exact ite_on (startSave_on (ite_on (yieldRequests_on hon) hon)) hon
    · exact ite_on (startSave_on hon) hon
    · exact hon
theorem execSaveEnd_on (part cluster us : Nat) : Runs σ (execSaveEnd part cluster us s) := by
  unfold execSaveEnd
  refine Runs.next ?_
  split
  · exact hon
  · split
    · exact hon
    · exact ite_on hon (switchDone_on (switchPacket_on (modPtr_on (modSch_on (cancelReads_on hon)))))
theorem execRestoreEnd_on (part cluster us : Nat) : Runs σ (execRestoreEnd part cluster us s) := by
  unfold execRestoreEnd
  refine Runs.next ?_
  split
  · exact hon
  · split
    · exact hon
    · exact ite_on hon (freedOn_on (switchDone_on (switchPacket_on (modPtr_on (modSch_on hon)))))
theorem execSemaphoreAcquire_on (t : TaskRef) (sem : Nat) : Runs σ (execSemaphoreAcquire t sem s) := by
  unfold execSemaphoreAcquire
  refine Runs.next ?_
  split
  · exact hon
  · refine ite_on hon ?_
    dsimp only
    split
    · exact spend_on (ensureSem_on hon)
    · split
      · exact spend_on (ensureSem_on hon)
      · exact ite_on (failTask_on (spend_on (ensureSem_on hon))) (ite_on (modSem_on (spend_on (ensureSem_on hon))) (ite_on (semPacket_on
          (setWait_on (modSem_on (spend_on (ensureSem_on hon))))) (setWait_on (modSem_on (spend_on (ensureSem_on hon))))))
theorem execSemaphoreRelease_on (t : TaskRef) (sem : Nat) : Runs σ (execSemaphoreRelease t sem s) := by
  unfold execSemaphoreRelease
  refine Runs.next ?_
  split
  · exact hon
  · refine ite_on hon ?_
    dsimp only
    split
    · exact spend_on (ensureSem_on hon)
    · split
      · exact spend_on (ensureSem_on hon)
      · exact ite_on (failTask_on (spend_on (ensureSem_on hon))) (ite_on (failTask_on (spend_on (ensureSem_on hon))) (giveUnit_on
          (remark_on (modSem_on (spend_on (ensureSem_on hon))))))
theorem execLendingStart_on (sem us : Nat) : Runs σ (execLendingStart sem us s) := by
  unfold execLendingStart
  refine Runs.next (ite_on hon ?_)
  split
  · exact hon
  · split
    · exact hon
    · split
      · exact hon
      · split
        · exact hon
        · refine ite_on hon ?_
          split
          · exact hon
          · exact ite_on hon (semPacket_on (raisePart_on (moveSaved_on (modSem_on hon))))
theorem execLayerFillEnd_on (t : TaskRef) (cluster us : Nat) : Runs σ (execLayerFillEnd t cluster us s) := by
  unfold execLayerFillEnd
  refine Runs.next ?_
  split
  · refine ite_on hon (ite_on ?_ (modChain_on hon))
    dsimp only
    split
    · exact ite_on (ctrPart_on (modChain_on hon)) (modChain_on hon)
    · exact modChain_on hon
  · exact hon

/-! ### Power -/

theorem execPowerSample_on (edgeMv auxMv powerW us : Nat) : Runs σ (execPowerSample edgeMv auxMv powerW us s) := by
  unfold execPowerSample
  exact Runs.next (ite_on (modPwr_on hon) (ite_on hon (modPwr_on hon)))
theorem execSupplyWarningBegin_on (input mv : Nat) : Runs σ (execSupplyWarningBegin input mv s) := by
  unfold execSupplyWarningBegin
  exact Runs.next (ite_on hon (ite_on (modPwr_on hon) (bankSag_on (lineUp_on (ctrAdd_on (beginCause_on (modPwr_on hon)))))))
theorem execSupplyWarningEnd_on (input : Nat) : Runs σ (execSupplyWarningEnd input s) := by
  unfold execSupplyWarningEnd
  exact Runs.next (ite_on hon (ite_on (endCause_on hon) (lineDown_on (endCause_on hon))))
theorem execThermalLevelStep_on (temp : Int) : Runs σ (execThermalLevelStep temp s) := by
  unfold execThermalLevelStep
  exact Runs.next (ite_on hon (throttleLine_on (modPwr_on hon)))
theorem execThermalEmergencyBegin_on (temp : Int) : Runs σ (execThermalEmergencyBegin temp s) := by
  unfold execThermalEmergencyBegin
  exact Runs.next (ite_on hon (holdActivation_on (throttleLine_on (lineUp_on (ctrAdd_on (modPwr_on hon))))))
theorem execThermalEmergencyEnd_on : Runs σ (execThermalEmergencyEnd s) := by
  unfold execThermalEmergencyEnd
  exact Runs.next (ite_on hon (calm_on (lineDown_on (modPwr_on hon))))
theorem execSupplyIsolation_on (mv : Nat) : Runs σ (execSupplyIsolation mv s) := by
  unfold execSupplyIsolation
  exact Runs.next (ite_on hon (linkDown_on (domainsOff_on (modLife_on (ite_on (ctrAdd_on (raise_on (beginCause_on hon))) (abandon_on
    (ctrAdd_on (raise_on (beginCause_on hon)))))))))
theorem execThermalShutdown_on : Runs σ (execThermalShutdown s) := by
  unfold execThermalShutdown
  exact Runs.next (ite_on hon (modLife_on (abandon_on hon)))
theorem execFlushStopped_on : Runs σ (execFlushStopped s) := by
  unfold execFlushStopped
  exact Runs.next (ite_on hon (ctrAdd_on (modLife_on (draw_on hon))))
theorem execDomainWake_on (domain : Nat) : Runs σ (execDomainWake domain s) := by
  unfold execDomainWake
  exact Runs.next (ite_on hon (ite_on (bandTakes_on (ite_on (modLife_on (ite_on (modDomain_on hon) (ctrAdd_on (modDomain_on hon))))
    (ite_on (modDomain_on hon) (ctrAdd_on (modDomain_on hon))))) (ite_on (modLife_on (ite_on (modDomain_on hon) (ctrAdd_on (modDomain_on
    hon)))) (ite_on (modDomain_on hon) (ctrAdd_on (modDomain_on hon))))))
theorem execBandRetain_on (band : Nat) : Runs σ (execBandRetain band s) := by
  unfold execBandRetain
  exact Runs.next (ite_on hon (modDomain_on hon))
theorem execFlashGroupGate_on (group : Nat) : Runs σ (execFlashGroupGate group s) := by
  unfold execFlashGroupGate
  exact Runs.next (ite_on hon (modDomain_on hon))
theorem execDramSelfRefresh_on (group : Nat) : Runs σ (execDramSelfRefresh group s) := by
  unfold execDramSelfRefresh
  exact Runs.next (ite_on hon (modDomain_on hon))
theorem execFabricQuadrantGate_on (quadrant : Nat) : Runs σ (execFabricQuadrantGate quadrant s) := by
  unfold execFabricQuadrantGate
  exact Runs.next (ite_on hon (modDomain_on hon))
theorem execAspmL1Entry_on : Runs σ (execAspmL1Entry s) := by
  unfold execAspmL1Entry
  exact Runs.next (ite_on hon (modDomain_on (modDomain_on (modLife_on hon))))
theorem execL0pWidthChange_on (width : Nat) : Runs σ (execL0pWidthChange width s) := by
  unfold execL0pWidthChange
  exact Runs.next (ite_on hon (ite_on (modDomain_on (modLife_on hon)) (ite_on (ctrAdd_on (modDomain_on (modLife_on hon))) (modLife_on
    hon))))

/-! ### Lantern -/

theorem execLanternDisable_on (a : Admin) : Runs σ (execLanternDisable a s) := by
  unfold execLanternDisable
  exact iteR_on (Runs.next hon) (runAdmin_on hon (fun _ h => iteE_on (orFail_on OnwardE.error) (lanternControl_on h)))
theorem execLanternEnable_on (a : Admin) : Runs σ (execLanternEnable a s) := by
  unfold execLanternEnable
  exact iteR_on (Runs.next hon) (runAdmin_on hon (fun _ h => iteE_on (orFail_on OnwardE.error) (lanternControl_on h)))
theorem execLanternSetSources_on (a : Admin) : Runs σ (execLanternSetSources a s) := by
  unfold execLanternSetSources
  exact iteR_on (Runs.next hon) (runAdmin_on hon (fun _ h => orFail_on (iteE_on OnwardE.error (iteE_on OnwardE.error (lanternControl_on
    h)))))
theorem execLanternAttach_on : Runs σ (execLanternAttach s) := by
  unfold execLanternAttach
  exact Runs.next (lanternTry_on (modLan_on hon))
theorem execLanternDetach_on : Runs σ (execLanternDetach s) := by
  unfold execLanternDetach
  exact Runs.next (lanternDark_on (modLan_on hon))
theorem execLanternPacketSend_on (lane : Nat) : Runs σ (execLanternPacketSend lane s) := by
  unfold execLanternPacketSend
  refine Runs.next (ite_on hon ?_)
  split
  · exact hon
  · exact lanternDrained_on (ctrAdd_on (modOut_on (modLan_on hon)))

/-! ### Attach -/

theorem execNegotiate_on (a : Admin) (us : Nat) : Runs σ (execNegotiate a us s) := by
  unfold execNegotiate
  exact runAdmin_on hon fun _ h => iteE_on OnwardE.error (iteE_on OnwardE.error (OnwardE.ok (ok_on (ite_on (lanternTry_on (modHb_on h))
    (lanternStop_on (modHb_on h))))))
theorem execReattachAdopt_on (a : Admin) (us : Nat) : Runs σ (execReattachAdopt a us s) := by
  unfold execReattachAdopt
  exact iteR_on (Runs.next hon) (runAdmin_on hon (fun _ h => orFail_on (OnwardE.ok (ok_on (settleKept_on (postHeld_on (endQuiesce_on
    (modHb_on (foldl_on (releaseDma_on h) (fun _ _ h1 => uncharge_on (deliver_on h1)))))))))))
theorem execReattachDiscard_on (a : Admin) (us : Nat) : Runs σ (execReattachDiscard a us s) := by
  unfold execReattachDiscard
  exact iteR_on (Runs.next hon) (runAdmin_on hon (fun _ h => orFail_on (OnwardE.ok (ok_on (endQuiesce_on (modHb_on (deleteIoQueues_on
    (dropWork_on h))))))))
theorem execQueueResume_on (a : Admin) : Runs σ (execQueueResume a s) := by
  unfold execQueueResume
  refine runAdmin_on hon fun _ h => iteE_on OnwardE.error (iteE_on OnwardE.error ?_)
  split
  · exact OnwardE.error
  · exact iteE_on OnwardE.error (OnwardE.ok (ok_on (queuePacket_on (modSq_on (foldl_on h (fun _ _ h2 => post_on (queuePacket_on h2)))))))

/-! ### Belfry -/

theorem execGroupDelivery_on (group us : Nat) : Runs σ (execGroupDelivery group us s) := by
  unfold execGroupDelivery
  exact Runs.next (ite_on hon (ite_on (modEvt_on hon) (sendMsix_on (eventPacket_on (modEvt_on hon)))))
theorem execHoldoffEnd_on (group us : Nat) : Runs σ (execHoldoffEnd group us s) := by
  unfold execHoldoffEnd
  refine Runs.next ?_
  split
  · exact hon
  · exact ite_on (modEvt_on hon) hon
theorem execEventSourceRise_on (source : Nat) (detail : DWord) : Runs σ (execEventSourceRise source detail s) := by
  unfold execEventSourceRise
  exact Runs.next (ite_on (lineUp_on hon) (raise_on hon))
theorem execEvpendWrite_on (w : RegWrite) : Runs σ (execEvpendWrite w s) := by
  unfold execEvpendWrite
  exact Runs.next (ite_on (writeEvents_on hon) hon)
theorem execEvmaskWrite_on (w : RegWrite) : Runs σ (execEvmaskWrite w s) := by
  unfold execEvmaskWrite
  exact Runs.next (ite_on (writeEvents_on hon) hon)
theorem execGrpctlWrite_on (w : RegWrite) : Runs σ (execGrpctlWrite w s) := by
  unfold execGrpctlWrite
  exact Runs.next (ite_on (writeEvents_on hon) hon)
theorem execEdgecntRead_on (fn size : Nat) : Runs σ (execEdgecntRead fn size s) := by
  unfold execEdgecntRead
  refine Runs.next (ite_on hon ?_)
  split
  · exact modEvt_on hon
  · exact modEvt_on hon
theorem execMsixVectorUnmask_on (fn vector : Nat) : Runs σ (execMsixVectorUnmask fn vector s) := by
  unfold execMsixVectorUnmask
  exact Runs.next (ite_on hon (flushPba_on (modFn_on hon)))

/-! ### Firmware -/

theorem execFirmwareImageDownload_on (a : Admin) : Runs σ (execFirmwareImageDownload a s) := by
  unfold execFirmwareImageDownload
  exact runAdmin_on hon fun _ h => iteE_on OnwardE.error (iteE_on OnwardE.error (OnwardE.ok (ok_on (modFw_on h))))
theorem execFirmwareCommitProgram_on (a : Admin) : Runs σ (execFirmwareCommitProgram a s) := by
  unfold execFirmwareCommitProgram
  exact iteR_on (Runs.next hon) (runAdmin_on hon (fun _ h => iteE_on (OnwardE.ok (refuse_on (dropStaging_on h))) (commitProgram_on h)))
theorem execFirmwareCommitNextReset_on (a : Admin) : Runs σ (execFirmwareCommitNextReset a s) := by
  unfold execFirmwareCommitNextReset
  exact iteR_on (Runs.next hon) (runAdmin_on hon (fun _ h => commitProgram_on h))
theorem execFirmwareCommitLive_on (a : Admin) : Runs σ (execFirmwareCommitLive a s) := by
  unfold execFirmwareCommitLive
  exact iteR_on (Runs.next hon) (runAdmin_on hon (fun _ h => commitProgram_on h))
theorem execFirmwareCommitBootPartition_on (a : Admin) : Runs σ (execFirmwareCommitBootPartition a s) := by
  unfold execFirmwareCommitBootPartition
  exact iteR_on (Runs.next hon) (runAdmin_on hon (fun _ h => OnwardE.ok (refuse_on (dropStaging_on h))))
theorem execFirmwareCommitActivateExisting_on (a : Admin) : Runs σ (execFirmwareCommitActivateExisting a s) := by
  unfold execFirmwareCommitActivateExisting
  exact iteR_on (Runs.next hon) (runAdmin_on hon (fun _ h => iteE_on (OnwardE.ok (refuse_on (dropStaging_on h))) (iteE_on (OnwardE.ok
    (refuse_on (dropStaging_on h))) (iteE_on (OnwardE.ok (ok_on (dropStaging_on h))) (iteE_on (OnwardE.ok (refuse_on (dropStaging_on h)))
    (iteE_on (OnwardE.ok (refuse_on (dropStaging_on h))) (OnwardE.ok (ok_on (modFw_on (modSlotAt_on (dropStaging_on h)))))))))))
theorem execCodeFlashProgramEnd_on (readBackOk : Bool) : Runs σ (execCodeFlashProgramEnd readBackOk s) := by
  unfold execCodeFlashProgramEnd
  refine Runs.next ?_
  split
  · exact hon
  · exact ite_on (refuse_on (modFw_on hon)) (ite_on (ite_on (beginActivation_on (modSlotAt_on (modFw_on hon))) (refuse_on (modSlotAt_on
      (modFw_on hon)))) (ok_on (modFw_on (modSlotAt_on (modFw_on hon)))))
theorem execActivationBandSwap_on : Runs σ (execActivationBandSwap s) := by
  unfold execActivationBandSwap
  refine Runs.next ?_
  split
  · exact ite_on hon (nextCore_on (ite_on (bandTakes_on hon) (modDomain_on hon)))
  · exact hon
theorem execSchedulerCoreSwap_on (us : Nat) : Runs σ (execSchedulerCoreSwap us s) := by
  unfold execSchedulerCoreSwap
  refine Runs.next ?_
  split
  · exact ite_on hon (nextCore_on (raise_on (modFw_on (modSch_on hon))))
  · exact hon
theorem execKeepSwap_on : Runs σ (execKeepSwap s) := by
  unfold execKeepSwap
  refine Runs.next ?_
  split
  · exact ite_on hon (nextCore_on (raise_on (modFw_on hon)))
  · exact hon
theorem execVaneSwap_on : Runs σ (execVaneSwap s) := by
  unfold execVaneSwap
  refine Runs.next ?_
  split
  · refine ite_on hon ?_
    dsimp only
    split
    · exact ok_on (raise_on (modFw_on hon))
    · exact initRdy_on (raise_on (modFw_on hon))
  · exact hon
theorem execActivationResume_on : Runs σ (execActivationResume s) := by
  unfold execActivationResume
  refine Runs.next ?_
  split
  · exact ite_on hon (modFw_on hon)
  · exact hon

/-! ### Integrity -/

theorem execStrongDecodeEnd_on (d : DecodeFound) : Runs σ (execStrongDecodeEnd d s) := by
  unfold execStrongDecodeEnd
  refine Runs.next (ite_on hon (ite_on (uncorrectableRead_on (ctrAdd_on hon)) ?_))
  split
  · exact ite_on hon (uncorrectableRead_on hon)
  · exact ite_on hon (ite_on hon (ite_on hon (strongDecode_on hon)))
theorem execScrubRead_on (at_ : FrameAt) (received : FrameBits) (found : Option FrameBits) : Runs σ (execScrubRead at_ received found s)
  := by
  unfold execScrubRead
  exact Runs.next (ite_on hon (ite_on (lapEnd_on (ite_on (moveFrame_on (putScrub_on (ite_on (ite_on (foldl_on hon (fun _ _ h =>
    wordCorrected_on h)) (decodeFailed_on (foldl_on hon (fun _ _ h1 => wordCorrected_on h1)))) (ite_on (decodeFailed_on hon)
    (strongDecode_on hon))))) (putScrub_on (ite_on (ite_on (foldl_on hon (fun _ _ h2 => wordCorrected_on h2)) (decodeFailed_on (foldl_on
    hon (fun _ _ h3 => wordCorrected_on h3)))) (ite_on (decodeFailed_on hon) (strongDecode_on hon)))))) (ite_on (moveFrame_on (putScrub_on
    (ite_on (ite_on (foldl_on hon (fun _ _ h4 => wordCorrected_on h4)) (decodeFailed_on (foldl_on hon (fun _ _ h5 => wordCorrected_on
    h5)))) (ite_on (decodeFailed_on hon) (strongDecode_on hon))))) (putScrub_on (ite_on (ite_on (foldl_on hon (fun _ _ h6 =>
    wordCorrected_on h6)) (decodeFailed_on (foldl_on hon (fun _ _ h7 => wordCorrected_on h7)))) (ite_on (decodeFailed_on hon)
    (strongDecode_on hon)))))))
theorem execRetireDramChannelGroup_on (a : Admin) : Runs σ (execRetireDramChannelGroup a s) := by
  unfold execRetireDramChannelGroup
  exact iteR_on (Runs.next hon) (runAdmin_on hon (fun _ h => orFail_on (iteE_on OnwardE.error (iteE_on OnwardE.error (OnwardE.ok
    (modItg_on h))))))
theorem execDramMigrationEnd_on (group : Nat) : Runs σ (execDramMigrationEnd group s) := by
  unfold execDramMigrationEnd
  refine Runs.next ?_
  split
  · exact hon
  · refine foldl_on (groupGone_on (ctrAdd_on (draw_on hon))) fun _ _ h1 => ?_
    split
    · exact h1
    · exact ok_on h1
theorem execPackageStopsResponding_on (package : Nat) : Runs σ (execPackageStopsResponding package s) := by
  unfold execPackageStopsResponding
  exact Runs.next (ite_on hon (ite_on (modItg_on hon) (modItg_on (modItg_on hon))))

/-! ### Boot -/

theorem execStartupComplete_on (t : BootTest) : Runs σ (execStartupComplete t s) := by
  unfold execStartupComplete
  exact Runs.next (ite_on hon (ite_on (modLife_on (applyTests_on hon)) (ite_on (bootFail_on (applyTests_on hon)) (ite_on (bootFail_on
    (applyTests_on hon)) (ite_on (bootFail_on (applyTests_on hon)) (ite_on (bootFail_on (applyTests_on hon)) (initRdy_on (modLife_on
    (restore_on (applyTests_on hon))))))))))
theorem execPerstAssert_on (ns : Nat) : Runs σ (execPerstAssert ns s) := by
  unfold execPerstAssert
  refine Runs.next (ite_on hon ?_)
  dsimp only
  split
  · exact linkDown_on (modLife_on (ite_on (modLife_on hon) (abandon_on (modLife_on hon))))
  · exact linkDown_on (modLife_on (ite_on (modLife_on hon) (abandon_on (modLife_on hon))))
  · exact linkDown_on (modLife_on (ite_on (modLife_on hon) (abandon_on (modLife_on hon))))
  · exact linkDown_on (modLife_on (modLife_on hon))
  · exact modLife_on hon
theorem execPerstDeassert_on (t : BootTest) : Runs σ (execPerstDeassert t s) := by
  unfold execPerstDeassert
  refine Runs.next (ite_on hon ?_)
  dsimp only
  split
  · exact ite_on (modLife_on hon) (applyTests_on (coldStart_on (modLife_on hon)))
  · exact ite_on (modLife_on hon) (applyTests_on (coldStart_on (bankAtPowerUp_on (progressCut_on (modLife_on hon)))))
  · exact modLife_on hon
theorem execConventionalReset_on (t : BootTest) : Runs σ (execConventionalReset t s) := by
  unfold execConventionalReset
  exact Runs.next (ite_on (applyTests_on (coldStart_on (modLife_on hon))) hon)
theorem execFlushEnd_on : Runs σ (execFlushEnd s) := by
  unfold execFlushEnd
  refine Runs.next ?_
  split
  · exact hon
  · dsimp only
    split
    · exact domainsOff_on (spillOpen_on (modLife_on hon))
    · exact linkDown_on (domainsOff_on (modLife_on (spillOpen_on (modLife_on hon))))
    · exact ite_on (spillOpen_on (modLife_on hon)) (coldStart_on (spillOpen_on (modLife_on hon)))
    · exact modFns_on (modLife_on (spillOpen_on (modLife_on hon)))
theorem execAuxPowerPresent_on : Runs σ (execAuxPowerPresent s) := by
  unfold execAuxPowerPresent
  exact Runs.next (ite_on hon (modDomain_on (domainsOff_on (linkDown_on (modLife_on (ite_on (progressCut_on hon) hon))))))
theorem execPowerRemoved_on : Runs σ (execPowerRemoved s) := by
  unfold execPowerRemoved
  exact Runs.next (ite_on hon (modMgt_on (modEvt_on (modPwr_on (modCal_on (domainsOff_on (linkDown_on (modLife_on (ite_on (progressCut_on
    hon) hon)))))))))
theorem execPowerUp12v_on (sense0Open sense1Open : Bool) : Runs σ (execPowerUp12v sense0Open sense1Open s) := by
  unfold execPowerUp12v
  exact Runs.next (ite_on hon (ite_on (modPwr_on (modLife_on (bankAtPowerUp_on hon))) (coldStart_on (modPwr_on (modLife_on
    (bankAtPowerUp_on hon))))))
theorem execFunctionLevelReset_on (fn : Nat) : Runs σ (execFunctionLevelReset fn s) := by
  unfold execFunctionLevelReset
  exact Runs.next (ite_on hon (ite_on (modFns_on (foldl_on hon (fun _ _ h => stopController_on h))) (modFn_on (stopController_on hon))))
theorem execDStateTransition_on (fn d : Nat) : Runs σ (execDStateTransition fn d s) := by
  unfold execDStateTransition
  exact Runs.next (ite_on hon (flushPba_on (modFn_on hon)))
theorem execControllerEnable_on (w : RegWrite) : Runs σ (execControllerEnable w s) := by
  unfold execControllerEnable
  refine Runs.next ?_
  split
  · exact ite_on hon (initRdy_on (ite_on (modLife_on (adminQueues_on (modFn_on hon))) (adminQueues_on (modFn_on hon))))
  · exact hon
theorem execControllerReset_on (w : RegWrite) (us : Nat) : Runs σ (execControllerReset w us s) := by
  unfold execControllerReset
  refine Runs.next ?_
  split
  · exact ite_on hon (ite_on (stopController_on hon) (activatePending_on (stopController_on (ite_on (endQuiesce_on (modHb_on
      (deleteIoQueues_on (dropWork_on (ite_on (trapReset_on hon) hon))))) (ite_on (trapReset_on hon) hon)))))
  · exact hon
theorem execNormalShutdown_on (w : RegWrite) : Runs σ (execNormalShutdown w s) := by
  unfold execNormalShutdown
  refine Runs.next ?_
  split
  · exact ite_on hon (ite_on (shutdownDone_on (modFn_on hon)) (modFn_on hon))
  · exact hon
theorem execAbruptShutdown_on (w : RegWrite) : Runs σ (execAbruptShutdown w s) := by
  unfold execAbruptShutdown
  refine Runs.next ?_
  split
  · exact ite_on hon (ite_on (modLife_on (modFn_on hon)) (modFn_on hon))
  · exact hon

/-! ### Namespaces -/

theorem execNamespaceCreate_on (a : Admin) : Runs σ (execNamespaceCreate a s) := by
  unfold execNamespaceCreate
  refine iteR_on (Runs.next hon) (runAdmin_on hon (fun _ h => orFail_on (iteE_on OnwardE.error (iteE_on OnwardE.error (iteE_on
    OnwardE.error (iteE_on OnwardE.error (iteE_on OnwardE.error ?_)))))))
  split
  · exact OnwardE.error
  · exact OnwardE.ok (ok_on (modFls_on (modSec_on h rfl rfl rfl) rfl rfl))
theorem execNamespaceDelete_on (a : Admin) : Runs σ (execNamespaceDelete a s) := by
  unfold execNamespaceDelete
  refine iteR_on (Runs.next hon) (runAdmin_on hon (fun _ h => orFail_on (iteE_on OnwardE.error (iteE_on (OnwardE.ok (ok_on (foldl_on h
    (fun _ _ h1 => dropNs_on h1)))) ?_))))
  split
  · exact OnwardE.error
  · exact iteE_on OnwardE.error (OnwardE.ok (ok_on (pumpWrites_on (dropNs_on h))))
theorem execNamespaceAttachment_on (a : Admin) : Runs σ (execNamespaceAttachment a s) := by
  unfold execNamespaceAttachment
  refine runAdmin_on hon fun _ h => orFail_on ?_
  dsimp only
  split
  · exact OnwardE.error
  · exact iteE_on OnwardE.error (iteE_on OnwardE.error (iteE_on OnwardE.error (iteE_on OnwardE.error (iteE_on OnwardE.error (OnwardE.ok
      (ok_on (modNs_on h)))))))
theorem execFormatNvm_on (a : Admin) : Runs σ (execFormatNvm a s) := by
  unfold execFormatNvm
  exact runAdmin_on hon (fun _ h => orFail_on (iteE_on OnwardE.error (iteE_on OnwardE.error (iteE_on OnwardE.error (iteE_on OnwardE.error
    (OnwardE.ok (putProgress_on (foldl_on h (fun _ _ h1 => modNs_on h1)))))))))
theorem execSanitizeBlockErase_on (a : Admin) : Runs σ (execSanitizeBlockErase a s) := by
  unfold execSanitizeBlockErase
  exact iteR_on (Runs.next hon) (runAdmin_on hon (fun _ h => iteE_on OnwardE.error (beginSanitize_on h)))
theorem execSanitizeCryptoErase_on (a : Admin) : Runs σ (execSanitizeCryptoErase a s) := by
  unfold execSanitizeCryptoErase
  exact iteR_on (Runs.next hon) (runAdmin_on hon (fun _ h => beginSanitize_on h))
theorem execFormatSanitizeEnd_on (fn : Nat) (ok_ : Bool) : Runs σ (execFormatSanitizeEnd fn ok_ s) := by
  unfold execFormatSanitizeEnd
  refine Runs.next ?_
  split
  · exact hon
  · refine ite_on hon ?_
    dsimp only
    split
    · exact post_on (putProgress_on (ite_on (ite_on (foldl_on hon (fun _ _ h2 => modNs_on h2)) hon) (ite_on (endFormat_on hon) (ite_on
        (sanitizeAll_on hon) (newKeys_on (sanitizeAll_on hon))))))
    · exact putProgress_on (ite_on (ite_on (foldl_on hon (fun _ _ h4 => modNs_on h4)) hon) (ite_on (endFormat_on hon) (ite_on
        (sanitizeAll_on hon) (newKeys_on (sanitizeAll_on hon)))))

/-! ### Admin -/

theorem execCreateIoCompletionQueue_on (a : Admin) : Runs σ (execCreateIoCompletionQueue a s) := by
  unfold execCreateIoCompletionQueue
  exact runAdmin_on hon fun _ h => iteE_on OnwardE.error (iteE_on OnwardE.error (iteE_on OnwardE.error (iteE_on OnwardE.error (OnwardE.ok
    (ok_on (modQ_on h))))))
theorem execCreateIoSubmissionQueue_on (a : Admin) : Runs σ (execCreateIoSubmissionQueue a s) := by
  unfold execCreateIoSubmissionQueue
  exact runAdmin_on hon fun _ h => iteE_on OnwardE.error (iteE_on OnwardE.error (iteE_on OnwardE.error (iteE_on OnwardE.error (OnwardE.ok
    (ok_on (modQ_on h))))))
theorem execDeleteIoCompletionQueue_on (a : Admin) : Runs σ (execDeleteIoCompletionQueue a s) := by
  unfold execDeleteIoCompletionQueue
  exact runAdmin_on hon fun _ h => iteE_on OnwardE.error (iteE_on OnwardE.error (OnwardE.ok (ok_on (modQ_on h))))
theorem execDeleteIoSubmissionQueue_on (a : Admin) : Runs σ (execDeleteIoSubmissionQueue a s) := by
  unfold execDeleteIoSubmissionQueue
  exact runAdmin_on hon (fun _ h => iteE_on OnwardE.error (OnwardE.ok (deleteCheck_on (foldl_on (foldl_on (abortNvm_on (modSq_on h)) (fun
    _ _ h1 => modCmd_on h1)) (fun _ _ h2 => settle_on h2)))))
theorem execAbort_on (a : Admin) : Runs σ (execAbort a s) := by
  unfold execAbort
  exact runAdmin_on hon fun _ h => iteE_on (OnwardE.ok (ok_on (refuse_on (modFls_on h rfl rfl)))) (iteE_on (OnwardE.ok (ok_on (refuse_on
    (dropReads_on h)))) (OnwardE.ok (ok_on h)))
theorem execGetLogPage_on (a : Admin) : Runs σ (execGetLogPage a s) := by
  unfold execGetLogPage
  refine runAdmin_on hon fun _ h => iteE_on OnwardE.error ?_
  split
  · exact OnwardE.error
  · next p s1 hpage =>
    have h1 : Onward σ s1 := (logPage_on h).get hpage
    exact OnwardE.ok (ok_on (ite_on (ite_on (clearRing_on (writeT2_on h1)) (writeT2_on h1))
      (unmaskEvents_on (ite_on (clearRing_on (writeT2_on h1)) (writeT2_on h1)))))
theorem execIdentify_on (a : Admin) : Runs σ (execIdentify a s) := by
  unfold execIdentify
  refine runAdmin_on hon fun _ h => ?_
  split
  · exact OnwardE.error
  · exact OnwardE.ok (ok_on (writeT2_on h))
theorem execSetFeatures_on (a : Admin) : Runs σ (execSetFeatures a s) := by
  unfold execSetFeatures
  refine iteR_on (Runs.next hon) (runAdmin_on hon (fun _ h => orFail_on ?_))
  split
  · exact OnwardE.error
  · exact setStandard_on h
theorem execSetFeaturesPowerManagement_on (a : Admin) : Runs σ (execSetFeaturesPowerManagement a s) := by
  unfold execSetFeaturesPowerManagement
  exact iteR_on (Runs.next hon) (runAdmin_on hon (fun _ h => orFail_on (iteE_on OnwardE.error (OnwardE.ok (ok_on (modPwr_on h))))))
theorem execSetFeaturesPasidBinding_on (a : Admin) : Runs σ (execSetFeaturesPasidBinding a s) := by
  unfold execSetFeaturesPasidBinding
  exact iteR_on (Runs.next hon) (runAdmin_on hon (fun _ h => orFail_on (iteE_on OnwardE.error (OnwardE.ok (ok_on (modSq_on h))))))
theorem execSetFeaturesSpareThreshold_on (a : Admin) : Runs σ (execSetFeaturesSpareThreshold a s) := by
  unfold execSetFeaturesSpareThreshold
  exact iteR_on (Runs.next hon) (runAdmin_on hon (fun _ h => orFail_on (iteE_on OnwardE.error (OnwardE.ok (ok_on (modQ_on h))))))
theorem execGetFeatures_on (a : Admin) : Runs σ (execGetFeatures a s) := by
  unfold execGetFeatures
  refine runAdmin_on hon fun _ h => iteE_on OnwardE.error ?_
  split
  · exact OnwardE.error
  · exact OnwardE.ok (ok_on (ite_on h (writeT2_on h)))
theorem execAsynchronousEventRequest_on (a : Admin) : Runs σ (execAsynchronousEventRequest a s) := by
  unfold execAsynchronousEventRequest
  exact runAdmin_on hon fun _ h => OnwardE.ok (aenPump_on (modQ_on h))
theorem execVirtualizationManagement_on (a : Admin) : Runs σ (execVirtualizationManagement a s) := by
  unfold execVirtualizationManagement
  refine runAdmin_on hon fun _ h => iteE_on OnwardE.error (iteE_on (iteE_on OnwardE.error (iteE_on OnwardE.error (iteE_on OnwardE.error
    (OnwardE.ok (ok_on (modFn_on h)))))) (iteE_on OnwardE.error ?_))
  split
  · exact OnwardE.error
  · exact iteE_on (assignResources_on h) (iteE_on (OnwardE.ok (ok_on (modFn_on (stopController_on h)))) (iteE_on OnwardE.error (OnwardE.ok
      (ok_on (modFn_on h)))))

/-! ### Generate -/

theorem execGenerate_on (e : Entry) : Runs σ (execGenerate e s) := by
  unfold execGenerate
  refine runMilris_on hon fun _ h => ?_
  dsimp only
  split
  · exact OnwardE.error
  · split
    · exact OnwardE.error
    · split
      · exact OnwardE.error
      · exact OnwardE.ok (admitGenerate_on h)
theorem execSequenceAdmission_on (dome : Nat) : Runs σ (execSequenceAdmission dome s) := by
  unfold execSequenceAdmission
  refine Runs.next (ite_on hon ?_)
  split
  · exact hon
  · exact admitSeq_on hon
theorem execSelection_on (t : TaskRef) (op row : Nat) : Runs σ (execSelection t op row s) := by
  unfold execSelection
  exact Runs.next (onRow_on hon (fun _ _ _ _ _ h => ite_on (failTask_on (ctrPart_on h)) (ite_on (routeRow_on h) (sampleRow_on h))))
theorem execDecodeStep_on (dome model : Nat) : Runs σ (execDecodeStep dome model s) := by
  unfold execDecodeStep
  refine Runs.next (ite_on hon ?_)
  split
  · exact hon
  · exact beginFirstFill_on (feedPass_on (enrol_on (lastTokens_on hon)))
theorem execKvBlockFreed_on (pool : Nat) : Runs σ (execKvBlockFreed pool s) := by
  unfold execKvBlockFreed
  refine Runs.next ?_
  split
  · exact hon
  · exact takeBlocks_on hon
theorem execKvPoolFailure_on (pool : Nat) : Runs σ (execKvPoolFailure pool s) := by
  unfold execKvPoolFailure
  refine Runs.next (ite_on hon ?_)
  split
  · exact hon
  · exact failWhole_on (ctrPart_on hon)
theorem execRandomSourceHealthFailure_on : Runs σ (execRandomSourceHealthFailure s) := by
  unfold execRandomSourceHealthFailure
  exact Runs.next (ite_on hon (ctrAdd_on (raise_on (reportCor_on (modInf_on hon)))))
theorem execRandomSourceReseed_on : Runs σ (execRandomSourceReseed s) := by
  unfold execRandomSourceReseed
  exact Runs.next (modInf_on hon)

/-! ### Streams -/

theorem execStreamChunkWrite_on (t : TaskRef) (stream : Nat) (bytes : List Byte) : Runs σ (execStreamChunkWrite t stream bytes s) := by
  unfold execStreamChunkWrite
  refine Runs.next ?_
  split
  · refine ite_on hon ?_
    split
    · next h1 => exact (chunkRoom_on hon).get h1
    · exact putStream_on (endWait_on hon)
  · exact hon
theorem execStreamChunkRead_on (t : TaskRef) (stream : Nat) : Runs σ (execStreamChunkRead t stream s) := by
  unfold execStreamChunkRead
  refine Runs.next ?_
  split
  · refine ite_on hon ?_
    split
    · next h => exact takeChunk_error hon h
    · next h => exact endWait_on (takeChunk_ok hon h)
  · exact hon
theorem execTransferChunkDelivered_on (t : TaskRef) (desc : List Byte) (ends : XferEnds) (path : ChunkPath) (tenths : Nat) : Runs σ
  (execTransferChunkDelivered t desc ends path tenths s) := by
  unfold execTransferChunkDelivered
  refine Runs.next ?_
  split
  · exact hon
  · split
    · exact hon
    · dsimp only
      split
      · exact failTask_on hon
      · refine ite_on hon ?_
        split
        · exact transferFault_on hon
        · split
          · exact failTask_on hon
          · split
            · exact sendChunk_on hon
            · exact ite_on (pageMissing_on hon) hon
            · exact ite_on (failTask_on (setChannel_on hon)) hon
theorem execPageRequestResponse_on (t : TaskRef) (p : PriResponse) : Runs σ (execPageRequestResponse t p s) := by
  unfold execPageRequestResponse
  refine Runs.next ?_
  split
  · exact ite_on (modFn_on hon) hon
  · dsimp only
    split
    · exact endWait_on (setChannel_on (modFn_on hon))
    · exact transferFault_on (modFn_on hon)
    · exact transferFault_on (modFn_on hon)

/-! ### Security -/

theorem execDoeDiscovery_on (d : DoeReq) : Runs σ (execDoeDiscovery d s) := by
  unfold execDoeDiscovery
  exact Runs.next (ite_on hon (doeSend_on hon))
theorem execGetVersion_on (d : DoeReq) : Runs σ (execGetVersion d s) := by
  unfold execGetVersion
  exact Runs.next (ite_on hon (ite_on (spdmError_on hon) (ite_on (spdmError_on hon) (doeSend_on (modSec_on hon rfl rfl rfl)))))
theorem execGetCapabilities_on (d : DoeReq) : Runs σ (execGetCapabilities d s) := by
  unfold execGetCapabilities
  exact spdm_on hon (staged_on hon (doeSend_on (modSec_on hon rfl rfl rfl)))
theorem execNegotiateAlgorithms_on (d : DoeReq) : Runs σ (execNegotiateAlgorithms d s) := by
  unfold execNegotiateAlgorithms
  exact spdm_on hon (staged_on hon (ite_on (spdmError_on hon) (doeSend_on (modSec_on hon rfl rfl rfl))))
theorem execGetDigests_on (d : DoeReq) : Runs σ (execGetDigests d s) := by
  unfold execGetDigests
  exact spdm_on hon (staged_on hon (doeSend_on (modSec_on hon rfl rfl rfl)))
theorem execGetCertificate_on (d : DoeReq) : Runs σ (execGetCertificate d s) := by
  unfold execGetCertificate
  exact spdm_on hon (staged_on hon (ite_on (spdmError_on hon) (doeSend_on (modSec_on hon rfl rfl rfl))))
theorem execChallenge_on (d : DoeReq) : Runs σ (execChallenge d s) := by
  unfold execChallenge
  exact spdm_on hon (staged_on hon (ite_on (spdmError_on hon) (doeSend_on (modSec_on (signed_on (randomBytes_on hon)) rfl rfl rfl))))
theorem execGetMeasurements_on (d : DoeReq) : Runs σ (execGetMeasurements d s) := by
  unfold execGetMeasurements
  exact spdm_on hon (staged_on hon (ite_on (spdmError_on hon) (doeSend_on (modSec_on (signed_on (randomBytes_on hon)) rfl rfl rfl))))
theorem execKeyExchange_on (d : DoeReq) : Runs σ (execKeyExchange d s) := by
  unfold execKeyExchange
  exact spdm_on hon (staged_on hon (ite_on (spdmError_on hon) (ite_on (spdmError_on hon) (doeSend_on (modSec_on (randomBytes_on (signed_on
    (randomBytes_on hon))) rfl rfl rfl)))))
theorem execFinish_on (d : DoeReq) : Runs σ (execFinish d s) := by
  unfold execFinish
  refine spdm_on hon ?_
  split
  · exact spdmError_on hon
  · exact ite_on (spdmError_on hon) (doeSend_on (modSec_on hon rfl rfl rfl))
theorem execEndSession_on (d : DoeReq) : Runs σ (execEndSession d s) := by
  unfold execEndSession
  refine spdm_on hon ?_
  split
  · exact spdmError_on hon
  · exact ite_on (spdmError_on hon) (doeSend_on (modSec_on hon rfl rfl rfl))
theorem execLoadTenantKey_on (d : DoeReq) : Runs σ (execLoadTenantKey d s) := by
  unfold execLoadTenantKey
  refine vendorMessage_on hon (ite_on (vendorAnswer_on hon) ?_)
  split
  · exact vendorAnswer_on hon
  · exact vendorAnswer_on (modSec_on hon rfl rfl rfl)
theorem execUnloadTenantKey_on (d : DoeReq) : Runs σ (execUnloadTenantKey d s) := by
  unfold execUnloadTenantKey
  exact vendorMessage_on hon (ite_on (vendorAnswer_on hon) (ite_on (vendorAnswer_on hon) (vendorAnswer_on (modSec_on hon rfl rfl rfl))))
theorem execFuseObservationOff_on (d : DoeReq) : Runs σ (execFuseObservationOff d s) := by
  unfold execFuseObservationOff
  exact vendorMessage_on hon (ite_on (vendorAnswer_on hon) (ite_on (vendorAnswer_on hon) (vendorAnswer_on (lanternDark_on (burnFuse_on
    hon)))))
theorem execKeyProg_on (session : Option Nat) (k : IdeKey) : Runs σ (execKeyProg session k s) := by
  unfold execKeyProg
  exact ideKm_on hon (ideAck_on (putIde_on hon))
theorem execKSetGo_on (session : Option Nat) (k : IdeKey) : Runs σ (execKSetGo session k s) := by
  unfold execKSetGo
  exact ideKm_on hon (ite_on (ideAck_on hon) (ite_on (postHeld_on (ideAck_on (putIde_on hon))) (ideAck_on (putIde_on hon))))
theorem execKSetStop_on (session : Option Nat) (k : IdeKey) : Runs σ (execKSetStop session k s) := by
  unfold execKSetStop
  exact ideKm_on hon (ideAck_on (putIde_on hon))
theorem execIdeStreamInsecure_on (stream : Nat) : Runs σ (execIdeStreamInsecure stream s) := by
  unfold execIdeStreamInsecure
  exact Runs.next (ite_on hon (reportAer_on (putIde_on hon)))

/-! ### Registers -/

theorem execSqTailDoorbell_on (fn sq : Nat) (value : DWord) : Runs σ (execSqTailDoorbell fn sq value s) := by
  unfold execSqTailDoorbell
  refine Runs.next (ite_on hon ?_)
  split
  · exact badDoorbell_on hon
  · exact ite_on (badDoorbell_on hon) (modSq_on hon)
theorem execCqHeadDoorbell_on (fn cq : Nat) (value : DWord) : Runs σ (execCqHeadDoorbell fn cq value s) := by
  unfold execCqHeadDoorbell
  refine Runs.next (ite_on hon ?_)
  split
  · exact badDoorbell_on hon
  · exact ite_on (badDoorbell_on hon) (foldl_on (modCq_on hon) (fun _ _ h1 => postNow_on h1))
theorem execCommandFetch_on (fn sq : Nat) (unsupported : Option (Nat × Nat)) : Runs σ (execCommandFetch fn sq unsupported s) := by
  unfold execCommandFetch
  refine Runs.next ?_
  split
  · exact hon
  · refine ite_on hon ?_
    split
    · exact fetch_on hon
    · exact ite_on (fetch_on hon) (refuse_on (begun_on (fetch_on hon)))
theorem execHbeatWrite_on (w : RegWrite) (us : Nat) : Runs σ (execHbeatWrite w us s) := by
  unfold execHbeatWrite
  exact Runs.next (ite_on (foldl_on hon (fun _ _ h => writeBeat_on h)) hon)
theorem execRegisterWrite_on (w : RegWrite) : Runs σ (execRegisterWrite w s) := by
  unfold execRegisterWrite
  exact Runs.next (ite_on (foldl_on hon (fun _ _ h => writeConfig_on h)) (ite_on hon (ite_on (ite_on (writeCc_on hon) (foldl_on hon (fun _
    _ h1 => writeBar0_on h1))) (ite_on (ite_on hon (foldl_on hon (fun _ _ h2 => writeBar2_on h2))) hon))))

/-! ### Tune -/

theorem execTune_on (e : Entry) : Runs σ (execTune e s) := by
  unfold execTune
  refine runMilris_on hon fun _ h => ?_
  dsimp only
  split
  · exact OnwardE.error
  · split
    · exact OnwardE.error
    · split
      · exact OnwardE.error
      · next h3 => exact OnwardE.ok (admitTune_on ((quotaOr_on (take_on h)).get h3))

/-! ### Boundary -/

theorem execTickBoundary_on (powerW extraDemand : Nat) : Runs σ (execTickBoundary powerW extraDemand s) := by
  unfold execTickBoundary
  refine Runs.next ?_
  split
  · exact boundaryNow_on (countTick_on (finishBoundary_on hon))
  · exact boundaryNow_on (countTick_on (finishBoundary_on hon))
  · exact boundaryNow_on (countTick_on (finishBoundary_on hon))
  · exact countTick_on hon
  · exact countTick_on hon
  · exact hon
theorem execImageTakesEffect_on : Runs σ (execImageTakesEffect s) := by
  unfold execImageTakesEffect
  exact Runs.next (ite_on (heartbeatStep_on (middleSteps_on (changeNow_on hon))) hon)
theorem execDissolveTakesEffect_on : Runs σ (execDissolveTakesEffect s) := by
  unfold execDissolveTakesEffect
  exact Runs.next (ite_on (heartbeatStep_on (middleSteps_on (changeNow_on hon))) hon)
theorem execFenceTakesEffect_on (c : Nat) : Runs σ (execFenceTakesEffect c s) := by
  unfold execFenceTakesEffect
  refine Runs.next ?_
  split
  · exact ite_on (heartbeatStep_on (middleSteps_on (fenceNow_on hon))) hon
  · exact hon
theorem execUnfenceTakesEffect_on (c : Nat) : Runs σ (execUnfenceTakesEffect c s) := by
  unfold execUnfenceTakesEffect
  refine Runs.next ?_
  split
  · exact ite_on (heartbeatStep_on (middleSteps_on (unfenceNow_on hon))) hon
  · exact hon
theorem execQuiesceStart_on : Runs σ (execQuiesceStart s) := by
  unfold execQuiesceStart
  exact Runs.next (ite_on (tuneStep_on (quiesceNow_on hon)) hon)
theorem execHoldLimitExpiry_on : Runs σ (execHoldLimitExpiry s) := by
  unfold execHoldLimitExpiry
  exact Runs.next (ite_on (tuneStep_on (holdNow_on hon)) hon)
theorem execTuneCommit_on (src : Src) : Runs σ (execTuneCommit src s) := by
  unfold execTuneCommit
  exact Runs.next (ite_on (tuneStep_on (tuneCommitNow_on hon)) hon)

/-! ### Embed -/

theorem execEmbed_on (e : Entry) : Runs σ (execEmbed e s) := by
  unfold execEmbed
  refine iteR_on (Runs.next hon) (runMilris_on hon (fun _ h => ?_))
  split
  · exact OnwardE.error
  · split
    · exact OnwardE.error
    · exact OnwardE.ok (admitEmbed_on h)
theorem execEmbedArm_on (e : Entry) : Runs σ (execEmbedArm e s) := by
  unfold execEmbedArm
  refine iteR_on (Runs.next hon) (runMilris_on hon (fun _ h => ?_))
  dsimp only
  split
  · exact OnwardE.error
  · split
    · exact OnwardE.error
    · split
      · exact OnwardE.error
      · exact OnwardE.ok (ok_on (modInf_on h))
theorem execEmbedDisarm_on (e : Entry) : Runs σ (execEmbedDisarm e s) := by
  unfold execEmbedDisarm
  exact iteR_on (Runs.next hon) (runMilris_on hon (fun _ h => iteE_on OnwardE.error (iteE_on (OnwardE.ok (ok_on (modInf_on h)))
    OnwardE.error)))
theorem execIngestTrigger_on (part arm : Nat) : Runs σ (execIngestTrigger part arm s) := by
  unfold execIngestTrigger
  refine Runs.next ?_
  split
  · exact hon
  · refine ite_on hon ?_
    split
    · exact ingestFailed_on hon
    · split
      · exact ingestFailed_on hon
      · exact admitIngest_on hon

/-! ### Merge -/

theorem execMergeTopK_on (e : Entry) : Runs σ (execMergeTopK e s) := by
  unfold execMergeTopK
  exact iteR_on (Runs.next hon) (runMilris_on hon (fun _ h => runMerge_on h))
theorem execMergeAggregates_on (e : Entry) : Runs σ (execMergeAggregates e s) := by
  unfold execMergeAggregates
  exact iteR_on (Runs.next hon) (runMilris_on hon (fun _ h => runMerge_on h))
theorem execMergeReductionSum_on (e : Entry) : Runs σ (execMergeReductionSum e s) := by
  unfold execMergeReductionSum
  exact iteR_on (Runs.next hon) (runMilris_on hon (fun _ h => runMerge_on h))
theorem execMergeReadyNoticeFound_on (src : Src) : Runs σ (execMergeReadyNoticeFound src s) := by
  unfold execMergeReadyNoticeFound
  refine Runs.next ?_
  split
  · exact hon
  · refine ite_on hon ?_
    split
    · exact mergeFails_on hon
    · exact ctrAdd_on (modMerge_on (sendPeer_on (sendPeer_on hon)))
theorem execMergePayloadReceived_on (src : Src) : Runs σ (execMergePayloadReceived src s) := by
  unfold execMergePayloadReceived
  refine Runs.next ?_
  split
  · refine ite_on hon (ite_on (mergeFails_on hon) ?_)
    split
    · exact failWhole_on hon
    · next s1 hmerged =>
      have h1 : Onward σ s1 := (mergedPayload_on hon).get hmerged
      exact ite_on (endMerge_on (ctrPart_on (ctrAdd_on (disarm_on (modMerge_on h1))))) (ctrAdd_on (disarm_on (modMerge_on h1)))
  · exact hon
theorem execMergeReadbackComplete_on (src : Src) (r : ReadBack) : Runs σ (execMergeReadbackComplete src r s) := by
  unfold execMergeReadbackComplete
  refine Runs.next ?_
  split
  · exact hon
  · exact ite_on hon (readBackEnds_on hon)
theorem execPeerWindowWrite_on (w : PeerWrite) : Runs σ (execPeerWindowWrite w s) := by
  unfold execPeerWindowWrite
  refine Runs.next (ite_on hon (ite_on (modMrg_on hon) ?_))
  dsimp only
  split
  · exact stray_on hon
  · exact ite_on (stray_on hon) (ite_on (stray_on hon) (modMrg_on hon))
theorem execCompletionTimeout_on (t : TaskRef) : Runs σ (execCompletionTimeout t s) := by
  unfold execCompletionTimeout
  refine Runs.next ?_
  split
  · exact ite_on hon (readBackEnds_on hon)
  · split
    · dsimp only
      split
      · exact hon
      · exact ite_on hon (reportAer_on (transferFault_on hon))
    · exact hon

/-! ### Mgmt -/

theorem execSmbusTimeoutReset_on : Runs σ (execSmbusTimeoutReset s) := by
  unfold execSmbusTimeoutReset
  exact Runs.next (modMgt_on hon)
theorem execBasicManagementCommand_on (m : MiReq) : Runs σ (execBasicManagementCommand m s) := by
  unfold execBasicManagementCommand
  exact Runs.next (ite_on hon (smbusSend_on hon))
theorem execVpdRead_on (m : MiReq) : Runs σ (execVpdRead m s) := by
  unfold execVpdRead
  exact Runs.next (ite_on (smbusSend_on hon) (ite_on (ite_on (miAnswer_on hon) (miAnswer_on hon)) hon))
theorem execReadNvmeMiDataStructure_on (m : MiReq) : Runs σ (execReadNvmeMiDataStructure m s) := by
  unfold execReadNvmeMiDataStructure
  refine Runs.next (ite_on hon (ite_on (miAnswer_on hon) (ite_on (miAnswer_on hon) (ite_on (miAnswer_on hon) (ite_on (miAnswer_on hon)
    (ite_on (miAnswer_on hon) (ite_on ?_ (ite_on (miAnswer_on hon) (miAnswer_on hon)))))))))
  split
  · exact miAnswer_on hon
  · exact miAnswer_on hon
theorem execNvmSubsystemHealthStatusPoll_on (m : MiReq) : Runs σ (execNvmSubsystemHealthStatusPoll m s) := by
  unfold execNvmSubsystemHealthStatusPoll
  exact miCommand_on hon (miAnswer_on hon)
theorem execControllerHealthStatusPoll_on (m : MiReq) : Runs σ (execControllerHealthStatusPoll m s) := by
  unfold execControllerHealthStatusPoll
  exact miCommand_on hon (miAnswer_on hon)
theorem execConfigurationGet_on (m : MiReq) : Runs σ (execConfigurationGet m s) := by
  unfold execConfigurationGet
  exact miCommand_on hon (ite_on (miAnswer_on hon) (ite_on (miAnswer_on hon) (miAnswer_on hon)))
theorem execConfigurationSet_on (m : MiReq) : Runs σ (execConfigurationSet m s) := by
  unfold execConfigurationSet
  exact miCommand_on hon (ite_on (miAnswer_on (modMgt_on hon)) (ite_on (miAnswer_on (modMgt_on hon)) (miAnswer_on hon)))
theorem execTunnelledAdminCommand_on (m : MiReq) : Runs σ (execTunnelledAdminCommand m s) := by
  unfold execTunnelledAdminCommand
  refine Runs.next (ite_on hon (ite_on (miAnswer_on hon) ?_))
  split
  · exact miAnswer_on hon
  · split
    · exact miAnswer_on hon
    · next t htunnelled =>
      have h1 : Onward σ t := (tunnelled_on hon).get htunnelled
      exact miAnswer_on h1

/-! ### Scan -/

theorem execFilterScan_on (e : Entry) : Runs σ (execFilterScan e s) := by
  unfold execFilterScan
  refine runMilris_on hon fun _ h => iteE_on OnwardE.error (orFail_on (iteE_on OnwardE.error ?_))
  split
  · exact OnwardE.error
  · exact OnwardE.ok (admitScan_on h)
theorem execScanEngineSlotFree_on (group : Nat) : Runs σ (execScanEngineSlotFree group s) := by
  unfold execScanEngineSlotFree
  refine Runs.next ?_
  split
  · exact hon
  · exact ite_on (modPart_on hon) hon
theorem execFilterEnginePage_on (src : Src) (group page block : Nat) (r : ReadEnd) : Runs σ (execFilterEnginePage src group page block r
  s) := by
  unfold execFilterEnginePage
  refine Runs.next ?_
  split
  · split
    · exact hon
    · exact ite_on hon (ite_on (ctrPart_on (modPart_on (countEngine_on (modScan_on (ctrPart_on (countClass_on (readBlock_on (readEnd_on
        (countRead_on hon))))))))) (ctrPart_on (ctrPart_on (ctrPart_on (modCmd_on (modPart_on (modScan_on (rowsOf_on (countEngine_on
        (modScan_on (ctrPart_on (countClass_on (readBlock_on (readEnd_on (countRead_on hon)))))))))))))))
  · exact hon

/-! ### TaskEnd -/

theorem execTaskEnd_on (t : TaskRef) (us : Nat) (x : TaskEnd) : Runs σ (execTaskEnd t us x s) := by
  unfold execTaskEnd
  exact Runs.next (resumeWalks_on (taskEnds_on hon))
theorem execTaskOverrunStop_on (t : TaskRef) (us : Nat) (inOperation : Bool) : Runs σ (execTaskOverrunStop t us inOperation s) := by
  unfold execTaskOverrunStop
  refine Runs.next ?_
  split
  · exact hon
  · exact ite_on hon (resumeWalks_on (startSavesOn_on (failTask_on (endLendings_on (taskPacket_on (ctrPart_on hon))))))
theorem execTilePassEnd_on (t : TaskRef) (op rowBlock laneBlock : Nat) (misses : List Nat) : Runs σ (execTilePassEnd t op rowBlock
  laneBlock misses s) := by
  unfold execTilePassEnd
  exact Runs.next (resumeWalks_on (tilePassEnd_on hon))

/-- Every command goes on, and onward. -/
theorem exec_on (c : Instr) : Runs σ (exec c s) :=
  match c with
  | .place e => execPlace_on hon e
  | .release e => execRelease_on hon e
  | .runPlan e => execRunPlan_on hon e
  | .filterScan e => execFilterScan_on hon e
  | .embed e => execEmbed_on hon e
  | .embedArm e => execEmbedArm_on hon e
  | .embedDisarm e => execEmbedDisarm_on hon e
  | .search e => execSearch_on hon e
  | .generate e => execGenerate_on hon e
  | .tune e => execTune_on hon e
  | .mergeTopK e => execMergeTopK_on hon e
  | .mergeAggregates e => execMergeAggregates_on hon e
  | .mergeReductionSum e => execMergeReductionSum_on hon e
  | .insert e => execInsert_on hon e
  | .delete e => execDelete_on hon e
  | .compact e => execCompact_on hon e
  | .loadStructure a => execLoadStructure_on hon a
  | .domeDissolve a => execDomeDissolve_on hon a
  | .domeBind a => execDomeBind_on hon a
  | .domeUnbind a => execDomeUnbind_on hon a
  | .queueResume a => execQueueResume_on hon a
  | .negotiate a us => execNegotiate_on hon a us
  | .reattachAdopt a us => execReattachAdopt_on hon a us
  | .reattachDiscard a us => execReattachDiscard_on hon a us
  | .serviceFence a => execServiceFence_on hon a
  | .serviceUnfence a => execServiceUnfence_on hon a
  | .retireDramChannelGroup a => execRetireDramChannelGroup_on hon a
  | .retireNandDie a => execRetireNandDie_on hon a
  | .recalibrateScales a => execRecalibrateScales_on hon a
  | .recalibrateReadLevels a => execRecalibrateReadLevels_on hon a
  | .testButtressBank a => execTestButtressBank_on hon a
  | .lanternDisable a => execLanternDisable_on hon a
  | .lanternEnable a => execLanternEnable_on hon a
  | .lanternSetSources a => execLanternSetSources_on hon a
  | .createIoSubmissionQueue a => execCreateIoSubmissionQueue_on hon a
  | .createIoCompletionQueue a => execCreateIoCompletionQueue_on hon a
  | .deleteIoSubmissionQueue a => execDeleteIoSubmissionQueue_on hon a
  | .deleteIoCompletionQueue a => execDeleteIoCompletionQueue_on hon a
  | .getLogPage a => execGetLogPage_on hon a
  | .identify a => execIdentify_on hon a
  | .abort a => execAbort_on hon a
  | .setFeatures a => execSetFeatures_on hon a
  | .setFeaturesPasidBinding a => execSetFeaturesPasidBinding_on hon a
  | .setFeaturesSpareThreshold a => execSetFeaturesSpareThreshold_on hon a
  | .setFeaturesPowerManagement a => execSetFeaturesPowerManagement_on hon a
  | .getFeatures a => execGetFeatures_on hon a
  | .asynchronousEventRequest a => execAsynchronousEventRequest_on hon a
  | .namespaceCreate a => execNamespaceCreate_on hon a
  | .namespaceDelete a => execNamespaceDelete_on hon a
  | .namespaceAttachment a => execNamespaceAttachment_on hon a
  | .virtualizationManagement a => execVirtualizationManagement_on hon a
  | .firmwareImageDownload a => execFirmwareImageDownload_on hon a
  | .firmwareCommitProgram a => execFirmwareCommitProgram_on hon a
  | .firmwareCommitNextReset a => execFirmwareCommitNextReset_on hon a
  | .firmwareCommitActivateExisting a => execFirmwareCommitActivateExisting_on hon a
  | .firmwareCommitLive a => execFirmwareCommitLive_on hon a
  | .firmwareCommitBootPartition a => execFirmwareCommitBootPartition_on hon a
  | .formatNvm a => execFormatNvm_on hon a
  | .sanitizeBlockErase a => execSanitizeBlockErase_on hon a
  | .sanitizeCryptoErase a => execSanitizeCryptoErase_on hon a
  | .formatSanitizeEnd fn ok => execFormatSanitizeEnd_on hon fn ok
  | .read n => execRead_on hon n
  | .write n => execWrite_on hon n
  | .flush n => execFlush_on hon n
  | .writeZeroes n => execWriteZeroes_on hon n
  | .datasetManagement n => execDatasetManagement_on hon n
  | .verify n => execVerify_on hon n
  | .sqTailDoorbell fn sq value => execSqTailDoorbell_on hon fn sq value
  | .cqHeadDoorbell fn cq value => execCqHeadDoorbell_on hon fn cq value
  | .commandFetch fn sq unsupported => execCommandFetch_on hon fn sq unsupported
  | .hbeatWrite w us => execHbeatWrite_on hon w us
  | .evpendWrite w => execEvpendWrite_on hon w
  | .evmaskWrite w => execEvmaskWrite_on hon w
  | .grpctlWrite w => execGrpctlWrite_on hon w
  | .edgecntRead fn size => execEdgecntRead_on hon fn size
  | .registerWrite w => execRegisterWrite_on hon w
  | .controllerEnable w => execControllerEnable_on hon w
  | .controllerReset w us => execControllerReset_on hon w us
  | .normalShutdown w => execNormalShutdown_on hon w
  | .abruptShutdown w => execAbruptShutdown_on hon w
  | .perstAssert ns => execPerstAssert_on hon ns
  | .perstDeassert t => execPerstDeassert_on hon t
  | .startupComplete t => execStartupComplete_on hon t
  | .auxPowerPresent => execAuxPowerPresent_on hon
  | .powerUp12v sense0Open sense1Open => execPowerUp12v_on hon sense0Open sense1Open
  | .conventionalReset t => execConventionalReset_on hon t
  | .functionLevelReset fn => execFunctionLevelReset_on hon fn
  | .dStateTransition fn d => execDStateTransition_on hon fn d
  | .tickBoundary powerW extraDemand => execTickBoundary_on hon powerW extraDemand
  | .imageTakesEffect => execImageTakesEffect_on hon
  | .dissolveTakesEffect => execDissolveTakesEffect_on hon
  | .fenceTakesEffect cluster => execFenceTakesEffect_on hon cluster
  | .unfenceTakesEffect cluster => execUnfenceTakesEffect_on hon cluster
  | .quiesceStart => execQuiesceStart_on hon
  | .holdLimitExpiry => execHoldLimitExpiry_on hon
  | .taskDispatch t us => execTaskDispatch_on hon t us
  | .domainWake domain => execDomainWake_on hon domain
  | .taskEnd t us r => execTaskEnd_on hon t us r
  | .taskOverrunStop t us inOperation => execTaskOverrunStop_on hon t us inOperation
  | .releaseWindowOpen part us => execReleaseWindowOpen_on hon part us
  | .saveStart part us => execSaveStart_on hon part us
  | .saveEnd part cluster us => execSaveEnd_on hon part cluster us
  | .restoreEnd part cluster us => execRestoreEnd_on hon part cluster us
  | .semaphoreAcquire t sem => execSemaphoreAcquire_on hon t sem
  | .semaphoreRelease t sem => execSemaphoreRelease_on hon t sem
  | .lendingStart sem us => execLendingStart_on hon sem us
  | .streamChunkWrite t stream bytes => execStreamChunkWrite_on hon t stream bytes
  | .streamChunkRead t stream => execStreamChunkRead_on hon t stream
  | .tilePassEnd t op rowBlock laneBlock misses => execTilePassEnd_on hon t op rowBlock laneBlock misses
  | .quantiseRow t op row => execQuantiseRow_on hon t op row
  | .selection t op row => execSelection_on hon t op row
  | .transferChunkDelivered t desc ends path tenths => execTransferChunkDelivered_on hon t desc ends path tenths
  | .pageRequestResponse t r => execPageRequestResponse_on hon t r
  | .pagingStart t => execPagingStart_on hon t
  | .pageInComplete object page r => execPageInComplete_on hon object page r
  | .layerFillEnd t cluster us => execLayerFillEnd_on hon t cluster us
  | .decodeStep dome model => execDecodeStep_on hon dome model
  | .sequenceAdmission dome => execSequenceAdmission_on hon dome
  | .kvBlockFreed pool => execKvBlockFreed_on hon pool
  | .kvPoolFailure pool => execKvPoolFailure_on hon pool
  | .ingestTrigger part arm => execIngestTrigger_on hon part arm
  | .tuneCommit src => execTuneCommit_on hon src
  | .randomSourceHealthFailure => execRandomSourceHealthFailure_on hon
  | .randomSourceReseed => execRandomSourceReseed_on hon
  | .watchWindowEnd slot => execWatchWindowEnd_on hon slot
  | .walkRecordArrival src walk slot block us r misses => execWalkRecordArrival_on hon src walk slot block us r misses
  | .indexCommit src => execIndexCommit_on hon src
  | .mergeReadyNoticeFound src => execMergeReadyNoticeFound_on hon src
  | .mergePayloadReceived src => execMergePayloadReceived_on hon src
  | .mergeReadbackComplete src r => execMergeReadbackComplete_on hon src r
  | .peerWindowWrite w => execPeerWindowWrite_on hon w
  | .completionTimeout t => execCompletionTimeout_on hon t
  | .filterEnginePage src group page block r => execFilterEnginePage_on hon src group page block r
  | .scanEngineSlotFree group => execScanEngineSlotFree_on hon group
  | .flashReadComplete block page r iterations updown => execFlashReadComplete_on hon block page r iterations updown
  | .blockRefreshQueued block => execBlockRefreshQueued_on hon block
  | .readLevelEvaluation bgroup => execReadLevelEvaluation_on hon bgroup
  | .destage nsid extent group members => execDestage_on hon nsid extent group members
  | .garbageCollection group target members => execGarbageCollection_on hon group target members
  | .refresh block target members => execRefresh_on hon block target members
  | .programFailure block target members => execProgramFailure_on hon block target members
  | .eraseFailure block => execEraseFailure_on hon block
  | .blockErase block => execBlockErase_on hon block
  | .eraseResume die => execEraseResume_on hon die
  | .blockVerify block badPages overLimit => execBlockVerify_on hon block badPages overLimit
  | .paritySpill group => execParitySpill_on hon group
  | .dieRetirementEnd die => execDieRetirementEnd_on hon die
  | .dieAutoRetire die => execDieAutoRetire_on hon die
  | .strongDecodeEnd d => execStrongDecodeEnd_on hon d
  | .scrubRead at_ received found => execScrubRead_on hon at_ received found
  | .dramMigrationEnd group => execDramMigrationEnd_on hon group
  | .packageStopsResponding package => execPackageStopsResponding_on hon package
  | .powerSample edgeMv auxMv powerW us => execPowerSample_on hon edgeMv auxMv powerW us
  | .supplyWarningBegin input mv => execSupplyWarningBegin_on hon input mv
  | .supplyWarningEnd input => execSupplyWarningEnd_on hon input
  | .supplyIsolation mv => execSupplyIsolation_on hon mv
  | .flushEnd => execFlushEnd_on hon
  | .flushStopped => execFlushStopped_on hon
  | .thermalLevelStep temp => execThermalLevelStep_on hon temp
  | .thermalEmergencyBegin temp => execThermalEmergencyBegin_on hon temp
  | .thermalEmergencyEnd => execThermalEmergencyEnd_on hon
  | .thermalShutdown => execThermalShutdown_on hon
  | .bandRetain band => execBandRetain_on hon band
  | .flashGroupGate group => execFlashGroupGate_on hon group
  | .dramSelfRefresh group => execDramSelfRefresh_on hon group
  | .fabricQuadrantGate quadrant => execFabricQuadrantGate_on hon quadrant
  | .bankMeasurementStart => execBankMeasurementStart_on hon
  | .bankDrawEnd stepMicroV deltaMicroV => execBankDrawEnd_on hon stepMicroV deltaMicroV
  | .bankRecharged => execBankRecharged_on hon
  | .writeCacheResized => execWriteCacheResized_on hon
  | .thermalTrimStep raw => execThermalTrimStep_on hon raw
  | .eventSourceRise source detail => execEventSourceRise_on hon source detail
  | .groupDelivery group us => execGroupDelivery_on hon group us
  | .holdoffEnd group us => execHoldoffEnd_on hon group us
  | .msixVectorUnmask fn vector => execMsixVectorUnmask_on hon fn vector
  | .activationBandSwap => execActivationBandSwap_on hon
  | .schedulerCoreSwap us => execSchedulerCoreSwap_on hon us
  | .keepSwap => execKeepSwap_on hon
  | .vaneSwap => execVaneSwap_on hon
  | .activationResume => execActivationResume_on hon
  | .lanternAttach => execLanternAttach_on hon
  | .lanternDetach => execLanternDetach_on hon
  | .lanternPacketSend lane => execLanternPacketSend_on hon lane
  | .smbusTimeoutReset => execSmbusTimeoutReset_on hon
  | .basicManagementCommand m => execBasicManagementCommand_on hon m
  | .vpdRead m => execVpdRead_on hon m
  | .readNvmeMiDataStructure m => execReadNvmeMiDataStructure_on hon m
  | .nvmSubsystemHealthStatusPoll m => execNvmSubsystemHealthStatusPoll_on hon m
  | .controllerHealthStatusPoll m => execControllerHealthStatusPoll_on hon m
  | .configurationGet m => execConfigurationGet_on hon m
  | .configurationSet m => execConfigurationSet_on hon m
  | .tunnelledAdminCommand m => execTunnelledAdminCommand_on hon m
  | .doeDiscovery d => execDoeDiscovery_on hon d
  | .getVersion d => execGetVersion_on hon d
  | .getCapabilities d => execGetCapabilities_on hon d
  | .negotiateAlgorithms d => execNegotiateAlgorithms_on hon d
  | .getDigests d => execGetDigests_on hon d
  | .getCertificate d => execGetCertificate_on hon d
  | .challenge d => execChallenge_on hon d
  | .getMeasurements d => execGetMeasurements_on hon d
  | .keyExchange d => execKeyExchange_on hon d
  | .finish d => execFinish_on hon d
  | .endSession d => execEndSession_on hon d
  | .loadTenantKey d => execLoadTenantKey_on hon d
  | .unloadTenantKey d => execUnloadTenantKey_on hon d
  | .fuseObservationOff d => execFuseObservationOff_on hon d
  | .keyProg session k => execKeyProg_on hon session k
  | .kSetGo session k => execKSetGo_on hon session k
  | .kSetStop session k => execKSetStop_on hon session k
  | .ideStreamInsecure stream => execIdeStreamInsecure_on hon stream
  | .powerRemoved => execPowerRemoved_on hon
  | .aspmL1Entry => execAspmL1Entry_on hon
  | .l0pWidthChange width => execL0pWidthChange_on hon width
  | .eraseComplete block => execEraseComplete_on hon block
  | .nandProgramComplete group pages => execNandProgramComplete_on hon group pages
  | .codeFlashProgramEnd readBackOk => execCodeFlashProgramEnd_on hon readBackOk

end Commands

/-- Settles O44: one lemma for each command. -/
theorem nothingIsUndone : Obligations.NothingIsUndone := by
  unfold Obligations.NothingIsUndone
  exact fun c s => exec_on Onward.rfl c

end Sys2Proof.Machine

/-! # The queue, one step, and the state after reset (log 1; 18 R488; 12 R374) -/

namespace Sys2Proof.Machine

theorem step_idle {s : State} (hempty : s.pending = []) : step s = .next s := by
  rw [step, hempty]

theorem step_front {c : Instr} {rest : List Instr} {s : State} (hfront : s.pending = c :: rest) :
    step s = exec c { s with pending := rest } := by
  rw [step, hfront]

/-- What goes onward keeps the invariant. -/
theorem Onward.stateInv {s t : State} (h : Onward s t) (hinv : StateInv s) : StateInv t := by
  obtain ⟨hpending, -, -, -, hfloor, -, hspares⟩ := h
  obtain ⟨hwf, hle, hro⟩ := hinv
  exact ⟨hpending ▸ hwf, hfloor hle, hspares hro⟩

theorem StateInv.tail {c : Instr} {rest : List Instr} {s : State} (hfront : s.pending = c :: rest) (hinv : StateInv s) :
    StateInv { s with pending := rest } := by
  obtain ⟨hwf, hle, hro⟩ := hinv
  exact ⟨fun d hd => hwf d (hfront ▸ List.mem_cons_of_mem c hd), hle, hro⟩

/-- Settles O45: an idle step changes nothing, and any other step goes onward from the queue's rest. -/
theorem stepKeepsInvariant : Obligations.StepKeepsInvariant := by
  unfold Obligations.StepKeepsInvariant
  intro s hinv
  cases hqueue : s.pending with
  | nil => exact ⟨s, step_idle hqueue, hinv⟩
  | cons c rest =>
    obtain ⟨t, hexec, honward⟩ := nothingIsUndone c { s with pending := rest }
    exact ⟨t, (step_front hqueue).trans hexec, honward.stateInv (hinv.tail hqueue)⟩

/-- Settles O1. -/
theorem stepRunsFrontCommand : Obligations.StepRunsFrontCommand := by
  unfold Obligations.StepRunsFrontCommand
  exact fun c rest s => ⟨step_front rfl, step_idle rfl⟩

/-- At reset nothing waits, no fuse of the floor is burned and the spares are there. -/
theorem reset_stateInv : StateInv State.reset :=
  ⟨fun _ hc => absurd hc List.not_mem_nil, Nat.zero_le _, fun hnone => absurd hnone (by decide)⟩

/-- Settles O46. -/
theorem resetHasInvariant : Obligations.ResetHasInvariant := by
  unfold Obligations.ResetHasInvariant
  exact ⟨reset_stateInv, rfl, rfl, rfl, rfl, by decide, rfl⟩

end Sys2Proof.Machine

/-! # Quotas on the path (02 R46; 13 R397)

A charge changes the list of charges alone, and the use of a dome is a sum over that list: a charge on a dome below it in the tier adds its
bytes, any other adds nothing. -/

namespace Sys2Proof.Machine

theorem sumN_eq_sum (l : List Nat) : sumN l = l.sum := List.sum_eq_foldl.symm

section Charge

variable (owner : Owner) (tier d bytes : Nat) (s : State)

theorem charge_str : (charge owner tier d bytes s).str = s.str := by
  unfold charge
  split <;> rfl

theorem charge_path (a : Nat) : (charge owner tier d bytes s).path a = s.path a := by
  rw [State.path, State.path, charge_str]

theorem charge_under (a b : Nat) : (charge owner tier d bytes s).under a b = s.under a b := by
  rw [State.under, State.under, charge_path]

/-- What a charge adds to the use of a dome in a tier. -/
theorem used_charge (a n : Nat) :
    (charge owner tier d bytes s).used a n = s.used a n + if n = tier ∧ a ∈ s.path d then bytes else 0 := by
  have hunder : (s.under d a = true) = (a ∈ s.path d) := by rw [State.under, List.contains_iff_mem]
  unfold State.used
  simp only [charge_under]
  unfold charge
  split
  · next hzero => simp [hzero]
  · rw [State.modObj_obj, List.filter_append, List.map_append, sumN_eq_sum, sumN_eq_sum, List.sum_append]
    congr 1
    simp only [List.filter_cons, List.filter_nil, Bool.and_eq_true, beq_iff_eq, hunder, eq_comm (a := tier)]
    split <;> simp

end Charge

/-- Where no dome blocks an allocation, each dome of its path has room for it. -/
theorem used_add_le_quota_of_not_blocked {s : State} {d tier bytes : Nat} (hfree : s.blocked d tier bytes = none) {a q : Nat}
    (ha : a ∈ s.path d) (hq : s.quota a tier = some q) : s.used a tier + bytes ≤ q := by
  unfold State.blocked at hfree
  split at hfree
  · contradiction
  · next hfind =>
    have hroom := List.find?_eq_none.mp hfind a ha
    rw [hq] at hroom
    simpa using hroom

/-- A dome that blocks is one of the path without room, or the partition where T1 has no room. -/
theorem blocked_cases {s : State} {d tier bytes a : Nat} (hblocked : s.blocked d tier bytes = some a) :
    (a ∈ s.path d ∧ ∃ q, s.quota a tier = some q ∧ q < s.used a tier + bytes) ∨
    (tier = 1 ∧ a = s.part d ∧ s.obj.t1Alloc < sumN ((s.obj.charges.filter (·.tier == 1)).map (·.bytes)) + bytes) := by
  unfold State.blocked at hblocked
  split at hblocked
  · next hfind =>
    cases hblocked
    have hover := List.find?_some hfind
    refine .inl ⟨List.mem_of_find?_eq_some hfind, ?_⟩
    split at hover
    · contradiction
    · next q hq => exact ⟨q, hq, by simpa using hover⟩
  · split at hblocked
    · next hfull =>
      cases hblocked
      exact .inr ⟨hfull.1, rfl, hfull.2⟩
    · contradiction

/-- Settles O54: what a charge adds to each use, and where an allocation is blocked. -/
theorem quotasHoldOnThePath : Obligations.QuotasHoldOnThePath := by
  unfold Obligations.QuotasHoldOnThePath
  refine ⟨fun owner tier d bytes s hfree => ⟨fun a ha => ?_, fun a ha => ?_, fun a n hn => ?_⟩, fun _ _ _ _ _ => blocked_cases⟩
  · rw [used_charge, if_pos ⟨rfl, ha⟩]
    exact ⟨rfl, fun q hq => used_add_le_quota_of_not_blocked hfree ha hq⟩
  · rw [used_charge, if_neg fun h => ha h.2, Nat.add_zero]
  · rw [used_charge, if_neg fun h => hn h.1, Nat.add_zero]

end Sys2Proof.Machine

/-! # Throttling by bands (16 R452)

A band is held in the ticks that stand, with its number, in the first n places of 16. -/

namespace Sys2Proof.Machine

/-- Of any 16 numbers in a row, n leave a remainder below n. -/
theorem length_filter_mod_lt : ∀ r < 16, ∀ n ≤ 15, ((List.range 16).filter fun i => (r + i) % 16 < n).length = n := by
  decide

theorem throttled_after (s : State) (b i : Nat) :
    ({ s with tick := s.tick + BitVec.ofNat 64 i } : State).throttled b = decide (((s.tick.toNat + b) % 16 + i) % 16 < s.applied) := by
  have hplace : ((s.tick + BitVec.ofNat 64 i).toNat + b) % 16 = ((s.tick.toNat + b) % 16 + i) % 16 := by
    rw [BitVec.toNat_add, BitVec.toNat_ofNat]
    omega
  exact congrArg (fun place => decide (place < s.applied)) hplace

theorem throttled_ticks (s : State) (b : Nat) (happlied : s.applied ≤ 15) :
    ((List.range 16).filter fun i => ({ s with tick := s.tick + BitVec.ofNat 64 i } : State).throttled b).length = s.applied := by
  simp only [throttled_after]
  exact length_filter_mod_lt _ (Nat.mod_lt _ (by decide)) _ happlied

theorem not_throttled_of_place {s : State} {d t0 cl : Nat} (h : s.place d t0 = some cl) : s.throttled (cl / 32) = false := by
  have hfound := List.find?_some h
  simp only [Bool.and_eq_true, Bool.not_eq_true'] at hfound
  exact hfound.2

/-- Where a task would be dispatched, lent or on its own dome's clusters, the band is not held. -/
theorem not_throttled_of_target {s : State} {us cl : Nat} {c : Cmd} {h : Chain} {lent : Option Nat} (ht : s.target us c h = some (cl, lent)) :
    s.throttled (cl / 32) = false := by
  unfold State.target at ht
  split at ht
  · contradiction
  · split at ht
    · split at ht
      · next hlent =>
        simp only [Bool.and_eq_true, Bool.not_eq_true'] at hlent
        cases ht
        exact hlent.1.2
      · contradiction
    · split at ht
      · contradiction
      · split at ht
        · contradiction
        · next hplace =>
          split at ht
          · contradiction
          · cases ht
            exact not_throttled_of_place hplace

/-- The first task of a dome stands where its target says. -/
theorem target_of_firstOf {s : State} {us d cl : Nat} {t : TaskRef} {lent : Option Nat} (hfirst : s.firstOf us d = some (t, cl, lent)) :
    ∃ c h, s.target us c h = some (cl, lent) := by
  obtain ⟨c, -, hcmd⟩ := List.exists_of_findSome?_eq_some hfirst
  split at hcmd
  · contradiction
  · obtain ⟨h, -, hchain⟩ := List.exists_of_findSome?_eq_some hcmd
    obtain ⟨x, htarget, hx⟩ := Option.map_eq_some_iff.mp hchain
    cases hx
    exact ⟨c, h.1, htarget⟩

/-- Settles O56: the ticks by their place among 16, the dispatch by its target. -/
theorem throttlingHoldsEachBandAsTold : Obligations.ThrottlingHoldsEachBandAsTold := by
  unfold Obligations.ThrottlingHoldsEachBandAsTold
  refine ⟨throttled_ticks, fun us d s t cl lent hfirst => ?_⟩
  obtain ⟨c, h, htarget⟩ := target_of_firstOf hfirst
  exact not_throttled_of_target htarget

end Sys2Proof.Machine

/-! # The order of shedding (03 R95) -/

namespace Sys2Proof.Machine

/-- Settles O57, by the first of the five demands that fits. -/
theorem sheddingStopsAsSoonAsTheRestFits : Obligations.SheddingStopsAsSoonAsTheRestFits := by
  unfold Obligations.SheddingStopsAsSoonAsTheRestFits
  intro base trace cal left
  have hnone : left 0 = base + cal + 60000 + trace := by simp [left]
  have hone : left 1 = base + cal + 60000 := by simp [left]
  have htwo : left 2 = base + cal := by simp [left]
  have hthree : left 3 = base := by simp [left]
  unfold shedFor
  split
  · exact ⟨0, by decide, rfl, fun _ => by omega, fun m hm => absurd hm (Nat.not_lt_zero m)⟩
  split
  · refine ⟨1, by decide, rfl, fun _ => by omega, fun m hm => ?_⟩
    obtain rfl : m = 0 := by omega
    omega
  split
  · refine ⟨2, by decide, rfl, fun _ => by omega, fun m hm => ?_⟩
    obtain rfl | rfl : m = 0 ∨ m = 1 := by omega
    all_goals omega
  split
  · refine ⟨3, by decide, rfl, fun _ => by omega, fun m hm => ?_⟩
    obtain rfl | rfl | rfl : m = 0 ∨ m = 1 ∨ m = 2 := by omega
    all_goals omega
  · refine ⟨4, by decide, rfl, fun h => absurd h (by decide), fun m hm => ?_⟩
    obtain rfl | rfl | rfl | rfl : m = 0 ∨ m = 1 ∨ m = 2 ∨ m = 3 := by omega
    all_goals omega

end Sys2Proof.Machine

/-! # The row-dynamic scale (06 R193)

The candidate scale is raised until the row's maximum fits, and at the last scale that binary16 has it stops in any case. -/

namespace Sys2Proof.Machine

/-! ### The row's maximum -/

theorem foldl_max_eq_zero_iff (l : List Nat) (b : Nat) : l.foldl Nat.max b = 0 ↔ b = 0 ∧ ∀ x ∈ l, x = 0 := by
  induction l generalizing b with
  | nil => simp
  | cons a l ih =>
    have hmax : Nat.max b a = 0 ↔ b = 0 ∧ a = 0 := Nat.max_eq_zero_iff
    rw [List.foldl_cons, ih, hmax, and_assoc, List.forall_mem_cons]

theorem rowMax_eq_zero_iff (xs : List Nat) : rowMax xs = 0 ↔ ∀ x ∈ xs, f32.fin x = true → f32.mag x = 0 := by
  rw [rowMax, maxN, foldl_max_eq_zero_iff, List.forall_mem_map]
  simp

/-! ### Raising the scale -/

/-- Under the scale, an element does not go beyond the top level. -/
def FitsTop (f a s : Nat) : Prop := int32 (quantT a s) ≤ (topDynamic f : Int) * 2 ^ 149

theorem fitsTop_of_not_aboveHalf {f a s : Nat}
    (h : aboveHalf (f32.mant (quantT a s)) (f32.exp (quantT a s)) (2 * topDynamic f) = false) : FitsTop f a s := by
  have hle : ¬ 2 * topDynamic f * 2 ^ 149 < 2 * (int32 (quantT a s)).natAbs := by
    rw [← aboveHalf_iff, h]
    exact Bool.false_ne_true
  unfold FitsTop
  generalize topDynamic f = top at hle ⊢
  omega

/-- With steps enough to reach the last scale, raising ends at a scale no lower than the candidate that fits, or at the last one. -/
theorem raiseScale_spec (f a : Nat) {k s : Nat} (hs : s ≤ 0x7BFF) (hsteps : 0x7BFF ≤ s + k) :
    s ≤ raiseScale f a k s ∧ raiseScale f a k s ≤ 0x7BFF ∧ (FitsTop f a (raiseScale f a k s) ∨ raiseScale f a k s = 0x7BFF) := by
  induction k generalizing s with
  | zero => exact ⟨Nat.le_refl s, hs, .inr (Nat.le_antisymm hs hsteps)⟩
  | succ k ih =>
    rw [raiseScale]
    split
    · exact ⟨hs, Nat.le_refl _, .inr rfl⟩
    · dsimp only
      split
      · obtain ⟨hlow, hhigh, hend⟩ := ih (s := s + 1) (by omega) (by omega)
        exact ⟨by omega, hhigh, hend⟩
      · next hfit =>
        rw [Bool.not_eq_true, Bool.or_eq_false_iff] at hfit
        exact ⟨Nat.le_refl s, hs, .inl (fitsTop_of_not_aboveHalf hfit.2)⟩

theorem dynScale_of_zero {f : Nat} {xs : List Nat} (h : rowMax xs = 0) : dynScale f xs = 0 := if_pos h

/-- A row with a finite element that is not zero has a normal scale. -/
theorem dynScale_of_nonzero {f : Nat} {xs : List Nat} (h : rowMax xs ≠ 0) :
    0x0400 ≤ dynScale f xs ∧ dynScale f xs ≤ 0x7BFF ∧ (FitsTop f (rowMax xs) (dynScale f xs) ∨ dynScale f xs = 0x7BFF) := by
  unfold dynScale
  dsimp only
  rw [if_neg h]
  split
  · exact ⟨by decide, by decide, .inr rfl⟩
  · next hcand =>
    generalize f16.up _ _ _ = cand at hcand ⊢
    have hstart : 0x0400 ≤ Nat.max cand 0x0400 := Nat.le_max_right ..
    have hlast : Nat.max cand 0x0400 ≤ 0x7BFF := Nat.max_le.mpr ⟨by omega, by decide⟩
    obtain ⟨hlow, hhigh, hend⟩ := raiseScale_spec f (rowMax xs) (k := 0x7C00) hlast (by omega)
    exact ⟨Nat.le_trans hstart hlow, hhigh, hend⟩

theorem dynScale_eq_zero_iff (f : Nat) (xs : List Nat) : dynScale f xs = 0 ↔ rowMax xs = 0 := by
  refine ⟨fun hscale => Decidable.byContradiction fun h => ?_, dynScale_of_zero⟩
  have hnormal := (dynScale_of_nonzero (f := f) h).1
  omega

theorem topDynamic_cast (f : Nat) : (topDynamic f : Int) = if f = 4 then 6 else if f = 5 then 7 else if f = 6 then 127 else 15 := by
  unfold topDynamic topPos
  split
  · rfl
  split
  · rfl
  split <;> rfl

/-- Settles O50: the scale of a row by its maximum. -/
theorem rowScaleFitsTheRow : Obligations.RowScaleFitsTheRow := by
  unfold Obligations.RowScaleFitsTheRow
  intro f xs _
  refine ⟨(dynScale_eq_zero_iff f xs).trans (rowMax_eq_zero_iff xs), fun hscale => ?_⟩
  have hmax : rowMax xs ≠ 0 := fun h => hscale (dynScale_of_zero h)
  rw [← topDynamic_cast]
  exact dynScale_of_nonzero hmax

end Sys2Proof.Machine

/-! # What the commands that complete leave

A command's own part is a chain of checks with its effect at the end. Each lemma below follows the chain to one effect: `if_neg` passes a
check, and the state that the checks read is that of the entry taken, which reads as the state before in all but the queues and the trace. -/

namespace Sys2Proof.Machine

/-- A row that shares its opcode with others runs its own part on the entries of its own action. -/
theorem exec_row_of_ok {c : Instr} {P : Prop} [Decidable P] {op : Nat} {src : Src} {q : Bool} {own : State → Except Fail State}
    {s t : State} (hrow : exec c s = if P then .next s else runAdmin op src q own s) (haction : ¬ P) (hruns : adminRuns src q s = true)
    (hown : own (begun src op 0xFFFF s) = .ok t) : exec c s = .next t := by
  rw [hrow, if_neg haction]
  exact runAdmin_ok hruns hown

/-- A row that always goes on answers a state by what its body gives. -/
theorem next_of_eq {s t : State} (h : s = t) : (.next s : Ans) = .next t := congrArg _ h

end Sys2Proof.Machine

/-! # PLACE and RELEASE (05 R149 to R159; 04 R129) -/

namespace Sys2Proof.Machine

theorem live?_of_absent {s : State} {id : Nat} (h : s.obj? id = none) : s.live? id = none := by
  rw [State.live?, h, Option.filter_none]

section Place

variable {e : Entry} {s t : State} (hruns : milrisRuns shapePlace e s = true) (hid : Fe.obj1 e ≠ 0) (hflags : placeFlags e ≠ 0)
  (hgood : flagsBad (placeFlags e) = false) (hsize : 0 < placeSize e ∧ placeSize e < 2 ^ 48)
  (hwrite : ((placeFlags e).toNat.testBit 5 && s.readOnly) = false)

include hgood hsize in
/-- The checks of the flags and the size. -/
theorem placeFields_ok : ¬ (flagsBad (placeFlags e) = true ∨ placeSize e = 0 ∨ placeSize e ≥ 2 ^ 48) := by
  rw [hgood]
  simp only [Bool.false_eq_true, false_or]
  omega

include hwrite in
theorem placeWritable (o d : Nat) : ¬ ((placeFlags e).toNat.testBit 5 = true ∧ (begun e.src o d s).readOnly = true) := by
  rw [begun_readOnly, ← Bool.and_eq_true, hwrite]
  exact Bool.false_ne_true

include hruns hid hflags hgood hsize hwrite

theorem exec_place_new (habsent : s.obj? (Fe.obj1 e) = none) (hfree : s.elsewhere (Fe.obj1 e) (s.part (Fe.dome e)) = false)
    (hplaced : placeNew e (Fe.obj1 e) (placeSize e) (placeFlags e) (begun e.src 0x81 (Fe.dome e) s) = .ok t) :
    exec (.place e) s = .next t := by
  rw [exec_place, execPlace]
  refine runMilris_ok hruns ?_
  dsimp only
  rw [if_neg hid, begun_live?, live?_of_absent habsent]
  dsimp only
  rw [begun_part, begun_elsewhere, hfree, if_neg Bool.false_ne_true, if_neg hflags, if_neg (placeFields_ok hgood hsize),
    if_neg (placeWritable hwrite _ _)]
  exact hplaced

theorem exec_place_again {o : Obj} (hlive : s.live? (Fe.obj1 e) = some o) (hpart : o.part = s.part (Fe.dome e))
    (hplaced : placeAgain e o (placeSize e) (placeFlags e) (begun e.src 0x81 (Fe.dome e) s) = .ok t) :
    exec (.place e) s = .next t := by
  rw [exec_place, execPlace]
  refine runMilris_ok hruns ?_
  dsimp only
  rw [if_neg hid, begun_live?, hlive]
  dsimp only
  rw [begun_part, if_neg (not_not_intro hpart), if_neg hflags, if_neg (placeFields_ok hgood hsize), if_neg (placeWritable hwrite _ _)]
  exact hplaced

end Place

theorem exec_release {e : Entry} {s : State} {o : Obj} (hruns : milrisRuns shapeRelease e s = true) (hid : Fe.obj1 e ≠ 0)
    (hlive : s.live? (Fe.obj1 e) = some o) (hpart : o.part = s.part (Fe.dome e)) (hidle : s.named (Fe.obj1 e) = false) :
    exec (.release e) s = .next (ok e.src 0 0
      (if bit e.dw13.toNat 16 then destroy (Fe.obj1 e) (dropObject (Fe.obj1 e) (begun e.src 0x82 (Fe.dome e) s))
       else dropObject (Fe.obj1 e) (begun e.src 0x82 (Fe.dome e) s))) := by
  refine runMilris_ok hruns ?_
  dsimp only
  rw [if_neg hid, begun_live?, hlive]
  dsimp only
  rw [begun_part, if_neg (not_not_intro hpart), begun_named, hidle, if_neg Bool.false_ne_true]
  rfl

/-- Settles O3. -/
theorem placeAndReleaseComplete : Obligations.PlaceAndReleaseComplete := by
  unfold Obligations.PlaceAndReleaseComplete
  refine ⟨?_, ?_, fun _ _ _ => exec_release⟩
  · intro e s hruns hid ⟨habsent, hfree⟩ hflags hgood hsize hwrite hok
    obtain ⟨t, ht⟩ := isOk_iff.mp hok
    exact ⟨t, ht, exec_place_new hruns hid hflags hgood hsize hwrite habsent hfree ht⟩
  · intro e s o hruns hid hlive hpart hflags hgood hsize hwrite hok
    obtain ⟨t, ht⟩ := isOk_iff.mp hok
    exact ⟨t, ht, exec_place_again hruns hid hflags hgood hsize hwrite hlive hpart ht⟩

end Sys2Proof.Machine

/-! # What a command that began reads

To begin is to count and to write a packet (21 R537), so every accessor of the state reads the same after it. -/

namespace Sys2Proof.Machine

section Begun

variable (src : Src) (o d : Nat) (s : State)

@[simp] theorem begun_vendorGate (src' : Src) (bit : Nat) : vendorGate src' bit (begun src o d s) = vendorGate src' bit s := by
  simp [vendorGate]
@[simp] theorem begun_serviceGate (a : Admin) (action : Nat) (replace : Bool) :
    serviceGate a action replace (begun src o d s) = serviceGate a action replace s := by simp [serviceGate]
@[simp] theorem begun_closedGroups (die : Nat) : (begun src o d s).closedGroups die = s.closedGroups die := by
  simp [State.closedGroups, State.die]
@[simp] theorem begun_emergency : (begun src o d s).emergency = s.emergency := by simp [State.emergency]
@[simp] theorem begun_changing : (begun src o d s).changing = s.changing := by simp [State.changing]
@[simp] theorem begun_vfBusy (f : Nat) : (begun src o d s).vfBusy f = s.vfBusy f := by simp [State.vfBusy]
@[simp] theorem begun_boundFn (p : Nat) : (begun src o d s).boundFn p = s.boundFn p := by simp [State.boundFn]
@[simp] theorem begun_ns? (n : Nat) : (begun src o d s).ns? n = s.ns? n := by simp [State.ns?]
@[simp] theorem begun_nvmCheck (fn nsid slba count : Nat) :
    nvmCheck fn nsid slba count (begun src o d s) = nvmCheck fn nsid slba count s := by simp [nvmCheck]
@[simp] theorem begun_nsBlocked : nsBlocked (begun src o d s) = nsBlocked s := by simp [nsBlocked]
@[simp] theorem begun_nsExtents : (begun src o d s).nsExtents = s.nsExtents := by simp [State.nsExtents]
@[simp] theorem begun_quotaExtents : (begun src o d s).quotaExtents = s.quotaExtents := by simp [State.quotaExtents, State.quota]
@[simp] theorem begun_freeNsid : (begun src o d s).freeNsid = s.freeNsid := by simp [State.freeNsid]
@[simp] theorem begun_nsNamed (n : Nat) : (begun src o d s).nsNamed n = s.nsNamed n := by simp [State.nsNamed]
@[simp] theorem begun_progressOf (fn : Nat) : (begun src o d s).progressOf fn = s.progressOf fn := by simp [State.progressOf]
@[simp] theorem begun_die (n : Nat) : (begun src o d s).die n = s.die n := by simp [State.die]
@[simp] theorem begun_goodBlocks (n : Nat) : (begun src o d s).goodBlocks n = s.goodBlocks n := by simp [State.goodBlocks]
@[simp] theorem begun_model (id : Nat) : (begun src o d s).model id = s.model id := by simp [State.model]
@[simp] theorem begun_adapter (id : Nat) : (begun src o d s).adapter id = s.adapter id := by simp [State.adapter]
@[simp] theorem begun_tuneBytes (e : Entry) : tuneBytes e (begun src o d s) = tuneBytes e s := by simp [tuneBytes]
@[simp] theorem begun_armsOf (p : Nat) : (begun src o d s).armsOf p = s.armsOf p := by simp [State.armsOf]
@[simp] theorem begun_ix (id : Nat) : (begun src o d s).ix id = s.ix id := by simp [State.ix]
@[simp] theorem begun_durable? (id : Nat) : (begun src o d s).durable? id = s.durable? id := by simp [State.durable?]

end Begun

/-- A row that shares its Milris opcode with others runs its own part on the entries of its own action. -/
theorem exec_milrisRow_of_ok {c : Instr} {P : Prop} [Decidable P] {sh : Shape} {e : Entry} {own : State → Except Fail State} {s t : State}
    (hrow : exec c s = if P then .next s else runMilris sh e own s) (haction : ¬ P) (hruns : milrisRuns sh e s = true)
    (hown : own (begun e.src sh.opcode (Fe.dome e) s) = .ok t) : exec c s = .next t := by
  rw [hrow, if_neg haction]
  exact runMilris_ok hruns hown

/-- The physical function passes the gate of a vendor command whose bit is granted (04 R117). -/
theorem vendorGate_of_granted {src : Src} {bit : Nat} {s : State} (h : src.fn = 0 ∧ s.granted bit = true) : vendorGate src bit s = none := by
  simp [vendorGate, h.1, h.2]

/-- A SERVICE that passes its gate names that action. -/
theorem action_of_serviceGate {a : Admin} {action : Nat} {replace : Bool} {s : State} (h : serviceGate a action replace s = none) :
    bits a.cdw10.toNat 7 0 = action := by
  unfold serviceGate at h
  cases hgate : vendorGate a.src 10 s with
  | some f => simp [hgate] at h
  | none => exact Decidable.byContradiction fun hne => by simp [hgate, hne] at h

/-- A SERVICE whose Dword 10 holds its action alone passes the gate (04 R132). -/
theorem serviceGate_of_cdw10 {a : Admin} {action : Nat} {s : State} (hgate : a.src.fn = 0 ∧ s.granted 10 = true)
    (h10 : a.cdw10.toNat = action) (hlt : action < 256) (hrest : a.cdw12 = 0 ∧ a.cdw13 = 0 ∧ a.cdw14 = 0 ∧ a.cdw15 = 0) :
    serviceGate a action false s = none := by
  obtain ⟨h12, h13, h14, h15⟩ := hrest
  have haction : bits a.cdw10.toNat 7 0 = action := by simp [bits, h10]; omega
  have hhigh : bits a.cdw10.toNat 31 9 = 0 := by simp [bits, h10]; omega
  have hreplace : bit a.cdw10.toNat 8 = false := by simp [bit, h10]; omega
  simp [serviceGate, vendorGate_of_granted hgate, haction, hhigh, hreplace, h12, h13, h14, h15]

end Sys2Proof.Machine

/-! # The attachment commands (03 R97 to R106; 04 R135, R137) -/

namespace Sys2Proof.Machine

theorem exec_queueResume (a : Admin) (s : State) : exec (.queueResume a) s = execQueueResume a s := rfl

theorem exec_negotiate_of_offered {a : Admin} {s : State} (us : Nat) (hruns : adminRuns a.src true s = true) (hfn : a.src.fn = 0)
    (hreserved : a.cdw13 = 0 ∧ a.cdw14 = 0 ∧ a.cdw15 = 0) (hoffer : (a.cdw11 ++ a.cdw10 : QWord).getLsbD 0 = true) :
    let grant : QWord := (a.cdw11 ++ a.cdw10) &&& 0xFFF#64
    let s1 := (begun a.src 0xC3 0xFFFF s).modHb fun h =>
      { h with neg := grant, epoch := if h.quiesced then h.epoch else nextEpoch h.epoch,
               lastBeat := if h.armed then h.lastBeat else s.now us, armed := true }
    exec (.negotiate a us) s =
      .next (ok a.src (grant.toNat % 2 ^ 32) (grant.toNat / 2 ^ 32) (if s1.lanternOn then lanternTry s1 else lanternStop s1)) := by
  intro grant s1
  obtain ⟨h13, h14, h15⟩ := hreserved
  have hfield : ¬ (a.cdw13 ≠ 0 ∨ a.cdw14 ≠ 0 ∨ a.cdw15 ≠ 0 ∨ (!(a.cdw11 ++ a.cdw10 : QWord).getLsbD 0) = true) := by
    simp [h13, h14, h15, hoffer]
  have hnow : (begun a.src 0xC3 0xFFFF s).now us = s.now us := by rw [State.now, State.now, begun_tick]
  refine runAdmin_ok hruns ((if_neg (not_not_intro hfn)).trans ((if_neg hfield).trans ?_))
  rw [hnow]
  rfl

section Reattach

variable {a : Admin} {s : State} (us : Nat) (hruns : adminRuns a.src true s = true) (hgate : reattachGate a s = none)
include hruns hgate

theorem exec_reattachAdopt_of_gate (hadopt : bit a.cdw11.toNat 0 = false) :
    let handed := s.hb.parked.foldl (fun t p => uncharge (.parked p.src) (deliver p.outObj p.addr p.out t)) (releaseDma (begun a.src 0xC4 0xFFFF s))
    exec (.reattachAdopt a us) s =
      .next (ok a.src (nextEpoch s.hb.epoch).toNat s.answers
        (settleKept (postHeld (endQuiesce us (handed.modHb fun h => { h with parked := [], epoch := nextEpoch h.epoch }))))) := by
  refine exec_row_of_ok rfl (by simp [hadopt]) hruns ?_
  rw [begun_reattachGate, hgate, orFail, begun_answers, begun_hb]

theorem exec_reattachDiscard_of_gate (hdiscard : bit a.cdw11.toNat 0 = true) :
    exec (.reattachDiscard a us) s =
      .next (ok a.src (nextEpoch s.hb.epoch).toNat s.answers
        (endQuiesce us ((deleteIoQueues (dropWork (begun a.src 0xC4 0xFFFF s))).modHb fun h => { h with epoch := nextEpoch h.epoch }))) := by
  refine exec_row_of_ok rfl (by simp [hdiscard]) hruns ?_
  rw [begun_reattachGate, hgate, orFail, begun_answers, begun_hb]

end Reattach

/-- What FLUSH completes: every entry between the head of the queue and its tail, with Flushed. -/
theorem exec_queueResume_of_frozen {a : Admin} {s : State} {q : Sq} (hruns : adminRuns a.src false s = true) (hgrant : s.granted 0 = true)
    (hreserved : bits a.cdw10.toNat 31 17 = 0 ∧ a.cdw11 = 0 ∧ tailSet a = false) (hid : bits a.cdw10.toNat 15 0 ≠ 0)
    (hq : s.sq? a.src.fn (bits a.cdw10.toNat 15 0) = some q) (hfrozen : q.frozen = true) :
    let id := bits a.cdw10.toNat 15 0
    let n := if bit a.cdw10.toNat 16 then (q.tail + q.size - q.head) % q.size else 0
    let flushed := (List.range n).foldl (fun t i =>
      let src : Src := { fn := q.fn, sq := id, cid := le a.input (64 * i + 2) 2 }
      post { src, sct := 7, sc := 0x96 } (queuePacket 4 src (le a.input (64 * i) 1) 7 0x96 0xFFFF t)) (begun a.src 0xC2 0xFFFF s)
    exec (.queueResume a) s =
      .next (ok a.src n 0 (queuePacket 3 { a.src with sq := id } 0 0 0 0xFFFF
        (modSq q.fn id (fun q => { q with frozen := false, head := if n = 0 then q.head else q.tail }) flushed))) := by
  obtain ⟨hbits, h11, htail⟩ := hreserved
  refine runAdmin_ok hruns ?_
  simp [hgrant, hbits, h11, htail, hid, hq, hfrozen]

theorem exec_quiesceStart_of_silence {s : State} (hstep : s.sch.step = 4) (harmed : s.hb.armed = true) (hquiet : s.hb.quiesced = false)
    (hsilence : s.eff.silence * 1000 ≤ s.now 0 - s.hb.lastBeat) : exec .quiesceStart s = .next (tuneStep (quiesceNow s)) := by
  have hdue : s.quiesceDue = true := by simp [State.quiesceDue, harmed, hquiet, hsilence]
  exact congrArg _ (if_pos (by simp [hstep, hdue]))

theorem exec_holdLimitExpiry_of_hold {s : State} (hstep : s.sch.step = 4) (hquiet : s.hb.quiesced = true) (hheld : s.hb.heldOut = false)
    (hhold : s.eff.hold * 1000000 ≤ s.now 0 - s.hb.qStart) : exec .holdLimitExpiry s = .next (tuneStep (holdNow s)) := by
  have hdue : s.holdDue = true := by simp [State.holdDue, hquiet, hheld, hhold]
  exact congrArg _ (if_pos (by simp [hstep, hdue]))

/-- Settles O5. -/
theorem attachmentCommandsComplete : Obligations.AttachmentCommandsComplete := by
  unfold Obligations.AttachmentCommandsComplete
  exact ⟨fun _ us _ => exec_negotiate_of_offered us, fun _ us _ hruns hadopt hgate => exec_reattachAdopt_of_gate us hruns hgate hadopt,
    fun _ us _ hruns hdiscard hgate => exec_reattachDiscard_of_gate us hruns hgate hdiscard, fun _ _ _ => exec_queueResume_of_frozen,
    fun _ ⟨hstep, harmed, hquiet⟩ => exec_quiesceStart_of_silence hstep harmed hquiet,
    fun _ ⟨hstep, hquiet, hheld⟩ => exec_holdLimitExpiry_of_hold hstep hquiet hheld⟩

end Sys2Proof.Machine

/-! # Doorbells, the fetch of a command, and register writes (04 R109; 22 R560 to R562) -/

namespace Sys2Proof.Machine

/-- A write of one aligned dword writes that dword alone. -/
theorem regWriteDwords_of_dword {w : RegWrite} (hsize : w.size = 4 ∧ w.offset % 4 = 0) :
    RegWriteDwords w = [(w.offset, w.value.setWidth 32)] := if_pos hsize

theorem barOpen_of_ccWrite {w : RegWrite} {s : State} {old new : DWord} (h : ccWrite w s = some (old, new)) : s.barOpen w.fn = true := by
  unfold ccWrite at h
  split at h
  next hguard =>
    obtain ⟨-, -, -, hready⟩ := hguard
    split at h
    next f hf =>
      have hopen : (f.enabled && f.memSpace) = true := Decidable.byContradiction fun hclosed => by simp [hclosed] at h
      simpa [State.barOpen, hready, hf] using hopen
    next => cases h
  next => cases h

theorem exec_sqTailDoorbell_of_lt (fn sq : Nat) (value : DWord) (s : State) (q : Sq) (hopen : s.barOpen fn = true)
    (hsq : s.sq? fn sq = some q) (hlt : bits value.toNat 15 0 < q.size) :
    exec (.sqTailDoorbell fn sq value) s = .next (modSq fn sq (fun q => { q with tail := bits value.toNat 15 0 }) s) := by
  refine next_of_eq ?_
  simp [hopen, hsq, Nat.not_le.mpr hlt]

theorem exec_cqHeadDoorbell_of_lt (fn cq : Nat) (value : DWord) (s : State) (q : Cq) (hopen : s.barOpen fn = true)
    (hcq : s.cq? fn cq = some q) (hlt : bits value.toNat 15 0 < q.size) :
    exec (.cqHeadDoorbell fn cq value) s =
      .next (q.waiting.foldl (fun s c => postNow c s) (modCq fn cq (fun q => { q with head := bits value.toNat 15 0, waiting := [] }) s)) := by
  refine next_of_eq ?_
  simp [hopen, hcq, Nat.not_le.mpr hlt]

theorem exec_commandFetch_of_mayFetch (fn sq : Nat) (u : Option (Nat × Nat)) (s : State) (q : Sq) (hsq : s.sq? fn sq = some q)
    (hfetch : s.mayFetch fn q = true) :
    let s1 := (modSq fn sq (fun q => { q with head := (q.head + 1) % q.size }) s).modQ fun x => { x with fetched := x.fetched ++ [(fn, sq)] }
    exec (.commandFetch fn sq u) s = .next (match u with
      | none => s1
      | some (opcode, cid) => if (opcodesOf sq).contains opcode then s1
          else refuse { fn, sq, cid } St.invalidOpcode (begun { fn, sq, cid } opcode 0xFFFF s1)) := by
  intro s1
  refine next_of_eq ?_
  simp only [hsq, hfetch]
  rfl

theorem exec_hbeatWrite_of_dword (w : RegWrite) (us : Nat) (s : State) (hbar : s.bar2 w 0x1000 0x1004 = true) (hfn : w.fn = 0)
    (hsize : w.size = 4 ∧ w.offset % 4 = 0) :
    exec (.hbeatWrite w us) s =
      .next (if s.hb.quiesced || !s.hb.armed || w.value.setWidth 32 != s.hb.epoch then s
             else s.modHb fun h => { h with lastBeat := s.now us }) := by
  obtain ⟨hlo, hhi⟩ := bar2_range hbar
  have hoffset : w.offset = 0x1000 := by omega
  refine next_of_eq ?_
  simp [hbar, hfn, regWriteDwords_of_dword hsize, writeBeat, hoffset, heartbeat]

theorem exec_registerWrite_bar2 (w : RegWrite) (s : State) (hbar : w.bar = 2) (hopen : s.barOpen w.fn = true)
    (hother : (s.bar2 w 0x1000 0x1004 || s.bar2 w 0x2000 0x2400 || (s.bar2 w 0x2600 0x2700 && w.offset % 8 == 0)) = false) :
    exec (.registerWrite w) s = .next ((RegWriteDwords w).foldl (fun s d => writeBar2 w.fn d s) s) := by
  refine next_of_eq ?_
  simp only [hbar, hopen, hother]
  rfl

theorem exec_registerWrite_bar0 (w : RegWrite) (s : State) (hbar : w.bar = 0) (hoffset : w.offset ≠ 0x14)
    (hopen : s.barOpen w.fn = true) :
    exec (.registerWrite w) s = .next ((RegWriteDwords w).foldl (fun s d => writeBar0 w.fn d s) s) := by
  refine next_of_eq ?_
  simp [hbar, hoffset, hopen]

theorem exec_registerWrite_cc (w : RegWrite) (s : State) (old new : DWord) (hbar : w.bar = 0) (hoffset : w.offset = 0x14)
    (hcc : ccWrite w s = some (old, new)) (hen : old.getLsbD 0 = new.getLsbD 0) (hnormal : ¬ (shn new = 1 ∧ shn old ≠ 1))
    (habrupt : ¬ (shn new = 2 ∧ shn old ≠ 2)) :
    exec (.registerWrite w) s = .next (modFn w.fn (fun x => { x with cc := new }) s) := by
  have hopen : s.barOpen w.fn = true := barOpen_of_ccWrite hcc
  have hguard : (old.getLsbD 0 != new.getLsbD 0 || (shn new == 1 && shn old != 1) || (shn new == 2 && shn old != 2)) = false := by
    have hnormal' : (shn new == 1 && shn old != 1) = false := Bool.eq_false_iff.mpr (by simpa using hnormal)
    have habrupt' : (shn new == 2 && shn old != 2) = false := Bool.eq_false_iff.mpr (by simpa using habrupt)
    rw [hen, hnormal', habrupt', bne_self_eq_false]
    rfl
  have hwrite : writeCc w s = modFn w.fn (fun x => { x with cc := new }) s := by
    simp only [writeCc, hcc]
    exact if_neg (ne_true_of_eq_false hguard)
  refine next_of_eq ?_
  simp [hbar, hoffset, hopen, hwrite]

theorem exec_registerWrite_config (w : RegWrite) (s : State) (hbar : w.bar = 255) :
    exec (.registerWrite w) s = .next ((RegWriteDwords w).foldl (fun s d => writeConfig w.fn d.1 d.2 s) s) := by
  exact next_of_eq (if_pos hbar)

/-- Settles O7, a lemma for each clause. -/
theorem doorbellsFetchAndRegisterWritesComplete : Obligations.DoorbellsFetchAndRegisterWritesComplete := by
  unfold Obligations.DoorbellsFetchAndRegisterWritesComplete
  exact ⟨exec_sqTailDoorbell_of_lt, exec_cqHeadDoorbell_of_lt, exec_commandFetch_of_mayFetch, exec_hbeatWrite_of_dword,
    exec_registerWrite_bar2, exec_registerWrite_bar0, exec_registerWrite_cc, exec_registerWrite_config⟩

end Sys2Proof.Machine

/-! # The event block (15 R427 to R434, R441) -/

namespace Sys2Proof.Machine

section Raise

variable {n : Nat} {d : DWord} {s : State}

/-- What a rising edge of a live source leaves in the event block (R427). -/
def EdgeTaken (n : Nat) (d : DWord) (before after : Evt) : Prop :=
  lookN n after.detail = some d ∧ after.pend.contains n = true ∧
    (before.pend.contains n = true → lookN n after.edges = some (sat 255 ((lookN n before.edges).getD 0 + 1))) ∧
    (before.pend.contains n = false → after.edges = before.edges)

theorem eventPacket_evt (k g : Nat) (s : State) : (eventPacket k g n s).evt = s.evt := (eventPacket_traced ..).evt

theorem raise_edgeTaken (hlive : s.sourceLive n = true) : EdgeTaken n d s.evt (raise n d s).evt := by
  unfold raise EdgeTaken
  by_cases hpend : s.evt.pend.contains n = true
  · have hmem : n ∈ s.evt.pend := by simpa using hpend
    simp [hlive, eventPacket_evt, hmem]
  · have hmem : n ∉ s.evt.pend := by simpa using hpend
    by_cases hmask : n ∈ s.evt.unmasked <;> simp [hlive, eventPacket_evt, hmem, hmask, setNew, updGroup]

theorem lineUp_edgeTaken (hlive : s.sourceLive n = true) (hlow : s.evt.level.contains n = false) :
    EdgeTaken n d s.evt (lineUp n d s).evt := by
  have hlow' : ¬ s.evt.level.contains n = true := by rw [hlow]; decide
  rw [lineUp, if_neg hlow']
  exact raise_edgeTaken hlive

end Raise

theorem exec_evpendWrite_of_dword (w : RegWrite) (s : State) (hbar : s.bar2 w 0x2000 0x2200 = true)
    (hsize : w.size = 4 ∧ w.offset % 4 = 0) :
    exec (.evpendWrite w) s = .next (s.modEvt fun e => { e with pend := e.pend.filter fun n =>
      !((sourcesOf 0x2000 w.offset (w.value.setWidth 32)).contains n && s.seesSource w.fn n) }) := by
  obtain ⟨-, hhi⟩ := bar2_range hbar
  refine next_of_eq ?_
  simp [hbar, writeEvents, regWriteDwords_of_dword hsize, writeEvent, hhi, clearPending]

theorem exec_evmaskWrite_of_dword (w : RegWrite) (s : State) (hbar : s.bar2 w 0x2200 0x2400 = true)
    (hsize : w.size = 4 ∧ w.offset % 4 = 0) :
    exec (.evmaskWrite w) s = .next (writeMask w.fn w.offset (w.value.setWidth 32) s) := by
  obtain ⟨hlo, hhi⟩ := bar2_range hbar
  have hpast : ¬ w.offset < 0x2200 := by omega
  refine next_of_eq ?_
  simp [hbar, writeEvents, regWriteDwords_of_dword hsize, writeEvent, hhi, hpast]

theorem exec_grpctlWrite_of_dword (w : RegWrite) (s : State) (hbar : s.bar2 w 0x2600 0x2700 = true)
    (hsize : w.size = 4 ∧ w.offset % 8 = 0) (hsees : s.seesGroup w.fn ((w.offset - 0x2600) / 8) = true) :
    exec (.grpctlWrite w) s = .next (s.modEvt (updGroup ((w.offset - 0x2600) / 8) fun x =>
      { x with holdoff := bits (w.value.setWidth 32).toNat 9 0, enable := bit (w.value.setWidth 32).toNat 16 })) := by
  obtain ⟨hlo, hhi⟩ := bar2_range hbar
  obtain ⟨hfour, height⟩ := hsize
  have hword := regWriteDwords_of_dword (w := w) ⟨hfour, by omega⟩
  have hpend : ¬ w.offset < 0x2200 := by omega
  have hmask : ¬ w.offset < 0x2400 := by omega
  refine next_of_eq ?_
  simp [hbar, height, writeEvents, hword, writeEvent, hhi, hpend, hmask, hsees, writeGrpctl]

theorem exec_edgecntRead_of_selected (fn size n : Nat) (s : State) (hopen : (s.fn? fn).any (fun f => f.enabled && f.memSpace) = true)
    (hsize : size = 4 ∨ size = 8) (hsel : s.selected fn = some n) :
    exec (.edgecntRead fn size) s = .next (s.modEvt fun e =>
      { e with edgeRead := (lookN n e.edges).getD 0, edges := e.edges.filter (·.1 ≠ n) }) := by
  refine next_of_eq ?_
  simp [hopen, hsize, hsel]

theorem exec_groupDelivery_of_new (g us : Nat) (s : State) (hgroup : g ≤ 31)
    (hready : (s.evGroup g).new = true ∧ (s.evGroup g).enable = true ∧ (s.evGroup g).holding = none) (hpend : s.groupPending g = true)
    (hdomain : (s.pwr.domains[47]?).any (·.state == .on) = true) :
    exec (.groupDelivery g us) s = .next (sendMsix (s.receiverFn g) (s.groupVector g) (eventPacket 2 g 0
      (s.modEvt (updGroup g fun x => { x with new := false, deliveries := x.deliveries + 1,
                                              holding := if x.holdoff = 0 then none else some (s.now us + x.holdoff) })))) := by
  obtain ⟨hnew, henable, hfree⟩ := hready
  obtain ⟨x, hx, hon⟩ := Option.any_eq_true _ _ |>.mp hdomain
  have hoff : (x.state != .on) = false := by simpa using hon
  refine next_of_eq ?_
  simp [Nat.not_lt.mpr hgroup, hnew, henable, hfree, hpend, hx, hoff]

theorem exec_holdoffEnd_of_le (g us t : Nat) (s : State) (hheld : (s.evGroup g).holding = some t) (hle : t ≤ s.now us) :
    exec (.holdoffEnd g us) s = .next (s.modEvt (updGroup g fun x => { x with holding := none })) := by
  refine next_of_eq ?_
  simp [hheld, hle]

theorem exec_eventSourceRise_takes_edge (n : Nat) (d : DWord) (s : State) (hlive : s.sourceLive n = true)
    (hedge : eventLevel n = false ∨ s.evt.level.contains n = false) :
    ∃ t, exec (.eventSourceRise n d) s = .next t ∧ lookN n t.evt.detail = some d ∧ t.evt.pend.contains n = true ∧
      (s.evt.pend.contains n = true → lookN n t.evt.edges = some (sat 255 ((lookN n s.evt.edges).getD 0 + 1))) ∧
      (s.evt.pend.contains n = false → t.evt.edges = s.evt.edges) := by
  by_cases hlevel : eventLevel n = true
  · have hlow : s.evt.level.contains n = false := by simpa [hlevel] using hedge
    exact ⟨lineUp n d s, next_of_eq (if_pos hlevel), lineUp_edgeTaken hlive hlow⟩
  · exact ⟨raise n d s, next_of_eq (if_neg hlevel), raise_edgeTaken hlive⟩

theorem exec_msixVectorUnmask_of_le (fn v : Nat) (s : State) (hvector : v ≤ (if fn = 0 then 2047 else 63)) :
    exec (.msixVectorUnmask fn v) s = .next (flushPba fn (modFn fn (fun x => { x with unmasked := insN v x.unmasked }) s)) := by
  exact next_of_eq (if_neg (by omega))

/-- Settles O8, a lemma for each clause. -/
theorem eventCommandsComplete : Obligations.EventCommandsComplete := by
  unfold Obligations.EventCommandsComplete
  exact ⟨exec_evpendWrite_of_dword, exec_evmaskWrite_of_dword, exec_grpctlWrite_of_dword, exec_edgecntRead_of_selected,
    exec_groupDelivery_of_new, exec_holdoffEnd_of_le, exec_eventSourceRise_takes_edge, exec_msixVectorUnmask_of_le⟩

end Sys2Proof.Machine

/-! # Writes of CC that enable, reset or shut a controller down (03 R107; 17 R475 to R482) -/

namespace Sys2Proof.Machine

theorem exec_controllerEnable_of_ccWrite (w : RegWrite) (s : State) (old new : DWord) (f : Func) (hcc : ccWrite w s = some (old, new))
    (hf : s.fn? w.fn = some f) (hen : old.getLsbD 0 = false ∧ new.getLsbD 0 = true) (honline : w.fn = 0 ∨ f.online = true) :
    let s1 := adminQueues f (modFn w.fn (fun x => { x with cc := new }) s)
    exec (.controllerEnable w) s =
      .next (initRdy (if w.fn = 0 then s1.modLife fun l => { l with normalDone := false, abruptDone := false } else s1)) := by
  intro s1
  obtain ⟨hold, hnew⟩ := hen
  have hmay : (w.fn != 0 && !f.online) = false := by rcases honline with h | h <;> simp [h]
  refine next_of_eq ?_
  simp only [hcc, hf, hold, hnew, hmay]
  rfl

theorem exec_controllerReset_of_virtual (w : RegWrite) (us : Nat) (s : State) (old new : DWord) (hcc : ccWrite w s = some (old, new))
    (hen : old.getLsbD 0 = true ∧ new.getLsbD 0 = false) (hfn : w.fn ≠ 0) :
    exec (.controllerReset w us) s = .next (stopController w.fn new s) := by
  obtain ⟨hold, hnew⟩ := hen
  refine next_of_eq ?_
  simp only [hcc, hold, hnew]
  exact if_pos hfn

theorem exec_controllerReset_of_physical (w : RegWrite) (us : Nat) (s : State) (old new : DWord) (hcc : ccWrite w s = some (old, new))
    (hen : old.getLsbD 0 = true ∧ new.getLsbD 0 = false) (hfn : w.fn = 0) :
    let s1 := if s.life.cfs && s.life.phase == .up then trapReset s else s
    let s2 := if s1.hb.quiesced then
        endQuiesce us ((deleteIoQueues (dropWork s1)).modHb fun h => { h with epoch := nextEpoch h.epoch })
      else s1
    exec (.controllerReset w us) s = .next (activatePending (stopController 0 new s2)) := by
  intro s1 s2
  obtain ⟨hold, hnew⟩ := hen
  refine next_of_eq ?_
  simp only [hcc, hold, hnew, hfn]
  rfl

theorem exec_normalShutdown_of_ccWrite (w : RegWrite) (s : State) (old new : DWord) (hcc : ccWrite w s = some (old, new))
    (hshn : shn new = 1 ∧ shn old ≠ 1 ∧ new.getLsbD 0 = old.getLsbD 0) :
    let s1 := modFn w.fn (fun f => { f with cc := new, shst := if w.fn = 0 then 1 else 2 }) s
    exec (.normalShutdown w) s = .next (if w.fn = 0 then shutdownDone s1 else s1) := by
  intro s1
  obtain ⟨hone, hbefore, hen⟩ := hshn
  refine next_of_eq ?_
  have hguard : (shn new ≠ 1 || shn old == 1 || new.getLsbD 0 != old.getLsbD 0) = false := by rw [hen, hone]; simp [hbefore]
  simp only [hcc, hguard]
  rfl

theorem exec_abruptShutdown_of_ccWrite (w : RegWrite) (s : State) (old new : DWord) (hcc : ccWrite w s = some (old, new))
    (hshn : shn new = 2 ∧ shn old ≠ 2 ∧ new.getLsbD 0 = old.getLsbD 0) :
    let s1 := modFn w.fn (fun f => { f with cc := new, shst := if w.fn = 0 then 1 else 2 }) s
    exec (.abruptShutdown w) s = .next (if w.fn = 0 ∧ s.life.flushing.isNone then s1.modLife fun l =>
      { l with flushing := some .abrupt, flushCut := none, flushCmds := s.outstanding, flushTick := s.tick.toNat } else s1) := by
  intro s1
  obtain ⟨htwo, hbefore, hen⟩ := hshn
  refine next_of_eq ?_
  have hguard : (shn new ≠ 2 || shn old == 2 || new.getLsbD 0 != old.getLsbD 0) = false := by rw [hen, htwo]; simp [hbefore]
  simp only [hcc, hguard]
  rfl

/-- Settles O9, a lemma for each clause. -/
theorem controllerAndShutdownWritesComplete : Obligations.ControllerAndShutdownWritesComplete := by
  unfold Obligations.ControllerAndShutdownWritesComplete
  exact ⟨exec_controllerEnable_of_ccWrite, exec_controllerReset_of_virtual, exec_controllerReset_of_physical,
    exec_normalShutdown_of_ccWrite, exec_abruptShutdown_of_ccWrite⟩

end Sys2Proof.Machine

/-! # Supplies, PERST#, resets and start-up (14 R419; 16 R448; 17 R475 to R478; 19 R513, R514; 20 R530, R531) -/

namespace Sys2Proof.Machine

theorem exec_perstAssert_of_running (ns : Nat) (s : State) (hlong : 1000 ≤ ns)
    (hphase : s.life.phase = .up ∨ s.life.phase = .starting ∨ s.life.phase = .failed) :
    let s1 := s.modLife fun l => { l with perst := true }
    exec (.perstAssert ns) s = .next (linkDown ((if s.life.flushing.isSome then s1 else abandon s1).modLife fun l =>
      { l with phase := .held, flushing := some .perst, flushCut := none })) := by
  intro s1
  refine next_of_eq ((if_neg (by omega)).trans ?_)
  rcases hphase with h | h | h <;> rw [h]

theorem exec_perstAssert_of_short (ns : Nat) (s : State) (hshort : ns < 1000) :
    exec (.perstAssert ns) s = .next s := by
  exact next_of_eq (if_pos hshort)

theorem exec_perstDeassert_of_held (t : BootTest) (s : State) (hperst : s.life.perst = true) (hphase : s.life.phase = .held)
    (hquiet : s.life.flushing = none) :
    exec (.perstDeassert t) s = .next (applyTests t (coldStart (s.modLife fun l => { l with perst := false }))) := by
  refine next_of_eq ?_
  simp [hperst, hphase, hquiet]

theorem exec_auxPowerPresent_of_atRest (s : State) (hrest : s.atRest = true) :
    exec .auxPowerPresent s = .next (modDomain 47 (fun d => { d with state := .retain, idle := 0 })
      (domainsOff (List.range 50) (linkDown ((if s.life.v12 then progressCut s else s).modLife fun l => { l with phase := .aux, vaux := true, v12 := false })))) := by
  refine next_of_eq ?_
  simp [hrest]

theorem exec_powerUp12v_of_off (open0 open1 : Bool) (s : State) (hphase : s.life.phase = .unpowered ∨ s.life.phase = .aux) :
    let s1 := ((bankAtPowerUp s).modLife fun l => { l with v12 := true, phase := .held }).modPwr fun p =>
      { p with sense := if open0 then (if open1 then 150 else 450) else (if open1 then 300 else 600),
               edgeMv := 12000, auxMv := 12000, causes := 0, thermalEmerg := false }
    exec (.powerUp12v open0 open1) s = .next (if s.life.perst then s1 else coldStart s1) := by
  intro s1
  have hoff : ¬ (s.life.phase ≠ .unpowered ∧ s.life.phase ≠ .aux) := fun h => hphase.elim h.1 h.2
  have hsense : senseLimit open0 open1 = if open0 then (if open1 then 150 else 450) else (if open1 then 300 else 600) := by
    cases open0 <;> cases open1 <;> rfl
  refine next_of_eq ((if_neg hoff).trans ?_)
  rw [hsense]

theorem exec_conventionalReset_of_powered (t : BootTest) (s : State) (hready : s.powered = true ∧ s.life.cfgReady = true) :
    exec (.conventionalReset t) s = .next (applyTests t (coldStart (s.modLife fun l => { l with flushCmds := [], flushing := none }))) := by
  refine next_of_eq ?_
  simp [hready]

theorem exec_functionLevelReset_of_enabled (fn : Nat) (s : State) (hready : s.life.cfgReady = true)
    (hfn : (s.fn? fn).any (·.enabled) = true) :
    exec (.functionLevelReset fn) s = .next (if fn = 0 then
      ((s.fns.map (·.id)).foldl (fun s f => stopController f 0 s) s).modFns fun _ => [{ id := 0 }]
    else modFn fn (fun x => { id := x.id, enabled := true, queues := x.queues, vectors := x.vectors, online := x.online })
      (stopController fn 0 s)) := by
  refine next_of_eq ?_
  simp [hready, hfn]

theorem exec_dStateTransition_of_le (fn d : Nat) (s : State) (hle : d ≤ 3) (hready : s.life.cfgReady = true) :
    exec (.dStateTransition fn d) s = .next (flushPba fn (modFn fn (fun x => { x with dstate := d }) s)) := by
  refine next_of_eq ?_
  simp [Nat.not_lt.mpr hle, hready]

theorem exec_powerRemoved_of_atRest (s : State) (hrest : s.atRest = true) :
    let s1 := domainsOff (List.range 50) (linkDown ((if s.life.v12 then progressCut s else s).modLife fun l => { l with phase := .unpowered, vaux := false, v12 := false }))
    exec .powerRemoved s = .next ((((s1.modCal fun c => { c with trims := List.replicate 40 0, trimsNext := none, trimRaised := [] }).modPwr
      fun p => { p with causes := 0, thermalEmerg := false }).modEvt fun _ => {}).modMgt fun _ => {}) := by
  intro s1
  refine next_of_eq ?_
  simp [hrest, s1]

theorem exec_startupComplete_of_passed (t : BootTest) (s : State) (hphase : s.life.phase = .starting)
    (hcool : ((applyTests t s).life.coolWait && decide (t.temp ≥ 760)) = false) (htests : t.calRowOk = true ∧ t.mapOk = true)
    (hbooted : (applyTests t s).fw.booted ≠ 0) (hgroups : (applyTests t s).itg.retired.length < 8) :
    exec (.startupComplete t) s =
      .next (initRdy ((restore (applyTests t s)).modLife fun l => { l with phase := .up, bootst := 0x01 })) := by
  obtain ⟨hcal, hmap⟩ := htests
  refine next_of_eq ?_
  have hwarm : ¬ ((applyTests t s).life.coolWait = true ∧ t.temp ≥ 760) := by simpa using hcool
  rw [if_neg (not_not_intro hphase), if_neg hwarm]
  simp [hcal, hmap, hbooted, Nat.not_le.mpr hgroups]

theorem exec_startupComplete_of_failed (t : BootTest) (s : State) (hphase : s.life.phase = .starting)
    (hcool : (applyTests t s).life.coolWait = false)
    (hfault : t.calRowOk = false ∨ (applyTests t s).fw.booted = 0 ∨ 8 ≤ (applyTests t s).itg.retired.length ∨ t.mapOk = false) :
    exec (.startupComplete t) s = .next ((applyTests t s).modLife fun l =>
      { l with phase := .failed, cfs := true,
               bootst := if !t.calRowOk then 0x10 else if (applyTests t s).fw.booted = 0 then 0x11
                 else if 8 ≤ (applyTests t s).itg.retired.length then 0x12 else 0x13 }) := by
  refine next_of_eq ?_
  have hwarm : ¬ ((applyTests t s).life.coolWait = true ∧ t.temp ≥ 760) := by simp [hcool]
  rw [if_neg (not_not_intro hphase), if_neg hwarm]
  by_cases hcal : t.calRowOk = false
  · simp [hcal, bootFail]
  by_cases hbooted : (applyTests t s).fw.booted = 0
  · simp [hcal, hbooted, bootFail]
  by_cases hgroups : 8 ≤ (applyTests t s).itg.retired.length
  · simp [hcal, hbooted, hgroups, bootFail]
  have hmap : t.mapOk = false := ((hfault.resolve_left hcal).resolve_left hbooted).resolve_left hgroups
  simp [hcal, hbooted, hgroups, hmap, bootFail]

theorem exec_flushEnd_of_flushing (s : State) (k : FlushKind) :
    s.life.flushing = some k →
    let s1 := spillOpen (s.modLife fun l => { l with flushing := none })
    exec .flushEnd s = .next (match k with
      | .isolation => domainsOff (List.range 50) s1
      | .thermal => linkDown (domainsOff (List.range 50) (s1.modLife fun l => { l with cfs := true }))
      | .perst => if s.life.perst then s1 else coldStart s1
      | .abrupt => (s1.modLife fun l => { l with abruptDone := true }).modFns fun fs =>
          fs.map fun f => if f.id = 0 then { f with shst := 2 } else f) := by
  intro hflush s1
  refine next_of_eq ?_
  simp only [hflush]
  rfl

/-- Settles O10, a lemma for each clause. -/
theorem suppliesAndResetsComplete : Obligations.SuppliesAndResetsComplete := by
  unfold Obligations.SuppliesAndResetsComplete
  exact ⟨exec_perstAssert_of_running, exec_perstAssert_of_short, exec_perstDeassert_of_held, exec_auxPowerPresent_of_atRest,
    exec_powerUp12v_of_off, exec_conventionalReset_of_powered, exec_functionLevelReset_of_enabled, exec_dStateTransition_of_le,
    exec_powerRemoved_of_atRest, exec_startupComplete_of_passed, exec_startupComplete_of_failed, exec_flushEnd_of_flushing⟩

end Sys2Proof.Machine

/-! # Samples, supply warnings, emergencies, isolation and the thermal shutdown (16 R450 to R461) -/

namespace Sys2Proof.Machine

theorem phase_off_of_powered {s : State} (h : s.powered = true) : ¬ (s.life.phase = .isolated ∨ s.life.phase = .thermalDown) := by
  rintro (hp | hp) <;> simp [State.powered, hp] at h

theorem exec_powerSample_of_powered (edge aux w us : Nat) (s : State) (hpowered : s.powered = true) :
    exec (.powerSample edge aux w us) s = .next (s.modPwr fun p =>
      let high := if p.sense * 115 < w * 100 then p.over115 + 10 else 0
      { p with edgeMv := edge, auxMv := aux, over115 := high, force15 := p.force15 || decide (100 ≤ high),
               lowPowerUs := if w < 40 then p.lowPowerUs + 10 else 0,
               edgeLow := if edge < 11300 then (s.now us) / 500 else p.edgeLow,
               auxLow := if aux < 11300 then (s.now us) / 500 else p.auxLow }) := by
  refine next_of_eq ((if_neg (phase_off_of_powered hpowered)).trans ?_)
  simp [hpowered]

theorem exec_powerSample_of_off (edge aux w us : Nat) (s : State) (hphase : s.life.phase = .isolated ∨ s.life.phase = .thermalDown) :
    exec (.powerSample edge aux w us) s = .next (s.modPwr fun p => { p with edgeMv := edge, auxMv := aux }) := by
  exact next_of_eq (if_pos hphase)

theorem exec_supplyWarningBegin_of_low (input mv : Nat) (s : State) (hpowered : s.powered = true) (hinput : input ≤ 1)
    (hmv : mv ≤ 11000) (hcause : s.pwr.causes.getLsbD input = false) :
    let s1 := s.modPwr fun p =>
      if input = 0 then { p with edgeMv := mv, edgeLow := s.tick.toNat } else { p with auxMv := mv, auxLow := s.tick.toNat }
    exec (.supplyWarningBegin input mv) s =
      .next (bankSag (lineUp 0x008 (BitVec.ofNat 32 mv) (ctrAdd .powerSupplyWarnings 0 1 (beginCause input s1)))) := by
  intro s1
  refine next_of_eq ?_
  simp [hpowered, Nat.not_lt.mpr hinput, Nat.not_lt.mpr hmv, hcause, s1]

theorem exec_supplyWarningEnd_of_recovered (input : Nat) (s : State) (hinput : input ≤ 1) (hcause : s.pwr.causes.getLsbD input = true)
    (hmv : 11300 ≤ (if input = 0 then s.pwr.edgeMv else s.pwr.auxMv))
    (hlow : (if input = 0 then s.pwr.edgeLow else s.pwr.auxLow) + 2 ≤ s.tick.toNat) :
    exec (.supplyWarningEnd input) s =
      .next (if (endCause input s).warned then endCause input s else lineDown 0x008 (endCause input s)) := by
  refine next_of_eq ?_
  simp [Nat.not_lt.mpr hinput, Nat.not_lt.mpr hmv, Nat.not_lt.mpr hlow, hcause]

theorem exec_supplyIsolation_of_low (mv : Nat) (s : State) (hmv : mv ≤ 10400) (hphase : s.powered = true ∨ s.life.phase = .thermalDown)
    :
    let s1 := ctrAdd .powerIsolations 0 1 (raise 0x009 (BitVec.ofNat 32 mv) (beginCause 2 s))
    exec (.supplyIsolation mv) s = .next (linkDown (domainsOff (List.range 25 ++ [41, 42, 48, 49])
      ((if s.life.flushing.isSome then s1 else abandon s1).modLife fun l =>
        { l with phase := .isolated, flushing := some .isolation, flushCut := none }))) := by
  intro s1
  have hguard : ¬ (decide (mv > 10400) || !(s.powered || s.life.phase == .thermalDown)) = true := by
    rcases hphase with h | h <;> simp [Nat.not_lt.mpr hmv, h]
  exact next_of_eq (if_neg hguard)

theorem exec_flushStopped_of_isolation (s : State) (hflush : s.life.flushing = some .isolation) :
    ∃ n, n < 6 ∧ exec .flushStopped s = .next (ctrAdd .powerIncompleteFlushes 0 1
      ({ s with free := s.free + 1 }.modLife fun l => { l with flushing := none, flushCut := some n })) := by
  refine ⟨(Config.freeValue s.free).toNat % 6, Nat.mod_lt _ (by decide), next_of_eq ?_⟩
  simp [hflush, draw]

theorem exec_thermalLevelStep_of_powered (temp : Int) (s : State) (hpowered : s.powered = true) :
    exec (.thermalLevelStep temp) s = .next (throttleLine temp (s.modPwr fun p =>
      { p with temp, thermalLevel :=
                 if p.thermalEmerg then 15 else if 760 ≤ temp then sat 15 (p.thermalLevel + 1)
                 else if temp < 736 then p.thermalLevel - 1 else p.thermalLevel })) := by
  refine next_of_eq ?_
  simp [hpowered]

theorem exec_thermalEmergencyBegin_of_hot (temp : Int) (s : State) (hpowered : s.powered = true) (htemp : 840 ≤ temp)
    (hcalm : s.pwr.thermalEmerg = false) :
    let d := BitVec.ofNat 32 (ofSigned 32 temp)
    exec (.thermalEmergencyBegin temp) s = .next (holdActivation (throttleLine temp (lineUp 0x00C d
      (ctrAdd .powerThermalEmergencies 0 1 (s.modPwr fun p =>
        { p with temp, thermalEmerg := true, thermalLevel := 15, calmSince := none }))))) := by
  intro d
  refine next_of_eq ?_
  simp [hpowered, Int.not_lt.mpr htemp, hcalm, d]

theorem exec_thermalEmergencyEnd_of_cool (s : State) (hemerg : s.pwr.thermalEmerg = true) (htemp : s.pwr.temp < 800) :
    exec .thermalEmergencyEnd s =
      .next (calm (s.tick.toNat + 1) (lineDown 0x00C (s.modPwr fun p => { p with thermalEmerg := false }))) := by
  refine next_of_eq ?_
  simp [hemerg, Int.not_le.mpr htemp]

theorem exec_thermalShutdown_of_hot (s : State) (hpowered : s.powered = true) (htemp : 880 ≤ s.pwr.temp)
    (hquiet : s.life.flushing = none) :
    exec .thermalShutdown s = .next ((abandon s).modLife fun l =>
      { l with phase := .thermalDown, flushing := some .thermal, flushCut := none, coolWait := true }) := by
  refine next_of_eq ?_
  simp [hpowered, Int.not_lt.mpr htemp, hquiet]

/-- Settles O11, a lemma for each clause. -/
theorem powerEventsComplete : Obligations.PowerEventsComplete := by
  unfold Obligations.PowerEventsComplete
  exact ⟨exec_powerSample_of_powered, exec_powerSample_of_off, exec_supplyWarningBegin_of_low,
    exec_supplyWarningEnd_of_recovered, exec_supplyIsolation_of_low, exec_flushStopped_of_isolation,
    exec_thermalLevelStep_of_powered, exec_thermalEmergencyBegin_of_hot, exec_thermalEmergencyEnd_of_cool,
    exec_thermalShutdown_of_hot⟩

end Sys2Proof.Machine

/-! # The transitions of the power domains (16 Table 16-1, R443 to R446) -/

namespace Sys2Proof.Machine

theorem exec_domainWake_of_mayWake (n : Nat) (s : State) (hn : n ≤ 49) (hstate : (s.domain n).state ≠ .on)
    (hmay : s.powered = true ∧ s.mayWake n = true) (himage : ¬ (n < 25 ∧ (s.domain n).newImage = true)) :
    let s1 := modDomain n (fun d => { d with state := .on, idle := 0 }) s
    let s2 := if (s.domain n).state == .gated then s1 else ctrAdd .powerWakesFromRETAINOrOFF n 1 s1
    exec (.domainWake n) s = .next (if n = 41 ∨ n = 42 then s2.modLife fun l => { l with l1 := false } else s2) := by
  intro s1 s2
  obtain ⟨hpowered, hwake⟩ := hmay
  refine next_of_eq ?_
  simp [Nat.not_lt.mpr hn, hstate, hpowered, hwake, himage, s1, s2]

theorem exec_domainWake_of_newImage (n : Nat) (s : State) (hn : n < 25) (hstate : (s.domain n).state ≠ .on)
    (hmay : s.powered = true ∧ s.mayWake n = true) (himage : (s.domain n).newImage = true) :
    let s1 := modDomain n (fun d => { d with state := .on, idle := 0 }) s
    exec (.domainWake n) s = .next (bandTakes n ((s.fw.activation.map (·.1)).getD s.fw.vane)
      (if (s.domain n).state == .gated then s1 else ctrAdd .powerWakesFromRETAINOrOFF n 1 s1)) := by
  intro s1
  obtain ⟨hpowered, hwake⟩ := hmay
  have hphy : ¬ (n = 41 ∨ n = 42) := by omega
  refine next_of_eq ?_
  simp [show ¬ 49 < n by omega, hstate, hpowered, hwake, hn, himage, hphy, s1]

theorem exec_bandRetain_of_idle (b : Nat) (s : State) (hb : b ≤ 24) (hstate : (s.domain b).state = .gated)
    (hidle : 8 ≤ (s.domain b).idle) :
    exec (.bandRetain b) s = .next (modDomain b (fun d => { d with state := .retain, idle := 0 }) s) := by
  refine next_of_eq ?_
  simp [Nat.not_lt.mpr hb, hstate, Nat.not_lt.mpr hidle]

theorem exec_flashGroupGate_of_idle (g : Nat) (s : State) (hg : g ≤ 7) (hidle : s.nandBusy g = false)
    (hstate : (s.domain (25 + g)).state = .on) :
    exec (.flashGroupGate g) s = .next (modDomain (25 + g) (fun d => { d with state := .gated, idle := 0 }) s) := by
  refine next_of_eq ?_
  simp [Nat.not_lt.mpr hg, hidle, hstate]

theorem exec_dramSelfRefresh_of_on (g : Nat) (s : State) (hg : g ≤ 7) (hstate : (s.domain (33 + g)).state = .on) :
    exec (.dramSelfRefresh g) s = .next (modDomain (33 + g) (fun d => { d with state := .retain, idle := 0 }) s) := by
  refine next_of_eq ?_
  simp [Nat.not_lt.mpr hg, hstate]

theorem exec_fabricQuadrantGate_of_on (q : Nat) (s : State) (hq : q ≤ 3) (hstate : (s.domain (43 + q)).state = .on) :
    exec (.fabricQuadrantGate q) s = .next (modDomain (43 + q) (fun d => { d with state := .gated, idle := 0 }) s) := by
  refine next_of_eq ?_
  simp [Nat.not_lt.mpr hq, hstate]

theorem exec_aspmL1Entry_of_ready (s : State) (hready : s.powered = true ∧ s.life.cfgReady = true) (hl1 : s.life.l1 = false) :
    let rest (n : Nat) (s : State) : State := modDomain n (fun d => if d.state == .on then { d with state := .retain, idle := 0 } else d) s
    exec .aspmL1Entry s = .next (rest 42 (rest 41 (s.modLife fun l => { l with l1 := true }))) := by
  intro rest
  obtain ⟨hpowered, hcfg⟩ := hready
  refine next_of_eq ?_
  simp [hpowered, hcfg, hl1, rest]

theorem exec_l0pWidthChange_of_ne (w : Nat) (s : State) (hw : [1, 2, 4, 8, 16].contains w = true)
    (hready : s.powered = true ∧ s.life.cfgReady = true) (hne : w ≠ s.life.width) :
    let s1 := s.modLife fun l => { l with width := w }
    exec (.l0pWidthChange w) s = .next (
      if w ≤ 8 then modDomain 42 (fun d => if d.state == .on then { d with state := .retain, idle := 0 } else d) s1
      else if (s.domain 42).state == .retain && !s.life.l1 then
        ctrAdd .powerWakesFromRETAINOrOFF 42 1 (modDomain 42 (fun d => { d with state := .on, idle := 0 }) s1)
      else s1) := by
  intro s1
  obtain ⟨hpowered, hcfg⟩ := hready
  have hguard : (! [1, 2, 4, 8, 16].contains w || !s.powered || !s.life.cfgReady || w == s.life.width) = false := by
    rw [hw, hpowered, hcfg]; simpa using hne
  refine next_of_eq ?_
  simp only [hguard]
  rfl

/-- Settles O12, a lemma for each clause. -/
theorem powerDomainEventsComplete : Obligations.PowerDomainEventsComplete := by
  unfold Obligations.PowerDomainEventsComplete
  exact ⟨exec_domainWake_of_mayWake, exec_domainWake_of_newImage, exec_bandRetain_of_idle, exec_flashGroupGate_of_idle,
    exec_dramSelfRefresh_of_on, exec_fabricQuadrantGate_of_on, exec_aspmL1Entry_of_ready, exec_l0pWidthChange_of_ne⟩

end Sys2Proof.Machine

/-! # Read-level evaluations and SERVICE 0x06 (14 R414, R417) -/

namespace Sys2Proof.Machine

theorem exec_readLevelEvaluation_of_reads (g : Nat) (s : State) (hsample : (s.rdGroup g).sample = none)
    (hreads : 256 ≤ (s.rdGroup g).stats.reads) (hon : s.eff.readLevels = true) (hdie : (s.die (dieOfGroup g)).retired = false) :
    exec (.readLevelEvaluation g) s = .next (modRd g (fun r => { r with stats := {} }) (evalGroup g (s.rdGroup g).stats s).1) := by
  refine next_of_eq ?_
  simp [hsample, Nat.not_lt.mpr hreads, hon, hdie]

theorem exec_readLevelEvaluation_of_samples (g n : Nat) (x : RdStats) (s : State) (hsample : (s.rdGroup g).sample = some (n, x))
    (hn : 16 ≤ n) :
    let e := evalGroup g x s
    exec (.readLevelEvaluation g) s = .next (recalStep g e.2 (modRd g (fun r => { r with sample := none }) e.1)) := by
  intro e
  refine next_of_eq ?_
  simp [hsample, Nat.not_lt.mpr hn, e]

theorem exec_recalibrateReadLevels_of_gate (a : Admin) (s : State) (hruns : adminRuns a.src false s = true)
    (haction : bits a.cdw10.toNat 7 0 = 6) (hgate : serviceGate a 0x06 false s = none) (hreserved : bits a.cdw11.toNat 31 10 = 0)
    (hdie : bits a.cdw11.toNat 9 0 ≤ 511 ∨ bits a.cdw11.toNat 9 0 = 0x3FF) :
    let gs := s.closedGroups (bits a.cdw11.toNat 9 0)
    exec (.recalibrateReadLevels a) s = .next (if gs.isEmpty then ok a.src 0 0 (begun a.src 0xC5 0xFFFF s) else
      gs.foldl (fun s g => modRd g (fun r => { r with sample := r.sample.orElse fun _ => some (0, {}) }) s)
        ((begun a.src 0xC5 0xFFFF s).modCal fun c => { c with recal := c.recal ++ [(a.src, gs, 0)] })) := by
  intro gs
  have hfield : ¬ (bits a.cdw11.toNat 31 10 ≠ 0 ∨ bits a.cdw11.toNat 9 0 > 511 ∧ bits a.cdw11.toNat 9 0 ≠ 0x3FF) := by omega
  refine exec_row_of_ok rfl (not_not_intro haction) hruns ?_
  rw [begun_serviceGate, hgate, orFail, if_neg hfield, begun_closedGroups]
  exact (apply_ite Except.ok _ _ _).symm

/-- Settles O13, a lemma for each clause. -/
theorem readLevelCommandsComplete : Obligations.ReadLevelCommandsComplete := by
  unfold Obligations.ReadLevelCommandsComplete
  exact ⟨exec_readLevelEvaluation_of_reads, exec_readLevelEvaluation_of_samples, exec_recalibrateReadLevels_of_gate⟩

end Sys2Proof.Machine

/-! # LOAD STRUCTURE, DOME CONTROL and the SERVICE fences (02 R54 to R65; 04 R115, R133, R134) -/

namespace Sys2Proof.Machine

theorem exec_loadStructure_of_valid (a : Admin) (s : State) (hruns : adminRuns a.src false s = true)
    (hgate : a.src.fn = 0 ∧ s.granted 0 = true) (hreserved : a.cdw11 = 0 ∧ a.cdw12 = 0 ∧ a.cdw13 = 0 ∧ a.cdw14 = 0 ∧ a.cdw15 = 0)
    (hquiet : s.changing = false) (hpartial : (imageKind a.input = 1 → s.granted 7 = true))
    (hfull : (imageKind a.input = 0 → s.hostCmds.any (fun c => c.opcode != 0x81 && c.opcode != 0x82) = false))
    (hvalid : (validate a.input (Nat.min a.cdw10.toNat a.input.length) (begun a.src 0xC0 0xFFFF s)).isOk = true) :
    ∃ img, validate a.input (Nat.min a.cdw10.toNat a.input.length) (begun a.src 0xC0 0xFFFF s) = .ok img ∧
      exec (.loadStructure a) s = .next (markDissolving (fun d => !(standingDomes img (begun a.src 0xC0 0xFFFF s)).any (·.id == d))
        ((reserve img (begun a.src 0xC0 0xFFFF s)).modStr fun x => { x with change := some { kind := .image img, src := a.src } })) := by
  obtain ⟨img, himg⟩ := isOk_iff.mp hvalid
  obtain ⟨h11, h12, h13, h14, h15⟩ := hreserved
  refine ⟨img, himg, runAdmin_ok hruns ?_⟩
  have hkind1 : ¬ (imageKind a.input = 1 ∧ (!s.granted 7) = true) := by simpa using hpartial
  have hkind0 : ¬ (imageKind a.input = 0 ∧ s.hostCmds.any (fun c => c.opcode != 0x81 && c.opcode != 0x82) = true) := by
    rintro ⟨hzero, hany⟩; rw [hfull hzero] at hany; cases hany
  simp only [begun_vendorGate, begun_changing, begun_granted, begun_hostCmds, vendorGate_of_granted hgate, orFail, h11, h12, h13, h14, h15,
    hquiet, if_neg hkind1, if_neg hkind0, himg]
  rfl

theorem exec_domeDissolve_of_gate (a : Admin) (s : State) (hruns : adminRuns a.src false s = true)
    (hgate : a.src.fn = 0 ∧ s.granted 0 = true) (hfields : bits a.cdw10.toNat 3 0 = 0 ∧ controlReserved a = false ∧ a.cdw11 = 0)
    (hdome : controlDome a ≠ 0 ∧ (s.dome? (controlDome a)).isSome = true) (hquiet : s.changing = false) :
    exec (.domeDissolve a) s = .next (markDissolving (fun x => s.under x (controlDome a))
      ((begun a.src 0xC1 0xFFFF s).modStr fun x => { x with change := some { kind := .dissolve (controlDome a), src := a.src } })) := by
  obtain ⟨haction, hreserved, h11⟩ := hfields
  obtain ⟨hne, hsome⟩ := hdome
  refine exec_row_of_ok rfl (by omega) hruns ?_
  simp [vendorGate_of_granted hgate, orFail, haction, hreserved, h11, hne, hquiet, Option.isSome_iff_ne_none.mp hsome]

theorem exec_domeBind_of_gate (a : Admin) (s : State) (hruns : adminRuns a.src false s = true)
    (hgate : a.src.fn = 0 ∧ s.granted 0 = true)
    (hfields : bits a.cdw10.toNat 3 0 = 1 ∧ controlReserved a = false ∧ bits a.cdw11.toNat 31 6 = 0)
    (hids : controlDome a ≠ 0 ∧ bits a.cdw11.toNat 5 0 ≠ 0) (hfn : (s.fn? (bits a.cdw11.toNat 5 0)).any (·.enabled) = true)
    (hidle : s.vfBusy (bits a.cdw11.toNat 5 0) = false)
    (hfree : s.str.bindings.any (fun b => b.1 == bits a.cdw11.toNat 5 0 || b.2 == controlDome a) = false) :
    exec (.domeBind a) s = .next (ok a.src 0 0 ((begun a.src 0xC1 0xFFFF s).modStr fun x =>
      { x with bindings := x.bindings ++ [(bits a.cdw11.toNat 5 0, controlDome a)], changes := x.changes + 1 })) := by
  obtain ⟨haction, hreserved, h11⟩ := hfields
  obtain ⟨hdome, hne⟩ := hids
  have hnew : ¬ s.str.bindings.contains (bits a.cdw11.toNat 5 0, controlDome a) = true := by
    simp only [List.any_eq_false, List.contains_iff_mem] at hfree ⊢
    exact fun hmem => hfree _ hmem (by simp)
  refine exec_row_of_ok rfl (not_not_intro haction) hruns ?_
  simp only [begun_vendorGate, vendorGate_of_granted hgate, orFail, begun_fn?, begun_vfBusy, begun_str, if_neg hnew, hfree, hidle]
  simp [hreserved, h11, hdome, hne, hfn, setBindings]

theorem exec_domeUnbind_of_gate (a : Admin) (s : State) (f : Nat) (hruns : adminRuns a.src false s = true)
    (hgate : a.src.fn = 0 ∧ s.granted 0 = true) (hfields : bits a.cdw10.toNat 3 0 = 2 ∧ controlReserved a = false ∧ a.cdw11 = 0)
    (hdome : controlDome a ≠ 0) (hbound : s.boundFn (controlDome a) = some f) (hidle : s.vfBusy f = false) :
    exec (.domeUnbind a) s = .next (ok a.src 0 0 ((begun a.src 0xC1 0xFFFF s).modStr fun x =>
      { x with bindings := x.bindings.filter (·.2 ≠ controlDome a), changes := x.changes + 1 })) := by
  obtain ⟨haction, hreserved, h11⟩ := hfields
  refine exec_row_of_ok rfl (not_not_intro haction) hruns ?_
  simp [vendorGate_of_granted hgate, orFail, hreserved, h11, hdome, hbound, hidle, setBindings]

theorem exec_serviceFence_of_gate (a : Admin) (s : State) (hruns : adminRuns a.src false s = true)
    (hgate : serviceGate a 1 true s = none) (hcluster : a.cdw11.toNat ≤ 799) (hfree : s.str.fenced.contains a.cdw11.toNat = false) :
    exec (.serviceFence a) s = .next ((begun a.src 0xC5 0xFFFF s).modStr fun x => { x with fences := x.fences ++
      [{ cluster := a.cdw11.toNat, replace := bit a.cdw10.toNat 8, src := a.src, unfence := false }] }) := by
  have haction := action_of_serviceGate hgate
  refine exec_row_of_ok rfl (by omega) hruns ?_
  rw [begun_serviceGate, hgate, orFail, if_neg (Nat.not_lt.mpr hcluster), begun_str, hfree]
  rfl

theorem exec_serviceUnfence_of_gate (a : Admin) (s : State) (hruns : adminRuns a.src false s = true)
    (hgate : serviceGate a 2 false s = none) (hcluster : a.cdw11.toNat ≤ 799) (hfenced : s.str.fenced.contains a.cdw11.toNat = true) :
    exec (.serviceUnfence a) s = .next ((begun a.src 0xC5 0xFFFF s).modStr fun x => { x with fences := x.fences ++
      [{ cluster := a.cdw11.toNat, replace := false, src := a.src, unfence := true }] }) := by
  refine exec_row_of_ok rfl (not_not_intro (action_of_serviceGate hgate)) hruns ?_
  rw [begun_serviceGate, hgate, orFail, if_neg (Nat.not_lt.mpr hcluster), begun_str, hfenced]
  rfl

/-- Settles O14, a lemma for each clause. -/
theorem structureCommandsWait : Obligations.StructureCommandsWait := by
  unfold Obligations.StructureCommandsWait
  exact ⟨exec_loadStructure_of_valid, exec_domeDissolve_of_gate, exec_domeBind_of_gate, exec_domeUnbind_of_gate,
    exec_serviceFence_of_gate, exec_serviceUnfence_of_gate⟩

end Sys2Proof.Machine

/-! # When an image, a dissolution, a fence and an unfence take effect (02 R57 to R66) -/

namespace Sys2Proof.Machine

/-- The request at the front is due when no change waits and it is ready. -/
theorem fenceDue_of_ready {s : State} {r : FenceReq} {rest : List FenceReq} (hfences : s.str.fences = r :: rest)
    (hchange : s.str.change = none) (hready : s.fenceReady r = true) : s.fenceDue = some r := by
  simp [State.fenceDue, hfences, hchange, hready]

/-- The front request leaves the list when its turn comes. -/
theorem modStr_drop_fences {s : State} {r : FenceReq} {rest : List FenceReq} (hfences : s.str.fences = r :: rest) :
    (s.modStr fun x => { x with fences := x.fences.drop 1 }) = s.modStr fun x => { x with fences := rest } := by
  simp [State.modStr, hfences]

theorem exec_imageTakesEffect_of_ready (s : State) (img : Image) (src : Src) (stopped : Option Nat)
    (hchange : s.str.change = some { kind := .image img, src, stopped }) (hstep : s.sch.step = 1)
    (hready : img.partial_ = false ∨ (stopped.any (· < s.tick.toNat) = true ∧ s.busyUnder img.target = false)) :
    exec .imageTakesEffect s = .next (heartbeatStep (middleSteps (structurePacket 0 img.target 0xFFFF (applyImage img src s)))) := by
  have hnow : s.changeReady { kind := .image img, src, stopped } = true := by
    rcases hready with h | ⟨hstopped, hidle⟩
    · simp [State.changeReady, ChangeKind.target, h]
    · cases hp : img.partial_ <;> simp [State.changeReady, ChangeKind.target, hp, hstopped, hidle]
  have hdue : s.imageDue = some img := by simp [State.imageDue, hchange, hnow]
  refine next_of_eq ((if_pos (by simp [hstep, hdue])).trans ?_)
  simp [changeNow, hchange]

theorem exec_dissolveTakesEffect_of_ready (s : State) (d : Nat) (src : Src) (stopped : Option Nat)
    (hchange : s.str.change = some { kind := .dissolve d, src, stopped }) (hstep : s.sch.step = 1)
    (hready : stopped.any (· < s.tick.toNat) = true ∧ s.busyUnder d = false) :
    exec .dissolveTakesEffect s = .next (heartbeatStep (middleSteps (applyDissolve d src s))) := by
  obtain ⟨hstopped, hidle⟩ := hready
  have hnow : s.changeReady { kind := .dissolve d, src, stopped } = true := by
    simp [State.changeReady, ChangeKind.target, hstopped, hidle]
  have hdue : s.dissolveDue = some d := by simp [State.dissolveDue, hchange, hnow]
  refine next_of_eq ((if_pos (by simp [hstep, hdue])).trans ?_)
  simp [changeNow, hchange]

theorem exec_fenceTakesEffect_of_ready (s : State) (r : FenceReq) (rest : List FenceReq) (hfences : s.str.fences = r :: rest)
    (hkind : s.str.change = none ∧ r.unfence = false) (hfree : s.str.fenced.contains r.cluster = false) (hstep : s.sch.step = 1)
    (hready : r.stopped.any (· < s.tick.toNat) = true ∧ (s.running r.cluster).isEmpty = true) :
    let s1 := s.modStr fun x => { x with fences := rest }
    let repl := if r.replace then s1.replacement r.cluster else none
    exec (.fenceTakesEffect r.cluster) s = .next (heartbeatStep (middleSteps (ok r.src (match repl with | some y => 1 + y * 2 ^ 16 | none => 0) 0
      (applyFence r.cluster repl false s1)))) := by
  intro s1 repl
  obtain ⟨hchange, hunfence⟩ := hkind
  obtain ⟨hstopped, hidle⟩ := hready
  have hdue : s.fenceDue = some r := fenceDue_of_ready hfences hchange (by simp [State.fenceReady, hstopped, hidle])
  refine next_of_eq ?_
  rw [hdue]
  refine (if_pos (by simp [hstep, hunfence])).trans ?_
  simp only [fenceNow, modStr_drop_fences hfences]
  exact congrArg (fun t => heartbeatStep (middleSteps t)) (if_neg (ne_true_of_eq_false hfree))

theorem exec_unfenceTakesEffect_of_ready (s : State) (r : FenceReq) (rest : List FenceReq) (hfences : s.str.fences = r :: rest)
    (hkind : s.str.change = none ∧ r.unfence = true) (hfenced : s.str.fenced.contains r.cluster = true)
    (hready : s.sch.step = 1 ∧ r.stopped.any (· < s.tick.toNat) = true) :
    exec (.unfenceTakesEffect r.cluster) s = .next (heartbeatStep (middleSteps (ok r.src 0 0 (structurePacket 2 0 r.cluster
      (s.modStr fun x => { x with fences := rest, fenced := delN r.cluster x.fenced, changes := x.changes + 1 }))))) := by
  obtain ⟨hchange, hunfence⟩ := hkind
  obtain ⟨hstep, hstopped⟩ := hready
  have hdue : s.fenceDue = some r := fenceDue_of_ready hfences hchange (by simp [State.fenceReady, hstopped, hunfence])
  refine next_of_eq ?_
  rw [hdue]
  refine (if_pos (by simp [hstep, hunfence])).trans ?_
  simp only [unfenceNow, modStr_drop_fences hfences]
  exact congrArg (fun t => heartbeatStep (middleSteps t)) (if_neg (by simpa using hfenced))

/-- Settles O15, a lemma for each clause. -/
theorem structureChangesTakeEffect : Obligations.StructureChangesTakeEffect := by
  unfold Obligations.StructureChangesTakeEffect
  exact ⟨exec_imageTakesEffect_of_ready, exec_dissolveTakesEffect_of_ready, exec_fenceTakesEffect_of_ready,
    exec_unfenceTakesEffect_of_ready⟩

end Sys2Proof.Machine

/-! # LANTERN CONTROL, the capture device and the sending of a packet (21 R537 to R540) -/

namespace Sys2Proof.Machine

/-- An action that passes its checks waits for the next boundary and returns the count of the sources (R539). -/
theorem lanternControl_of_ok {a : Admin} {action : Nat} {s : State} (mask : QWord) (hgate : a.src.fn = 0 ∧ s.granted 9 = true)
    (hfuse : s.sec.obsOff = false) (hreserved : bits a.cdw10.toNat 31 2 = 0 ∧ a.cdw13 = 0 ∧ a.cdw14 = 0 ∧ a.cdw15 = 0) :
    let now := ((s.lan.pending.filter (·.1 == 2)).getLast?.map (·.2)).getD s.lan.mask
    let m := if action = 2 then mask else now
    lanternControl a action mask (begun a.src 0xC6 0xFFFF s) =
      .ok (ok a.src (maskCount m) 0 ((begun a.src 0xC6 0xFFFF s).modLan fun l => { l with pending := l.pending ++ [(action, m)] })) := by
  obtain ⟨h10, h13, h14, h15⟩ := hreserved
  simp [lanternControl, vendorGate_of_granted hgate, orFail, hfuse, h10, h13, h14, h15]

theorem exec_lanternDisable_of_gate (a : Admin) (s : State) (hruns : adminRuns a.src false s = true)
    (hgate : a.src.fn = 0 ∧ s.granted 9 = true) (hfuse : s.sec.obsOff = false) (h10 : a.cdw10 = 0)
    (hreserved : a.cdw11 = 0 ∧ a.cdw12 = 0 ∧ a.cdw13 = 0 ∧ a.cdw14 = 0 ∧ a.cdw15 = 0) :
    let now := ((s.lan.pending.filter (·.1 == 2)).getLast?.map (·.2)).getD s.lan.mask
    exec (.lanternDisable a) s = .next (ok a.src (maskCount now) 0 ((begun a.src 0xC6 0xFFFF s).modLan fun l => { l with pending := l.pending ++ [(0, now)] })) := by
  intro now
  obtain ⟨h11, h12, hrest⟩ := hreserved
  refine exec_row_of_ok rfl (by simp [h10, bits]) hruns ((if_neg (by simp [h11, h12])).trans ?_)
  exact lanternControl_of_ok 0 hgate hfuse ⟨by simp [h10, bits], hrest⟩

theorem exec_lanternEnable_of_gate (a : Admin) (s : State) (hruns : adminRuns a.src false s = true)
    (hgate : a.src.fn = 0 ∧ s.granted 9 = true) (hfuse : s.sec.obsOff = false) (h10 : a.cdw10 = 1)
    (hreserved : a.cdw11 = 0 ∧ a.cdw12 = 0 ∧ a.cdw13 = 0 ∧ a.cdw14 = 0 ∧ a.cdw15 = 0) :
    let now := ((s.lan.pending.filter (·.1 == 2)).getLast?.map (·.2)).getD s.lan.mask
    exec (.lanternEnable a) s = .next (ok a.src (maskCount now) 0 ((begun a.src 0xC6 0xFFFF s).modLan fun l => { l with pending := l.pending ++ [(1, now)] })) := by
  intro now
  obtain ⟨h11, h12, hrest⟩ := hreserved
  refine exec_row_of_ok rfl (by simp [h10, bits]) hruns ((if_neg (by simp [h11, h12])).trans ?_)
  exact lanternControl_of_ok 0 hgate hfuse ⟨by simp [h10, bits], hrest⟩

theorem exec_lanternSetSources_of_gate (a : Admin) (s : State) (hruns : adminRuns a.src false s = true)
    (hgate : a.src.fn = 0 ∧ s.granted 9 = true) (hfuse : s.sec.obsOff = false) (h10 : a.cdw10 = 2)
    (hmask : (a.cdw12 ++ a.cdw11 : QWord) &&& ~~~lanSources = 0) (hreserved : a.cdw13 = 0 ∧ a.cdw14 = 0 ∧ a.cdw15 = 0) :
    let m : QWord := (a.cdw12 ++ a.cdw11) ||| 1
    exec (.lanternSetSources a) s = .next (ok a.src (maskCount m) 0 ((begun a.src 0xC6 0xFFFF s).modLan fun l => { l with pending := l.pending ++ [(2, m)] })) := by
  intro m
  have hfield : ¬ (bits a.cdw10.toNat 1 0 = 3 ∨ (a.cdw12 ++ a.cdw11 : QWord) &&& ~~~lanSources ≠ 0) := by simp [h10, bits, hmask]
  refine exec_row_of_ok rfl (by simp [h10, bits]) hruns ?_
  rw [begun_vendorGate, vendorGate_of_granted hgate, orFail, begun_sec, hfuse, if_neg Bool.false_ne_true, if_neg hfield]
  exact lanternControl_of_ok m hgate hfuse ⟨by simp [h10, bits], hreserved⟩

theorem exec_lanternAttach_of_on (s : State) (hon : (s.modLan fun l => { l with lpres := true }).lanternOn = true)
    (hpowered : s.powered = true) (hdomain : (s.domain 49).state = .off) :
    exec .lanternAttach s = .next (lanternStart (s.modLan fun l => { l with lpres := true })) := by
  have hguard : (s.modLan fun l => { l with lpres := true }).powered = true := hpowered
  have hoff : ((s.modLan fun l => { l with lpres := true }).domain 49).state = .off := hdomain
  exact next_of_eq (if_pos (by simp [hon, hguard, hoff]))

theorem exec_lanternDetach (s : State) :
    exec .lanternDetach s = .next (domainsOff [49] (s.modLan fun l => { l with lpres := false })) := by
  rfl

theorem exec_lanternPacketSend_of_found (lane : Nat) (s : State) (p : Packet) (hlane : lane ≤ 1) (hdomain : (s.domain 49).state = .on)
    (hfound : s.lan.fifo.find? (fun p => p.seq % 2 == lane) = some p) :
    exec (.lanternPacketSend lane) s = .next (lanternDrained (ctrAdd .lanternPacketsSent lane 1
      ((s.modLan fun l => { l with fifo := l.fifo.erase p, sentNow := l.sentNow + 1 }).modOut fun o =>
        { o with lantern := o.lantern ++ [(lane, p)] }))) := by
  refine next_of_eq ?_
  simp [Nat.not_lt.mpr hlane, hdomain, hfound]

/-- Settles O16, a lemma for each clause. -/
theorem lanternCommandsComplete : Obligations.LanternCommandsComplete := by
  unfold Obligations.LanternCommandsComplete
  exact ⟨exec_lanternDisable_of_gate, exec_lanternEnable_of_gate, exec_lanternSetSources_of_gate, exec_lanternAttach_of_on,
    exec_lanternDetach, exec_lanternPacketSend_of_found⟩

end Sys2Proof.Machine

/-! # The bank's measurement, the write cache's size and the thermal trims (14 R418 to R423; 16 R462, R463) -/

namespace Sys2Proof.Machine

theorem exec_testButtressBank_of_gate (a : Admin) (s : State) (hruns : adminRuns a.src false s = true)
    (hgate : serviceGate a 7 false s = none) (h11 : a.cdw11 = 0) (hcalm : s.emergency = false) :
    exec (.testButtressBank a) s = .next ((begun a.src 0xC5 0xFFFF s).modCal fun c => { c with bankSrc := c.bankSrc ++ [(a.src, false)] }) := by
  refine exec_row_of_ok rfl (not_not_intro (action_of_serviceGate hgate)) hruns ?_
  simp [hgate, orFail, h11, hcalm]

theorem exec_bankMeasurementStart_of_due (s : State) (hphase : s.cal.bankPhase = .idle)
    (hasked : s.cal.bankSrc ≠ [] ∨ s.bankDue = true) (hcalm : s.calmTick = true) :
    let s1 := if drawEnd s.cal.capUF < 22000 then resizeCache (cacheFor (drawEnd s.cal.capUF)) s else s
    exec .bankMeasurementStart s = .next (s1.modCal fun c =>
      { c with bankPhase := if s1.fls.cacheTarget.isSome then .shrinking else .drawing,
               bankSrc := c.bankSrc.map fun x => (x.1, true) }) := by
  have hask : ¬ (s.cal.bankPhase ≠ .idle ∨ (s.cal.bankSrc.isEmpty = true ∧ (!s.bankDue) = true)) := by
    rw [List.isEmpty_iff, Bool.not_eq_true']
    rcases hasked with h | h <;> simp [hphase, h]
  exact next_of_eq ((if_neg hask).trans (if_neg (by simp [hcalm])))

theorem exec_bankDrawEnd_of_drawing (stepUv deltaUv : Nat) (s : State) (hphase : s.cal.bankPhase = .drawing) (hdelta : deltaUv ≠ 0) :
    exec (.bankDrawEnd stepUv deltaUv) s = .next (s.modCal fun x =>
      { x with bankPhase := .recharging,
               bankNew := some (200000000000 / deltaUv, 304 * (200000000000 / deltaUv) / 1000, stepUv / 2) }) := by
  refine next_of_eq ?_
  simp [hphase, hdelta]

theorem exec_bankRecharged_of_recharging (s : State) (c e r : Nat) (hphase : s.cal.bankPhase = .recharging)
    (hnew : s.cal.bankNew = some (c, e, r)) :
    let s1 := ctrAdd .calibBankMeasurements 0 1 (raise 0x00E (BitVec.ofNat 32 e) (s.modCal fun x =>
      { x with bankPhase := .idle, bankNew := none, capUF := c, energy := e, esr := r, bankTick := s.tick.toNat,
               bankResult := if e < 15000 then 4 else if e < 22000 then 3 else 1 }))
    exec .bankRecharged s = .next (resizeCache (cacheFor s1.cal.energy) (bankAnswer s1)) := by
  intro s1
  refine next_of_eq ?_
  simp [hphase, hnew, s1]

theorem exec_writeCacheResized_of_le (s : State) (mib : Nat) (htarget : s.fls.cacheTarget = some mib) (hfits : s.cacheUsed ≤ mib * 256)
    :
    exec .writeCacheResized s = .next ((setCache mib s).modCal fun c =>
      { c with bankPhase := if c.bankPhase = .shrinking then .drawing else c.bankPhase }) := by
  refine next_of_eq ?_
  simp [htarget, Nat.not_lt.mpr hfits]

theorem exec_thermalTrimStep_of_length (raw : List Int) (s : State) (hlen : raw.length = 40) :
    let now := s.trimmed raw
    let s1 := s.modCal fun c => { c with readings := now }
    let want := now.zipIdx.map fun x => if x.2 = 0 then 0 else s.trim x.2 + trimStep (now.headD 0) x.1
    let held := (want.zipIdx.filter fun x => x.1 > 16 || x.1 < -16).map (·.2)
    exec (.thermalTrimStep raw) s = .next (
      if !s.eff.thermal || s.pwr.lowPowerUs < 10000000 || s.emergency || hottest now ≥ 760 then s1
      else (held.filter fun i => !s.cal.trimRaised.contains i).foldl (fun s i => raise 0x00F (BitVec.ofNat 32 i) s)
        (s1.modCal fun c => { c with trimsNext := some (want.map fun v => if v > 16 then 16 else if v < -16 then -16 else v),
                                     trimRaised := nubN (c.trimRaised ++ held) })) := by
  intro now s1 want held
  refine next_of_eq ((if_neg (not_not_intro hlen)).trans ?_)
  rfl

/-- Settles O17, a lemma for each clause. -/
theorem bankCacheAndTrimCommandsComplete : Obligations.BankCacheAndTrimCommandsComplete := by
  unfold Obligations.BankCacheAndTrimCommandsComplete
  exact ⟨exec_testButtressBank_of_gate, exec_bankMeasurementStart_of_due, exec_bankDrawEnd_of_drawing,
    exec_bankRecharged_of_recharging, exec_writeCacheResized_of_le, exec_thermalTrimStep_of_length⟩

end Sys2Proof.Machine

/-! # The tick boundary (03 R67, R71) -/

namespace Sys2Proof.Machine

/-- Settles O18, phase by phase. -/
theorem tickBoundaryCompletes : Obligations.TickBoundaryCompletes := by
  unfold Obligations.TickBoundaryCompletes
  intro w extra s
  refine next_of_eq ?_
  cases s.life.phase <;> rfl

end Sys2Proof.Machine

/-! # The dispatch of a task (03 R75 to R77, R94 to R96; 16 R452) -/

namespace Sys2Proof.Machine

section Dispatch

variable {t : TaskRef} (us : Nat) {s : State} {c : Cmd} {h : Chain} (htask : s.cmd? t.src = some c ∧ s.chain? t = some h)
  (hup : s.hb.quiesced = false ∧ s.life.phase = .up ∧ s.sch.step = 0)
include htask hup

/-- A module that is up and between boundaries looks first at shedding, then at throttling, then at whose turn it is. -/
theorem exec_taskDispatch_of_up : exec (.taskDispatch t us) s = .next (
    if s.heldLow c h then stretch (s.part c.dome) s
    else if s.onlyThrottled c h then ctrPart .powerDispatchesRefusedByThrottling c.dome 1 s
    else match s.turn us with
      | none => s
      | some d => match s.firstOf us d with
        | none => s
        | some (u, cl, lent) =>
          if u ≠ t || (s.domain (cl / 32)).state != .on then s
          else if s.sch.budget < 30 then stretch (s.part c.dome) (s.modSch fun k => { k with carried := true })
          else kickWalk t (claim t (startTask t cl lent us s))) := by
  obtain ⟨hc, hh⟩ := htask
  obtain ⟨hquiet, hphase, hstep⟩ := hup
  refine next_of_eq ?_
  simp only [hc, hh, hquiet, hphase, hstep]
  rfl

end Dispatch

theorem exec_taskDispatch_of_budget (t : TaskRef) (us : Nat) (s : State) (c : Cmd) (h : Chain) (d cl : Nat) (lent : Option Nat)
    (htask : s.cmd? t.src = some c ∧ s.chain? t = some h) (hup : s.hb.quiesced = false ∧ s.life.phase = .up ∧ s.sch.step = 0)
    (hfree : s.heldLow c h = false ∧ s.onlyThrottled c h = false) (hturn : s.turn us = some d)
    (hfirst : s.firstOf us d = some (t, cl, lent)) (hdomain : (s.domain (cl / 32)).state = .on) (hbudget : 30 ≤ s.sch.budget) :
    exec (.taskDispatch t us) s = .next (kickWalk t (claim t (startTask t cl lent us s))) := by
  obtain ⟨hheld, hthrottled⟩ := hfree
  rw [exec_taskDispatch_of_up us htask hup]
  simp [hheld, hthrottled, hturn, hfirst, hdomain, Nat.not_lt.mpr hbudget]

theorem exec_taskDispatch_of_exhausted (t : TaskRef) (us : Nat) (s : State) (c : Cmd) (h : Chain) (d cl : Nat) (lent : Option Nat)
    (htask : s.cmd? t.src = some c ∧ s.chain? t = some h) (hup : s.hb.quiesced = false ∧ s.life.phase = .up ∧ s.sch.step = 0)
    (hfree : s.heldLow c h = false ∧ s.onlyThrottled c h = false) (hturn : s.turn us = some d)
    (hfirst : s.firstOf us d = some (t, cl, lent)) (hdomain : (s.domain (cl / 32)).state = .on) (hbudget : s.sch.budget < 30) :
    exec (.taskDispatch t us) s = .next (stretch (s.part c.dome) (s.modSch fun k => { k with carried := true })) := by
  obtain ⟨hheld, hthrottled⟩ := hfree
  rw [exec_taskDispatch_of_up us htask hup]
  simp [hheld, hthrottled, hturn, hfirst, hdomain, hbudget]

theorem exec_taskDispatch_of_heldLow (t : TaskRef) (us : Nat) (s : State) (c : Cmd) (h : Chain)
    (htask : s.cmd? t.src = some c ∧ s.chain? t = some h) (hup : s.hb.quiesced = false ∧ s.life.phase = .up ∧ s.sch.step = 0)
    (hheld : s.heldLow c h = true) :
    exec (.taskDispatch t us) s = .next (stretch (s.part c.dome) s) := by
  rw [exec_taskDispatch_of_up us htask hup, if_pos hheld]

theorem exec_taskDispatch_of_onlyThrottled (t : TaskRef) (us : Nat) (s : State) (c : Cmd) (h : Chain)
    (htask : s.cmd? t.src = some c ∧ s.chain? t = some h) (hup : s.hb.quiesced = false ∧ s.life.phase = .up ∧ s.sch.step = 0)
    (hheld : s.heldLow c h = false ∧ s.onlyThrottled c h = true) :
    exec (.taskDispatch t us) s = .next (ctrPart .powerDispatchesRefusedByThrottling c.dome 1 s) := by
  obtain ⟨hfree, hthrottled⟩ := hheld
  rw [exec_taskDispatch_of_up us htask hup]
  simp [hfree, hthrottled]

/-- Settles O19, a lemma for each clause. -/
theorem dispatchCompletes : Obligations.DispatchCompletes := by
  unfold Obligations.DispatchCompletes
  exact ⟨exec_taskDispatch_of_budget, exec_taskDispatch_of_exhausted, exec_taskDispatch_of_heldLow,
    exec_taskDispatch_of_onlyThrottled⟩

end Sys2Proof.Machine

/-! # The end, the failure and the overrun stop of a task (03 R69, R70, R84; 05 R156) -/

namespace Sys2Proof.Machine

theorem exec_taskEnd_of_ran (t : TaskRef) (us : Nat) (x : TaskEnd) (s : State) (c0 c : Cmd) (h0 h : Chain) (r0 r : Run)
    (hflight : s.flight? t = some (c0, h0, r0)) (hidle : r0.wait = .none ∧ s.ranFor r0 us ≤ h0.task.worst + 500) (hok : x.fail = none)
    (hdone : (advance t (h0.task.firstOp + h0.task.ops) s).flight? t = some (c, h, r)) (hran : h.ran c = true ∧ r.wait = .none)
    (htouch : undeclaredTouch s h x c = none) :
    let s1 := advance t (h0.task.firstOp + h0.task.ops) s
    let s2 := spend 20 (if s.ranFor r us > h.task.worst then ctrPart .schedTaskOverrun c0.dome 1 s1 else s1)
    exec (.taskEnd t us x) s = .next (resumeWalks (startSavesOn r.cluster (settle t.src (lendingCheck t.src (s.now us) (taskDone t c h r us x
      (taskPacket 1 t.src c.opcode c.dome r.cluster 0 0 (s.ranFor r us * 1500) s2)))))) := by
  intro s1 s2
  obtain ⟨hwait, hworst⟩ := hidle
  obtain ⟨hops, hfree⟩ := hran
  refine next_of_eq (congrArg resumeWalks ?_)
  simp [taskEnds, hflight, hwait, Nat.not_lt.mpr hworst, hok, hdone, hops, hfree, htouch, s1, s2]

theorem exec_taskEnd_of_undeclaredTouch (t : TaskRef) (us : Nat) (x : TaskEnd) (s : State) (c0 c : Cmd) (h0 h : Chain) (r0 r : Run)
    (id : Nat) (hflight : s.flight? t = some (c0, h0, r0)) (hidle : r0.wait = .none ∧ s.ranFor r0 us ≤ h0.task.worst + 500)
    (hok : x.fail = none) (hdone : (advance t (h0.task.firstOp + h0.task.ops) s).flight? t = some (c, h, r))
    (hran : h.ran c = true ∧ r.wait = .none) (htouch : undeclaredTouch s h x c = some id) :
    let s1 := advance t (h0.task.firstOp + h0.task.ops) s
    let s2 := spend 20 (if s.ranFor r us > h.task.worst then ctrPart .schedTaskOverrun c0.dome 1 s1 else s1)
    exec (.taskEnd t us x) s = .next (resumeWalks (startSavesOn r.cluster (failTask t (undeclaredFail id) (endLendings t.src (s.now us) s2)))) := by
  intro s1 s2
  obtain ⟨hwait, hworst⟩ := hidle
  obtain ⟨hops, hfree⟩ := hran
  refine next_of_eq (congrArg resumeWalks ?_)
  simp [taskEnds, hflight, hwait, Nat.not_lt.mpr hworst, hok, hdone, hops, hfree, htouch, s1, s2]

theorem exec_taskEnd_of_failure (t : TaskRef) (us : Nat) (x : TaskEnd) (s : State) (c : Cmd) (h : Chain) (r : Run) (f : Failure)
    (hflight : s.flight? t = some (c, h, r)) (hidle : r.wait = .none ∧ s.ranFor r us ≤ h.task.worst + 500) (hfail : x.fail = some f) :
    let s2 := spend 20 (if s.ranFor r us > h.task.worst then ctrPart .schedTaskOverrun c.dome 1 s else s)
    exec (.taskEnd t us x) s = .next (resumeWalks (startSavesOn r.cluster (failCmd t.src f h.done r.cluster
      (taskPacket 3 t.src c.opcode c.dome r.cluster f.sct f.sc (s.ranFor r us * 1500) (leaveCluster t (endLendings t.src (s.now us) s2)))))) := by
  intro s2
  obtain ⟨hwait, hworst⟩ := hidle
  refine next_of_eq (congrArg resumeWalks ?_)
  simp [taskEnds, hflight, hwait, Nat.not_lt.mpr hworst, hfail, s2]

theorem exec_taskOverrunStop_of_overrun (t : TaskRef) (us : Nat) (s : State) (c : Cmd) (h : Chain) (r : Run)
    (hflight : s.flight? t = some (c, h, r)) (hover : h.task.worst + 500 ≤ s.ranFor r us) :
    exec (.taskOverrunStop t us false) s = .next (resumeWalks (startSavesOn r.cluster (failTask t St.taskOverrun (endLendings t.src (s.now us)
      (taskPacket 2 t.src c.opcode c.dome r.cluster 7 0x86 (s.ranFor r us * 1500) (ctrPart .schedTaskOverrunStops c.dome 1 s)))))) ∧
    exec (.taskOverrunStop t us true) s = .next s := by
  refine ⟨next_of_eq ?_, next_of_eq ?_⟩
  · simp [hflight, Nat.not_lt.mpr hover]
  · simp [hflight]

/-- Settles O20, a lemma for each clause. -/
theorem taskEventsComplete : Obligations.TaskEventsComplete := by
  unfold Obligations.TaskEventsComplete
  exact ⟨exec_taskEnd_of_ran, exec_taskEnd_of_undeclaredTouch, exec_taskEnd_of_failure, exec_taskOverrunStop_of_overrun⟩

end Sys2Proof.Machine

/-! # Windows, saves, restores, semaphores, lending and fills (03 R79 to R90; 05 R164, R165) -/

namespace Sys2Proof.Machine

@[simp] theorem spend_sems (n : Nat) (s : State) : (spend n s).sch.sems = s.sch.sems := rfl
@[simp] theorem spend_semIndex (n d id : Nat) (s : State) : (spend n s).semIndex d id = s.semIndex d id := rfl

theorem exec_releaseWindowOpen_of_near (part us : Nat) (s : State) (p : SlicePtr) (hswitch : s.switching part = some p)
    (hphase : p.phase = .idle) (hneeded : s.windowNeeded p = true) (hleft : p.lead < p.timeLeft us ∧ p.timeLeft us ≤ p.lead + 100) :
    exec (.releaseWindowOpen part us) s = .next (switchPacket 0 part ((s.outgoing p).headD 0) ((s.incoming p).headD 0) 0xFFFF 0
      (yieldRequests (s.outgoing p) (modPtr part (fun p => { p with phase := .window, windowAt := s.now us }) s))) := by
  obtain ⟨hlead, hnear⟩ := hleft
  refine next_of_eq ?_
  simp [hswitch, hphase, hneeded, hlead, hnear]

theorem exec_saveStart_of_due (part us : Nat) (s : State) (p : SlicePtr) (hswitch : s.switching part = some p)
    (hdue : (p.phase = .idle ∧ p.timeLeft us ≤ p.lead) ∨
    (p.phase = .window ∧ ((p.overrun = false ∧ p.timeLeft us ≤ p.lead) ∨ (p.overrun = true ∧ p.windowAt + 100 ≤ s.now us))))
    :
    exec (.saveStart part us) s = .next (startSave part us
      (if p.phase = .idle ∧ s.windowNeeded p = true then yieldRequests (s.outgoing p) s else s)) := by
  refine next_of_eq ?_
  simp only [hswitch]
  rcases hdue with ⟨hphase, hlead⟩ | ⟨hphase, hlead⟩
  · simp [hphase, hlead]
  · have hwindow : (if p.overrun then p.windowAt + 100 ≤ s.now us else p.timeLeft us ≤ p.lead) := by
      rcases hlead with ⟨hover, hle⟩ | ⟨hover, hle⟩ <;> simpa [hover] using hle
    simp only [hphase]
    exact if_pos hwindow

theorem exec_saveEnd_of_idle (part cl us : Nat) (s : State) (p : SlicePtr) (i : Option Nat) (w : Switch) (hptr : s.ptr? part = some p)
    (hswitch : p.switchOn cl = some (i, w)) (hsaving : w.saving.contains cl = true) (hdomain : (s.domain (cl / 32)).state = .on)
    (hidle : s.busyWith w.outgoing cl = false) :
    exec (.saveEnd part cl us) s = .next (switchDone part us
      (switchPacket 2 part (w.outgoing.headD 0) (w.incoming.headD 0) cl ((s.now us - w.saveAt) * 1500)
        (modPtr part (fun p => p.setSwitch i { w with saving := delN cl w.saving })
          ((cancelReads w.outgoing cl s).modSch fun k =>
            { k with saved := (k.saved.filter fun v => !(w.outgoing.contains v.1 && v.2.1 == cl)) ++ s.savedBy w cl })))) := by
  refine next_of_eq ?_
  simp only [hptr, hswitch, hsaving, hdomain, hidle]
  rfl

theorem exec_restoreEnd_of_saved (part cl us : Nat) (s : State) (p : SlicePtr) (i : Option Nat) (w : Switch)
    (hptr : s.ptr? part = some p) (hswitch : p.switchOn cl = some (i, w)) (hsaving : w.saving.contains cl = false)
    (hdomain : (s.domain (cl / 32)).state = .on) :
    exec (.restoreEnd part cl us) s = .next (freedOn [cl] (switchDone part us
      (switchPacket 3 part (w.outgoing.headD 0) (w.incoming.headD 0) cl ((s.now us - w.saveAt) * 1500)
        (modPtr part (fun p => p.setSwitch i { w with restoring := delN cl w.restoring })
          (s.modSch fun k => { k with saved := k.saved.filter fun v => !(w.incoming.contains v.1 && v.2.1 == cl) }))))) := by
  refine next_of_eq ?_
  simp only [hptr, hswitch, hsaving, hdomain]
  rfl

theorem exec_semaphoreAcquire_of_index (t : TaskRef) (id : Nat) (s : State) (c : Cmd) (h : Chain) (r : Run) (i : Nat) (m : Sem)
    (hflight : s.flight? t = some (c, h, r)) (hwait : r.wait = .none)
    (hsem : (ensureSem c.dome id s).semIndex c.dome id = some i ∧ (ensureSem c.dome id s).sch.sems[i]? = some m)
    (hmay : m.denies c.dome = false) :
    exec (.semaphoreAcquire t id) s = .next (
      if m.count > 0 then modSem i (fun m => { m with count := m.count - 1, held := addHeld t.src 1 m.held }) (spend 15 (ensureSem c.dome id s))
      else
        let s1 := setWait t (.semaphore id) (modSem i (fun m => { m with waiters := m.waiters ++ [t] }) (spend 15 (ensureSem c.dome id s)))
        if m.dome.isNone then semPacket 0 id c.dome r.cluster 0 s1 else s1) := by
  obtain ⟨hindex, hm⟩ := hsem
  refine next_of_eq ?_
  simp [hflight, hwait, hindex, hm, hmay]

theorem exec_semaphoreRelease_of_index (t : TaskRef) (id : Nat) (s : State) (c : Cmd) (h : Chain) (r : Run) (i : Nat) (m : Sem)
    (hflight : s.flight? t = some (c, h, r)) (hwait : r.wait = .none)
    (hsem : (ensureSem c.dome id s).semIndex c.dome id = some i ∧ (ensureSem c.dome id s).sch.sems[i]? = some m)
    (hmay : m.denies c.dome = false) (hroom : m.waiters ≠ [] ∨ m.count + 1 ≤ m.maximum) :
    exec (.semaphoreRelease t id) s = .next (giveUnit i (remark (modSem i (fun m =>
      { m with held := if m.held.any (·.1 == t.src) then addHeld t.src (-1) m.held else m.held }) (spend 15 (ensureSem c.dome id s))))) := by
  obtain ⟨hindex, hm⟩ := hsem
  have hfull : (m.waiters.isEmpty && decide (m.count + 1 > m.maximum)) = false := by
    rcases hroom with h | h
    · simp [h]
    · simp [Nat.not_lt.mpr h]
  refine next_of_eq ?_
  simp only [hflight, hwait, spend_semIndex, spend_sems, hindex, hm, hmay, hfull]
  rfl

theorem exec_lendingStart_of_waiter (sem us i cl wd : Nat) (s : State) (m : Sem) (c : Cmd) (k : TaskSpec)
    (hquiet : s.hb.quiesced = false)
    (hindex : s.sch.sems.findIdx? (fun m => m.id == sem && m.dome.isNone) = some i ∧ s.sch.sems[i]? = some m)
    (hholder : m.suspended.bind s.cmd? = some c) (hwaiter : s.otherWaiter m c.dome = some wd)
    (hfree : m.lending = none ∧ s.eligible c.dome = false ∧ s.eligible wd = true)
    (hplace : c.nextTask = some k ∧ s.place wd k.t0 = some cl) (hdomain : (s.domain (cl / 32)).state = .on) :
    exec (.lendingStart sem us) s = .next (semPacket 3 sem wd cl 0 (raisePart wd 2 (BitVec.ofNat 32 sem)
      (moveSaved c true (modSem i (fun m => { m with lending := some (c.src, wd, cl, s.now us) }) s)))) := by
  obtain ⟨hi, hm⟩ := hindex
  obtain ⟨hlending, hnot, hel⟩ := hfree
  obtain ⟨hk, hcl⟩ := hplace
  refine next_of_eq ?_
  simp [hquiet, hi, hm, hholder, hwaiter, hlending, hnot, hel, hk, hcl, hdomain]

theorem exec_layerFillEnd_of_kept (t : TaskRef) (cl us : Nat) (s : State) (c : Cmd) (h : Chain)
    (htask : s.cmd? t.src = some c ∧ s.chain? t = some h) (hkept : s.fillCancelled c.dome cl = false ∧ h.fillWaits = false) :
    exec (.layerFillEnd t cl us) s = .next (
      if h.filling0.contains cl then
        let rest := delN cl h.filling0
        let s1 := modChain t (fun h => { h with filling0 := rest, fillStart := if rest.isEmpty then none else h.fillStart }) s
        match h.fillStart with
        | some b => if rest.isEmpty then ctrPart .tierFirstFillStallUs c.dome (s.now us - b) s1 else s1
        | none => s1
      else modChain t (fun h => { h with filling := delN cl h.filling }) s) := by
  obtain ⟨hc, hh⟩ := htask
  obtain ⟨hcancel, hwaits⟩ := hkept
  refine next_of_eq ?_
  simp only [hc, hh, hcancel, hwaits]
  rfl

/-- Settles O21, a lemma for each clause. -/
theorem switchAndSemaphoreEventsComplete : Obligations.SwitchAndSemaphoreEventsComplete := by
  unfold Obligations.SwitchAndSemaphoreEventsComplete
  exact ⟨exec_releaseWindowOpen_of_near, exec_saveStart_of_due, exec_saveEnd_of_idle, exec_restoreEnd_of_saved,
    exec_semaphoreAcquire_of_index, exec_semaphoreRelease_of_index, exec_lendingStart_of_waiter, exec_layerFillEnd_of_kept⟩

end Sys2Proof.Machine

/-! # The NVM I/O commands (04 Table 4-1; 12 R356, R367, R377; 16 R463) -/

namespace Sys2Proof.Machine

theorem exec_read_of_check (n : Nvm) (x : Ns) (s : State) (hruns : nvmRuns n.src s = true)
    (hcheck : nvmCheck n.src.fn n.nsid.toNat n.slba.toNat (blockCount n) s = .ok x) :
    exec (.read n) s = .next (beginRead n x false (begun n.src 0x02 0xFFFF s)) := by
  refine runNvm_ok hruns ?_
  rw [begun_nvmCheck, hcheck]

theorem exec_verify_of_check (n : Nvm) (x : Ns) (s : State) (hruns : nvmRuns n.src s = true)
    (hcheck : nvmCheck n.src.fn n.nsid.toNat n.slba.toNat (blockCount n) s = .ok x) :
    exec (.verify n) s = .next (beginRead n x true (begun n.src 0x0C 0xFFFF s)) := by
  refine runNvm_ok hruns ?_
  rw [begun_nvmCheck, hcheck]

theorem exec_write_of_cacheTakes (n : Nvm) (x : Ns) (s : State) (hruns : nvmRuns n.src s = true)
    (hcheck : nvmCheck n.src.fn n.nsid.toNat n.slba.toNat (blockCount n) s = .ok x) (hwrite : s.readOnly = false) :
    let s1 := readRest n x (begun n.src 0x01 0xFFFF s)
    s1.cacheUnits ≠ 0 ∧ s1.cacheTakes x.nsid (x.units n.slba.toNat (blockCount n)) = true →
    exec (.write n) s = .next (ok n.src 0 0 (cacheWrite x.nsid (n.slba.toNat * x.blockBytes)
      (padTo n.input (blockCount n * x.blockBytes)) (x.units n.slba.toNat (blockCount n)) s1)) := by
  intro s1 hcache
  obtain ⟨hunits, htakes⟩ := hcache
  have htaken : takeWrite n x (begun n.src 0x01 0xFFFF s) = some (ok n.src 0 0 (cacheWrite x.nsid (n.slba.toNat * x.blockBytes)
      (padTo n.input (blockCount n * x.blockBytes)) (x.units n.slba.toNat (blockCount n)) s1)) :=
    (if_neg hunits).trans (if_pos htakes)
  refine runNvm_ok hruns ?_
  simp [hcheck, hwrite, htaken]

theorem exec_flush_of_check (n : Nvm) (x : Ns) (s : State) (hruns : nvmRuns n.src s = true)
    (hcheck : nvmCheck n.src.fn n.nsid.toNat 0 0 s = .ok x) :
    exec (.flush n) s = .next (ok n.src 0 0 (begun n.src 0x00 0xFFFF s)) := by
  refine runNvm_ok hruns ?_
  simp [hcheck]

theorem exec_writeZeroes_of_check (n : Nvm) (x : Ns) (s : State) (hruns : nvmRuns n.src s = true)
    (hcheck : nvmCheck n.src.fn n.nsid.toNat n.slba.toNat (blockCount n) s = .ok x) (hwrite : s.readOnly = false) :
    exec (.writeZeroes n) s = .next (ok n.src 0 0 (deallocate x n.slba.toNat (blockCount n) (begun n.src 0x08 0xFFFF s))) := by
  refine runNvm_ok hruns ?_
  simp [hcheck, hwrite]

theorem exec_datasetManagement_of_check (n : Nvm) (x : Ns) (s : State) (hruns : nvmRuns n.src s = true)
    (hcheck : nvmCheck n.src.fn n.nsid.toNat 0 0 s = .ok x) (hdeallocate : bit n.cdw11.toNat 2 = true ∧ s.readOnly = false)
    (hranges : ((dsmRanges n).any fun r => r.1 + r.2 > x.size) = false) :
    exec (.datasetManagement n) s = .next (ok n.src 0 0 ((dsmRanges n).foldl (fun s r => deallocate x r.1 r.2 s) (begun n.src 0x09 0xFFFF s))) := by
  obtain ⟨had, hwrite⟩ := hdeallocate
  refine runNvm_ok hruns ?_
  simp only [begun_nvmCheck, begun_readOnly, hcheck, had, hwrite, hranges]
  rfl

/-- Settles O22, a lemma for each clause. -/
theorem blockCommandsComplete : Obligations.BlockCommandsComplete := by
  unfold Obligations.BlockCommandsComplete
  exact ⟨exec_read_of_check, exec_verify_of_check, exec_write_of_cacheTakes, exec_flush_of_check, exec_writeZeroes_of_check,
    exec_datasetManagement_of_check⟩

end Sys2Proof.Machine

/-! # Namespaces: create, delete, attach, format and sanitize (04 R111, R142 to R145) -/

namespace Sys2Proof.Machine

theorem nsBlocked_of_calm {s : State} (h : s.sanitizing = false) : nsBlocked s = none := by simp [nsBlocked, h]

theorem exec_namespaceCreate_of_room (a : Admin) (k : Nat) (s : State) (hruns : adminRuns a.src false s = true)
    (hcalm : s.sanitizing = false) (hsel : a.nsid ≠ 257 ∧ bits a.cdw10.toNat 3 0 = 0)
    (hformat : le a.input 0 8 ≠ 0 ∧ bits (le a.input 26 1) 3 0 ≤ 1)
    (hroom : extentsFor (le a.input 0 8) (bits (le a.input 26 1) 3 0) + s.nsExtents + s.quotaExtents ≤ 14305114)
    (hfree : s.freeNsid = some k) :
    exec (.namespaceCreate a) s = .next (ok a.src k 0 (((begun a.src 0x0D 0xFFFF s).modSec fun x => { x with nsKeys := s.sec.nsKeys + 1 }).modFls fun x =>
      { x with nss := x.nss ++ [{ nsid := k, size := le a.input 0 8, fmt := bits (le a.input 26 1) 3 0, key := s.sec.nsKeys + 1 }] })) := by
  obtain ⟨hnsid, hzero⟩ := hsel
  obtain ⟨hsize, hfmt⟩ := hformat
  have hother : a.nsid.toNat ≠ 257 := fun h => hnsid (BitVec.eq_of_toNat_eq h)
  refine exec_row_of_ok rfl (by omega) hruns ?_
  simp [nsBlocked_of_calm hcalm, orFail, hzero, hother, hsize, Nat.not_lt.mpr hfmt, Nat.not_lt.mpr hroom, hfree]

theorem exec_namespaceDelete_of_idle (a : Admin) (x : Ns) (s : State) (hruns : adminRuns a.src false s = true)
    (hcalm : s.sanitizing = false) (hsel : bits a.cdw10.toNat 3 0 = 1 ∧ a.nsid ≠ 0xFFFFFFFF)
    (hns : s.ns? a.nsid.toNat = some x ∧ x.busy = false) :
    exec (.namespaceDelete a) s = .next (ok a.src 0 0 (pumpWrites (dropNs x.nsid (begun a.src 0x0D 0xFFFF s)))) := by
  obtain ⟨hone, hnsid⟩ := hsel
  obtain ⟨hx, hbusy⟩ := hns
  have hother : a.nsid.toNat ≠ 0xFFFFFFFF := fun h => hnsid (BitVec.eq_of_toNat_eq h)
  refine exec_row_of_ok rfl (not_not_intro hone) hruns ?_
  simp [nsBlocked_of_calm hcalm, orFail, hother, hx, hbusy]

theorem exec_namespaceAttachment_of_idle (a : Admin) (x : Ns) (s : State) (hruns : adminRuns a.src false s = true)
    (hcalm : s.sanitizing = false) (hns : s.ns? a.nsid.toNat = some x ∧ x.busy = false) (hsel : bits a.cdw10.toNat 3 0 ≤ 1) :
    let cs := (List.range (le a.input 0 2)).map fun i => le a.input (2 + 2 * i) 2
    cs ≠ [] ∧ cs.all (fun c => (s.fn? c).isSome) = true ∧ cs.all (fun c => x.attached.contains c == (bits a.cdw10.toNat 3 0 == 1)) = true →
    exec (.namespaceAttachment a) s = .next (ok a.src 0 0 (modNs x.nsid (fun x =>
      { x with attached := if bits a.cdw10.toNat 3 0 = 0 then x.attached ++ cs else x.attached.filter fun c => !cs.contains c }) (begun a.src 0x15 0xFFFF s))) := by
  intro cs hcs
  obtain ⟨hx, hbusy⟩ := hns
  obtain ⟨hne, hfns, hheld⟩ := hcs
  refine runAdmin_ok hruns ?_
  have hlist : ¬ (cs.isEmpty = true ∨ cs.any (fun c => (s.fn? c).isNone) = true) := by
    simpa [hne, Option.isSome_iff_ne_none] using hfns
  have hadd : ¬ (bits a.cdw10.toNat 3 0 = 0 ∧ cs.any x.attached.contains = true) := by
    rintro ⟨hzero, hany⟩
    simp [hzero] at hheld
    obtain ⟨c, hc, hin⟩ := List.any_eq_true.mp hany
    exact absurd hin (by simpa using hheld c hc)
  have hdrop : ¬ (bits a.cdw10.toNat 3 0 = 1 ∧ cs.any (fun c => !x.attached.contains c) = true) := by
    rintro ⟨hone, hany⟩
    simp [hone] at hheld
    obtain ⟨c, hc, hin⟩ := List.any_eq_true.mp hany
    exact absurd (hheld c hc) (by simpa using hin)
  simp only [begun_nsBlocked, nsBlocked_of_calm hcalm, orFail, begun_ns?, begun_fn?, hx, hbusy, if_neg (Nat.not_lt.mpr hsel)]
  exact (if_neg (by simp)).trans ((if_neg hlist).trans ((if_neg hadd).trans (if_neg hdrop)))

theorem exec_formatNvm_of_idle (a : Admin) (s : State) (hruns : adminRuns a.src false s = true) (hcalm : s.sanitizing = false)
    (hnsid : a.nsid = 0xFFFFFFFF ∨ (s.nsNamed a.nsid.toNat).isEmpty = false)
    (hfields : bits a.cdw10.toNat 11 9 ≤ 2 ∧ bits a.cdw10.toNat 3 0 ≤ 1 ∧ bits a.cdw10.toNat 8 4 = 0)
    (hidle : (s.nsNamed a.nsid.toNat).any (·.busy) = false ∧ (s.progressOf a.src.fn).any Progress.running = false) :
    exec (.formatNvm a) s = .next (putProgress
      { fn := a.src.fn, op := bits a.cdw10.toNat 11 9 + 1, state := 1, nsid := a.nsid.toNat, src := some a.src, lbaf := bits a.cdw10.toNat 3 0 }
      ((s.nsNamed a.nsid.toNat).foldl (fun s n => modNs n.nsid (fun x => { x with busy := true }) s) (begun a.src 0x80 0xFFFF s))) := by
  obtain ⟨hses, hfmt, hpi⟩ := hfields
  obtain ⟨hbusy, hrunning⟩ := hidle
  have hnamed : ¬ (a.nsid.toNat ≠ 0xFFFFFFFF ∧ (s.nsNamed a.nsid.toNat).isEmpty = true) := by
    rintro ⟨hne, hnone⟩
    rcases hnsid with h | h
    · exact hne (congrArg BitVec.toNat h)
    · rw [hnone] at h; cases h
  have hformat : ¬ (bits a.cdw10.toNat 3 0 > 1 ∨ bits a.cdw10.toNat 8 4 ≠ 0) := by omega
  refine runAdmin_ok hruns ?_
  rw [begun_nsBlocked, nsBlocked_of_calm hcalm, orFail]
  simp only [begun_nsNamed, begun_progressOf, if_neg hnamed, if_neg (Nat.not_lt.mpr hses), if_neg hformat, hbusy, hrunning]
  rfl

theorem exec_sanitizeBlockErase_of_idle (a : Admin) (s : State) (hruns : adminRuns a.src false s = true) (haction : sanact a = 2)
    (hidle : s.sanitizing = false ∧ s.fls.progress.any Progress.running = false ∧ s.hostCmds = []) :
    exec (.sanitizeBlockErase a) s =
      .next (ok a.src 0 0 (putProgress { fn := a.src.fn, op := 4, state := 1, nsid := 0xFFFFFFFF } (begun a.src 0x84 0xFFFF s))) := by
  obtain ⟨hcalm, hprogress, hcmds⟩ := hidle
  refine exec_row_of_ok rfl (by omega) hruns ?_
  simp [haction, beginSanitize, hcalm, hprogress, hcmds]

theorem exec_sanitizeCryptoErase_of_idle (a : Admin) (s : State) (hruns : adminRuns a.src false s = true) (haction : sanact a = 4)
    (hidle : s.sanitizing = false ∧ s.fls.progress.any Progress.running = false ∧ s.hostCmds = []) :
    exec (.sanitizeCryptoErase a) s =
      .next (ok a.src 0 0 (putProgress { fn := a.src.fn, op := 5, state := 1, nsid := 0xFFFFFFFF } (begun a.src 0x84 0xFFFF s))) := by
  obtain ⟨hcalm, hprogress, hcmds⟩ := hidle
  refine exec_row_of_ok rfl (not_not_intro haction) hruns ?_
  simp [beginSanitize, hcalm, hprogress, hcmds]

theorem exec_formatSanitizeEnd_of_running (p : Progress) (s : State) (hp : s.progressOf p.fn = some p ∧ p.running = true) :
    exec (.formatSanitizeEnd p.fn true) s = .next (
      let s2 := putProgress { p with state := 2, progress := 65535, status := 0, src := none }
        (if p.op ≤ 3 then endFormat p s else if p.op = 4 then sanitizeAll s else newKeys (sanitizeAll s))
      match p.src with
      | some a => post { src := a, sct := 0, sc := 0 } s2
      | none => s2) := by
  obtain ⟨hfound, hrunning⟩ := hp
  refine next_of_eq ?_
  simp only [hfound, hrunning]
  cases p.src <;> rfl

/-- Settles O23, a lemma for each clause. -/
theorem namespaceCommandsComplete : Obligations.NamespaceCommandsComplete := by
  unfold Obligations.NamespaceCommandsComplete
  exact ⟨exec_namespaceCreate_of_room, exec_namespaceDelete_of_idle, exec_namespaceAttachment_of_idle, exec_formatNvm_of_idle,
    exec_sanitizeBlockErase_of_idle, exec_sanitizeCryptoErase_of_idle, exec_formatSanitizeEnd_of_running⟩

end Sys2Proof.Machine

/-! # Destage, collection, refresh, and the end and failure of programs (12 R357 to R376) -/

namespace Sys2Proof.Machine

theorem exec_destage_of_target (nsid ext group : Nat) (members : List Nat) (s s1 : State) :
    let whole := s.fls.dirtyExt.contains (nsid, ext)
    let us := if whole then List.range 4096 else s.dirtyOf (nsid, ext)
    let coarse := us.length == 4096
    us ≠ [] →
    8192 ≤ s.fls.free →
    s.fineMaps < 1048576 →
    openTarget group members (s.sourceOf (nsid, ext)) (!coarse) s.fls.readOnly (if coarse then 4096 else us.length) s = some s1 →
    exec (.destage nsid ext group members) s = .next
      ((startProgram group { key := (nsid, ext), coarse, at_ := ((s1.group? group).map (·.used)).getD 0,
                             units := if coarse then List.range 4096 else us, cached := true }
          (if coarse then 4096 else us.length) s1).modFls fun x =>
        { x with dirty := x.dirty.filter fun u => !(u.1 == nsid && u.2 / 4096 == ext), dirtyExt := x.dirtyExt.erase (nsid, ext),
                 inFlight := x.inFlight ++ if whole then [] else us.map fun u => (nsid, ext * 4096 + u) }) := by
  dsimp only
  intro hne hfree hfine hopen
  have hunits := List.isEmpty_eq_false_iff.mpr hne
  have hroom : decide (s.fls.free < 8192) = false := by simpa using hfree
  have hpool : decide (s.fineMaps ≥ 1048576) = false := by simpa using hfine
  refine next_of_eq ?_
  simp only [hunits, hroom, hpool, Bool.false_and, Bool.and_false, Bool.or_false, hopen]
  rfl

theorem exec_garbageCollection_of_victim (group target : Nat) (members : List Nat) (s s1 : State)
    (hvictim : s.victimGroup = some group) (hfree : s.fls.free < 32768)
    (hopen : openTarget target members .gc false true 4096 s = some s1) :
    exec (.garbageCollection group target members) s = .next (copyExtents target group (s1.extentsIn group) s1) := by
  refine next_of_eq ?_
  simp [hvictim, hfree, hopen]

theorem exec_refresh_of_target (block target : Nat) (members : List Nat) (s s1 : State) (g : Group)
    (hqueued : s.fls.refreshQ.contains block = true)
    (hmost : (s.fls.refreshQ.any fun b => (s.block b).reads > (s.block block).reads) = false)
    (hgroup : (s.block block).group.bind s.group? = some g) (hopen : openTarget target members .refresh false true 4096 s = some s1) :
    exec (.refresh block target members) s = .next (ctrAdd .flashBlocksRefreshed 0 1
      ((copyExtents target g.id (s1.extentsIn g.id) s1).modFls fun x => { x with refreshQ := delN block x.refreshQ })) := by
  refine next_of_eq ?_
  simp only [hqueued, hmost, hgroup, hopen]
  rfl

theorem exec_refresh_of_blocked (block target : Nat) (members : List Nat) (s : State) (g : Group)
    (hqueued : s.fls.refreshQ.contains block = true)
    (hmost : (s.fls.refreshQ.any fun b => (s.block b).reads > (s.block block).reads) = false)
    (hgroup : (s.block block).group.bind s.group? = some g)
    (hblocked : (openTarget target members .refresh false true 4096 s).isNone = true ∧ s.fls.free < 48) :
    exec (.refresh block target members) s =
      .next (ctrAdd .flashRefreshBlockedEvents 0 1 (raise 0x006 (BitVec.ofNat 32 (dieOf block)) s)) := by
  obtain ⟨hnone, hfree⟩ := hblocked
  refine next_of_eq ?_
  simp only [hqueued, hmost, hgroup, Option.isNone_iff_eq_none.mp hnone]
  exact if_pos hfree

theorem exec_nandProgramComplete_of_programming (group pages : Nat) (s : State) (g : Group) (hgroup : s.group? group = some g)
    (hne : g.programming ≠ []) :
    let s1 := g.programming.foldl (fun s p => mapProg group p s) (endProgram g s)
    let s2 := modGroup group (fun x => { x with programming := [], stamp := s.fls.programs + 1 }) (s1.modFls fun x => { x with programs := x.programs + 1 })
    exec (.nandProgramComplete group pages) s = .next (pumpWrites (sweep (closeFull group (countProgram g pages s2)))) := by
  intro s1 s2
  refine next_of_eq ?_
  simp [hgroup, hne, s1, s2]

theorem exec_programFailure_of_target (block target : Nat) (members : List Nat) (s s1 : State) (g : Group)
    (hgroup : (s.block block).group.bind s.group? = some g) (hopen : g.programming ≠ [] ∧ (s.block block).state = .openB)
    (htarget : openTarget target members g.source g.fine true g.used s = some s1 ∧ target ≠ g.id) :
    let d := draw s1
    let at_ := ((s1.group? target).map (·.used)).getD 0
    let s2 := g.programming.foldl (fun s p => startProgram target { p with at_ := at_ + p.at_ } 0 s) d.2
    let move (m : ExtMap) : ExtMap := match m with
      | .coarse h a => if h = g.id then .coarse target (at_ + a) else m
      | .fine us => .fine (us.map fun u => if u.2.1 = g.id then (u.1, target, at_ + u.2.2) else u)
    let s3 := (s1.extentsIn g.id).foldl (fun s e => putExtent { e with map := move e.map } s) s2
    let s4 := modGroup target (fun t => { t with used := t.used + g.used }) s3
    let s5 := modGroup g.id (fun x => { x with members := x.members.erase block, programming := [] }) (endProgram g s4)
    exec (.programFailure block target members) s = .next (reportCor 3 (dieOf block) 0x08
      (growBad block (ctrAdd .flashPagesRebuiltFromParity 0 (d.1.toNat % 3072) s5))) := by
  obtain ⟨hne, hstate⟩ := hopen
  obtain ⟨hs1, hother⟩ := htarget
  refine next_of_eq ?_
  simp only [hgroup, hs1]
  exact (if_neg (by simp [hne, hstate])).trans (if_neg hother)

/-- Settles O24, a lemma for each clause. -/
theorem flashProgramsAndCopiesComplete : Obligations.FlashProgramsAndCopiesComplete := by
  unfold Obligations.FlashProgramsAndCopiesComplete
  exact ⟨exec_destage_of_target, exec_garbageCollection_of_victim, exec_refresh_of_target, exec_refresh_of_blocked,
    exec_nandProgramComplete_of_programming, exec_programFailure_of_target⟩

end Sys2Proof.Machine

/-! # Page reads, refresh queueing, erases, verification and parity spill (12 R364 to R379) -/

namespace Sys2Proof.Machine

theorem exec_flashReadComplete_of_waited (block page iterations : Nat) (r : ReadEnd) (updown : List (Nat × Nat)) (s s0 : State)
    (hwaited : (s.fls.reads.any fun x => x.waits.contains (block, page)) = true)
    (hsource : (readFailed r && s.hasSource block) = false) (hserve : serveRead block page s = some s0) :
    let s2 := modDie (dieOf block) (fun d => { d with queued := d.queued.erase (block, page) })
      (modBlock block (fun b => { b with pendingReads := b.pendingReads - 1 }) (countRead block 1 (countClass (dieOf block) 0 4096 s0)))
    let s4 := readBlock block r (noteRead block false r iterations updown (readEnd r s2))
    let s5 := s4.modFls fun x => { x with reads := x.reads.map fun q => if q.waits.contains (block, page) then
      { q with waits := q.waits.erase (block, page), failed := q.failed || readFailed r, begun := true } else q }
    exec (.flashReadComplete block page r iterations updown) s =
      .next ((s5.fls.reads.filter fun q => q.waits.isEmpty).foldl (fun s q => endRead q s) s5) := by
  intro s2 s4 s5
  refine next_of_eq ?_
  simp only [hwaited, Bool.not_true, Bool.false_and, Bool.and_true, hsource, Bool.not_false, hserve]
  rfl

theorem exec_blockRefreshQueued_of_reads (block : Nat) (s : State) (hreads : s.eff.refresh ≤ (s.block block).reads) :
    exec (.blockRefreshQueued block) s = .next (queueRefresh block s) := by
  exact next_of_eq (if_pos hreads)

theorem exec_blockErase_of_stale (block : Nat) (s : State) (hblock : (s.block block).state = .stale ∧ (s.block block).pendingReads = 0)
    :
    let d := s.die (dieOf block)
    d.busy = none ∧ d.retiring = false ∧ d.retired = false ∧ s.diesMayWork [dieOf block] = true →
    exec (.blockErase block) s = .next (modDie (dieOf block) (fun x => { x with busy := some { block, erase := true } })
      (modBlock block (fun x => { x with state := .erasing }) s)) := by
  intro d hdie
  obtain ⟨hstale, hreads⟩ := hblock
  obtain ⟨hbusy, hretiring, hretired, hpower⟩ := hdie
  refine next_of_eq ?_
  simp [hstale, hreads, d, hbusy, hretiring, hretired, hpower]

theorem exec_eraseComplete_of_erasing (block : Nat) (s : State) (herasing : s.erasing block = true ∧ (s.block block).state = .erasing)
    (hdie : (s.die (dieOf block)).retiring = false) :
    exec (.eraseComplete block) s = .next ((modBlock block (fun x => { x with state := .free, reads := 0, verified := false })
      (idleDie (dieOf block) s)).modFls fun x => { x with free := x.free + 1, peCycles := x.peCycles + 1 }) := by
  obtain ⟨hop, hstate⟩ := herasing
  refine next_of_eq ?_
  simp [hop, hstate, hdie]

theorem exec_eraseFailure_of_erasing (block : Nat) (s : State) (herasing : s.erasing block = true) :
    exec (.eraseFailure block) s = .next (reportCor 3 (dieOf block) 0x09 (growBad block (idleDie (dieOf block) s))) := by
  refine next_of_eq ?_
  simp [herasing]

theorem exec_eraseResume_of_suspended (die : Nat) (s : State) (o : DieOp)
    (hbusy : (s.die die).busy = some o ∧ o.suspended = true ∧ o.batch = 0) :
    exec (.eraseResume die) s = .next (
      let s1 := modDie die (fun d => { d with busy := some { o with suspended := false } }) s
      if o.erase then modBlock o.block (fun x => { x with state := .erasing }) s1 else s1) := by
  obtain ⟨ho, hsuspended, hbatch⟩ := hbusy
  refine next_of_eq ?_
  simp [ho, hsuspended, hbatch]

theorem exec_blockVerify_of_closed (block : Nat) (s : State) (g : Group) (hgroup : (s.block block).group.bind s.group? = some g)
    (hblock : (s.block block).state = .closed ∧ (s.block block).verified = false) :
    let s1 := modBlock block (fun x => { x with verified := true }) s
    exec (.blockVerify block 0 false) s = .next (
      if g.members.all fun m => (s1.block m).verified then
        sweep (modGroup g.id (fun x => { x with parity := false, spilled := false, sources := [] }) s1)
      else s1) := by
  intro s1
  obtain ⟨hclosed, hverified⟩ := hblock
  refine next_of_eq ?_
  simp [hgroup, hclosed, hverified, s1]

theorem exec_paritySpill_of_full (group : Nat) (s : State) (g : Group) (hgroup : s.group? group = some g)
    (hkept : g.open_ = true ∧ g.spilled = false ∧ g.parity = true)
    (hfull : 4294967296 < sumN (s.fls.groups.map Group.parityBytes) + 22 * 16384)
    (holdest : (s.fls.groups.any fun h => h.open_ && h.parity && !h.spilled && h.stamp < g.stamp) = false) :
    exec (.paritySpill group) s = .next (ctrAdd .flashParitySpills 0 1 (modGroup g.id (fun x => { x with spilled := true })
      (g.members.foldl (fun s b => countClass (dieOf b) 4 (g.parityBytes / Nat.max 1 g.members.length) s) s))) := by
  obtain ⟨hopen, hspilled, hparity⟩ := hkept
  refine next_of_eq ?_
  simp only [hgroup, hopen, hspilled, hparity, holdest]
  exact if_neg (by simp; omega)

/-- Settles O25, a lemma for each clause. -/
theorem flashBlockEventsComplete : Obligations.FlashBlockEventsComplete := by
  unfold Obligations.FlashBlockEventsComplete
  exact ⟨exec_flashReadComplete_of_waited, exec_blockRefreshQueued_of_reads, exec_blockErase_of_stale,
    exec_eraseComplete_of_erasing, exec_eraseFailure_of_erasing, exec_eraseResume_of_suspended, exec_blockVerify_of_closed,
    exec_paritySpill_of_full⟩

end Sys2Proof.Machine

/-! # The retirement of a die (04 R132; 12 R380 to R382) -/

namespace Sys2Proof.Machine

theorem exec_retireNandDie_starts (a : Admin) (s : State) (hruns : adminRuns a.src false s = true)
    (hgate : a.src.fn = 0 ∧ s.granted 10 = true) (hfields : a.cdw10 = 4 ∧ a.cdw12 = 0 ∧ a.cdw13 = 0 ∧ a.cdw14 = 0 ∧ a.cdw15 = 0)
    (hdie : a.cdw11.toNat ≤ 511) (hretired : (s.die a.cdw11.toNat).retired = false)
    (hspares : s.fls.retire.find? (·.1 == a.cdw11.toNat) = none ∧ s.goodBlocks a.cdw11.toNat ≤ s.fls.spares) :
    exec (.retireNandDie a) s = .next (startRetire a.cdw11.toNat (some a.src) (begun a.src 0xC5 0xFFFF s)) := by
  obtain ⟨h10, hrest⟩ := hfields
  obtain ⟨hnew, hgood⟩ := hspares
  refine exec_row_of_ok rfl (by simp [h10, bits]) hruns ?_
  rw [begun_serviceGate, serviceGate_of_cdw10 hgate (by rw [h10]; rfl) (by decide) hrest, orFail]
  simp [Nat.not_lt.mpr hdie, hretired, hnew, Nat.not_lt.mpr hgood]

theorem exec_retireNandDie_joins (a : Admin) (r : Nat × Option Src × Nat) (s : State) (hruns : adminRuns a.src false s = true)
    (hgate : a.src.fn = 0 ∧ s.granted 10 = true) (hfields : a.cdw10 = 4 ∧ a.cdw12 = 0 ∧ a.cdw13 = 0 ∧ a.cdw14 = 0 ∧ a.cdw15 = 0)
    (hdie : a.cdw11.toNat ≤ 511) (hretired : (s.die a.cdw11.toNat).retired = false)
    (hunderway : s.fls.retire.find? (·.1 == a.cdw11.toNat) = some r) :
    exec (.retireNandDie a) s = .next ((begun a.src 0xC5 0xFFFF s).modFls fun x => { x with retire := x.retire ++ [(a.cdw11.toNat, some a.src, r.2.2)] }) := by
  obtain ⟨h10, hrest⟩ := hfields
  refine exec_row_of_ok rfl (by simp [h10, bits]) hruns ?_
  rw [begun_serviceGate, serviceGate_of_cdw10 hgate (by rw [h10]; rfl) (by decide) hrest, orFail]
  simp [Nat.not_lt.mpr hdie, hretired, hunderway]

theorem exec_dieRetirementEnd_of_replaced (die : Nat) (s : State) (hretiring : (s.fls.retire.find? (·.1 == die)).isSome = true) :
    let s1 := (s.fls.blocks.filter fun b => dieOf b.id == die && b.state == .closed).foldl (fun s b => substitute b.id s) s
    (s1.fls.blocks.any fun b => dieOf b.id == die && b.state != .retired && b.state != .bad) = false →
    let s2 := reportCor 3 die 0x0E (raise 0x007 (BitVec.ofNat 32 die)
      ((modDie die (fun d => { d with retiring := false, retired := true }) s1).modFls fun x =>
        { x with retire := x.retire.filter (·.1 != die) }))
    exec (.dieRetirementEnd die) s = .next ((s.fls.retire.filter (·.1 == die)).foldl (fun t r => match r.2.1 with
      | some a => ok a r.2.2 0 t
      | none => t) s2) := by
  intro s1 hgone s2
  obtain ⟨r, hr⟩ := Option.isSome_iff_exists.mp hretiring
  refine next_of_eq ?_
  simp only [hr]
  exact if_neg (ne_true_of_eq_false hgone)

theorem exec_dieAutoRetire_of_inService (die : Nat) (s : State) (hdie : die ≤ 511)
    (hservice : (s.die die).retiring = false ∧ (s.die die).retired = false) :
    exec (.dieAutoRetire die) s = .next (
      if s.grownOn die > 1092 then startRetire die none s
      else (s.extentsOn die).foldl (fun s e => loseExtent die e s) (startRetire die none s)) := by
  obtain ⟨hretiring, hretired⟩ := hservice
  refine next_of_eq ?_
  simp [Nat.not_lt.mpr hdie, hretiring, hretired]

/-- Settles O26, a lemma for each clause. -/
theorem dieRetirementComplete : Obligations.DieRetirementComplete := by
  unfold Obligations.DieRetirementComplete
  exact ⟨exec_retireNandDie_starts, exec_retireNandDie_joins, exec_dieRetirementEnd_of_replaced, exec_dieAutoRetire_of_inService⟩

end Sys2Proof.Machine

/-! # Frames: decodes, scrubbing, and the retirement of a channel group (13 R390 to R398) -/

namespace Sys2Proof.Machine

theorem exec_strongDecodeEnd_of_found (d : DecodeFound) (s : State) (hframe : frameExists d.at_ = true ∧ s.deadFrame d.at_ = false)
    (hpoison : s.poisonOf d.at_ = [] ∧ d.received.length = 129) (hbad : ((frameWords d.received).2.isEmpty && d.tagOk) = false)
    (hfound : (d.tagOk && (d.found.any fun f => (decodeOk d.received f ((frameWords d.received).2.map (·.1))).isNone)) = false) :
    exec (.strongDecodeEnd d) s = .next (strongDecode d.at_ d.received d.found d.tagOk d.reader s) := by
  obtain ⟨hexists, hdead⟩ := hframe
  obtain ⟨hclean, hlen⟩ := hpoison
  refine next_of_eq ?_
  simp only [hexists, hdead, hclean, hlen, hbad, hfound]
  rfl

theorem exec_strongDecodeEnd_of_dead (d : DecodeFound) (s : State) (hframe : frameExists d.at_ = true ∧ s.deadFrame d.at_ = true) :
    exec (.strongDecodeEnd d) s =
      .next (uncorrectableRead d.at_ d.reader 0 0 0 (ctrAdd .integUncorrectableFrames (frameIndex d.at_) 1 s)) := by
  obtain ⟨hexists, hdead⟩ := hframe
  refine next_of_eq ?_
  simp [hexists, hdead]

theorem exec_strongDecodeEnd_of_poisoned (d : DecodeFound) (s : State) (w : Nat)
    (hframe : frameExists d.at_ = true ∧ s.deadFrame d.at_ = false)
    (hpoison : (s.poisonOf d.at_).head? = some w ∧ d.reader ≠ .scrubber) :
    exec (.strongDecodeEnd d) s = .next (uncorrectableRead d.at_ d.reader 1 w 0 s) := by
  obtain ⟨hexists, hdead⟩ := hframe
  obtain ⟨hhead, hreader⟩ := hpoison
  obtain ⟨rest, hrest⟩ := List.head?_eq_some_iff.mp hhead
  refine next_of_eq ?_
  simp [hexists, hdead, hrest, hreader]

theorem exec_scrubRead_of_clean (a : FrameAt) (f : FrameBits) (s : State) :
    frameExists a = true ∧ s.scrubs a = true →
    (match a with | .t0 _ f => f | .t1 _ f => f) = (s.scrub a).next →
    f.length = 129 →
    frameWords f = ([], []) →
    let x1 := { s.scrub a with next := (s.scrub a).next + 1 }
    exec (.scrubRead a f none) s = .next (if x1.next ≥ lapFrames a then lapEnd a x1 (putScrub x1 s) else putScrub x1 s) := by
  intro hframe hnext hlen hwords x1
  obtain ⟨hexists, hscrubs⟩ := hframe
  cases a
  all_goals
    dsimp only at hnext
    refine next_of_eq ((if_neg ?_).trans ?_)
    · simp [hexists, hscrubs, ← hnext, hlen]
    · simp only [hwords, List.filter_nil, List.any_nil, List.map_nil, List.append_nil, List.isEmpty_nil, List.foldl_nil, Bool.true_or]
      rfl

theorem exec_dramMigrationEnd_of_retiring (g : Nat) (s : State)
    (hretiring : (s.itg.retiring.find? fun r => r.1 == g && r.2.2).isSome = true) :
    let d := draw s
    let s1 := groupGone g (ctrAdd .integMigratedMiB 0 (d.1.toNat % 91393) d.2)
    exec (.dramMigrationEnd g) s = .next ((s.itg.retiring.filter fun r => r.1 == g && r.2.2).foldl (fun t r => match r.2.1 with
      | none => t
      | some x => ok x (d.1.toNat % 91393) 0 t) s1) := by
  intro mib s1
  obtain ⟨r, hr⟩ := Option.isSome_iff_exists.mp hretiring
  refine next_of_eq ?_
  simp only [hr]
  rfl

theorem exec_packageStopsResponding_of_inService (p : Nat) (s : State)
    (hpackage : p ≤ 31 ∧ s.itg.deadPkgs.contains p = false ∧ s.itg.retired.contains (p / 4) = false)
    (hstays : s.leaving (p / 4) = false) :
    exec (.packageStopsResponding p) s = .next ((s.modItg fun t => { t with deadPkgs := insN p t.deadPkgs }).modItg fun t =>
      { t with retiring := t.retiring ++ [(p / 4, none, false)] }) := by
  obtain ⟨hp, hdead, hretired⟩ := hpackage
  refine next_of_eq ?_
  simp only [decide_eq_false (Nat.not_lt.mpr hp), hdead, hretired, hstays]
  rfl

theorem exec_retireDramChannelGroup_of_gate (a : Admin) (s : State) (hruns : adminRuns a.src false s = true)
    (hgate : a.src.fn = 0 ∧ s.granted 10 = true) (hfields : a.cdw10 = 3 ∧ a.cdw12 = 0 ∧ a.cdw13 = 0 ∧ a.cdw14 = 0 ∧ a.cdw15 = 0)
    (hgroup : a.cdw11.toNat ≤ 7 ∧ s.itg.retired.contains a.cdw11.toNat = false)
    (hothers : 1 < ((List.range 8).filter fun g => !s.itg.retired.contains g).length) :
    exec (.retireDramChannelGroup a) s = .next ((begun a.src 0xC5 0xFFFF s).modItg fun t => { t with retiring := t.retiring ++ [(a.cdw11.toNat, some a.src, false)] }) := by
  obtain ⟨h10, hrest⟩ := hfields
  obtain ⟨hg, hretired⟩ := hgroup
  refine exec_row_of_ok rfl (by simp [h10, bits]) hruns ?_
  rw [begun_serviceGate, serviceGate_of_cdw10 hgate (by rw [h10]; rfl) (by decide) hrest, orFail, if_neg (Nat.not_lt.mpr hg), begun_itg, hretired,
    Bool.false_or, if_neg (by simpa using hothers)]

/-- Settles O27, a lemma for each clause. -/
theorem memoryIntegrityEventsComplete : Obligations.MemoryIntegrityEventsComplete := by
  unfold Obligations.MemoryIntegrityEventsComplete
  exact ⟨exec_strongDecodeEnd_of_found, exec_strongDecodeEnd_of_dead, exec_strongDecodeEnd_of_poisoned, exec_scrubRead_of_clean,
    exec_dramMigrationEnd_of_retiring, exec_packageStopsResponding_of_inService, exec_retireDramChannelGroup_of_gate⟩

end Sys2Proof.Machine

/-! # The creation and deletion of the I/O queues (04 R109, R114, R139) -/

namespace Sys2Proof.Machine

@[simp] theorem begun_queueIdOk (src : Src) (o d fn id : Nat) (b : Bool) (s : State) :
    (begun src o d s).queueIdOk fn id b = s.queueIdOk fn id b := by simp [State.queueIdOk, State.queueLimit, State.vfQueues]

theorem exec_createIoCompletionQueue_of_free (a : Admin) (s : State) (hruns : adminRuns a.src false s = true)
    (hid : s.queueIdOk a.src.fn (bits a.cdw10.toNat 15 0) false = true ∧ (s.cq? a.src.fn (bits a.cdw10.toNat 15 0)).isSome = false)
    (hsize : 1 ≤ bits a.cdw10.toNat 31 16 ∧ bit a.cdw11.toNat 0 = true)
    (hvector : (bit a.cdw11.toNat 1 = true → bits a.cdw11.toNat 31 16 < (if a.src.fn = 0 then 2048 else 64))) :
    exec (.createIoCompletionQueue a) s = .next (ok a.src 0 0 ((begun a.src 0x05 0xFFFF s).modQ fun q =>
      { q with cqs := q.cqs ++ [{ id := bits a.cdw10.toNat 15 0, fn := a.src.fn, size := bits a.cdw10.toNat 31 16 + 1,
                                  vector := bits a.cdw11.toNat 31 16, ien := bit a.cdw11.toNat 1, base := a.dptr.toNat }] })) := by
  obtain ⟨hfree, hnew⟩ := hid
  obtain ⟨hentries, hcontiguous⟩ := hsize
  have hv : (bit a.cdw11.toNat 1 && decide (bits a.cdw11.toNat 31 16 ≥ (if a.src.fn = 0 then 2048 else 64))) = false := by
    by_cases hien : bit a.cdw11.toNat 1 = true
    · simpa [hien] using hvector hien
    · simp [hien]
  refine runAdmin_ok hruns ?_
  dsimp only
  rw [begun_queueIdOk, begun_cq?, hfree, hnew, hcontiguous, hv]
  refine (if_neg (by decide)).trans ((if_neg (by omega)).trans ?_)
  exact (if_neg (by decide)).trans (if_neg (by decide))

theorem exec_createIoSubmissionQueue_of_free (a : Admin) (s : State) (hruns : adminRuns a.src false s = true)
    (hid : s.queueIdOk a.src.fn (bits a.cdw10.toNat 15 0) true = true ∧ (s.sq? a.src.fn (bits a.cdw10.toNat 15 0)).isSome = false)
    (hcq : bits a.cdw11.toNat 31 16 ≠ 0 ∧ (s.cq? a.src.fn (bits a.cdw11.toNat 31 16)).isNone = false)
    (hsize : 1 ≤ bits a.cdw10.toNat 31 16 ∧ bit a.cdw11.toNat 0 = true) :
    exec (.createIoSubmissionQueue a) s = .next (ok a.src 0 0 ((begun a.src 0x01 0xFFFF s).modQ fun q =>
      { q with sqs := q.sqs ++ [{ id := bits a.cdw10.toNat 15 0, fn := a.src.fn, size := bits a.cdw10.toNat 31 16 + 1,
                                  cq := bits a.cdw11.toNat 31 16, base := a.dptr.toNat }] })) := by
  obtain ⟨hfree, hnew⟩ := hid
  obtain ⟨hne, hexists⟩ := hcq
  obtain ⟨hentries, hcontiguous⟩ := hsize
  refine runAdmin_ok hruns ?_
  dsimp only
  rw [begun_queueIdOk, begun_cq?, begun_sq?, hfree, hnew, hexists, hcontiguous]
  have henough : ¬ bits a.cdw10.toNat 31 16 + 1 < 2 := by omega
  simp only [Bool.not_true, Bool.or_self, Bool.false_eq_true, decide_eq_false hne, henough, if_false]

theorem exec_deleteIoCompletionQueue_of_unused (a : Admin) (s : State) (hruns : adminRuns a.src false s = true)
    (hid : bits a.cdw10.toNat 15 0 ≠ 0 ∧ (s.cq? a.src.fn (bits a.cdw10.toNat 15 0)).isNone = false)
    (hunused : (s.q.sqs.any fun q => q.fn == a.src.fn && q.cq == bits a.cdw10.toNat 15 0 && q.id != 0) = false) :
    exec (.deleteIoCompletionQueue a) s = .next (ok a.src 0 0 ((begun a.src 0x04 0xFFFF s).modQ fun q =>
      { q with cqs := q.cqs.filter fun c => !(c.fn == a.src.fn && c.id == bits a.cdw10.toNat 15 0) })) := by
  obtain ⟨hne, hexists⟩ := hid
  refine runAdmin_ok hruns ?_
  dsimp only
  rw [begun_cq?, hexists, begun_q, hunused]
  simp [hne]

theorem exec_deleteIoSubmissionQueue_of_live (a : Admin) (s : State) (hruns : adminRuns a.src false s = true)
    (hid : bits a.cdw10.toNat 15 0 ≠ 0 ∧ (s.sq? a.src.fn (bits a.cdw10.toNat 15 0)).any (·.deleting.isNone) = true) :
    let id := bits a.cdw10.toNat 15 0
    let s1 := abortNvm a.src.fn id (modSq a.src.fn id (fun q => { q with deleting := some a.src }) (begun a.src 0x00 0xFFFF s))
    let mine := (s.sch.cmds.filter fun c => c.src.fn == a.src.fn && c.src.sq == id).map (·.src)
    let s2 := mine.foldl (fun s x => modCmd x (fun c => { c with deleting := true }) s) s1
    exec (.deleteIoSubmissionQueue a) s = .next (deleteCheck a.src.fn id (mine.foldl (fun s x => settle x s) s2)) := by
  obtain ⟨hne, hlive⟩ := hid
  intro id s1 mine s2
  refine runAdmin_ok hruns ?_
  have hguard : ¬ (bits a.cdw10.toNat 15 0 = 0 || !(s.sq? a.src.fn (bits a.cdw10.toNat 15 0)).any (·.deleting.isNone)) = true := by
    simp [hne, hlive]
  dsimp only
  rw [begun_sq?, begun_sch]
  exact if_neg hguard

/-- Settles O28, a lemma for each clause. -/
theorem queueAdminCommandsComplete : Obligations.QueueAdminCommandsComplete := by
  unfold Obligations.QueueAdminCommandsComplete
  exact ⟨exec_createIoCompletionQueue_of_free, exec_createIoSubmissionQueue_of_free, exec_deleteIoCompletionQueue_of_unused,
    exec_deleteIoSubmissionQueue_of_live⟩

end Sys2Proof.Machine

/-! # Log pages, Identify, features, Abort, event requests and Virtualization Management (04 R109 to R141) -/

namespace Sys2Proof.Machine

theorem saves_of_current {a : Admin} (h : bit a.cdw10.toNat 31 = false) : saves a = none := by simp [saves, h]

@[simp] theorem begun_stillQueued (src : Src) (o d : Nat) (s : State) : (begun src o d s).stillQueued = s.stillQueued := by
  funext p; simp [State.stillQueued]

theorem exec_getLogPage_of_page (a : Admin) (s s1 : State) (p : List Byte) (hruns : adminRuns a.src true s = true)
    (halign : a.cdw12.toNat % 4 = 0)
    (hpage : logPage (bits a.cdw10.toNat 7 0) a.src.fn (a.cdw12.toNat + 2 ^ 32 * a.cdw13.toNat) (begun a.src 0x02 0xFFFF s) = some (p, s1))
    :
    let s2 := writeT2 a.dptr.toNat (logBytes p (a.cdw12.toNat + 2 ^ 32 * a.cdw13.toNat)
      (4 * (bits a.cdw10.toNat 31 16 + 65536 * bits a.cdw11.toNat 15 0 + 1))) s1
    let s3 := if bits a.cdw10.toNat 7 0 = 0xC0 ∧ bit a.cdw10.toNat 8 then clearRing s2 else s2
    exec (.getLogPage a) s =
      .next (ok a.src 0 0 (if bit a.cdw10.toNat 15 then s3 else unmaskEvents a.src.fn (bits a.cdw10.toNat 7 0) s3)) := by
  intro s2 s3
  refine runAdmin_ok hruns ?_
  dsimp only
  rw [if_neg (by omega), hpage]

theorem exec_identify_of_data (a : Admin) (s : State) (d : List Byte) (hruns : adminRuns a.src true s = true)
    (hdata : identifyData a.src.fn (bits a.cdw10.toNat 7 0) (bits a.cdw10.toNat 31 16) (bits a.cdw11.toNat 31 24) a.nsid.toNat (begun a.src 0x06 0xFFFF s) = .ok d)
    :
    exec (.identify a) s = .next (ok a.src 0 0 (writeT2 a.dptr.toNat d (begun a.src 0x06 0xFFFF s))) := by
  refine runAdmin_ok hruns ?_
  rw [hdata]

theorem exec_setFeatures_of_standard (a : Admin) (f : Func) (s t : State) (hruns : adminRuns a.src false s = true)
    (hfeature : [0x02, 0xD0, 0xD1].contains (featureId a) = false ∧ bit a.cdw10.toNat 31 = false) (hf : s.fn? a.src.fn = some f)
    (hset : setStandard a f (begun a.src 0x09 0xFFFF s) = .ok t) :
    exec (.setFeatures a) s = .next t := by
  obtain ⟨hid, hsave⟩ := hfeature
  refine exec_row_of_ok rfl (ne_true_of_eq_false hid) hruns ?_
  rw [saves_of_current hsave, orFail, begun_fn?, hf]
  exact hset

theorem exec_setFeaturesPasidBinding_of_queue (a : Admin) (s : State) (hruns : adminRuns a.src false s = true)
    (hfeature : featureId a = 0xD0 ∧ bit a.cdw10.toNat 31 = false)
    (hfields : bits a.cdw11.toNat 31 16 = 0 ∧ bits a.cdw12.toNat 30 20 = 0 ∧ bits a.cdw11.toNat 15 0 ≠ 0)
    (hq : (s.sq? a.src.fn (bits a.cdw11.toNat 15 0)).isNone = false) :
    exec (.setFeaturesPasidBinding a) s = .next (ok a.src 0 0 (modSq a.src.fn (bits a.cdw11.toNat 15 0)
      (fun q => { q with pasid := if bit a.cdw12.toNat 31 then some (bits a.cdw12.toNat 19 0) else none }) (begun a.src 0x09 0xFFFF s))) := by
  obtain ⟨hid, hsave⟩ := hfeature
  obtain ⟨h11, h12, hne⟩ := hfields
  refine exec_row_of_ok rfl (not_not_intro hid) hruns ?_
  simp only [saves_of_current hsave, orFail, begun_sq?, h11, h12, hq]
  exact if_neg (by simp [hne])

theorem exec_setFeaturesSpareThreshold_of_le (a : Admin) (s : State) (hruns : adminRuns a.src false s = true)
    (hfeature : featureId a = 0xD1 ∧ bit a.cdw10.toNat 31 = false)
    (hfields : a.src.fn = 0 ∧ bits a.cdw11.toNat 31 8 = 0 ∧ a.cdw11.toNat ≤ 100) :
    exec (.setFeaturesSpareThreshold a) s = .next (ok a.src 0 0 ((begun a.src 0x09 0xFFFF s).modQ fun q => { q with spareThreshold := a.cdw11.toNat })) := by
  obtain ⟨hid, hsave⟩ := hfeature
  obtain ⟨hfn, h11, hle⟩ := hfields
  refine exec_row_of_ok rfl (not_not_intro hid) hruns ?_
  simp [saves_of_current hsave, orFail, hfn, h11, Nat.not_lt.mpr hle]

theorem exec_setFeaturesPowerManagement_of_le (a : Admin) (s : State) (hruns : adminRuns a.src false s = true)
    (hfeature : featureId a = 0x02 ∧ bit a.cdw10.toNat 31 = false) (hle : bits a.cdw11.toNat 4 0 ≤ 2) :
    exec (.setFeaturesPowerManagement a) s = .next (ok a.src 0 0 ((begun a.src 0x09 0xFFFF s).modPwr fun p => { p with psNext := some (bits a.cdw11.toNat 4 0) })) := by
  obtain ⟨hid, hsave⟩ := hfeature
  refine exec_row_of_ok rfl (not_not_intro hid) hruns ?_
  simp [saves_of_current hsave, orFail, Nat.not_lt.mpr hle]

theorem exec_getFeatures_of_feature (a : Admin) (f : Func) (v : Nat) (bs : List Byte) (s : State)
    (hruns : adminRuns a.src true s = true) (hf : bits a.cdw10.toNat 10 8 = 0 ∧ s.fn? a.src.fn = some f)
    (hvalue : (begun a.src 0x0A 0xFFFF s).feature f (featureId a) a.cdw11.toNat = some (v, bs)) :
    exec (.getFeatures a) s = .next (ok a.src v 0 (if bs.isEmpty then (begun a.src 0x0A 0xFFFF s) else writeT2 a.dptr.toNat bs (begun a.src 0x0A 0xFFFF s))) := by
  obtain ⟨hsel, hfn⟩ := hf
  refine runAdmin_ok hruns ?_
  simp [hsel, hfn, hvalue]

theorem exec_abort_of_begun (a : Admin) (s : State) (hruns : adminRuns a.src false s = true)
    (hwrite : (s.fls.writes.any fun w => w.n.src == { fn := a.src.fn, sq := bits a.cdw10.toNat 15 0, cid := bits a.cdw10.toNat 31 16 } && !w.programmed) = false)
    (hread : (s.fls.reads.any fun r => r.src == { fn := a.src.fn, sq := bits a.cdw10.toNat 15 0, cid := bits a.cdw10.toNat 31 16 } && !r.begun && r.waits.all s.stillQueued) = false)
    :
    exec (.abort a) s = .next (ok a.src 1 0 (begun a.src 0x08 0xFFFF s)) := by
  refine runAdmin_ok hruns ?_
  dsimp only
  rw [begun_fls, begun_stillQueued, hwrite, hread]
  rfl

theorem exec_abort_of_write (a : Admin) (s : State) :
    let x : Src := { fn := a.src.fn, sq := bits a.cdw10.toNat 15 0, cid := bits a.cdw10.toNat 31 16 }
    adminRuns a.src false s = true →
    (s.fls.writes.any fun w => w.n.src == x && !w.programmed) = true →
    exec (.abort a) s = .next (ok a.src 0 0 (refuse x St.aborted ((begun a.src 0x08 0xFFFF s).modFls fun f => { f with writes := f.writes.filter fun w => w.n.src != x }))) := by
  dsimp only
  intro hruns hwrite
  refine runAdmin_ok hruns ?_
  dsimp only
  rw [begun_fls, hwrite]
  rfl

theorem exec_abort_of_read (a : Admin) (s : State) :
    let x : Src := { fn := a.src.fn, sq := bits a.cdw10.toNat 15 0, cid := bits a.cdw10.toNat 31 16 }
    adminRuns a.src false s = true →
    (s.fls.writes.any fun w => w.n.src == x && !w.programmed) = false →
    (s.fls.reads.any fun r => r.src == x && !r.begun && r.waits.all s.stillQueued) = true →
    exec (.abort a) s = .next (ok a.src 0 0 (refuse x St.aborted (dropReads (fun r => r.src == x) (begun a.src 0x08 0xFFFF s)))) := by
  dsimp only
  intro hruns hwrite hread
  refine runAdmin_ok hruns ?_
  dsimp only
  rw [begun_fls, begun_stillQueued, hwrite, hread]
  rfl

theorem exec_asynchronousEventRequest_holds (a : Admin) (s : State) (hruns : adminRuns a.src false s = true) :
    exec (.asynchronousEventRequest a) s = .next (aenPump ((begun a.src 0x0C 0xFFFF s).modQ fun q => { q with aerHeld := q.aerHeld ++ [a.src] })) := by
  change execAsynchronousEventRequest a s = _
  exact runAdmin_ok hruns rfl

theorem exec_virtualizationManagement_online (a : Admin) (f : Func) (s : State) (hruns : adminRuns a.src false s = true)
    (hact : a.src.fn = 0 ∧ bits a.cdw10.toNat 3 0 = 9)
    (hf : (s.fns.filter (·.id != 0)).find? (·.id == bits a.cdw10.toNat 31 16) = some f) (hready : f.queues ≠ 0 ∧ f.enabled = true) :
    exec (.virtualizationManagement a) s =
      .next (ok a.src 0 0 (modFn (bits a.cdw10.toNat 31 16) (fun x => { x with online := true }) (begun a.src 0x1C 0xFFFF s))) := by
  obtain ⟨hfn, hnine⟩ := hact
  obtain ⟨hqueues, henabled⟩ := hready
  refine runAdmin_ok hruns ?_
  simp [hfn, hnine, hf, hqueues, henabled]

/-- Settles O29, a lemma for each clause. -/
theorem informationCommandsComplete : Obligations.InformationCommandsComplete := by
  unfold Obligations.InformationCommandsComplete
  exact ⟨exec_getLogPage_of_page, exec_identify_of_data, exec_setFeatures_of_standard, exec_setFeaturesPasidBinding_of_queue,
    exec_setFeaturesSpareThreshold_of_le, exec_setFeaturesPowerManagement_of_le, exec_getFeatures_of_feature,
    exec_abort_of_begun, exec_abort_of_write, exec_abort_of_read, exec_asynchronousEventRequest_holds,
    exec_virtualizationManagement_online⟩

end Sys2Proof.Machine

/-! # Firmware Image Download and Firmware Commit (17 R470, R479, R480, Table 17-8) -/

namespace Sys2Proof.Machine

section Begun

variable (src : Src) (o d : Nat) (s : State)

@[simp] theorem begun_flashBusy : (begun src o d s).flashBusy = s.flashBusy := by simp [State.flashBusy]
@[simp] theorem begun_running : (begun src o d s).running_ = s.running_ := by simp [State.running_]
@[simp] theorem begun_commitSlot (a : Admin) : (begun src o d s).commitSlot a = s.commitSlot a := by simp [State.commitSlot]
@[simp] theorem begun_slotAt (n : Nat) : (begun src o d s).slotAt n = s.slotAt n := by simp [State.slotAt]
@[simp] theorem begun_lastSequence : (begun src o d s).lastSequence = s.lastSequence := by simp [State.lastSequence, State.record]

end Begun

section DropStaging

variable (s : State)

@[simp] theorem dropStaging_sec : (dropStaging s).sec = s.sec := rfl
@[simp] theorem dropStaging_flashBusy : (dropStaging s).flashBusy = s.flashBusy := rfl
@[simp] theorem dropStaging_running : (dropStaging s).running_ = s.running_ := rfl
@[simp] theorem dropStaging_commitSlot (a : Admin) : (dropStaging s).commitSlot a = s.commitSlot a := rfl
@[simp] theorem dropStaging_slotAt (n : Nat) : (dropStaging s).slotAt n = s.slotAt n := rfl
@[simp] theorem dropStaging_lastSequence : (dropStaging s).lastSequence = s.lastSequence := rfl

end DropStaging

/-- The checks of an image, in the order in which they are made, choose among three outcomes (R470, R480). -/
theorem imageChecks_ok (m : Mem) (revoked : BitVec 4) (floor last : Nat) (unsound low pass : State) :
    (if !imageSound m revoked then .ok unsound
      else if imageSecurity m < floor || last + 1 > 0xFFFFFFFE then .ok low else .ok pass : Except Fail State) =
      .ok (if imageSound m revoked then (if floor ≤ imageSecurity m ∧ last + 1 ≤ 0xFFFFFFFE then pass else low) else unsound) := by
  have hlow : (decide (imageSecurity m < floor) || decide (last + 1 > 0xFFFFFFFE)) = true ↔
      ¬ (floor ≤ imageSecurity m ∧ last + 1 ≤ 0xFFFFFFFE) := by
    rw [Bool.or_eq_true, decide_eq_true_eq, decide_eq_true_eq]; omega
  cases imageSound m revoked
  · rfl
  · by_cases hpass : floor ≤ imageSecurity m ∧ last + 1 ≤ 0xFFFFFFFE
    · rw [if_neg (by decide), if_neg (mt hlow.mp (not_not_intro hpass)), if_pos rfl, if_pos hpass]
    · rw [if_neg (by decide), if_pos (hlow.mpr hpass), if_pos rfl, if_neg hpass]

/-- What is written when the staged image passes its checks: nothing but the erased slot and the program under way (R479, R480). -/
def stagedCommit (a : Admin) (action : Nat) (s t : State) : State :=
  modSlotAt (s.commitSlot a) (fun x => { x with image := [], length := 0 }) ((dropStaging t).modFw fun f =>
    { f with commit := some { src := a.src, slot := s.commitSlot a, action, image := s.fw.staged, length := memLE s.fw.staged 8 4 } })

/-- A commit of the staged image to a slot that may be written is decided by the image alone (R470, R480). -/
theorem commitProgram_of_slot (a : Admin) (action : Nat) {s : State}
    (hslot : s.commitSlot a ≤ 2 ∧ s.commitSlot a ≠ s.running_ ∧ s.flashBusy = false) :
    let t := begun a.src 0x10 0xFFFF s
    commitProgram a action t = .ok (if imageSound s.fw.staged s.sec.revoked then
        (if s.sec.floor ≤ imageSecurity s.fw.staged ∧ s.lastSequence + 1 ≤ 0xFFFFFFFE then stagedCommit a action s t
         else refuse a.src prohibited (dropStaging t))
      else refuse a.src invalidImage (dropStaging t)) := by
  obtain ⟨hle, hne, hidle⟩ := hslot
  have hmay : (s.flashBusy || decide (s.commitSlot a = s.running_)) = false := by simp [hidle, hne]
  intro t
  simp only [t, commitProgram, stagedCommit, begun_commitSlot, begun_flashBusy, begun_running, begun_lastSequence, begun_fw, begun_sec,
    if_neg (Nat.not_lt.mpr hle), hmay]
  exact imageChecks_ok ..

theorem exec_firmwareImageDownload_of_fits (a : Admin) (s : State) (hruns : adminRuns a.src false s = true)
    (halign : (a.cdw10.toNat + 1) * 4 % 4096 = 0 ∧ a.cdw11.toNat * 4 % 4096 = 0)
    (hfits : a.cdw11.toNat * 4 + (a.cdw10.toNat + 1) * 4 ≤ imageMax)
    (hnew : (s.fw.pieces.any fun p => a.cdw11.toNat * 4 < p.1 + p.2 && p.1 < a.cdw11.toNat * 4 + (a.cdw10.toNat + 1) * 4) = false) :
    let n := (a.cdw10.toNat + 1) * 4
    exec (.firmwareImageDownload a) s = .next (ok a.src 0 0 ((begun a.src 0x11 0xFFFF s).modFw fun f =>
      { f with pieces := f.pieces ++ [(a.cdw11.toNat * 4, n)],
               staged := memPut (memClear f.staged (a.cdw11.toNat * 4) n) (a.cdw11.toNat * 4) (padTo a.input n) })) := by
  obtain ⟨hn, hoff⟩ := halign
  intro n
  have hfield : ¬ ((a.cdw10.toNat + 1) * 4 % 4096 ≠ 0 ∨ a.cdw11.toNat * 4 % 4096 ≠ 0 ∨
      a.cdw11.toNat * 4 + (a.cdw10.toNat + 1) * 4 > imageMax) := by omega
  refine runAdmin_ok hruns ((if_neg hfield).trans ?_)
  rw [begun_fw, hnew]
  rfl

theorem exec_firmwareCommitProgram_of_slot (a : Admin) (s : State) (hruns : adminRuns a.src false s = true)
    (haction : commitAction a = 0) (hslot : s.commitSlot a ≤ 2 ∧ s.commitSlot a ≠ s.running_ ∧ s.flashBusy = false) :
    exec (.firmwareCommitProgram a) s = .next (if imageSound s.fw.staged s.sec.revoked then
        (if s.sec.floor ≤ imageSecurity s.fw.staged ∧ s.lastSequence + 1 ≤ 0xFFFFFFFE then
          modSlotAt (s.commitSlot a) (fun x => { x with image := [], length := 0 }) ((dropStaging (begun a.src 0x10 0xFFFF s)).modFw fun f =>
            { f with commit := some { src := a.src, slot := s.commitSlot a, action := 0, image := s.fw.staged,
                                      length := memLE s.fw.staged 8 4 } })
        else refuse a.src prohibited (dropStaging (begun a.src 0x10 0xFFFF s)))
      else refuse a.src invalidImage (dropStaging (begun a.src 0x10 0xFFFF s))) := by
  refine exec_row_of_ok rfl (by simp [haction]) hruns ((if_neg (not_not_intro haction)).trans ?_)
  exact commitProgram_of_slot a 0 hslot

theorem exec_firmwareCommitNextReset_of_slot (a : Admin) (s : State) (hruns : adminRuns a.src false s = true)
    (haction : commitAction a = 1) (hslot : s.commitSlot a ≤ 2 ∧ s.commitSlot a ≠ s.running_ ∧ s.flashBusy = false) :
    exec (.firmwareCommitNextReset a) s = .next (if imageSound s.fw.staged s.sec.revoked then
        (if s.sec.floor ≤ imageSecurity s.fw.staged ∧ s.lastSequence + 1 ≤ 0xFFFFFFFE then
          modSlotAt (s.commitSlot a) (fun x => { x with image := [], length := 0 }) ((dropStaging (begun a.src 0x10 0xFFFF s)).modFw fun f =>
            { f with commit := some { src := a.src, slot := s.commitSlot a, action := 1, image := s.fw.staged,
                                      length := memLE s.fw.staged 8 4 } })
        else refuse a.src prohibited (dropStaging (begun a.src 0x10 0xFFFF s)))
      else refuse a.src invalidImage (dropStaging (begun a.src 0x10 0xFFFF s))) := by
  exact exec_row_of_ok rfl (not_not_intro haction) hruns (commitProgram_of_slot a 1 hslot)

theorem exec_firmwareCommitLive_of_slot (a : Admin) (s : State) (hruns : adminRuns a.src false s = true) (haction : commitAction a = 3)
    (hslot : s.commitSlot a ≤ 2 ∧ s.commitSlot a ≠ s.running_ ∧ s.flashBusy = false) :
    exec (.firmwareCommitLive a) s = .next (if imageSound s.fw.staged s.sec.revoked then
        (if s.sec.floor ≤ imageSecurity s.fw.staged ∧ s.lastSequence + 1 ≤ 0xFFFFFFFE then
          modSlotAt (s.commitSlot a) (fun x => { x with image := [], length := 0 }) ((dropStaging (begun a.src 0x10 0xFFFF s)).modFw fun f =>
            { f with commit := some { src := a.src, slot := s.commitSlot a, action := 3, image := s.fw.staged,
                                      length := memLE s.fw.staged 8 4 } })
        else refuse a.src prohibited (dropStaging (begun a.src 0x10 0xFFFF s)))
      else refuse a.src invalidImage (dropStaging (begun a.src 0x10 0xFFFF s))) := by
  exact exec_row_of_ok rfl (not_not_intro haction) hruns (commitProgram_of_slot a 3 hslot)

theorem exec_firmwareCommitActivateExisting_of_running (a : Admin) (s : State) (hruns : adminRuns a.src false s = true)
    (haction : commitAction a = 2) (hslot : s.commitSlot a = s.running_ ∧ s.running_ ≤ 2 ∧ s.flashBusy = false) :
    exec (.firmwareCommitActivateExisting a) s = .next (ok a.src 0 0 (dropStaging (begun a.src 0x10 0xFFFF s))) := by
  obtain ⟨hrunning, hle, hidle⟩ := hslot
  refine exec_row_of_ok rfl (not_not_intro haction) hruns ?_
  simp [hrunning, Nat.not_lt.mpr hle, hidle]

theorem exec_firmwareCommitActivateExisting_of_other (a : Admin) (s : State) (hruns : adminRuns a.src false s = true)
    (haction : commitAction a = 2) (hslot : s.commitSlot a ≤ 2 ∧ s.commitSlot a ≠ s.running_ ∧ s.flashBusy = false) :
    let m := (s.slotAt (s.commitSlot a)).image
    exec (.firmwareCommitActivateExisting a) s = .next (if imageSound m s.sec.revoked then
        (if s.sec.floor ≤ imageSecurity m ∧ s.lastSequence + 1 ≤ 0xFFFFFFFE then
          ok a.src 0 0 ((modSlotAt (s.commitSlot a) (fun x => { x with record := some (newRecord (s.lastSequence + 1) false m) })
            (dropStaging (begun a.src 0x10 0xFFFF s))).modFw fun f => { f with pendingNext := true })
        else refuse a.src prohibited (dropStaging (begun a.src 0x10 0xFFFF s)))
      else refuse a.src invalidImage (dropStaging (begun a.src 0x10 0xFFFF s))) := by
  obtain ⟨hle, hne, hidle⟩ := hslot
  intro m
  refine exec_row_of_ok rfl (not_not_intro haction) hruns ?_
  simp only [dropStaging_commitSlot, dropStaging_flashBusy, dropStaging_running, dropStaging_slotAt, dropStaging_lastSequence,
    dropStaging_sec, begun_commitSlot, begun_flashBusy, begun_running, begun_slotAt, begun_lastSequence, begun_sec, hidle,
    if_neg (Nat.not_lt.mpr hle), if_neg hne]
  exact imageChecks_ok ..

theorem exec_firmwareCommitBootPartition_refused (a : Admin) (s : State) (hruns : adminRuns a.src false s = true)
    (haction : commitAction a = 6 ∨ commitAction a = 7) :
    exec (.firmwareCommitBootPartition a) s = .next (refuse a.src St.invalidField (dropStaging (begun a.src 0x10 0xFFFF s))) := by
  exact exec_row_of_ok rfl (by omega) hruns rfl

/-- Settles O30, a lemma for each clause. -/
theorem firmwareCommandsComplete : Obligations.FirmwareCommandsComplete := by
  unfold Obligations.FirmwareCommandsComplete
  exact ⟨exec_firmwareImageDownload_of_fits, exec_firmwareCommitProgram_of_slot, exec_firmwareCommitNextReset_of_slot,
    exec_firmwareCommitLive_of_slot, exec_firmwareCommitActivateExisting_of_running,
    exec_firmwareCommitActivateExisting_of_other, exec_firmwareCommitBootPartition_refused⟩

end Sys2Proof.Machine

/-! # The end of a code flash program (17 R480, R481, Table 17-8) -/

namespace Sys2Proof.Machine

theorem exec_codeFlashProgramEnd_of_reset (c : Commit) (s : State) (hcommit : s.fw.commit = some c ∧ c.action ≠ 3) :
    exec (.codeFlashProgramEnd true) s = .next (ok c.src 0 0 ((modSlotAt c.slot (fun _ =>
        { record := some (newRecord (s.lastSequence + 1) (c.action == 0) c.image), image := c.image, length := c.length })
        (s.modFw fun f => { f with commit := none })).modFw fun f => { f with pendingNext := f.pendingNext || c.action == 1 })) := by
  obtain ⟨hc, haction⟩ := hcommit
  refine next_of_eq ?_
  simp [hc, haction]

theorem exec_codeFlashProgramEnd_of_live (c : Commit) (s : State) (hcommit : s.fw.commit = some c ∧ c.action = 3) :
    let s2 := modSlotAt c.slot (fun _ => { record := some (newRecord (s.lastSequence + 1) (c.action == 0) c.image), image := c.image, length := c.length })
      (s.modFw fun f => { f with commit := none })
    s2.liveOk c.image = true →
    exec (.codeFlashProgramEnd true) s = .next (beginActivation c.slot (some c.src) s2) := by
  obtain ⟨hc, haction⟩ := hcommit
  intro s2 hlive
  refine next_of_eq ?_
  rw [hc]
  exact (if_neg (by decide)).trans ((if_pos haction).trans (if_pos hlive))

theorem exec_codeFlashProgramEnd_of_needsReset (c : Commit) (s : State) (hcommit : s.fw.commit = some c ∧ c.action = 3) :
    let s2 := modSlotAt c.slot (fun _ => { record := some (newRecord (s.lastSequence + 1) (c.action == 0) c.image), image := c.image, length := c.length })
      (s.modFw fun f => { f with commit := none })
    s2.liveOk c.image = false →
    exec (.codeFlashProgramEnd true) s = .next (refuse c.src needsReset s2) := by
  obtain ⟨hc, haction⟩ := hcommit
  intro s2 hlive
  refine next_of_eq ?_
  rw [hc]
  exact (if_neg (by decide)).trans ((if_pos haction).trans (if_neg (ne_true_of_eq_false hlive)))

/-- Settles O31, a lemma for each clause. -/
theorem codeFlashProgramEndCompletes : Obligations.CodeFlashProgramEndCompletes := by
  unfold Obligations.CodeFlashProgramEndCompletes
  exact ⟨exec_codeFlashProgramEnd_of_reset, exec_codeFlashProgramEnd_of_live, exec_codeFlashProgramEnd_of_needsReset⟩

end Sys2Proof.Machine

/-! # The swaps of a live activation and its resume (17 R481 to R484) -/

namespace Sys2Proof.Machine

theorem exec_activationBandSwap_of_idle (slot b t : Nat) (src : Option Src) (s : State)
    (hcore : s.fw.activation = some (slot, .band b (some t), false, src)) (hdue : t < s.tick.toNat ∧ s.bandBusy b = false) :
    exec .activationBandSwap s = .next (nextCore (if b < 24 then .band (b + 1) (some s.tick.toNat) else .scheduler s.tick.toNat)
      (if (s.domain b).state == .on then bandTakes b slot s else modDomain b (fun d => { d with newImage := true }) s)) := by
  obtain ⟨hlater, hidle⟩ := hdue
  refine next_of_eq ?_
  simp [hcore, Nat.not_le.mpr hlater, hidle]

theorem exec_schedulerCoreSwap_of_noSwitch (slot t us : Nat) (src : Option Src) (s : State)
    (hcore : s.fw.activation = some (slot, .scheduler t, false, src)) (hdue : t < s.tick.toNat ∧ us ≤ 150)
    (hswitch : s.noSwitch = true) :
    exec (.schedulerCoreSwap us) s = .next (nextCore (.keep s.tick.toNat) (raise 0x016 0x1000
      ((s.modSch fun k => { k with ptrs := k.ptrs.map fun p =>
          if p.saving.isEmpty && p.restoring.isEmpty && p.late.isEmpty then p else { p with debt := p.debt + us } }).modFw fun f => { f with scheduler := slot }))) := by
  obtain ⟨hlater, hus⟩ := hdue
  refine next_of_eq ?_
  simp only [hcore, decide_eq_false (Nat.not_le.mpr hlater), decide_eq_false (Nat.not_lt.mpr hus), hswitch]
  rfl

theorem exec_keepSwap_of_later (slot t : Nat) (src : Option Src) (s : State)
    (hcore : s.fw.activation = some (slot, .keep t, false, src)) (hlater : t < s.tick.toNat) :
    exec .keepSwap s = .next (nextCore (.vane s.tick.toNat) (raise 0x016 0x2000 (s.modFw fun f => { f with keep := slot }))) := by
  refine next_of_eq ?_
  simp [hcore, Nat.not_le.mpr hlater]

theorem exec_vaneSwap_of_calm (slot t : Nat) (src : Option Src) (s : State) :
    s.fw.activation = some (slot, .vane t, false, src) →
    t < s.tick.toNat ∧ s.emergency = false →
    let s1 := raise 0x016 0x3000 (s.modFw fun f => { f with vane := slot, booted := slot, activation := none, pendingNext := false })
    exec .vaneSwap s = .next (match src with | some x => ok x 0 0 s1 | none => initRdy s1) := by
  intro hcore hdue s1
  obtain ⟨hlater, hcalm⟩ := hdue
  refine next_of_eq ?_
  simp only [hcore, decide_eq_false (Nat.not_le.mpr hlater), hcalm]
  cases src <;> rfl

theorem exec_activationResume_of_calm (slot : Nat) (core : SwapCore) (src : Option Src) (s : State) :
    s.fw.activation = some (slot, core, true, src) →
    s.calmTick = true →
    exec .activationResume s = .next (s.modFw fun f => { f with activation := some (slot, (match core with
      | .band b _ => .band b (some s.tick.toNat)
      | .scheduler t => .scheduler t
      | .keep t => .keep t
      | .vane t => .vane t), false, src) }) := by
  intro hcore hcalm
  refine next_of_eq ?_
  simp only [hcore, hcalm]
  cases core <;> rfl

/-- Settles O32, a lemma for each clause. -/
theorem activationEventsComplete : Obligations.ActivationEventsComplete := by
  unfold Obligations.ActivationEventsComplete
  exact ⟨exec_activationBandSwap_of_idle, exec_schedulerCoreSwap_of_noSwitch, exec_keepSwap_of_later, exec_vaneSwap_of_calm,
    exec_activationResume_of_calm⟩

end Sys2Proof.Machine

/-! # The SPDM requests of Table 18-1 (18 R486 to R493) -/

namespace Sys2Proof.Machine

/-- A request on a mailbox that answers leaves what its own part leaves. -/
theorem spdm_answers {code : Nat} {d : DoeReq} {own : State → State} {s t : State} (hruns : spdmRuns code d s = true) (hown : own s = t) :
    spdm code d own s = .next t := by
  rw [spdm_runs hruns, hown]

theorem blocks_ne_nil (s : State) : s.blocks ≠ [] := by simp [State.blocks]

/-- A request at its stage of the conversation answers what its own part answers. -/
theorem spdm_staged_runs {code n : Nat} {d : DoeReq} {own : State → State} {s t : State} (hruns : spdmRuns code d s = true ∧ s.sec.spdm = n)
    (hown : own s = t) : spdm code d (staged n own) s = .next t := by
  obtain ⟨hmailbox, hstage⟩ := hruns
  exact spdm_answers hmailbox (by simp [staged, hstage, hown])

theorem exec_doeDiscovery_of_up (d : DoeReq) (s : State) (hup : s.doeUp = true) :
    let i := (byteAt d.payload 0).toNat
    exec (.doeDiscovery d) s = .next (doeSend (if i > 2 then [0xFF, 0xFF, 0, 0] else [0x01, 0x00, BitVec.ofNat 8 i, BitVec.ofNat 8 ((i + 1) % 3)]) s) := by
  intro i
  refine next_of_eq ?_
  simp [hup, i]

theorem exec_getVersion_of_code (d : DoeReq) (s : State) (hreq : s.doeUp = true ∧ DoeReqCode d = 0x84 ∧ byteAt d.payload 0 = 0x10) :
    let r : List Byte := [0x10, 0x04, 0, 0, 0, 1, 0x00, 0x13]
    exec (.getVersion d) s = .next (doeSend r (s.modSec fun x => { x with spdm := 1, vca := d.payload ++ r, transcript := [], measured := [] })) := by
  intro r
  obtain ⟨hup, hcode, hversion⟩ := hreq
  refine next_of_eq ?_
  rw [hup, hcode, hversion]
  rfl

theorem exec_getCapabilities_of_stage (d : DoeReq) (s : State) (hruns : spdmRuns 0xE1 d s = true ∧ s.sec.spdm = 1) :
    let r : List Byte := [0x13, 0x61, 0, 0, 0, 14, 0, 0] ++ toLE 4 spdmFlags ++ toLE 4 4096 ++ toLE 4 65536
    exec (.getCapabilities d) s = .next (doeSend r (s.modSec fun x => { x with spdm := 2, vca := x.vca ++ d.payload ++ r })) := by
  intro r
  exact spdm_staged_runs hruns rfl

theorem exec_negotiateAlgorithms_of_offer (d : DoeReq) (s : State) (hruns : spdmRuns 0xE3 d s = true ∧ s.sec.spdm = 2)
    (hoffer : ((extOffered d.payload).contains falconEntry || (extOffered d.payload).contains shakeEntry) = true) :
    exec (.negotiateAlgorithms d) s = .next (doeSend algorithms (s.modSec fun x => { x with spdm := 3, vca := x.vca ++ d.payload ++ algorithms })) := by
  have hguard : ¬ (!(extOffered d.payload).contains falconEntry && !(extOffered d.payload).contains shakeEntry) = true := by
    rw [← Bool.not_or, hoffer]; decide
  exact spdm_staged_runs hruns (if_neg hguard)

theorem exec_getDigests_of_stage (d : DoeReq) (s : State) (hruns : spdmRuns 0x81 d s = true ∧ s.sec.spdm = 3) :
    let r : List Byte := [0x13, 0x01, 0x01, 0x01] ++ Config.shake256 s.chainBytes
    exec (.getDigests d) s = .next (doeSend r (s.modSec fun x => { x with transcript := x.transcript ++ d.payload ++ r })) := by
  intro r
  exact spdm_staged_runs hruns rfl

theorem exec_getCertificate_of_slot (d : DoeReq) (s : State) (hruns : spdmRuns 0x82 d s = true ∧ s.sec.spdm = 3)
    (hslot : byteAt d.payload 2 = 0 ∧ le d.payload 4 2 < s.chainBytes.length) :
    let off := le d.payload 4 2
    let n := Nat.min (Nat.min (le d.payload 6 2) 4088) (s.chainBytes.length - off)
    let r : List Byte := [0x13, 0x02, 0, 0] ++ toLE 2 n ++ toLE 2 (s.chainBytes.length - off - n) ++ slice s.chainBytes off n
    exec (.getCertificate d) s = .next (doeSend r (s.modSec fun x => { x with transcript := x.transcript ++ d.payload ++ r })) := by
  intro off n r
  obtain ⟨hzero, hoff⟩ := hslot
  exact spdm_staged_runs hruns (if_neg (by simp [hzero, hoff]))

theorem exec_challenge_of_slot (d : DoeReq) (s : State) (hruns : spdmRuns 0x83 d s = true ∧ s.sec.spdm = 3)
    (hslot : byteAt d.payload 2 = 0 ∧ [0, 1, 0xFF].contains (byteAt d.payload 3) = true) :
    let n := randomBytes 4 s
    let r : List Byte := [0x13, 0x03, 0, 1] ++ Config.shake256 s.chainBytes ++ n.1 ++ s.summary (byteAt d.payload 3) ++ toLE 2 0 ++
      padTo (slice d.payload 36 8) 8
    let g := signed (s.sec.vca ++ s.sec.transcript ++ d.payload ++ r) n.2
    exec (.challenge d) s = .next (doeSend (r ++ g.1) (g.2.modSec fun x => { x with transcript := [] })) := by
  intro n r g
  obtain ⟨hzero, hsummary⟩ := hslot
  exact spdm_staged_runs hruns (if_neg (by simp only [hzero, hsummary]; decide))

theorem exec_getMeasurements_of_all (d : DoeReq) (s : State) (hruns : spdmRuns 0xE0 d s = true ∧ s.sec.spdm = 3)
    (hall : byteAt d.payload 3 = 0xFF) :
    let body := (s.blocks.map blockBytes).flatten
    let n := randomBytes 4 s
    let r : List Byte := [0x13, 0x60, 0, 0] ++ toLE 1 s.blocks.length ++ toLE 3 body.length ++ body ++ n.1 ++ toLE 2 0 ++
      padTo (slice d.payload (if bit (byteAt d.payload 2).toNat 0 then 37 else 4) 8) 8
    let g := signed (s.sec.vca ++ s.sec.measured ++ d.payload ++ r) n.2
    exec (.getMeasurements d) s = .next (doeSend (r ++ g.1) (g.2.modSec fun x => { x with measured := [] })) := by
  intro body n r g
  have hop : (byteAt d.payload 3).toNat = 0xFF := by rw [hall]; rfl
  refine spdm_staged_runs hruns ?_
  have hfilter : s.blocks.filter (fun _ => true) = s.blocks := List.filter_eq_self.mpr fun _ _ => rfl
  simp only [hop, beq_self_eq_true, Bool.true_or, hfilter, List.isEmpty_eq_false_iff.mpr (blocks_ne_nil s)]
  rfl

theorem exec_keyExchange_of_room (d : DoeReq) (s : State) (hruns : spdmRuns 0xE4 d s = true ∧ s.sec.spdm = 3)
    (hreq : byteAt d.payload 3 = 0 ∧ [0, 1, 0xFF].contains (byteAt d.payload 2) = true ∧ s.sec.sessions.length < 2) :
    let n := (s.sec.opened + 1) % 65536
    let x := randomBytes 16 s
    let r : List Byte := [0x13, 0x64, 0, 0] ++ toLE 2 n ++ [0, 0] ++ x.1 ++ s.summary (byteAt d.payload 2) ++ toLE 2 0
    let g := signed (s.sec.vca ++ Config.shake256 s.chainBytes ++ d.payload ++ r) x.2
    let v := randomBytes 8 g.2
    exec (.keyExchange d) s = .next (doeSend (r ++ g.1 ++ v.1) (v.2.modSec fun y =>
      { y with sessions := y.sessions ++ [(le d.payload 4 2 + 65536 * n, false)], opened := n })) := by
  intro n x r g v
  obtain ⟨hzero, hsummary, hroom⟩ := hreq
  refine spdm_staged_runs hruns ?_
  exact (if_neg (by simp only [hzero, hsummary]; decide)).trans (if_neg (Nat.not_le.mpr hroom))

theorem exec_finish_of_opened (d : DoeReq) (n : Nat) (s : State) (hruns : spdmRuns 0xE5 d s = true ∧ d.session = some n)
    (hopen : s.sec.sessions.contains (n, true) = false) :
    exec (.finish d) s = .next (doeSend [0x13, 0x65, 0, 0] (s.modSec fun x => { x with sessions := updIf (·.1 == n) (fun _ => (n, true)) x.sessions })) := by
  obtain ⟨hmailbox, hsession⟩ := hruns
  change execFinish d s = _
  refine spdm_answers hmailbox ?_
  have hnew : s.established d.session = false := by rw [hsession]; exact hopen
  rw [hnew]
  simp [hsession]

theorem exec_endSession_of_established (d : DoeReq) (n : Nat) (s : State) (hruns : spdmRuns 0xEC d s = true ∧ d.session = some n)
    (hopen : s.sec.sessions.contains (n, true) = true) :
    exec (.endSession d) s = .next (doeSend [0x13, 0x6C, 0, 0] (s.modSec fun x => { x with sessions := x.sessions.filter (·.1 ≠ n) })) := by
  obtain ⟨hmailbox, hsession⟩ := hruns
  change execEndSession d s = _
  refine spdm_answers hmailbox ?_
  have hold : s.established d.session = true := by rw [hsession]; exact hopen
  rw [hold]
  simp [hsession]

/-- Settles O33, a lemma for each clause. -/
theorem spdmRequestsComplete : Obligations.SpdmRequestsComplete := by
  unfold Obligations.SpdmRequestsComplete
  exact ⟨exec_doeDiscovery_of_up, exec_getVersion_of_code, exec_getCapabilities_of_stage, exec_negotiateAlgorithms_of_offer,
    exec_getDigests_of_stage, exec_getCertificate_of_slot, exec_challenge_of_slot, exec_getMeasurements_of_all,
    exec_keyExchange_of_room, exec_finish_of_opened, exec_endSession_of_established⟩

end Sys2Proof.Machine

/-! # The key messages of Table 18-3, the observation fuse and IDE_KM (18 R495 to R505) -/

namespace Sys2Proof.Machine

/-- A vendor message of an operation that the row takes leaves what its own part leaves. -/
theorem vendorMessage_answers {op : Nat → Bool} {n : Nat} {d : DoeReq} {own : State → State} {s t : State}
    (hruns : vendorRuns d s = true ∧ vendorOp d = n) (hop : op n = true) (hown : own s = t) : vendorMessage d op own s = .next t := by
  obtain ⟨hmailbox, rfl⟩ := hruns
  rw [vendorMessage_runs hmailbox hop, hown]

/-- An IDE_KM message in an established session leaves what its own part leaves (R500). -/
theorem ideKm_answers {session : Option Nat} {object : Nat} {k : IdeKey} {own : State → State} {s t : State}
    (hsession : s.doeUp = true ∧ s.established session = true) (hkey : k.stream ≤ 8 ∧ k.keySet ≤ 1 ∧ k.substream ≤ 2)
    (hown : own s = t) : ideKm session object k own s = .next t := by
  obtain ⟨hup, hestablished⟩ := hsession
  obtain ⟨hstream, hset, hsub⟩ := hkey
  simp [ideKm, hup, hestablished, Nat.not_lt.mpr hstream, Nat.not_lt.mpr hset, Nat.not_lt.mpr hsub, hown]

theorem exec_loadTenantKey_of_new (d : DoeReq) (s : State) (hruns : vendorRuns d s = true ∧ vendorOp d = 1)
    (hbody : (vendorBody d).length = 36 ∧ le (vendorBody d) 0 2 ≤ 0xFFF ∧ le (vendorBody d) 2 2 ≠ 0 ∧ le (vendorBody d) 2 2 ≤ 0xFFF)
    (hnew : s.key? (le (vendorBody d) 0 2) = none) :
    exec (.loadTenantKey d) s = .next (vendorAnswer 0 (s.modSec fun x => { x with keys := x.keys ++
      [{ tenant := le (vendorBody d) 0 2, part := le (vendorBody d) 2 2, key := BitVec.ofNat 256 (le (vendorBody d) 4 32) }] })) := by
  have hop : vendorOp d = 1 := hruns.2
  obtain ⟨hlen, htenant, hne, hpart⟩ := hbody
  change execLoadTenantKey d s = _
  refine vendorMessage_answers hruns ?_ ((if_neg ?_).trans ?_)
  · rfl
  · omega
  · rw [hnew]

theorem exec_unloadTenantKey_of_loaded (d : DoeReq) (s : State) (hruns : vendorRuns d s = true ∧ vendorOp d = 2)
    (hbody : (vendorBody d).length = 2 ∧ le (vendorBody d) 0 2 ≤ 0xFFF) (hloaded : (s.key? (le (vendorBody d) 0 2)).isNone = false) :
    exec (.unloadTenantKey d) s = .next (vendorAnswer 0 (s.modSec fun x => { x with keys := x.keys.filter (·.tenant ≠ le (vendorBody d) 0 2) })) := by
  obtain ⟨hlen, htenant⟩ := hbody
  change execUnloadTenantKey d s = _
  refine vendorMessage_answers hruns ?_ ((if_neg ?_).trans ?_)
  · rfl
  · omega
  · exact if_neg (ne_true_of_eq_false hloaded)

theorem exec_fuseObservationOff_of_magic (d : DoeReq) (s : State) (hruns : vendorRuns d s = true ∧ vendorOp d = 3)
    (hbody : (vendorBody d).length = 4 ∧ le (vendorBody d) 0 4 = 0x46464F4C) (hfuse : s.sec.obsOff = false) :
    exec (.fuseObservationOff d) s = .next (vendorAnswer 0 (lanternDark (s.modSec fun x => { x with obsOff := true }))) := by
  obtain ⟨hlen, hmagic⟩ := hbody
  change execFuseObservationOff d s = _
  refine vendorMessage_answers hruns ?_ ((if_neg ?_).trans ?_)
  · rfl
  · simp [hlen, hmagic]
  · exact if_neg (ne_true_of_eq_false hfuse)

theorem exec_keyProg_of_established (n : Option Nat) (k : IdeKey) (s : State) (hsession : s.doeUp = true ∧ s.established n = true)
    (hkey : k.stream ≤ 8 ∧ k.keySet ≤ 1 ∧ k.substream ≤ 2) :
    exec (.keyProg n k) s = .next (ideAck 3 0 k (putIde
      { s.ideStream k.stream with keys := k :: (s.ideStream k.stream).keys.filter fun y => !IdeKey_same y k } s)) := by
  change execKeyProg n k s = _
  refine ideKm_answers hsession hkey ?_
  rfl

theorem exec_kSetGo_of_programmed (n : Option Nat) (k : IdeKey) (s : State) (hsession : s.doeUp = true ∧ s.established n = true)
    (hkey : k.stream ≤ 8 ∧ k.keySet ≤ 1 ∧ k.substream ≤ 2)
    (hprogrammed : ((s.ideStream k.stream).keys.any fun y => IdeKey_same y k) = true) :
    let s1 := ideAck 6 0 k (putIde { s.ideStream k.stream with active := some k.keySet, insecure := false } s)
    exec (.kSetGo n k) s = .next (if k.stream = 0 ∧ (s.ideStream k.stream).insecure then postHeld s1 else s1) := by
  intro s1
  change execKSetGo n k s = _
  refine ideKm_answers hsession hkey ?_
  exact if_neg (by simp [hprogrammed])

theorem exec_kSetStop_of_established (n : Option Nat) (k : IdeKey) (s : State) (hsession : s.doeUp = true ∧ s.established n = true)
    (hkey : k.stream ≤ 8 ∧ k.keySet ≤ 1 ∧ k.substream ≤ 2) :
    exec (.kSetStop n k) s = .next (ideAck 6 0 k (putIde { s.ideStream k.stream with
      active := if (s.ideStream k.stream).active = some k.keySet then none else (s.ideStream k.stream).active } s)) := by
  change execKSetStop n k s = _
  refine ideKm_answers hsession hkey ?_
  rfl

theorem exec_ideStreamInsecure_of_active (n : Nat) (s : State)
    (hstream : n ≤ 8 ∧ (s.ideStream n).active.isNone = false ∧ (s.ideStream n).insecure = false) :
    exec (.ideStreamInsecure n) s = .next (reportAer 1 (putIde { s.ideStream n with insecure := true } s)) := by
  obtain ⟨hn, hactive, hsecure⟩ := hstream
  refine next_of_eq ?_
  simp only [decide_eq_false (Nat.not_lt.mpr hn), hactive, hsecure]
  rfl

/-- Settles O34, a lemma for each clause. -/
theorem keyMessagesComplete : Obligations.KeyMessagesComplete := by
  unfold Obligations.KeyMessagesComplete
  exact ⟨exec_loadTenantKey_of_new, exec_unloadTenantKey_of_loaded, exec_fuseObservationOff_of_magic,
    exec_keyProg_of_established, exec_kSetGo_of_programmed, exec_kSetStop_of_established, exec_ideStreamInsecure_of_active⟩

end Sys2Proof.Machine

/-! # The requests over SMBus (16 R448; 19 R517, Table 19-6; 20 R532) -/

namespace Sys2Proof.Machine

/-- An MI command that reaches a powered module answers what its own part answers (19 Table 19-6). -/
theorem miCommand_answers {opcode : Nat} {m : MiReq} {own : State → State} {s t : State}
    (hup : m.addr = 0x1D ∧ s.mctpUp = true ∧ m.opcode = opcode) (hown : own s = t) : miCommand opcode m own s = .next t := by
  obtain ⟨haddr, hpowered, hop⟩ := hup
  simp [miCommand, haddr, hpowered, hop, hown]

theorem exec_smbusTimeoutReset (s : State) :
    exec .smbusTimeoutReset s = .next (s.modMgt fun m => { m with busy := false }) := by
  rfl

theorem exec_basicManagementCommand_of_up (m : MiReq) (s : State) (hup : m.addr = 0x6A ∧ s.smbusUp = true) :
    exec (.basicManagementCommand m) s =
      .next (smbusSend ([6] ++ toLE 1 s.statusFlags ++ toLE 1 s.smartWarnings ++ toLE 1 s.tempByte ++ toLE 1 s.percentUsed ++ [0, 0]) s) := by
  obtain ⟨haddr, hsmbus⟩ := hup
  refine next_of_eq ?_
  simp [haddr, hsmbus]

theorem exec_vpdRead_of_up (m : MiReq) (s : State) (hup : m.addr = 0x53 ∧ s.smbusUp = true) :
    exec (.vpdRead m) s = .next (smbusSend (vpdBytes (le m.payload 0 2) (le m.payload 2 2)) s) := by
  exact next_of_eq (if_pos hup)

theorem exec_readNvmeMiDataStructure_of_subsystem (m : MiReq) (s : State)
    (hup : m.addr = 0x1D ∧ s.mctpUp = true ∧ m.opcode = 0 ∧ le m.payload 3 1 = 0) :
    exec (.readNvmeMiDataStructure m) s = .next (miAnswer 0 (padTo [1, 2, 0] 32) s) := by
  obtain ⟨haddr, hpowered, hop, hdtyp⟩ := hup
  refine next_of_eq ?_
  simp [haddr, hpowered, hop, hdtyp]

theorem exec_nvmSubsystemHealthStatusPoll_of_up (m : MiReq) (s : State) (hup : m.addr = 0x1D ∧ s.mctpUp = true ∧ m.opcode = 1) :
    exec (.nvmSubsystemHealthStatusPoll m) s = .next (miAnswer 0 ([0, 0, 0] ++ toLE 1 (s.statusFlags % 64) ++ toLE 1 s.smartWarnings ++
      toLE 1 s.tempByte ++ toLE 1 s.percentUsed ++ toLE 2 (b2n (s.fns.any (·.rdy)) + 2 * b2n s.life.cfs) ++ [0, 0]) s) := by
  exact miCommand_answers hup rfl

theorem exec_controllerHealthStatusPoll_of_up (m : MiReq) (s : State) (hup : m.addr = 0x1D ∧ s.mctpUp = true ∧ m.opcode = 2) :
    let fs := s.fns.filter fun f => f.enabled && f.id ≥ le m.payload 0 2
    exec (.controllerHealthStatusPoll m) s = .next (miAnswer 0 ([0, 0, 0] ++ toLE 1 fs.length ++ fs.flatMap (healthEntry s)) s) := by
  intro fs
  exact miCommand_answers hup rfl

theorem exec_configurationGet_of_frequency (m : MiReq) (s : State)
    (hup : m.addr = 0x1D ∧ s.mctpUp = true ∧ m.opcode = 4 ∧ le m.payload 0 1 = 1) :
    exec (.configurationGet m) s = .next (miAnswer 0 [if s.mgt.freq = 400 then 2 else 1, 0, 0] s) := by
  obtain ⟨haddr, hpowered, hop, hid⟩ := hup
  change execConfigurationGet m s = _
  exact miCommand_answers ⟨haddr, hpowered, hop⟩ (if_pos hid)

theorem exec_configurationSet_of_frequency (m : MiReq) (s : State)
    (hup : m.addr = 0x1D ∧ s.mctpUp = true ∧ m.opcode = 3 ∧ le m.payload 0 1 = 1) (hfreq : le m.payload 1 1 = 1 ∨ le m.payload 1 1 = 2)
    :
    exec (.configurationSet m) s = .next (miAnswer 0 [] (s.modMgt fun x => { x with freq := if le m.payload 1 1 = 1 then 100 else 400 })) := by
  obtain ⟨haddr, hpowered, hop, hid⟩ := hup
  change execConfigurationSet m s = _
  exact miCommand_answers ⟨haddr, hpowered, hop⟩ (if_pos ⟨hid, hfreq⟩)

theorem exec_tunnelledAdminCommand_of_feature (m : MiReq) (f : Func) (v : Nat) (d : List Byte) (s : State)
    (hup : m.addr = 0x1D ∧ s.mctpUp = true ∧ m.opcode = 0x0A)
    (hf : s.fn? (le m.payload 0 2) = some f ∧ bits (le m.payload 8 4) 10 8 = 0)
    (hvalue : s.feature f (bits (le m.payload 8 4) 7 0) (le m.payload 12 4) = some (v, d)) :
    exec (.tunnelledAdminCommand m) s = .next (miAnswer 0 (toLE 4 v ++ toLE 4 0 ++ toLE 2 0 ++ toLE 2 0 ++ d) s) := by
  obtain ⟨haddr, hpowered, hop⟩ := hup
  obtain ⟨hfn, hsel⟩ := hf
  refine next_of_eq ?_
  simp [haddr, hpowered, hop, hfn, tunnelled, hsel, hvalue]

/-- Settles O35, a lemma for each clause. -/
theorem managementRequestsComplete : Obligations.ManagementRequestsComplete := by
  unfold Obligations.ManagementRequestsComplete
  exact ⟨exec_smbusTimeoutReset, exec_basicManagementCommand_of_up, exec_vpdRead_of_up,
    exec_readNvmeMiDataStructure_of_subsystem, exec_nvmSubsystemHealthStatusPoll_of_up, exec_controllerHealthStatusPoll_of_up,
    exec_configurationGet_of_frequency, exec_configurationSet_of_frequency, exec_tunnelledAdminCommand_of_feature⟩

end Sys2Proof.Machine

/-! # Tile passes, quantised rows, selections, watch windows and recalibrations (06 R189 to R205; 07 R211 to R225; 08 R240 to R242; 09 R270; 14 R408 to R412) -/

namespace Sys2Proof.Machine

/-- A pass of a product whose earlier row block is done goes to its tile, as long as the tile is not written (07 R211 to R225). -/
theorem matmulPass_of_tile {k : OpCtx} {g : Grant} {x y z : Tensor} {rb lb : Nat} {misses : List Nat} {s : State} {u : Tile} :
    let p : Product := { at_ := k, x, y, z }
    k.tensor k.o.in1 = some y →
    rb < p.rowBlocks ∧ lb < p.laneBlocks ∧ (rb = 0 ∨ s.blockDone p (rb - 1) = true) →
    ((s.tile? k.t k.op rb lb).orElse fun _ => startTile s p rb lb (if Apw.chainIn p.w then k.tensor k.o.in2 else none)) = some u →
    u.written = false →
    matmulPass k g x z rb lb misses s = tilePass p g u misses s := by
  intro p hin1 hblock htile hwritten
  obtain ⟨hrow, hlane, hbefore⟩ := hblock
  have hguard : ¬ (rb ≥ p.rowBlocks ∨ lb ≥ p.laneBlocks ∨ (rb > 0 ∧ (!s.blockDone p (rb - 1)) = true)) := by
    rcases hbefore with h | h
    · omega
    · simp [h, Nat.not_le.mpr hrow, Nat.not_le.mpr hlane]
  rw [matmulPass, hin1]
  refine (if_neg hguard).trans ?_
  rw [htile]
  exact if_neg (ne_true_of_eq_false hwritten)

theorem exec_tilePassEnd_of_matmul (t : TaskRef) (op rb lb : Nat) (misses : List Nat) (s s1 : State) (k : OpCtx) (r : Run)
    (x y z : Tensor) (g : Grant) (u : Tile) :
    let p : Product := { at_ := k, x, y, z }
    let s2 := claim t s1
    s.atOperator t op [0x01, 0x07, 0x14] = some (k, r, x, z, s1) →
    k.o.code = 1 ∧ s2.arr.grants.find? (·.task == t) = some g →
    k.tensor k.o.in1 = some y →
    rb < p.rowBlocks ∧ lb < p.laneBlocks ∧ (rb = 0 ∨ s2.blockDone p (rb - 1) = true) →
    ((s2.tile? k.t k.op rb lb).orElse fun _ => startTile s2 p rb lb (if Apw.chainIn p.w then k.tensor k.o.in2 else none)) = some u →
    u.written = false →
    exec (.tilePassEnd t op rb lb misses) s = .next (resumeWalks (tilePass p g u misses s2)) := by
  intro p s2 hat hgrant hin1 hblock htile hwritten
  obtain ⟨hcode, hg⟩ := hgrant
  refine next_of_eq (congrArg resumeWalks ?_)
  rw [tilePassEnd, onOperator_eq hat]
  simp only [show (claim t s1).arr.grants.find? (·.task == t) = some g from hg, if_pos hcode]
  exact matmulPass_of_tile hin1 hblock htile hwritten

theorem exec_tilePassEnd_of_attend (t : TaskRef) (op row : Nat) (misses : List Nat) (s s1 : State) (k : OpCtx) (r : Run) (x z : Tensor)
    (g : Grant) (hat : s.atOperator t op [0x01, 0x07, 0x14] = some (k, r, x, z, s1))
    (hgrant : k.o.code ≠ 1 ∧ (claim t s1).arr.grants.find? (·.task == t) = some g) (hrow : row < x.rows ∧ r.rows.contains row = false)
    :
    exec (.tilePassEnd t op row 0 misses) s = .next (resumeWalks (attendPass k g x z row misses (claim t s1))) := by
  obtain ⟨hcode, hg⟩ := hgrant
  obtain ⟨hlt, hnew⟩ := hrow
  refine next_of_eq (congrArg resumeWalks ?_)
  rw [tilePassEnd, onOperator_eq hat]
  simp only [hg, if_neg hcode, hnew]
  exact if_neg (by simp [Nat.not_le.mpr hlt])

theorem exec_quantiseRow_of_new (t : TaskRef) (op row : Nat) (s s1 : State) (k : OpCtx) (r : Run) (x z : Tensor)
    (hat : s.atOperator t op [0x0B] = some (k, r, x, z, s1)) (hrow : row < x.rows ∧ r.rows.contains row = false) :
    exec (.quantiseRow t op row) s = .next (rowDone t row x.rows (quantise k r x z row s1)) := by
  exact next_of_eq (onRow_eq hat hrow.1 hrow.2)

theorem exec_selection_of_short (t : TaskRef) (op row : Nat) (s s1 : State) (k : OpCtx) (r : Run) (x z : Tensor)
    (hat : s.atOperator t op [0x08, 0x0C] = some (k, r, x, z, s1))
    (hrow : row < x.rows ∧ r.rows.contains row = false ∧ x.len ≤ 1048576) :
    exec (.selection t op row) s = .next (rowDone t row x.rows
      (if k.o.code = 0x08 then routeRow k r.cluster x z row s1 else sampleRow k r.cluster x z row s1)) := by
  obtain ⟨hlt, hnew, hlen⟩ := hrow
  refine next_of_eq ((onRow_eq hat hlt hnew).trans ?_)
  rw [if_neg (Nat.not_lt.mpr hlen)]

theorem exec_selection_of_long (t : TaskRef) (op row : Nat) (s s1 : State) (k : OpCtx) (r : Run) (x z : Tensor)
    (hat : s.atOperator t op [0x08, 0x0C] = some (k, r, x, z, s1))
    (hrow : row < x.rows ∧ r.rows.contains row = false ∧ 1048576 < x.len) :
    exec (.selection t op row) s = .next (rowDone t row x.rows
      (failTask t { St.rowTooLong with detail := sat 0xFFFFFFFF x.len } (ctrPart .selRowsTooLong k.c.dome 1 s1))) := by
  obtain ⟨hlt, hnew, hlen⟩ := hrow
  refine next_of_eq ((onRow_eq hat hlt hnew).trans ?_)
  rw [if_pos hlen]

theorem exec_watchWindowEnd_of_boundary (slot : Nat) (s : State) (w : Watch) (hslot : s.qnt.slots.find? (·.slot == slot) = some w)
    (hwindow : Qw.window w.qword.toNat ≠ 0 ∧ s.tick.toNat % Qw.window w.qword.toNat = 0 ∧ w.evaluated ≠ some s.tick.toNat) :
    let q := w.qword.toNat
    let clip := Qw.clip q * w.wElems < 65536 * w.wClip
    let nan := w.wNan > 0
    let s1 := ctrSet .quantClipAndNANFlagsLastWindow slot (b2n clip + 2 * b2n nan) s
    let s2 := if clip ∧ Qw.clip q ≠ 0 then raisePart w.dome 7 (slotDetail w) s1 else s1
    let s3 := if nan ∧ Qw.nanEvent q then raisePart w.dome 8 (slotDetail w) s2 else s2
    exec (.watchWindowEnd slot) s =
      .next (modSlot slot (fun w => { w with wElems := 0, wClip := 0, wNan := 0, evaluated := some s.tick.toNat }) (evalHistogram w clip s3)) := by
  intro q clip nan s1 s2 s3
  obtain ⟨hne, hmultiple, hfirst⟩ := hwindow
  refine next_of_eq ?_
  simp only [hslot]
  exact if_neg (by simp [hne, hmultiple, hfirst])

theorem exec_recalibrateScales_of_gate (a : Admin) (s : State) (hruns : adminRuns a.src false s = true)
    (hgate : a.src.fn = 0 ∧ s.granted 10 = true ∧ s.granted 8 = true)
    (hfields : a.cdw10 = 5 ∧ a.cdw12 = 0 ∧ a.cdw13 = 0 ∧ a.cdw14 = 0 ∧ a.cdw15 = 0)
    (hdome : a.cdw11.toNat ≠ 0 ∧ a.cdw11.toNat ≤ 0xFFF ∧ (s.dome? a.cdw11.toNat).isNone = false) :
    let mine := s.qnt.slots.filter fun w =>
      s.under w.dome a.cdw11.toNat && Qw.livecal w.qword.toNat && w.pending.isNone && sumN w.hist > 0
    let s1 := mine.foldl (fun s w => derive w s) (begun a.src 0xC5 0xFFFF s)
    let set (s : State) : Nat := (s.qnt.slots.filter (·.pending.isSome)).length
    exec (.recalibrateScales a) s = .next (ok a.src (set s1 - set s) 0 s1) := by
  intro mine s1 set
  obtain ⟨hfn, hten, height⟩ := hgate
  obtain ⟨h10, hrest⟩ := hfields
  obtain ⟨hne, hle, hexists⟩ := hdome
  refine exec_row_of_ok rfl (by simp [h10, bits]) hruns ?_
  rw [begun_serviceGate, serviceGate_of_cdw10 ⟨hfn, hten⟩ (by rw [h10]; rfl) (by decide) hrest, orFail]
  simp only [begun_granted, begun_dome?, begun_qnt, begun_under, height, hexists]
  exact (if_neg (by simp [hne, Nat.not_lt.mpr hle])).trans (if_neg Bool.false_ne_true)

/-- Settles O36, a lemma for each clause. -/
theorem computingEventsComplete : Obligations.ComputingEventsComplete := by
  unfold Obligations.ComputingEventsComplete
  exact ⟨exec_tilePassEnd_of_matmul, exec_tilePassEnd_of_attend, exec_quantiseRow_of_new, exec_selection_of_short,
    exec_selection_of_long, exec_watchWindowEnd_of_boundary, exec_recalibrateScales_of_gate⟩

end Sys2Proof.Machine

/-! # Stream chunks, transfer chunks, page answers and paging (05 R155 to R178; 18 R512) -/

namespace Sys2Proof.Machine

/-- A chunk whose shares of the tick are not spent moves (05 R162). -/
theorem sendChunk_of_room {x : Transfer} {c : Cmd} {r : Run} {a z : XferEnd} {window : Nat} {s : State} :
    let classes := (s.classOf a.space a.id false).toList ++ (s.classOf z.space z.id true).toList
    let flits := ceilDiv a.at_.length 64
    let s1 := spendShare r.cluster c.dome window flits classes s
    z.space ≠ 4 ∨ ((s.stream? z.id).bind fun y => chunkRoom x.task c r y s).isNone = true →
    (s.shareSpent r.cluster c.dome window flits classes).isNone = true →
    sendChunk x c r a z window s = moveChunk x c r a z (if s.usesT2 x.desc x.ends then wakePath c.dome r.cluster s1 else s1) := by
  intro classes flits s1 hroom hshare
  have hfree : (if z.space = 4 then (s.stream? z.id).bind fun y => chunkRoom x.task c r y s else none) = none := by
    rcases hroom with h | h
    · exact if_neg h
    · rw [Option.isNone_iff_eq_none.mp h, ite_self]
  have hspent : s.shareSpent r.cluster c.dome window (ceilDiv a.at_.length 64)
      ((s.classOf a.space a.id false).toList ++ (s.classOf z.space z.id true).toList) = none := Option.isNone_iff_eq_none.mp hshare
  simp only [sendChunk, hfree, hspent]
  rfl

theorem exec_streamChunkWrite_of_producer (t : TaskRef) (n : Nat) (bs : List Byte) (s : State) (c : Cmd) (h : Chain) (r : Run)
    (x : Stream) (hfound : s.flight? t = some (c, h, r) ∧ s.stream? n = some x)
    (hchunk : x.decl.producer = c.dome ∧ bs ≠ [] ∧ bs.length ≤ 4096 ∧ r.wait = .none) (hslot : x.halted = false ∧ s.slotFree x = true)
    :
    exec (.streamChunkWrite t n bs) s = .next (if x.buffer.length ≥ x.credits then
        streamPacket 0 x.decl.id c.dome r.cluster 0 0 (setWait t (.streamOut x.decl.id) s)
      else wake (.streamIn n) (modStream n (fun x => { x with buffer := x.buffer ++ [bs], moved := true, written := x.written + 1 }) (endWait t s))) := by
  obtain ⟨hflight, hx⟩ := hfound
  obtain ⟨hproducer, hne, hlen, hwait⟩ := hchunk
  obtain ⟨hhalted, hfree⟩ := hslot
  refine next_of_eq ?_
  simp only [hflight, hx]
  refine (if_neg (by simp [hproducer, hne, Nat.not_lt.mpr hlen, hwait])).trans ?_
  by_cases hfull : x.buffer.length ≥ x.credits
  · simp [chunkRoom, hhalted, hfull]
  · simp [chunkRoom, hhalted, hfull, hfree, putStream]

theorem exec_streamChunkRead_of_consumer (t : TaskRef) (n : Nat) (s : State) (c : Cmd) (h : Chain) (r : Run) (x : Stream) :
    s.flight? t = some (c, h, r) ∧ s.stream? n = some x →
    x.decl.consumer = c.dome ∧ r.wait = .none →
    x.halted = false →
    exec (.streamChunkRead t n) s = .next (match x.spilled, x.buffer with
      | _ :: rest, _ => endWait t (modStream x.decl.id (fun x => { x with spilled := rest, moved := true }) s)
      | [], _ :: rest => endWait t (wake (.streamOut x.decl.id) (modStream x.decl.id (fun x => { x with buffer := rest, moved := true }) s))
      | [], [] => streamPacket 1 x.decl.id c.dome r.cluster x.credits 0 (setWait t (.streamIn x.decl.id) s)) := by
  intro hfound hconsumer hhalted
  obtain ⟨hflight, hx⟩ := hfound
  obtain ⟨hdome, hwait⟩ := hconsumer
  refine next_of_eq ?_
  simp only [hflight, hx]
  refine (if_neg (by simp [hdome, hwait])).trans ?_
  rw [takeChunk, if_neg (ne_true_of_eq_false hhalted)]
  rcases hspilled : x.spilled with _ | ⟨b, rest⟩
  · rcases hbuffer : x.buffer with _ | ⟨b, rest⟩ <;> rfl
  · rfl

theorem exec_transferChunkDelivered_of_present (t : TaskRef) (d : List Byte) (ends : XferEnds) (tenths : Nat) (s : State) (c : Cmd)
    (h : Chain) (r : Run) (x : Transfer) :
    let a := XferEnd.source d ends x.next
    let z := XferEnd.dest d ends x.next
    let classes := (s.classOf a.space a.id false).toList ++ (s.classOf z.space z.id true).toList
    let flits := ceilDiv a.at_.length 64
    s.flight? t = some (c, h, r) ∧ s.channelFor t c d ends = some x →
    (x.desc = d ∧ x.ends = ends ∧ x.task = t ∧ (x.next = 0 → (Xd.bad c.scratch d).isNone = true)) →
    r.wait.moves = true ∧ s.endOk c a false = true ∧ s.endOk c z true = true ∧ (s.hb.quiesced && s.inT2 z.space z.id) = false →
    (s.outside c a).isNone = true ∧ (s.outside c z).isNone = true →
    (s.endUndeclared h a).isNone = true ∧ (s.endUndeclared h z).isNone = true →
    z.space ≠ 4 ∨ ((s.stream? z.id).bind fun y => chunkRoom t c r y s).isNone = true →
    (s.shareSpent r.cluster c.dome (s.window tenths) flits classes).isNone = true →
    let s1 := spendShare r.cluster c.dome (s.window tenths) flits classes s
    exec (.transferChunkDelivered t d ends .present tenths) s =
      .next (moveChunk x c r a z (if s.usesT2 d ends then wakePath c.dome r.cluster s1 else s1)) := by
  dsimp only
  rintro ⟨hflight, hchannel⟩ ⟨rfl, rfl, rfl, hplan⟩ ⟨hmoves, hsource, hdest, hparked⟩ ⟨houtA, houtZ⟩ ⟨hdeclA, hdeclZ⟩ hroom hshare
  have hbad : (if x.next = 0 then Xd.bad c.scratch x.desc else none) = none := by
    split
    next hfirst => exact Option.isNone_iff_eq_none.mp (hplan hfirst)
    next => rfl
  rw [Option.isNone_iff_eq_none] at houtA houtZ hdeclA hdeclZ
  refine next_of_eq ?_
  simp only [hflight, hchannel, hbad, hmoves, hsource, hdest, hparked, houtA, houtZ, hdeclA, hdeclZ]
  exact sendChunk_of_room hroom hshare

theorem exec_pageRequestResponse_of_success (t : TaskRef) (s : State) (x : Transfer) (a : Nat)
    (hchannel : s.channel? t = some x ∧ x.request = some a) :
    exec (.pageRequestResponse t .success) s = .next (endWait t (setChannel { x with request := none }
      (modFn t.src.fn (fun f => { f with priOut := f.priOut - 1 }) s))) := by
  obtain ⟨hx, hrequest⟩ := hchannel
  refine next_of_eq ?_
  simp [hx, hrequest]

theorem exec_pagingStart_of_missing (t : TaskRef) (s u : State) (c : Cmd) (h : Chain)
    (htask : s.cmd? t.src = some c ∧ s.chain? t = some h)
    (hwaiting : h.run = none ∧ h.finished = false ∧ c.failed = none ∧ (s.missing h.task.pages).all (fun p => s.pagingIn p.1 p.2) = false)
    (htake : takePages h.task.pages (s.missing h.task.pages) s = .ok u) :
    exec (.pagingStart t) s = .next u := by
  obtain ⟨hc, hh⟩ := htask
  obtain ⟨hrun, hfinished, hfailed, hmissing⟩ := hwaiting
  refine next_of_eq ?_
  simp only [hc, hh, hrun, hfinished, hfailed, hmissing, htake]
  rfl

theorem exec_pageInComplete_of_ok (object page : Nat) (s : State) (hpaging : s.pagingIn object page = true) :
    let n := stamp s
    exec (.pageInComplete object page .ok) s = .next (ctrPart .tierPagesPagedIn (((s.obj? object).map (·.dome)).getD 0) 1
      (startWaitingFills (modOne object (fun o => { o with resident := o.resident ++ [(page, n.1)] }) n.2))) := by
  intro n
  refine next_of_eq ?_
  simp [hpaging, readEnd, n]

theorem exec_completionTimeout_of_channel (t : TaskRef) (addr : Nat) (s : State) (c : Cmd) (h : Chain) (r : Run) (x : Transfer)
    (hflight : (s.merge? t.src).isNone = true ∧ s.flight? t = some (c, h, r)) (hchannel : s.channel? t = some x ∧ x.halted = false)
    (haddr : (s.t2Addresses (XferEnd.source x.desc x.ends x.next) ++ s.t2Addresses (XferEnd.dest x.desc x.ends x.next)).head? = some addr)
    :
    exec (.completionTimeout t) s = .next (reportAer 0 (transferFault t x addr s)) := by
  obtain ⟨hmerge, hf⟩ := hflight
  obtain ⟨hx, hhalted⟩ := hchannel
  obtain ⟨rest, hrest⟩ := List.head?_eq_some_iff.mp haddr
  refine next_of_eq ?_
  simp only [Option.isNone_iff_eq_none.mp hmerge, hf, hx, hrest, hhalted]
  rfl

/-- Settles O37, a lemma for each clause. -/
theorem streamAndTransferEventsComplete : Obligations.StreamAndTransferEventsComplete := by
  unfold Obligations.StreamAndTransferEventsComplete
  exact ⟨exec_streamChunkWrite_of_producer, exec_streamChunkRead_of_consumer, exec_transferChunkDelivered_of_present,
    exec_pageRequestResponse_of_success, exec_pagingStart_of_missing, exec_pageInComplete_of_ok,
    exec_completionTimeout_of_channel⟩

end Sys2Proof.Machine

/-! # RUN PLAN, EMBED, GENERATE and TUNE (04 R130; 08 R233 to R267) -/

namespace Sys2Proof.Machine

theorem exec_runPlan_of_plan (e : Entry) (s : State) (p : Plan) (hruns : milrisRuns shapeRunPlan e s = true)
    (hplan : loadPlan .run (Fe.obj1 e) 0 (Fe.dome e) (begun e.src 0x85 (Fe.dome e) s) = .ok p) :
    exec (.runPlan e) s = .next (beginFirstFill e.src (enrol
      { (cmdOf e 0x85 [Fe.obj1 e]) with plan := some p, objs := nubN ((cmdOf e 0x85 [Fe.obj1 e]).objs ++ p.objs),
                                         writes := nubN ((cmdOf e 0x85 [Fe.obj1 e]).writes ++ p.writes), args := e.input, scratch := memOf e.input,
                                         chains := [{ tasks := p.tasks }] } (begun e.src 0x85 (Fe.dome e) s))) := by
  refine runMilris_ok hruns ?_
  simp only [show shapeRunPlan.opcode = 0x85 from rfl, hplan]
  rfl

theorem exec_embed_of_plan (e : Entry) (s : State) (p : Plan) (hruns : milrisRuns shapeEmbed e s = true)
    (hform : Ef.arm e = false ∧ Ef.disarm e = false) (hcheck : checkEmbed e (begun e.src 0x89 (Fe.dome e) s) = .ok ())
    (hplan : loadPlan .embed (Fe.obj1 e) 64 (Fe.dome e) (begun e.src 0x89 (Fe.dome e) s) = .ok p) :
    exec (.embed e) s = .next (admitEmbed e p (begun e.src 0x89 (Fe.dome e) s)) := by
  obtain ⟨harm, hdisarm⟩ := hform
  have hplain : Ef.plain e = true := by rw [Ef.plain, harm, hdisarm]; rfl
  refine exec_milrisRow_of_ok rfl (by simp [hplain]) hruns ?_
  simp only [show shapeEmbed.opcode = 0x89 from rfl, hcheck, hplan]

theorem exec_embedArm_of_plan (e : Entry) (s : State) (p : Plan) (n : Nat) (hruns : milrisRuns shapeEmbed e s = true)
    (hform : Ef.arm e = true ∧ Ef.disarm e = false)
    (hfields : e.inLen = 16 ∧ le e.input 6 2 = 0 ∧ Fe.obj2 e ≠ 0 ∧ (Ef.writeIndex e && s.readOnly) = false)
    (hheader : checkEmbedHeader (Fe.obj1 e) (s.part (Fe.dome e)) (begun e.src 0x89 (Fe.dome e) s) = .ok ())
    (hindex : checkEmbedIndex (Fe.obj2 e) (Fe.obj1 e) (s.part (Fe.dome e)) (begun e.src 0x89 (Fe.dome e) s) = .ok ())
    (hinput : inputFail (le e.input 0 6) (s.part (Fe.dome e)) (begun e.src 0x89 (Fe.dome e) s) = none)
    (hplan : loadPlan .embed (Fe.obj1 e) 64 (Fe.dome e) (begun e.src 0x89 (Fe.dome e) s) = .ok p)
    (hfree : ((List.range 16).map (· + 1)).find? (fun n => !(s.armsOf (s.part (Fe.dome e))).any (·.number == n)) = some n) :
    exec (.embedArm e) s = .next (ok e.src n 0 ((begun e.src 0x89 (Fe.dome e) s).modInf fun x => { x with arms := x.arms ++
      [{ part := s.part (Fe.dome e), number := n, dome := Fe.dome e, tenant := Fe.tenant e, fn := e.src.fn, source := le e.input 0 6, plan := Fe.obj1 e,
         index := Fe.obj2 e, cursor := le e.input 8 8 }] })) := by
  obtain ⟨harm, hdisarm⟩ := hform
  obtain ⟨hlen, hreserved, hne, hwrite⟩ := hfields
  refine exec_milrisRow_of_ok rfl (by simp [harm, hdisarm]) hruns ?_
  simp [show shapeEmbed.opcode = 0x89 from rfl, inTurn, failIf, orErr, hlen, hreserved, hne, hwrite, hheader, hindex, hinput, hplan, hfree]

theorem exec_embedDisarm_of_arm (e : Entry) (s : State) (hruns : milrisRuns shapeEmbed e s = true)
    (hform : Ef.disarm e = true ∧ Ef.arm e = false) (hwrite : (Ef.writeIndex e && s.readOnly) = false)
    (harmed : (s.armsOf (s.part (Fe.dome e))).any (·.number == Ef.count e) = true) :
    exec (.embedDisarm e) s = .next (ok e.src 0 0 ((begun e.src 0x89 (Fe.dome e) s).modInf fun x =>
      { x with arms := x.arms.filter fun a => !(a.part == s.part (Fe.dome e) && a.number == Ef.count e) })) := by
  obtain ⟨hdisarm, harm⟩ := hform
  refine exec_milrisRow_of_ok rfl (by simp [harm, hdisarm]) hruns ?_
  simp only [begun_readOnly, begun_armsOf, begun_part, hwrite, harmed]
  rfl

theorem exec_generate_of_plans (e : Entry) (s : State) (pre dec : Plan) (hruns : milrisRuns shapeGenerate e s = true)
    (hcheck : checkGenerate e (begun e.src 0x8C (Fe.dome e) s) = .ok ())
    (hprefill : loadPlan .prefill (s.model (Fe.obj1 e)).prefill 0 (Fe.dome e) (begun e.src 0x8C (Fe.dome e) s) = .ok pre)
    (hdecode : loadPlan .decode (s.model (Fe.obj1 e)).decode 0 (Fe.dome e) (begun e.src 0x8C (Fe.dome e) s) = .ok dec) :
    exec (.generate e) s = .next (admitGenerate e pre dec (begun e.src 0x8C (Fe.dome e) s)) := by
  refine runMilris_ok hruns ?_
  simp only [show shapeGenerate.opcode = 0x8C from rfl, begun_model, hcheck, hprefill, hdecode]

theorem exec_tune_of_plan (e : Entry) (s s1 : State) (p : Plan) (hruns : milrisRuns shapeTune e s = true)
    (hcheck : checkTune e (begun e.src 0x8D (Fe.dome e) s) = .ok ())
    (hplan : loadPlan .tune (s.model (Fe.obj1 e)).prefill 0 (Fe.dome e) (begun e.src 0x8D (Fe.dome e) s) = .ok p)
    (hquota : take (.tuneState e.src) 1 (Fe.dome e) (tuneBytes e s) (begun e.src 0x8D (Fe.dome e) s) = .ok s1) :
    exec (.tune e) s = .next (admitTune e p (begun e.src 0x8D (Fe.dome e) s) s1) := by
  refine runMilris_ok hruns ?_
  simp only [show shapeTune.opcode = 0x8D from rfl, begun_model, begun_tuneBytes, hcheck, hplan, hquota, quotaOr]

/-- Settles O38, a lemma for each clause. -/
theorem planCommandsComplete : Obligations.PlanCommandsComplete := by
  unfold Obligations.PlanCommandsComplete
  exact ⟨exec_runPlan_of_plan, exec_embed_of_plan, exec_embedArm_of_plan, exec_embedDisarm_of_arm, exec_generate_of_plans,
    exec_tune_of_plan⟩

end Sys2Proof.Machine

/-! # Sequences, ingests, tunes and the random source (08 R246, R255 to R267) -/

namespace Sys2Proof.Machine

/-- A sequence that lacks blocks takes those that its pool has free (08 R246). -/
theorem takeBlocks_of_lacking {s : State} {q : Seq} {bs : List Nat} (hq : s.seq? q.src = some q ∧ q.blocks.length < q.needs)
    (hlacking : s.lacking q = some bs) :
    takeBlocks q.src s = modCmd q.src (fun c => { c with waiting := false })
      (modSeq q.src (fun q => { q with blocks := q.blocks ++ bs, paused := false })
        (bs.zipIdx.foldl (fun s b => startBlock (s.shapeOf q) q.pool b.1 (256 * (q.blocks.length + b.2)) s) s)) := by
  obtain ⟨hfound, hneeds⟩ := hq
  simp [takeBlocks, hfound, Nat.not_le.mpr hneeds, hlacking]

theorem exec_sequenceAdmission_of_room (dome : Nat) (s : State) (q : Seq) (hroom : s.admittedIn dome < 4096)
    (hq : s.inf.seqs.find? (fun q => !q.admitted && q.dome == dome) = some q) :
    exec (.sequenceAdmission dome) s = .next (admitSeq q.src s) := by
  refine next_of_eq ?_
  simp [Nat.not_le.mpr hroom, hq]

theorem exec_decodeStep_of_joiners (dome model : Nat) (s : State) (q : Seq) (rest : List Seq) :
    let ids := lastTokens (s.joiners dome model) s
    let c := stepCmd dome model q (s.joiners dome model) ids.1 (((s.cmd? q.src).map (·.tenant)).getD 0)
    s.hb.quiesced = false ∧ s.life.phase = .up ∧ (s.cmd? (stepSrc dome model)).isSome = false →
    s.joiners dome model = q :: rest →
    exec (.decodeStep dome model) s =
      .next (beginFirstFill c.src (feedPass c.src (passIds q.decode.capacity 0 ids.1) (enrol c ids.2))) := by
  intro ids c hup hjoiners
  obtain ⟨hquiet, hphase, hfree⟩ := hup
  have hguard : (s.hb.quiesced || s.life.phase != .up || (s.cmd? (stepSrc dome model)).isSome) = false := by simp [hquiet, hphase, hfree]
  refine next_of_eq ((if_neg (ne_true_of_eq_false hguard)).trans ?_)
  simp only [ids, c, hjoiners]

theorem exec_kvBlockFreed_of_least (pool : Nat) (s : State) (q : Seq) (bs : List Nat)
    (hleast : leastSeq (fun q => (s.lacking q).isSome) (s.pausedIn pool) = some q)
    (hq : s.seq? q.src = some q ∧ q.blocks.length < q.needs) (hlacking : s.lacking q = some bs) :
    exec (.kvBlockFreed pool) s = .next (modCmd q.src (fun c => { c with waiting := false })
      (modSeq q.src (fun q => { q with blocks := q.blocks ++ bs, paused := false })
        (bs.zipIdx.foldl (fun s b => startBlock (s.shapeOf q) q.pool b.1 (256 * (q.blocks.length + b.2)) s) s))) := by
  refine next_of_eq ?_
  simp only [hleast]
  exact takeBlocks_of_lacking hq hlacking

theorem exec_kvPoolFailure_of_paused (pool : Nat) (s : State) (q : Seq) (hne : s.poolSeqs pool ≠ [])
    (hpaused : (∀ x ∈ s.poolSeqs pool, x.paused = true ∧ x.pausedAt + 2 ≤ s.tick.toNat))
    (hlatest : latestSeq (s.poolSeqs pool) = some q) :
    exec (.kvPoolFailure pool) s = .next (failWhole q.src (St.quotaExceeded 1 q.dome) (ctrPart .genKvPoolFailures q.dome 1 s)) := by
  have hall : (s.poolSeqs pool).any (fun q => !q.paused || decide (s.tick.toNat < q.pausedAt + 2)) = false := by
    rw [List.any_eq_false]
    intro x hx
    obtain ⟨hp, hlong⟩ := hpaused x hx
    simp [hp, Nat.not_lt.mpr hlong]
  refine next_of_eq ?_
  simp only [List.isEmpty_eq_false_iff.mpr hne, hall, hlatest]
  rfl

theorem exec_ingestTrigger_of_records (part arm : Nat) (s : State) (a : Arm) (p : Plan) :
    let rs := ingestRecords s a.source a.limit (a.limit - a.cursor) a.cursor
    s.inf.arms.find? (fun a => a.part == part && a.number == arm) = some a →
    a.due = true ∧ s.readOnly = false ∧ rs.1 ≠ [] ∧ s.hb.quiesced = false ∧ s.life.phase = .up ∧ (s.cmd? (armSrc a)).isSome = false →
    checkIngest a rs.1 s = .ok () →
    loadPlan .embed a.plan 64 a.dome s = .ok p →
    exec (.ingestTrigger part arm) s = .next (admitIngest a p rs.1 rs.2 s) := by
  intro rs harm hdue hcheck hplan
  obtain ⟨htriggered, hwrite, hne, hquiet, hphase, hfree⟩ := hdue
  have hguard : (!a.due || s.readOnly || rs.1.isEmpty || (s.cmd? (armSrc a)).isSome || s.hb.quiesced || s.life.phase != .up) = false := by
    simp [htriggered, hwrite, hne, hquiet, hphase, hfree]
  refine next_of_eq ?_
  simp only [harm]
  refine (if_neg (ne_true_of_eq_false hguard)).trans ?_
  simp only [show checkIngest a (ingestRecords s a.source a.limit (a.limit - a.cursor) a.cursor).1 s = .ok () from hcheck, hplan]
  rfl

theorem exec_tuneCommit_of_due (src : Src) (s : State) (r : TuneRun) (hdue : s.sch.step = 5 ∧ s.tuneDue src = true)
    (hrun : s.tune? src = some r) (hwrite : (s.readOnly && (s.obj? r.adapter).any (·.flag 5)) = false) :
    let a := s.adapter r.adapter
    exec (.tuneCommit src) s = .next (tuneStep (settle src
      (modCmd src (fun c => { c with chains := updAt 1 (fun h => { h with finished := true }) c.chains })
        ((commitWrites a r).foldl (fun s w => writeObj r.adapter w.1 w.2 s) (keepVersion r.adapter a s))))) := by
  intro a
  obtain ⟨hstep, htune⟩ := hdue
  refine next_of_eq ((if_pos (by simp [hstep, htune])).trans ?_)
  rw [tuneCommitNow, hrun]
  exact congrArg tuneStep (if_neg (ne_true_of_eq_false hwrite))

theorem exec_randomSourceHealthFailure_of_ok (s : State) (hok : s.inf.rngOk = true) :
    exec .randomSourceHealthFailure s = .next
      (ctrAdd .genRandomSourceHealthFailures 0 1 (raise 0x013 0 (reportCor 5 0 0x0D (s.modInf fun x => { x with rngOk := false })))) := by
  refine next_of_eq ?_
  simp [hok]

theorem exec_randomSourceReseed (s : State) :
    exec .randomSourceReseed s = .next (s.modInf fun x => { x with rngOk := true }) := by
  rfl

/-- Settles O39, a lemma for each clause. -/
theorem inferenceEventsComplete : Obligations.InferenceEventsComplete := by
  unfold Obligations.InferenceEventsComplete
  exact ⟨exec_sequenceAdmission_of_room, exec_decodeStep_of_joiners, exec_kvBlockFreed_of_least, exec_kvPoolFailure_of_paused,
    exec_ingestTrigger_of_records, exec_tuneCommit_of_due, exec_randomSourceHealthFailure_of_ok, exec_randomSourceReseed⟩

end Sys2Proof.Machine

/-! # SEARCH, INSERT, DELETE, COMPACT and FILTER SCAN (10 R303 to R322; 11 R331 to R343) -/

namespace Sys2Proof.Machine

theorem exec_search_of_index (e : Entry) (s : State) (hruns : milrisRuns shapeSearch e s = true) (hfields : searchBad e = false)
    (hindex : indexFail (Fe.obj1 e) (s.part (Fe.dome e)) false (begun e.src 0x8A (Fe.dome e) s) = none)
    (hinput : checkSearchInput (s.ix (Fe.obj1 e)) e = .ok ()) :
    exec (.search e) s = .next (admitSearch e (begun e.src 0x8A (Fe.dome e) s)) := by
  refine runMilris_ok hruns ?_
  simp only [show shapeSearch.opcode = 0x8A from rfl, begun_part, begun_ix, hfields, hindex, orFail, hinput]
  rfl

theorem exec_insert_of_index (e : Entry) (s : State) (hruns : milrisRuns shapeInsert e s = true) (hwrite : s.readOnly = false)
    (hindex : indexFail (Fe.obj1 e) (s.part (Fe.dome e)) true (begun e.src 0x91 (Fe.dome e) s) = none)
    (hcount : 0 < bits e.dw14.toNat 15 0 ∧ e.inLen.toNat = bits e.dw14.toNat 15 0 * nodeBytes (s.ix (Fe.obj1 e)))
    (hentries : (∀ i < bits e.dw14.toNat 15 0, let b := slice e.input (i * nodeBytes (s.ix (Fe.obj1 e))) (nodeBytes (s.ix (Fe.obj1 e))); le b 5 3 = 0 ∧ le b 10 6 = 0))
    (hroom : Ix.nodes (s.ix (Fe.obj1 e)) + bits e.dw14.toNat 15 0 ≤ Ix.capacity (s.ix (Fe.obj1 e))) :
    let m := s.ix (Fe.obj1 e)
    exec (.insert e) s = .next (admitJob e 0x91
      (.insert ((List.range (bits e.dw14.toNat 15 0)).map fun i => nodeOf m (slice e.input (i * nodeBytes m) (nodeBytes m)))) (begun e.src 0x91 (Fe.dome e) s)) := by
  intro m
  obtain ⟨hpos, hlen⟩ := hcount
  have hreserved : ((List.range (bits e.dw14.toNat 15 0)).any fun i =>
      le (slice e.input (i * nodeBytes m) (nodeBytes m)) 5 3 != 0 || le (slice e.input (i * nodeBytes m) (nodeBytes m)) 10 6 != 0) = false := by
    rw [List.any_eq_false]
    intro i hi
    obtain ⟨h5, h10⟩ := hentries i (List.mem_range.mp hi)
    simp [m, h5, h10]
  refine runMilris_ok hruns ?_
  simp only [show shapeInsert.opcode = 0x91 from rfl, begun_part, begun_ix, begun_readOnly, hwrite, hindex, orFail]
  refine (if_neg (Nat.ne_of_gt hpos)).trans ((if_neg Bool.false_ne_true).trans ((if_neg ?_).trans (if_neg (Nat.not_lt.mpr hroom))))
  rintro (h | h)
  · exact h hlen
  · exact Bool.false_ne_true (hreserved.symm.trans h)

theorem exec_delete_of_index (e : Entry) (s : State) (hruns : milrisRuns shapeDelete e s = true) (hwrite : s.readOnly = false)
    (hindex : indexFail (Fe.obj1 e) (s.part (Fe.dome e)) true (begun e.src 0x92 (Fe.dome e) s) = none)
    (hcount : 0 < bits e.dw14.toNat 15 0 ∧ e.inLen.toNat = 8 * bits e.dw14.toNat 15 0)
    (hentries : (∀ i < bits e.dw14.toNat 15 0, le e.input (8 * i + 5) 3 = 0)) :
    exec (.delete e) s = .next (admitJob e 0x92 (.delete ((List.range (bits e.dw14.toNat 15 0)).map fun i => le e.input (8 * i) 5)) (begun e.src 0x92 (Fe.dome e) s)) := by
  obtain ⟨hpos, hlen⟩ := hcount
  have hreserved : ((List.range (bits e.dw14.toNat 15 0)).any fun i => le e.input (8 * i + 5) 3 != 0) = false := by
    rw [List.any_eq_false]
    intro i hi
    simp [hentries i (List.mem_range.mp hi)]
  refine runMilris_ok hruns ?_
  simp only [show shapeDelete.opcode = 0x92 from rfl, begun_part, begun_readOnly, hwrite, hindex, orFail, hreserved]
  refine (if_neg ?_).trans (if_neg Bool.false_ne_true)
  simp [Nat.ne_of_gt hpos, hlen]

theorem exec_compact_of_index (e : Entry) (s : State) (hruns : milrisRuns shapeCompact e s = true) (hwrite : s.readOnly = false)
    (hindex : indexFail (Fe.obj1 e) (s.part (Fe.dome e)) true (begun e.src 0x93 (Fe.dome e) s) = none) :
    exec (.compact e) s = .next (admitJob e 0x93
      (.compact (if e.dw14.toNat = 0 then Ix.capacity (s.ix (Fe.obj1 e)) else e.dw14.toNat)) (begun e.src 0x93 (Fe.dome e) s)) := by
  refine runMilris_ok hruns ?_
  simp only [show shapeCompact.opcode = 0x93 from rfl, begun_part, begun_ix, begun_readOnly, hwrite, hindex, orFail]
  rfl

theorem exec_filterScan_of_recordSet (e : Entry) (s : State) (hruns : milrisRuns shapeScan e s = true)
    (hkind : bits e.dw13.toNat 17 16 ≠ 3) (hinput : inputFail (Fe.obj1 e) (s.part (Fe.dome e)) (begun e.src 0x88 (Fe.dome e) s) = none)
    (hbacked : (s.obj? (Fe.obj1 e)).any (·.flag 5) = true)
    (hset : recordSetBad (((s.durable? (Fe.obj1 e)).map (·.data)).getD []) (((s.obj? (Fe.obj1 e)).map (·.size)).getD 0) = false)
    (hcheck : checkScan (bits e.dw13.toNat 17 16) (((s.durable? (Fe.obj1 e)).map (·.data)).getD []) e.inLen.toNat e.input = .ok ()) :
    exec (.filterScan e) s = .next (admitScan e (((s.durable? (Fe.obj1 e)).map (·.data)).getD []) (begun e.src 0x88 (Fe.dome e) s)) := by
  refine runMilris_ok hruns ?_
  simp only [show shapeScan.opcode = 0x88 from rfl, begun_part, begun_durable?, begun_obj?, if_neg hkind, hinput, orFail, hbacked, hset, hcheck]
  rfl

/-- Settles O40, a lemma for each clause. -/
theorem searchAndScanCommandsComplete : Obligations.SearchAndScanCommandsComplete := by
  unfold Obligations.SearchAndScanCommandsComplete
  exact ⟨exec_search_of_index, exec_insert_of_index, exec_delete_of_index, exec_compact_of_index, exec_filterScan_of_recordSet⟩

end Sys2Proof.Machine

/-! # Records, index commits, engine slots and engine pages (10 R308 to R322; 11 R343 to R353) -/

namespace Sys2Proof.Machine

theorem exec_walkRecordArrival_of_inFlight (src : Src) (walk slot block us : Nat) (r : ReadEnd) (misses : List Nat) (s : State)
    (q : SearchRun) (c : Cmd) (h : Chain) (rn : Run) (w : Walk) (e : QEntry)
    (hsearch : s.search? src = some q ∧ s.flight? { src, chain := walk } = some (c, h, rn))
    (hwalk : s.walk? src walk = some w ∧ (w.queue ++ w.pushed).find? (fun e => e.slot == slot && e.inFlight) = some e)
    (hearly : s.ranFor rn us < 360) :
    let failed := !e.hit && readFailed r
    let free := !slotUsed (s.ix q.index) slot
    let x := s.expansion q w e
    let land (s : State) : State := modWalk src walk (Walk.landed slot failed free)
      (if e.hit then s else recordRead q.index slot block c.dome (!q.program.isEmpty) r s)
    exec (.walkRecordArrival src walk slot block us r misses) s = .next (endBuild { src, chain := walk } (
      if failed then goOn q walk c.dome (land s)
      else if free then goOn q walk c.dome (ctrPart .searchFreeSlotsMet c.dome 1 (land s))
      else walkTiles { src, chain := walk } rn.cluster c.dome x.runs misses
        (fun s => goOn q walk c.dome (expand q walk rn.cluster c.dome x (land s))) s)) := by
  intro failed free x land
  obtain ⟨hq, hflight⟩ := hsearch
  obtain ⟨hw, he⟩ := hwalk
  refine next_of_eq (congrArg (endBuild _) ?_)
  simp only [hq, hflight, hw, he]
  exact if_neg (Nat.not_le.mpr hearly)

theorem exec_indexCommit_of_ready (src : Src) (s : State) (j : IndexJob) (c : Cmd) :
    s.idx.jobs.find? (·.src == src) = some j ∧ s.cmd? src = some c →
    s.jobTurn j = true ∧ c.inFlight = true ∧ c.failed = none ∧ s.batchReady j = true ∧ s.readOnly = false →
    let r := applyBatch j s
    let s1 := ctrPart .searchIndexCommits (((s.obj? j.index).map (·.dome)).getD 0) 1
      (syncStore j.index (bumpIx j.index 84 1 (modJob src (fun _ => r.1) r.2)))
    exec (.indexCommit src) s = .next (if r.1.over then endJob r.1 s1 else match s1.cmd? src with
      | some c => kickWalk c.flying s1
      | none => s1) := by
  intro hjob hready r s1
  obtain ⟨hj, hc⟩ := hjob
  obtain ⟨hturn, hflight, hfailed, hbatch, hwrite⟩ := hready
  have hguard : ¬ ((!s.jobTurn j) = true ∨ (!(s.cmd? src).any (fun c => c.inFlight && c.failed.isNone)) = true ∨ (!s.batchReady j) = true) := by
    simp [hturn, hc, hflight, hfailed, hbatch]
  refine next_of_eq ?_
  simp only [hj]
  refine (if_neg hguard).trans ((if_neg (ne_true_of_eq_false hwrite)).trans ?_)
  rfl

theorem exec_scanEngineSlotFree_of_fits (group : Nat) (s : State) (x : Scan)
    (hwaits : s.engineWaits group = some x ∧ s.engineFree group x = true) :
    exec (.scanEngineSlotFree group) s = .next (modScan x.src (fun x => { x with parts := updIf (·.group == group) (fun p => { p with loaded := true }) x.parts }) s) := by
  obtain ⟨hx, hfree⟩ := hwaits
  refine next_of_eq ?_
  simp only [hx]
  exact if_pos hfree

theorem exec_filterEnginePage_of_readable (src : Src) (group page block : Nat) (r : ReadEnd) (s : State) (x : Scan) (c : Cmd)
    (h : Chain) (rn : Run) (p : EnginePart) (hscan : s.scan? src = some x ∧ s.flight? { src, chain := group } = some (c, h, rn))
    (hpart : x.parts.find? (fun p => p.group == group && p.loaded) = some p)
    (hpage : x.stopped = false ∧ x.pages.contains page = false ∧ x.range.contains page = true ∧ c.failed = none)
    (hread : readFailed r = false) :
    let s1 := ctrPart .scanScanPagesRead c.dome 1 (countClass (dieOf block) 2 16384 (readBlock block r (readEnd r (countRead block 1 s))))
    let s2 := countEngine group (x.records page).length (modScan src (fun x => { x with pages := x.pages ++ [page] }) s1)
    let read (i : Nat) : List Byte := memRead (((s.durable? x.object).map (·.data)).getD []) (x.recOff + i * x.recBytes) x.recBytes
    let hits := (x.records page).filter fun i => matchesProgram x.program (slice (read i) x.attrOff 64)
    let out := rowsOf x hits s2
    let p1 := { p with scanned := p.scanned + (x.records page).length, matched := p.matched + hits.length }
    let p2 := if x.mode = 2 then hits.foldl (fun p i => aggregateRecord x (read i) p) p1 else p1
    let rows := x.rows + out.1.length
    let s3 := modScan src (fun x => { x with rows, stopped := x.mode != 2 && x.limit != 0 && rows ≥ x.limit }) out.2
    let s4 := modCmd src (fun c => { c with out := c.out ++ out.1.flatMap fun i => x.row i (read i) }) (modPart src group (fun _ => p2) s3)
    exec (.filterEnginePage src group page block r) s = .next
      (ctrPart .scanRecordsScanned c.dome (x.records page).length (ctrPart .scanRecordsMatched c.dome hits.length
        (ctrPart .scanGroupKeysOutOfRange c.dome (p2.outKeys - p.outKeys) s4))) := by
  intro s1 s2 read hits out p1 p2 rows s3 s4
  obtain ⟨hx, hflight⟩ := hscan
  obtain ⟨hstopped, hnew, hrange, hfailed⟩ := hpage
  have hguard : ¬ (x.stopped = true ∨ x.pages.contains page = true ∨ (!x.range.contains page) = true ∨ c.failed.isSome = true) := by
    rw [hstopped, hnew, hrange, hfailed]; simp
  refine next_of_eq ?_
  simp only [hx, hflight, hpart]
  refine (if_neg hguard).trans ?_
  rw [hread]
  rfl

theorem exec_filterEnginePage_of_unreadable (src : Src) (group page block : Nat) (r : ReadEnd) (s : State) (x : Scan) (c : Cmd)
    (h : Chain) (rn : Run) (p : EnginePart) (hscan : s.scan? src = some x ∧ s.flight? { src, chain := group } = some (c, h, rn))
    (hpart : x.parts.find? (fun p => p.group == group && p.loaded) = some p)
    (hpage : x.stopped = false ∧ x.pages.contains page = false ∧ x.range.contains page = true ∧ c.failed = none)
    (hread : readFailed r = true) :
    let s1 := ctrPart .scanScanPagesRead c.dome 1 (countClass (dieOf block) 2 16384 (readBlock block r (readEnd r (countRead block 1 s))))
    let s2 := countEngine group 0 (modScan src (fun x => { x with pages := x.pages ++ [page] }) s1)
    exec (.filterEnginePage src group page block r) s = .next
      (ctrPart .scanScanPagesSkipped c.dome 1 (modPart src group (fun p => { p with skipped := p.skipped + 1 }) s2)) := by
  intro s1 s2
  obtain ⟨hx, hflight⟩ := hscan
  obtain ⟨hstopped, hnew, hrange, hfailed⟩ := hpage
  have hguard : ¬ (x.stopped = true ∨ x.pages.contains page = true ∨ (!x.range.contains page) = true ∨ c.failed.isSome = true) := by
    rw [hstopped, hnew, hrange, hfailed]; simp
  refine next_of_eq ?_
  simp only [hx, hflight, hpart]
  refine (if_neg hguard).trans ?_
  rw [hread]
  rfl

/-- Settles O41, a lemma for each clause. -/
theorem searchAndScanEventsComplete : Obligations.SearchAndScanEventsComplete := by
  unfold Obligations.SearchAndScanEventsComplete
  exact ⟨exec_walkRecordArrival_of_inFlight, exec_indexCommit_of_ready, exec_scanEngineSlotFree_of_fits,
    exec_filterEnginePage_of_readable, exec_filterEnginePage_of_unreadable⟩

end Sys2Proof.Machine

/-! # MERGE at the first and at a later position (07 R228; 10 R325, R326; 11 R350) -/

namespace Sys2Proof.Machine

section Begun

variable (src : Src) (o d : Nat) (s : State)

@[simp] theorem begun_chainBusy (e : Entry) : (begun src o d s).chainBusy e = s.chainBusy e := by simp [State.chainBusy]
@[simp] theorem begun_objBytes (id off n : Nat) : (begun src o d s).objBytes id off n = s.objBytes id off n := by simp [State.objBytes]
@[simp] theorem begun_peerFault (f : Nat) : (begun src o d s).peerFault f = s.peerFault f := by simp [State.peerFault]

end Begun

/-- The row that a MERGE of each kind takes. -/
def mergeRow (kind : Nat) (e : Entry) : Instr :=
  if kind = 0 then .mergeTopK e else if kind = 1 then .mergeAggregates e else .mergeReductionSum e

theorem exec_mergeRow {kind : Nat} {e : Entry} (hlt : kind < 3) (hkind : Mf.kind e = kind) (s : State) :
    exec (mergeRow kind e) s = runMilris (shapeMerge kind) e (runMerge kind e) s := by
  have hcases : kind = 0 ∨ kind = 1 ∨ kind = 2 := by omega
  rcases hcases with rfl | rfl | rfl
  · change execMergeTopK e s = _
    rw [execMergeTopK, if_neg (by omega), hkind]
  · exact if_neg (not_not_intro hkind)
  · exact if_neg (not_not_intro hkind)

section Merge

variable {kind : Nat} {e : Entry} {s : State}
  (hfields : Mf.kind e = kind ∧ mergeBad kind e = false ∧ Mf.pos e < Mf.len e ∧ chainBadField e = false ∧ s.chainBusy e = false)
  (hinput : inputFail (Fe.obj1 e) (s.part (Fe.dome e)) (begun e.src 0x90 (Fe.dome e) s) = none ∧
    (s.obj? (Fe.obj1 e)).any (·.size < Mf.payload e) = false)
  (hpartial : partialBad kind (Mf.k e) (Mf.payload e) (s.objBytes (Fe.obj1 e) 0 (Mf.payload e)) = none)
include hfields hinput hpartial

/-- A MERGE that passes its checks is decided by its position (10 R325, R326). -/
theorem runMerge_of_partial :
    let t := begun e.src 0x90 (Fe.dome e) s
    let m := mergeOf kind e (s.objBytes (Fe.obj1 e) 0 (Mf.payload e))
    runMerge kind e t =
      if m.position = 0 then .ok (startMerge e m t)
      else match fit (s.part (Fe.dome e)) 1 (inboxBytes m) t with
        | .error d => .error (St.quotaExceeded 1 d)
        | .ok t =>
          let s1 := armInbox m (s.part (Fe.dome e)) (startMerge e m t)
          match s.peerFault e.src.fn with
          | none => .ok (sendPeer (m.predBase + 64 * m.predSlot) (readyNotice m.id m.ownInbox (Mf.payload e)) s1)
          | some x => .ok (mergeFails m x s1) := by
  obtain ⟨-, hbad, hpos, hchain, hbusy⟩ := hfields
  obtain ⟨hobject, hsize⟩ := hinput
  intro t m
  simp only [t, m, runMerge, begun_part, begun_obj?, begun_objBytes, begun_peerFault, hobject, hsize, hpartial, orFail]
  refine (if_neg (ne_true_of_eq_false hbad)).trans ((if_neg ?_).trans ?_)
  · simp [Nat.not_le.mpr hpos, hchain, hbusy]
  · rfl

variable (hlt : kind < 3) (hruns : milrisRuns (shapeMerge kind) e s = true)
include hlt hruns

theorem exec_mergeRow_of_first (hpos : Mf.pos e = 0) :
    exec (mergeRow kind e) s =
      .next (startMerge e (mergeOf kind e (s.objBytes (Fe.obj1 e) 0 (Mf.payload e))) (begun e.src 0x90 (Fe.dome e) s)) := by
  rw [exec_mergeRow hlt hfields.1]
  refine runMilris_ok hruns ((runMerge_of_partial hfields hinput hpartial).trans ?_)
  exact if_pos hpos

end Merge

theorem exec_mergeTopK_of_first (e : Entry) (s : State) (hruns : milrisRuns (shapeMerge 0) e s = true)
    (hfields : Mf.kind e = 0 ∧ mergeBad 0 e = false ∧ Mf.pos e < Mf.len e ∧ chainBadField e = false ∧ s.chainBusy e = false)
    (hinput : inputFail (Fe.obj1 e) (s.part (Fe.dome e)) (begun e.src 0x90 (Fe.dome e) s) = none ∧ (s.obj? (Fe.obj1 e)).any (·.size < Mf.payload e) = false)
    (hpartial : partialBad 0 (Mf.k e) (Mf.payload e) (s.objBytes (Fe.obj1 e) 0 (Mf.payload e)) = none) (hpos : Mf.pos e = 0) :
    exec (.mergeTopK e) s = .next (startMerge e (mergeOf 0 e (s.objBytes (Fe.obj1 e) 0 (Mf.payload e))) (begun e.src 0x90 (Fe.dome e) s)) := by
  exact exec_mergeRow_of_first hfields hinput hpartial (by decide) hruns hpos

theorem exec_merge_of_later (e : Entry) (s t : State) (kind : Nat) (hruns : kind < 3 ∧ milrisRuns (shapeMerge kind) e s = true)
    (hfields : Mf.kind e = kind ∧ mergeBad kind e = false ∧ Mf.pos e < Mf.len e ∧ chainBadField e = false ∧ s.chainBusy e = false)
    (hinput : inputFail (Fe.obj1 e) (s.part (Fe.dome e)) (begun e.src 0x90 (Fe.dome e) s) = none ∧ (s.obj? (Fe.obj1 e)).any (·.size < Mf.payload e) = false)
    (hpartial : partialBad kind (Mf.k e) (Mf.payload e) (s.objBytes (Fe.obj1 e) 0 (Mf.payload e)) = none) (hpos : Mf.pos e ≠ 0)
    (hquota : fit (s.part (Fe.dome e)) 1 (ceilDiv (Mf.payload e) 4096 * 4096) (begun e.src 0x90 (Fe.dome e) s) = .ok t) :
    let m := mergeOf kind e (s.objBytes (Fe.obj1 e) 0 (Mf.payload e))
    let s1 := armInbox m (s.part (Fe.dome e)) (startMerge e m t)
    let u := match s.peerFault e.src.fn with
      | none => sendPeer (m.predBase + 64 * m.predSlot) (readyNotice m.id m.ownInbox (Mf.payload e)) s1
      | some x => mergeFails m x s1
    exec (if kind = 0 then .mergeTopK e else if kind = 1 then .mergeAggregates e else .mergeReductionSum e) s = .next u := by
  intro m s1 u
  obtain ⟨hlt, hmilris⟩ := hruns
  change exec (mergeRow kind e) s = _
  rw [exec_mergeRow hlt hfields.1]
  refine runMilris_ok hmilris ((runMerge_of_partial hfields hinput hpartial).trans ((if_neg hpos).trans ?_))
  have hroom : fit (s.part (Fe.dome e)) 1 (inboxBytes m) (begun e.src 0x90 (Fe.dome e) s) = .ok t := hquota
  simp only [m] at hroom
  simp only [hroom, u]
  cases s.peerFault e.src.fn <;> rfl

theorem exec_mergeAggregates_of_first (e : Entry) (s : State) (hruns : milrisRuns (shapeMerge 1) e s = true)
    (hfields : Mf.kind e = 1 ∧ mergeBad 1 e = false ∧ Mf.pos e < Mf.len e ∧ chainBadField e = false ∧ s.chainBusy e = false)
    (hinput : inputFail (Fe.obj1 e) (s.part (Fe.dome e)) (begun e.src 0x90 (Fe.dome e) s) = none ∧ (s.obj? (Fe.obj1 e)).any (·.size < Mf.payload e) = false)
    (hown : aggSize (s.objBytes (Fe.obj1 e) 0 (Mf.payload e)) = Mf.payload e ∧ aggReserved (s.objBytes (Fe.obj1 e) 0 (Mf.payload e)) = false)
    (hpos : Mf.pos e = 0) :
    exec (.mergeAggregates e) s = .next (startMerge e (mergeOf 1 e (s.objBytes (Fe.obj1 e) 0 (Mf.payload e))) (begun e.src 0x90 (Fe.dome e) s)) := by
  obtain ⟨hsize, hreserved⟩ := hown
  exact exec_mergeRow_of_first hfields hinput (by simp [partialBad, hsize, hreserved]) (by decide) hruns hpos

theorem exec_mergeReductionSum_of_first (e : Entry) (s : State) (hruns : milrisRuns (shapeMerge 2) e s = true)
    (hfields : Mf.kind e = 2 ∧ mergeBad 2 e = false ∧ Mf.pos e < Mf.len e ∧ chainBadField e = false ∧ s.chainBusy e = false)
    (hinput : inputFail (Fe.obj1 e) (s.part (Fe.dome e)) (begun e.src 0x90 (Fe.dome e) s) = none ∧ (s.obj? (Fe.obj1 e)).any (·.size < Mf.payload e) = false)
    (hown : (let own := s.objBytes (Fe.obj1 e) 0 (Mf.payload e); 16 + 4 * le own 2 2 * le own 4 4 = Mf.payload e ∧ recordBad (le own 2 2) (le own 4 4) own = false))
    (hpos : Mf.pos e = 0) :
    exec (.mergeReductionSum e) s = .next (startMerge e (mergeOf 2 e (s.objBytes (Fe.obj1 e) 0 (Mf.payload e))) (begun e.src 0x90 (Fe.dome e) s)) := by
  obtain ⟨hsize, hrecord⟩ := hown
  exact exec_mergeRow_of_first hfields hinput (by simp [partialBad, hsize, hrecord]) (by decide) hruns hpos

/-- Settles O42, a lemma for each clause. -/
theorem mergeCommandsComplete : Obligations.MergeCommandsComplete := by
  unfold Obligations.MergeCommandsComplete
  exact ⟨exec_mergeTopK_of_first, exec_merge_of_later, exec_mergeAggregates_of_first, exec_mergeReductionSum_of_first⟩

end Sys2Proof.Machine

/-! # A chain of MERGEs and the peer window (07 R228; 10 R324 to R328) -/

namespace Sys2Proof.Machine

theorem peerWindow_takes {w : PeerWrite} {s : State} (hopen : s.windowOpen = true) (hne : w.bytes ≠ [])
    (hinside : w.offset + w.bytes.length ≤ 0x40000000) :
    ¬ ((!s.windowOpen) = true ∨ w.bytes.length = 0 ∨ w.offset + w.bytes.length > 0x40000000) := by
  simp [hopen, hne, hinside]

theorem exec_mergeReadyNoticeFound_of_noticed (src : Src) (s : State) (m : Merge)
    (hmerge : s.merge? src = some m ∧ m.merged = true ∧ m.sent = false ∧ m.position + 1 ≠ m.length)
    (hnotice : s.noticed m.ownSlot m.id = true ∧ s.hb.quiesced = false ∧ (s.cmd? src).any (·.failed.isSome) = false)
    (hpeer : s.peerFault src.fn = none) :
    let base := m.succBase + m.succInbox * 0x1000000
    exec (.mergeReadyNoticeFound src) s = .next (ctrAdd .searchPeerPayloadsSent 0 1 (modMerge src (fun m => { m with sent := true })
      (sendPeer base (inboxHeader m.id m.position m.kind m.local_.length (crc32c m.local_).toNat m.queries) (sendPeer (base + 0x1000) m.local_ s)))) := by
  intro base
  obtain ⟨hm, hmerged, hsent, hlast⟩ := hmerge
  obtain ⟨hfound, hquiet, hfailed⟩ := hnotice
  refine next_of_eq ?_
  simp only [hm]
  refine (if_neg (by simp [hmerged, hsent, hlast, hfound, hquiet, hfailed])).trans ?_
  rw [hpeer]

theorem exec_mergePayloadReceived_of_match (src : Src) (s s1 : State) (m : Merge) (c : Cmd) (b : List Byte) (dups : Nat)
    (hmerge : s.merge? src = some m ∧ s.cmd? src = some c ∧ c.failed = none ∧ m.position ≠ 0 ∧ m.merged = false)
    (hheader : (let at_ (o n : Nat) : Nat := memLE s.mrg.window (m.ownInbox * 0x1000000 + o) n; at_ 60 4 = 1 ∧ at_ 0 2 = m.id ∧ at_ 4 4 = m.payload ∧ at_ 3 1 = m.kind ∧ at_ 12 4 = m.queries ∧ at_ 8 4 = (crc32c (memRead s.mrg.window (m.ownInbox * 0x1000000 + 0x1000) m.payload)).toNat))
    (hpayload : mergedPayload m c.dome (memRead s.mrg.window (m.ownInbox * 0x1000000 + 0x1000) m.payload) s = .ok (b, dups, s1)) :
    let n : Merge := { m with local_ := b, merged := true, removed := dups }
    let s2 := ctrAdd .searchPeerPayloadsReceived 0 1 (disarm m.ownInbox (modMerge src (fun _ => n) s1))
    exec (.mergePayloadReceived src) s = .next (if m.position + 1 = m.length then
      endMerge n (lastOutput n b) (ctrPart .arrayOutputSaturations c.dome (lastSaturations n b) s2) else s2) := by
  intro n s2
  obtain ⟨hm, hc, hfailed, hpos, hmerged⟩ := hmerge
  obtain ⟨hvalid, hid0, hlen, hkind, hqueries, hcrc⟩ := hheader
  have hid : memLE s.mrg.window (m.ownInbox * 0x1000000) 2 = m.id := by simpa using hid0
  refine next_of_eq ?_
  simp only [hm, hc]
  refine (if_neg (by simp [hpos, hmerged, hvalid, hid, hfailed])).trans ((if_neg (by simp [hlen, hkind, hqueries, hcrc])).trans ?_)
  simp only [hpayload]
  rfl

theorem exec_mergePayloadReceived_of_mismatch (src : Src) (s : State) (m : Merge) (c : Cmd)
    (hmerge : s.merge? src = some m ∧ s.cmd? src = some c ∧ c.failed = none ∧ m.position ≠ 0 ∧ m.merged = false)
    (hheader : (let at_ (o n : Nat) : Nat := memLE s.mrg.window (m.ownInbox * 0x1000000 + o) n; at_ 60 4 = 1 ∧ at_ 0 2 = m.id ∧ (at_ 4 4 ≠ m.payload ∨ at_ 3 1 ≠ m.kind ∨ at_ 12 4 ≠ m.queries ∨ at_ 8 4 ≠ (crc32c (memRead s.mrg.window (m.ownInbox * 0x1000000 + 0x1000) m.payload)).toNat)))
    :
    exec (.mergePayloadReceived src) s = .next (peerFailed m.id (failWhole m.src { St.peerUnreachable with detail := 0xA21 } s)) := by
  obtain ⟨hm, hc, hfailed, hpos, hmerged⟩ := hmerge
  obtain ⟨hvalid, hid0, hmismatch⟩ := hheader
  have hid : memLE s.mrg.window (m.ownInbox * 0x1000000) 2 = m.id := by simpa using hid0
  refine next_of_eq ?_
  simp only [hm, hc]
  refine (if_neg (by simp [hpos, hmerged, hvalid, hid, hfailed])).trans ((if_pos hmismatch).trans ?_)
  rfl

theorem exec_mergeReadbackComplete_of_sent (src : Src) (s : State) (m : Merge)
    (hmerge : s.merge? src = some m ∧ m.sent = true ∧ (s.cmd? src).any (·.failed.isSome) = false) :
    exec (.mergeReadbackComplete src .ok) s = .next (endMerge m [] (s.modMrg fun x => { x with window := memClear x.window (64 * m.ownSlot) 64 })) := by
  obtain ⟨hm, hsent, hfailed⟩ := hmerge
  refine next_of_eq ?_
  simp only [hm]
  exact if_neg (by simp [hsent, hfailed])

theorem exec_peerWindowWrite_of_board (w : PeerWrite) (s : State)
    (hwindow : s.windowOpen = true ∧ w.bytes ≠ [] ∧ w.offset + w.bytes.length ≤ 0x1000) :
    exec (.peerWindowWrite w) s = .next (s.modMrg fun m => { m with window := memPut m.window w.offset w.bytes }) := by
  obtain ⟨hopen, hne, hboard⟩ := hwindow
  exact next_of_eq ((if_neg (peerWindow_takes hopen hne (by omega))).trans (if_pos hboard))

theorem exec_peerWindowWrite_of_payload (w : PeerWrite) (s : State) (id size : Nat)
    (hwindow : s.windowOpen = true ∧ w.bytes ≠ [] ∧ w.offset + w.bytes.length ≤ 0x40000000 ∧ 0x1000000 ≤ w.offset)
    (harmed : s.mrg.armed.find? (·.1 == w.offset / 0x1000000) = some (w.offset / 0x1000000, id, size))
    (hpayload : 0x1000 ≤ w.offset % 0x1000000 ∧ w.offset % 0x1000000 + w.bytes.length ≤ 0x1000 + size ∧ w.offset % 0x1000000 + w.bytes.length ≤ 0x1000000)
    :
    exec (.peerWindowWrite w) s = .next (s.modMrg fun m => { m with window := memPut m.window w.offset w.bytes }) := by
  obtain ⟨hopen, hne, hinside, hinbox⟩ := hwindow
  obtain ⟨hload, hsize, hwhole⟩ := hpayload
  have hheader : ¬ w.offset % 0x1000000 + w.bytes.length ≤ 64 := by omega
  have hboard : ¬ w.offset / 0x1000000 = 0 := by omega
  refine next_of_eq ((if_neg (peerWindow_takes hopen hne hinside)).trans ((if_neg (by omega)).trans ?_))
  simp only [harmed, decide_eq_true hwhole, decide_eq_true hload, decide_eq_true hsize, decide_eq_false hheader]
  refine (if_neg (by simp [hboard])).trans (if_neg ?_)
  exact Bool.false_ne_true

theorem exec_peerWindowWrite_of_unarmed (w : PeerWrite) (s : State)
    (hwindow : s.windowOpen = true ∧ w.bytes ≠ [] ∧ w.offset + w.bytes.length ≤ 0x40000000 ∧ 0x1000 < w.offset + w.bytes.length)
    (harmed : s.mrg.armed.find? (·.1 == w.offset / 0x1000000) = none) :
    exec (.peerWindowWrite w) s = .next
      (ctrAdd .searchPeerWritesDiscarded 0 1 (raise 0x012 (BitVec.ofNat 32 (w.offset / 0x1000000)) s)) := by
  obtain ⟨hopen, hne, hinside, hbeyond⟩ := hwindow
  refine next_of_eq ((if_neg (peerWindow_takes hopen hne hinside)).trans ((if_neg (Nat.not_le.mpr hbeyond)).trans ?_))
  simp only [harmed]
  rfl

/-- Settles O43, a lemma for each clause. -/
theorem mergeEventsComplete : Obligations.MergeEventsComplete := by
  unfold Obligations.MergeEventsComplete
  exact ⟨exec_mergeReadyNoticeFound_of_noticed, exec_mergePayloadReceived_of_match, exec_mergePayloadReceived_of_mismatch,
    exec_mergeReadbackComplete_of_sent, exec_peerWindowWrite_of_board, exec_peerWindowWrite_of_payload,
    exec_peerWindowWrite_of_unarmed⟩

end Sys2Proof.Machine
